-- ==== Sys2Proof/Word.lean ====
section
/-! DEFINITION. The word types of the manual: byte, record and register widths (R11, R12). -/
namespace Sys2Proof

/-- One byte (R12). -/
abbrev Byte := BitVec 8

/-- A run of bytes, byte 0 first (R12: byte 0 at the lowest address). -/
abbrev Bytes := List Byte

/-- A call slip or transmit entry of 64 bytes (R79). -/
abbrev Slip := BitVec 512

/-- A return slip, event record or receive entry of 32 bytes (R79). -/
abbrev Entry := BitVec 256

/-- One 256-bit word of the main data path (R72). -/
abbrev DWord := BitVec 256

/-- The bits of an fp32 value (R43). -/
abbrev F32 := BitVec 32

/-- The bits of an fp64 value (R43). -/
abbrev F64 := BitVec 64

end Sys2Proof
end

