-- ==== Sys2Proof/CommandData.lean ====
section
/-! DEFINITION. The types of the commands' operands: what comes from outside the block with a command. -/
namespace Sys2Proof

/-- What a read of a job's data buffer returns: its bytes, or none where the read fails (R115, reason 0x0A). -/
abbrev BufRead := Option Bytes

/-- Number formats an operation of a stage names (R42, R43, R47, R159). -/
inductive OpFmt where
  | int4 | int8 | int32 | e4m3 | e5m2 | bf16 | f16 | f32 | f64 | block8
  deriving DecidableEq, Repr

/-- Functions of the vector unit (R61) and its compare and select (R119; log 146): `lt`, `le` and `eq` compare, `select` takes
the second operand where the first is not zero and the third otherwise. -/
inductive VecFn where
  | add | sub | mul | fma | div | recip | sqrt | rsqrt
  | exp | exp2 | log | log2 | sin | cos | tanh | atan2 | logistic
  | lt | le | eq | select
  deriving DecidableEq, Repr

/-- A tensor in a carrel's SRAM: its format, its carrel-local address and, of an Ikirnoaz block-8 tensor, the address of
its exponent array (R48). -/
structure Tensor where
  fmt : OpFmt
  addr : Nat
  exps : Nat := 0
  deriving DecidableEq, Repr

/-- Where the elements that an operation writes stand in the whole output tensor, of which a slot or an operation writes a
part: the linear index of the first, and the distance of two rows, 0 where the rows follow one another (R55, R147). -/
structure Span where
  base : Nat := 0
  pitch : Nat := 0
  deriving DecidableEq, Repr

/-- A Stack range that a pipeline image grants to a stage's slot (R126): its own STACK_GRANT, or a slot of the range of a
Stack edge that it consumes or produces, by its port. -/
inductive StackRange where
  | grant
  | input (port slot : Nat)
  | output (port slot : Nat)
  deriving DecidableEq, Repr

/-- The flow datapath's work on one frame pair (R121, R238 to R244): whether it is stereo, LR_CHECK, TEXTURE_MIN, LR_TOL, the
levels and the size of level 0, the addresses of the two pyramids (R228, R236) and of the field, and its header's numbers. -/
structure FlowWork where
  stereo : Bool
  lr : Bool
  textureMin : Nat
  lrTol : Nat
  levels : Nat
  width : Nat
  height : Nat
  one : Nat
  two : Nat
  out : Nat
  deriving DecidableEq, Repr

/-- One operation of a stage step, as the stage's code orders it. The code of a stage is Thagrim's or the owner's; what
an operation computes is the spec's (R58 to R62, R118, R121, R239 to R242). -/
inductive StepOp where
  /-- an array operation of M rows, N columns and reduction length K: A row by row, B column by column, the bias by
  column (none for zero), the conversion site of the output stage (none for the accumulator format), the output and its place -/
  | array (a b : Tensor) (m n k : Nat) (bias : Option Nat) (site : Option Nat) (out : Tensor) (place : Span)
  /-- a vector operation on `count` elements of one format -/
  | vector (fn : VecFn) (count : Nat) (x y z : Tensor) (site : Option Nat) (out : Tensor) (place : Span)
  /-- a conversion of `count` elements; none for a widening one -/
  | convert (count : Nat) (x : Tensor) (site : Option Nat) (out : Tensor) (place : Span)
  /-- a sum across slots in increasing slot order: the parts of the slots at their addresses, slot 0 first (R147) -/
  | acrossSlots (count : Nat) (fmt : OpFmt) (parts : List Nat) (out : Nat)
  /-- a solver-lane operation in fp64 on `count` elements (R62) -/
  | lane (fn : VecFn) (count x y z out : Nat)
  /-- the flow datapath (R121) -/
  | flow (w : FlowWork)
  /-- bytes of a granted Stack range from an offset on, read into SRAM -/
  | stackLoad (range : StackRange) (offset bytes addr : Nat)
  /-- SRAM bytes written into a granted Stack range -/
  | stackStore (range : StackRange) (offset addr bytes : Nat)
  /-- spilled bytes of the slot read through its stream window (R163) -/
  | stream (offset bytes addr : Nat)
  /-- bytes that any other part of the stage's code writes -/
  | store (out : Nat) (data : Bytes)
  deriving DecidableEq, Repr

/-- A stage slot on another member of the room, as a hand-over over a link names it: the member, the carrel, its port, and the room
address that the member's Curator has opened for the data (R149, R461). -/
structure FarEnd where
  member : Nat
  carrel : Nat
  port : Nat
  address : Nat
  deriving DecidableEq, Repr

/-- A hand-over sent at the end of a step (R145, R146): output port, buffer slot, where in the slot its data go, where in
the producer's SRAM they stand, byte count, step sequence number, and the consumer where it stands on another member (R149). -/
structure Send where
  port : Nat
  slot : Nat
  offset : Nat
  addr : Nat
  bytes : Nat
  seq : Nat
  far : Option FarEnd := none
  deriving DecidableEq, Repr

/-- A hand-over token (R145): buffer slot, byte count, step sequence number; `run` is the job of the run it belongs to, by which
the sequencer keeps the runs apart (R172, R173); `far` is its producer's output where it came over a link (R149). -/
structure Token where
  slot : Nat
  bytes : Nat
  seq : Nat
  run : Option Nat := none
  far : Option FarEnd := none
  deriving DecidableEq, Repr

/-- What a mesh message on a request channel carries: part of a slot of a hand-over, with each word's poison mark, or the token
(R132, R145). -/
inductive MeshBody where
  | data (slot offset : Nat) (bytes : Bytes) (poison : List Bool)
  | token (t : Token)
  deriving DecidableEq, Repr

/-- A message from a unit outside the carrel array, whose sender the model does not follow: input port and what it carries. -/
structure OutsideMsg where
  port : Nat
  body : MeshBody
  deriving DecidableEq, Repr

/-- To whom a consumer returns a credit: the carrel of a producing slot and its output port, or Circulation for an image input, by
image, edge and consumer slot (R144, R170). -/
inductive CreditTo where
  | carrel (carrel port : Nat)
  | input (handle edge slot : Nat)
  deriving DecidableEq, Repr

/-- A keypoint of the features image (R176, R301): its level-0 pixel position in fp32 and its 128 int8 descriptor
elements. -/
structure Keypoint where
  u : F32
  v : F32
  desc : Bytes
  deriving DecidableEq, Repr

/-- A vector that a search returns (R413, R421): identifier, distance, ATTR, FROM_ADDENDA. -/
structure SearchHit where
  id : Nat
  dist : Nat
  attr : Nat
  addenda : Bool
  deriving DecidableEq, Repr

/-- A round of a search as another member sends it (R414): the collection, K, LIST, EXPAND_MAX, the filter, the query. -/
structure RemoteSearch where
  coll : Nat
  k : Nat
  list : Nat
  expand : Nat
  mask : Nat
  value : Nat
  invert : Bool
  vector : Bytes
  deriving DecidableEq, Repr

/-- What another member answers to a round (R413, R414, R422): its snapshot (generation, addenda end, delete count), its
survivors, its counts, its flags: EXPAND_LIMIT 2, READ_FAILED 4, SHARD_MISSING 8. -/
structure RemoteResult where
  gen : Nat
  addEnd : Nat
  deletes : Nat
  hits : List SearchHit
  expansions : Nat
  deleted : Nat
  filtered : Nat
  flags : Nat
  deriving DecidableEq, Repr

/-- Whom a large solve serves: a job, or the loop edit of a number (R380, R390). -/
inductive SolveOwner where
  | job (num : Nat)
  | loop (edit : Nat)
  deriving DecidableEq, Repr

/-- What a poisoned stored word belongs to (R546). -/
inductive PoisonPlace where
  /-- a page of a sheet's tables -/
  | sheet (sheet : Nat)
  /-- the context of a session by its index; whether the word lies in DESCRIPTOR or in the key -/
  | session (index : Nat) (descriptor : Bool)
  | queue (q : Nat)
  /-- a frame in flight of the graph of a stream -/
  | frame (stream number : Nat)
  /-- the Concordance grid or its recurrent state -/
  | grid
  | image (handle : Nat)
  /-- an addenda entry, by its vector's identifier -/
  | addendum (id : Nat)
  | tombstone
  /-- a job's working data, a session's query under assembly, closed or in service by its QUERY_SEQ, a large solve, a search -/
  | job (num : Nat)
  | query (index seq : Nat)
  | solve (owner : SolveOwner)
  | search (number : Nat)
  /-- data of a unit or of a librarian core -/
  | unit (unit inst : Nat)
  /-- a record of the Errata ring, by its SEQUENCE -/
  | errata (seq : Nat)
  deriving DecidableEq, Repr

/-- The work in the scope of a unit-fatal error, which placement and timing decide (R538): jobs and large solves and searches
by number, sessions by index, streams and graphs by stream. -/
structure FaultScope where
  jobs : List Nat
  sessions : List Nat
  streams : List Nat
  graphs : List Nat
  searches : List Nat
  solves : List SolveOwner
  deriving DecidableEq, Repr

/-- Instructions of the test port: those that drive balls, and those that drive none (R608). -/
inductive TapInst where
  | bypass | idcode | sample | other | extest | extestPulse | extestTrain | clamp | highz
  deriving DecidableEq, Repr

/-- A chip enable as discovery finds it (R433, R437): whether its parameter page fails its CRC in every copy, whether its Read
ID has changed after a reset, and what its parameter page gives: the ONFI revision times ten, NV-LPDDR4, bytes of a page, LUNs,
planes, bits of a die, blocks of a LUN, pages of a block. -/
structure ChipEnable where
  crcBad : Bool
  idChanged : Bool
  revision : Nat
  nvLpddr4 : Bool
  dataBytes : Nat
  spareBytes : Nat
  luns : Nat
  planes : Nat
  dieBits : Nat
  blocks : Nat
  pages : Nat
  deriving DecidableEq, Repr

/-- A channel as discovery finds it: the RATE code of SHELF_STATE at which data training passes, 0 where none does, and what
answers at each of the chip enables 0 to 7 (R433, R437). -/
structure ChannelFound where
  rate : Nat
  ces : List (Option ChipEnable)
  deriving DecidableEq, Repr

/-- The port settings of a configuration record, which have the effect of SET_PORT (R443, R526). -/
structure PortSetting where
  port : Nat
  breakout : Nat
  medium : Nat
  autoneg : Bool
  exceptionQueue : Nat
  deriving DecidableEq, Repr

/-- What the body of a configuration record says, whose layout the manual does not give (R526): ROOM_MEMBERS, PERST_ACTION, the
timing record of R489, the port and address settings, and the byte offset of a field out of range, if there is one. -/
structure ConfigFields where
  members : Nat
  perstAction : Bool
  timing : Bytes
  ports : List PortSetting
  addresses : List Bytes
  bad : Option Nat
  deriving DecidableEq, Repr

/-- What a step of the start meets outside the device (R528): nothing; the firmware image that the NOR device or the host
gives, none where there is none or its read fails, with whether the device's JESD216 header is invalid; the configuration
record and what its body says; the default images; the flash channels; the sheets held here that can not be restored, and
whether the catalogue generation can be read. -/
inductive StartData where
  | none
  | image (item : Option Bytes) (badHeader : Bool)
  | config (item : Option Bytes) (fields : ConfigFields)
  | defaults (images : List (Nat × Bytes))
  | channels (found : List ChannelFound)
  | restore (badSheets : List Nat) (catalogueOk : Bool)
  deriving DecidableEq, Repr

/-- The straps as sampled when POR_N rises, and whether the thermal monitor reads below 0 °C then (R602, R611). -/
structure Straps where
  bootMode : Nat
  position : Nat
  cold : Bool
  deriving DecidableEq, Repr

/-- What the Curator moves (R356). -/
inductive MoveKind where
  | sheet | context | shard | buffer | stage
  deriving DecidableEq, Repr

/-- Where a word with a write-back pending stands: a carrel's SRAM or the Stack (R76). -/
inductive WordPlace where
  | sram (carrel word : Nat)
  | stack (word : Nat)
  deriving DecidableEq, Repr

end Sys2Proof
end

