-- ==== Sys2Proof/Syntax.lean ====
section
/-! DEFINITION. The commands of the block: one constructor per row of the operation table: the rows with operands in the
table's order, then the rows without. -/
namespace Sys2Proof

/-- A command. What each operand carries is said at its type and at its meaning. -/
inductive Instr where
  /-- CALL_SLIP_FETCH (R108): Circulation reads a call slip from a submission ring once a place in flight is free, in fetch order, and judges it. -/
  | callSlipFetch (read : Option Slip)
  /-- FENCE_RELEASE (R107): A fenced call slip starts once every earlier slip of its queue has its final return slip. -/
  | fenceRelease (job : Nat)
  /-- DOORBELL_WRITE (R88): A host write to a doorbell is judged and either updates the ring index or is dropped with its answer. -/
  | doorbellWrite (offset : Nat) (data : Bytes)
  /-- CREATE_QUEUE (R103): Creates a free host-resident queue with the given parameters. -/
  | createQueue (job : Nat)
  /-- DESTROY_QUEUE (R102): Discards the queue's work and moves it to draining towards free. -/
  | destroyQueue (job : Nat)
  /-- RESET_QUEUE (R102): Discards the queue's work, advances GEN and drains towards an emptied active queue. -/
  | resetQueue (job : Nat)
  /-- QUERY_QUEUE (R102): Returns bytes 16 to 31 of a queue context. -/
  | queryQueue (job : Nat)
  /-- SET_COALESCING (R102): Sets VECTOR, COAL_COUNT and COAL_TIME of a queue. -/
  | setCoalescing (job : Nat)
  /-- QUEUE_DRAIN_END (R86): The last discarded return slip of a draining queue is written and the queue becomes active or free. -/
  | queueDrainEnd (q : Nat)
  /-- JOB_COMPLETE (R98): A unit finishes a job, writes its output, its return slip and any interrupt message. -/
  | jobComplete (job : Nat)
  /-- RETURN_STALL_RELEASE (R110): A final return slip waiting for a full return queue is written once the host frees a slot. -/
  | returnStallRelease (q : Nat)
  /-- RETURN_STALLED_TIMER (R110): Each 100 ms of a return-queue stall writes RETURN_STALLED to queue 2. -/
  | returnStalledTimer (q : Nat)
  /-- EVENTS_LOST (R100): When the host frees a slot of an event queue that dropped events, EVENTS_LOST is written first. -/
  | eventsLost (q : Nat)
  /-- COALESCE_TIMEOUT (R111): The oldest unsignalled entry reaches COAL_TIME and the queue's message is sent. -/
  | coalesceTimeout (q : Nat)
  /-- WORD_WRITE_BACK (R76): A corrected word is written back unless a write has reached it first. -/
  | wordWriteBack (place : WordPlace)
  /-- CARREL_WAKE (R127): The Curator wakes an off carrel, which powers up and clears its SRAM. -/
  | carrelWake (carrel : Nat)
  /-- STAGE_LOAD (R127): The Curator loads a stage's sections from the Stack into an idle carrel. -/
  | stageLoad (carrel handle stage slot : Nat)
  /-- STAGE_LOAD_END (R127): The last section is copied and its digest decides between ready and a failed load. -/
  | stageLoadEnd (carrel : Nat) (sourceBad : Bool)
  /-- INPUT_TOKEN (R148): A hand-over token arrives at a carrel, waking it if in retention and starting a step when all inputs are held. -/
  | inputToken (carrel source : Nat) (sent : Option OutsideMsg)
  /-- HANDOVER_DATA (R145): Hand-over data written into a slot of the consumer's SRAM arrives over the mesh. -/
  | handoverData (carrel source : Nat) (sent : Option OutsideMsg)
  /-- STEP_END (R127): A stage step ends, its output tokens are sent and its counters updated. -/
  | stepEnd (carrel cycles : Nat) (ops : List StepOp) (sends : List Send)
  /-- CREDIT_RETURN (R144): A consumer returns a hand-over credit to its producer. -/
  | creditReturn (target : CreditTo) (slot : Nat)
  /-- STAGE_UNBIND (R127): The Curator unbinds a ready carrel's stage and clears its SRAM. -/
  | stageUnbind (carrel : Nat)
  /-- CARREL_GATE (R127): The Curator gates a carrel into retention or off. -/
  | carrelGate (carrel : Nat)
  /-- CARREL_FAULT (R150): A carrel fault halts its stage and the carrel enters halted. -/
  | carrelFault (carrel code : Nat) (solve : Option SolveOwner) (sessions : List Nat)
  /-- CARREL_RELEASE (R151): Firmware tests a halted carrel's SRAM and releases it to idle or retires it. -/
  | carrelRelease (carrel : Nat) (testPass : Bool)
  /-- CARREL_RETIRE (R127): Firmware retires a carrel. -/
  | carrelRetire (carrel : Nat)
  /-- STACK_READ_REQUEST (R143): A Stack vault port serves a read request of 64-byte units. -/
  | stackReadRequest (source addr units : Nat) (band : Option Nat)
  /-- STACK_WRITE_REQUEST (R143): A Stack vault port serves a full or partial write and acknowledges it once visible. -/
  | stackWriteRequest (source addr : Nat) (data : Bytes) (mask : Option (List Bool))
  /-- STACK_REFRESH (R141): A Stack vault takes its refresh among requests. -/
  | stackRefresh (vault : Nat)
  /-- LOAD_IMAGE (R166): Delivers one piece of a pipeline image; the last piece starts verification and placement. -/
  | loadImage (job : Nat) (buf : BufRead)
  /-- PARTIAL_IMAGE_TIMEOUT (R166): A partial image that receives no piece for 10 s is freed. -/
  | partialImageTimeout (handle : Nat)
  /-- UNLOAD_IMAGE (R165): Unbinds every stage of an image and frees its carrels, ranges and handle. -/
  | unloadImage (job : Nat)
  /-- BIND_IMAGE (R168): Allows runs of an image from a submission queue. -/
  | bindImage (job : Nat)
  /-- UNBIND_IMAGE (R168): Withdraws run permission once the queue's runs in flight have ended. -/
  | unbindImage (job : Nat)
  /-- QUERY_IMAGE (R174): Writes the image report with its per-stage counters. -/
  | queryImage (job : Nat)
  /-- RUN_IMAGE (R169): Starts one run of an image with its inputs. -/
  | runImage (job : Nat) (inputs : BufRead)
  /-- RUN_END (R170): Every output edge has delivered; outputs and the return slip are written. -/
  | runEnd (job : Nat)
  /-- RUN_DEADLINE (R173): A run's deadline passes; no new step starts and it ends with PARTIAL_DEADLINE and NO_OUTPUT. -/
  | runDeadline (job : Nat)
  /-- OPEN_STREAM (R181): Checks a stream descriptor, reserves buffers and installs the flow match. -/
  | openStream (job : Nat) (buf : BufRead)
  /-- CLOSE_STREAM (R181): Removes a stream's flow match and frees buffers once no consumer holds one. -/
  | closeStream (job : Nat)
  /-- QUERY_STREAM (R198): Writes a stream's counter report. -/
  | queryStream (job : Nat)
  /-- VIDEO_PACKET (R187): An RTP video packet of a stream is stamped, placed and rectified line by line. -/
  | videoPacket (port : Nat)
  /-- SAMPLE_PACKET (R192): A sample packet is stamped, checked against the expected index and fed through the chains. -/
  | samplePacket (port : Nat)
  /-- POINT_PACKET (R195): A point packet part is stamped and added to its point set. -/
  | pointPacket (port : Nat)
  /-- FRAME_MARKER_GRACE (R189): 50 µs after the marker packet, the frame closes. -/
  | frameMarkerGrace (stream : Nat)
  /-- FRAME_PERIOD_TIMEOUT (R189): Two frame periods after its arrival time, an open frame closes. -/
  | framePeriodTimeout (stream : Nat)
  /-- POINT_SET_TIMEOUT (R195): Two set periods after its arrival time, an open point set closes. -/
  | pointSetTimeout (stream : Nat)
  /-- FRAME_BUFFER_RELEASE (R190): A consumer releases a frame or set buffer back to its stream. -/
  | frameBufferRelease (stream buffer : Nat)
  /-- STREAM_SILENT (R199): No packet has arrived for the silence period and STREAM_SILENT is written. -/
  | streamSilent (stream : Nat)
  /-- SET_CHAIN (R220): Defines a custom decimation chain and its taps. -/
  | setChain (job : Nat) (buf : BufRead)
  /-- SET_CHANNEL (R221): Sets the DC-blocking stage and thresholds of one channel. -/
  | setChannel (job : Nat)
  /-- QUERY_CHANNELS (R223): Writes one record per channel of a sample stream. -/
  | queryChannels (job : Nat)
  /-- LOAD_REMAP (R229): Loads a rectification table and computes its band. -/
  | loadRemap (job : Nat) (buf : BufRead)
  /-- DROP_REMAP (R229): Removes a rectification table. -/
  | dropRemap (job : Nat)
  /-- DEFINE_GRAPH (R247): Defines a stream's frame graph. -/
  | defineGraph (job : Nat)
  /-- START_GRAPH (R246): Reserves slots and starts a frame graph. -/
  | startGraph (job : Nat)
  /-- STOP_GRAPH (R246): Stops new frames entering and releases slots when frames end. -/
  | stopGraph (job : Nat)
  /-- QUERY_GRAPH (R253): Writes the frame graph report. -/
  | queryGraph (job : Nat)
  /-- UNDEFINE_GRAPH (R246): Removes a defined graph that is not running. -/
  | undefineGraph (job : Nat)
  /-- FRAME_STAGE_END (R249): A frame graph stage ends and the frame passes to the next stage. -/
  | frameStageEnd (stream number : Nat) (field : Option Bytes) (features : List Keypoint) (place : Bytes) (batch : Bytes) (marks : List Nat) (poisoned : Bool)
  /-- FRAME_END (R249): A frame leaves its graph; a stopping graph becomes defined when the last frame ends. -/
  | frameEnd (stream number : Nat)
  /-- PAIR_WAIT_TIMEOUT (R250): Two pair-stream frame periods pass without a pair frame and the own frame is skipped. -/
  | pairWaitTimeout (stream number : Nat)
  /-- SET_GRID (R284): Sets the Concordance grid descriptor. -/
  | setGrid (job : Nat) (buf : BufRead)
  /-- START_FUSION (R283): Fixes the epoch origin and opens the first epoch. -/
  | startFusion (job : Nat)
  /-- STOP_FUSION (R285): Discards the open epoch and stops fusion when computing ends. -/
  | stopFusion (job : Nat)
  /-- BIND_SENSOR (R266): Binds a stream to the grid with its encoding. -/
  | bindSensor (job : Nat) (buf : BufRead)
  /-- UNBIND_SENSOR (R283): Removes a binding at the next close. -/
  | unbindSensor (job : Nat)
  /-- QUARANTINE_SENSOR (R279): Quarantines a binding at the next close. -/
  | quarantineSensor (job : Nat)
  /-- RELEASE_SENSOR (R279): Releases a quarantined binding at the next close. -/
  | releaseSensor (job : Nat)
  /-- QUERY_FUSION (R287): Writes the fusion report. -/
  | queryFusion (job : Nat)
  /-- QUERY_SENSORS (R287): Writes one record per binding. -/
  | querySensors (job : Nat)
  /-- READ_TRACKS (R282): Writes the lowest retained track list after AFTER_SEQ, waiting until one exists. -/
  | readTracks (job : Nat)
  /-- OPEN_SESSION (R296): Admits and opens a session, creating its queues. -/
  | openSession (job : Nat) (buf : BufRead)
  /-- CLOSE_SESSION (R294): Moves a session to closing. -/
  | closeSession (job : Nat)
  /-- QUERY_SESSION (R299): Writes a session's report. -/
  | querySession (job : Nat)
  /-- SET_SESSION (R297): Changes a session's read, rate and burst settings. -/
  | setSession (job : Nat)
  /-- SEED_POSE (R310): Sets a session's filter from a given pose at its next step 4. -/
  | seedPose (job : Nat) (buf : BufRead)
  /-- SUBMIT_QUERY (R313): Serves one query of a host-bound session. -/
  | submitQuery (job : Nat) (buf : BufRead)
  /-- QUERY_PART (R303): A query part arrives, is forwarded or tag-checked, and joins its query under assembly. -/
  | queryPart (port : Nat)
  /-- QUERY_ASSEMBLY_TIMEOUT (R303): ASSEMBLY_MS passes and the query closes incomplete. -/
  | queryAssemblyTimeout (index : Nat)
  /-- QUERY_SERVE (R304): The home device starts serving the next closed query of a session. -/
  | queryServe (index : Nat) (keypoints : List Keypoint) (place : Bytes)
  /-- REMOTE_MATCH_REQUEST (R36): A holder receives descriptors and a cut and runs matching for its sheet. -/
  | remoteMatchRequest (source session seq edition : Nat) (cut : List (Nat × Nat)) (sheets : List Nat) (camera pose : Bytes) (keypoints : List Keypoint)
  /-- REMOTE_MATCH_ANSWER (R36): The home device receives a holder's correspondences and starts step 7 once all have answered. -/
  | remoteMatchAnswer (index member seq : Nat) (matches_ : Bytes) (missing : List Nat)
  /-- SMALL_SOLVE_END (R392): The small-path pose solve ends and the filter update and answer follow. -/
  | smallSolveEnd (index : Nat)
  /-- BEST_EFFORT_TIMEOUT (R320): A BEST_EFFORT query finds no capacity within 10 ms and is answered NO_RESOURCE. -/
  | bestEffortTimeout (index : Nat)
  /-- SESSION_EXPIRED (R294): IDLE_S passes without a query part and the session moves to closing. -/
  | sessionExpired (index : Nat)
  /-- PENCIL_EDIT (R350): Pencils a host edit into the draft. -/
  | pencilEdit (job : Nat) (buf : BufRead)
  /-- INK_EDIT (R348): Starts inking a host edit. -/
  | inkEdit (job : Nat)
  /-- WITHDRAW_EDIT (R348): Withdraws a pencilled edit. -/
  | withdrawEdit (job : Nat)
  /-- QUERY_EDIT (R353): Writes an edit's report. -/
  | queryEdit (job : Nat)
  /-- HOLD_EDITION (R348): Holds an edition. -/
  | holdEdition (job : Nat)
  /-- RELEASE_EDITION (R348): Releases a held edition. -/
  | releaseEdition (job : Nat)
  /-- READ_SHEET (R352): Writes a sheet's records at an edition or draft cut. -/
  | readSheet (job : Nat)
  /-- QUERY_MAP (R353): Writes the map report. -/
  | queryMap (job : Nat)
  /-- PENCIL_NOTICE (R339): A member receives a pencil notice of an edit. -/
  | pencilNotice (edit verdict depends base : Nat) (restores : Option Nat) (batch : Bytes) (carried : List Bytes) (sheets : List Nat) (anchors : List (Nat × Bytes × Bytes)) (holders : List (Nat × Nat))
  /-- WITHDRAWAL_NOTICE (R345): A member receives a withdrawal and marks pending revocations of its consumers. -/
  | withdrawalNotice (edit reason : Nat)
  /-- INK_NUMBER_REQUEST (R336): The clerk assigns the next edition number and sends the inking set to holders. -/
  | inkNumberRequest (request : Option (Nat × List Nat))
  /-- INKING_SET (R336): A holder makes its sheet versions for an inking set and acknowledges. -/
  | inkingSet (number : Nat) (edits : List Nat) (carried : List Bytes)
  /-- INKING_ACK (R336): The clerk receives a holder's acknowledgement and sends PUBLISH once all have answered. -/
  | inkingAck (member : Nat) (missing noPage : List Nat)
  /-- PUBLISH (R336): A member takes the new edition as its last inked edition. -/
  | publish (number : Nat) (edits : List Nat)
  /-- SHELVING_END (R337): A holder finishes writing changed pages to flash and the edition is shelved once all have. -/
  | shelvingEnd (edition member : Nat)
  /-- EDIT_RECORD_EXPIRY (R338): Records and re-base tables of ended edits are dropped after 24 h. -/
  | editRecordExpiry (edit : Nat)
  /-- SET_POLICY (R357): Sets a member's Curator bounds. -/
  | setPolicy (job : Nat) (buf : BufRead)
  /-- PIN_SHEET (R362): Pins a sheet's holder. -/
  | pinSheet (job : Nat)
  /-- UNPIN_SHEET (R362): Removes a sheet's pin. -/
  | unpinSheet (job : Nat)
  /-- QUERY_CURATOR (R362): Writes the policy record and Curator counts. -/
  | queryCurator (job : Nat)
  /-- SHEET_MOVE_END (R360): A sheet copy completes and the holder switches in one clerk-ordered step. -/
  | sheetMoveEnd (sheet : Nat)
  /-- CURATOR_MOVE_START (R356): The Curator starts moving an object within its bounds. -/
  | curatorMoveStart (kind : MoveKind) (object dest : Nat)
  /-- BOUND_PINNED_REPEAT (R358): BOUND_PINNED is written again every 60 s while an adaptive loop stays at a bound. -/
  | boundPinnedRepeat (code : Nat)
  /-- SOLVE (R382): Solves a host least-squares problem on the large path. -/
  | solve (job : Nat) (buf : BufRead)
  /-- SOLVE_MAP (R386): Builds a problem from map sheets and solves it. -/
  | solveMap (job : Nat) (buf : BufRead)
  /-- SET_SOLVER (R387): Sets the room-wide solver policy. -/
  | setSolver (job : Nat) (buf : BufRead)
  /-- SET_CODEBOOK (R388): Sets the room-wide matching codebook. -/
  | setCodebook (job : Nat) (buf : BufRead)
  /-- QUERY_COLLATOR (R380): Writes sixteen Collator counts. -/
  | queryCollator (job : Nat)
  /-- SOLVE_ITERATION_END (R376): An iteration's evaluation ends and the step is accepted or rejected. -/
  | solveIterationEnd (solve : SolveOwner)
  /-- SOLVE_END (R376): A large solve ends and writes its report, results and covariance. -/
  | solveEnd (solve : SolveOwner)
  /-- SOLVE_DEADLINE (R377): A solve's deadline passes and it ends according to its phase. -/
  | solveDeadline (solve : SolveOwner) (phase : Nat)
  /-- LOOP_SOLVE_RELEASE (R390): A loop solve that waited for another SOLVE edit on its region starts. -/
  | loopSolveRelease (edit : Nat)
  /-- SEARCH (R420): Starts a Catalogue search over the room. -/
  | search (job : Nat) (buf : BufRead)
  /-- INSERT (R423): Encodes vectors, places them in the addenda and links them. -/
  | insert (job : Nat) (buf : BufRead)
  /-- DELETE (R423): Adds vector identifiers to the pending delete list. -/
  | delete (job : Nat) (buf : BufRead)
  /-- RESHELVE (R429): Starts a reshelving into a new catalogue generation. -/
  | reshelve (job : Nat)
  /-- SET_COLLECTION (R424): Defines an owner collection and its codebook. -/
  | setCollection (job : Nat) (buf : BufRead)
  /-- QUERY_CATALOGUE (R427): Writes the Catalogue report. -/
  | queryCatalogue (job : Nat)
  /-- SET_SHELF_POLICY (R425): Sets the member's shelf write rate, reshelve fill and spare share. -/
  | setShelfPolicy (job : Nat)
  /-- SEARCH_REQUEST (R414): A member receives a search or a later round, fixes its snapshot and walks its graphs. -/
  | searchRequest (issuer number : Nat) (remote : Option RemoteSearch)
  /-- SEARCH_MEMBER_RESULT (R414): The issuing member receives a member's survivors and merges them once all have answered. -/
  | searchMemberResult (number member : Nat) (remote : Option RemoteResult)
  /-- SEARCH_DEADLINE (R418): A search's deadline stops new expansions and the search ends with what is merged. -/
  | searchDeadline (number : Nat) (own : Nat × Nat)
  /-- NAND_READ_END (R435): A NAND page read completes, with read retries and word-code checks. -/
  | nandReadEnd (engine block page retries : Nat) (failed : List Nat) (trailer : Bool)
  /-- NAND_PROGRAM_END (R437): A page program completes and its status is judged. -/
  | nandProgramEnd (engine block : Nat) (ok : Bool)
  /-- NAND_ERASE_END (R437): A block erase completes and its status is judged. -/
  | nandEraseEnd (engine block : Nat) (ok : Bool)
  /-- NAND_BUSY_TIMEOUT (R437): A LUN stays busy beyond its limit and is reset and retried or taken out of service. -/
  | nandBusyTimeout (engine ce lun : Nat)
  /-- ETH_FRAME_RECEIVE (R444): A frame arriving on a logical port is filtered and steered to its destination. -/
  | ethFrameReceive (port : Nat) (frame : Bytes) (fcsOk : Bool) (corrected bad : Nat)
  /-- TX_ENTRY_FETCH (R448): The device reads a transmit entry and its frame, sends it or skips it. -/
  | txEntryFetch (queue : Nat) (entry : Option Slip) (frame : Option Bytes)
  /-- SET_PORT (R451): Sets a physical port's breakout and medium and retrains it. -/
  | setPort (job : Nat)
  /-- SET_ADDRESS (R452): Sets a logical port's MAC, VLAN and IP addresses. -/
  | setAddress (job : Nat) (buf : BufRead)
  /-- ADD_FLOW (R451): Adds a UDP flow rule to a receive queue. -/
  | addFlow (job : Nat)
  /-- REMOVE_FLOW (R451): Removes a flow rule once its steered packets are written. -/
  | removeFlow (job : Nat)
  /-- QUERY_PORT (R453): Writes a logical port's counts. -/
  | queryPort (job : Nat)
  /-- QUERY_JALZEL (R453): Writes a Jalzel port's state and counts. -/
  | queryJalzel (job : Nat)
  /-- PORT_TRAINING_END (R441): Auto-negotiation and link training of a port end and it comes up or stays down. -/
  | portTrainingEnd (port : Nat) (ok : Bool)
  /-- PORT_TRAIN_RETRY (R454): A failed port training is retried after 1 s. -/
  | portTrainRetry (port : Nat)
  /-- PORT_SIGNAL_LOSS (R467): An Ethernet port loses signal and goes down. -/
  | portSignalLoss (port : Nat)
  /-- JALZEL_SIGNAL (R464): Signal appears on all eight lanes of a down Jalzel port and training starts. -/
  | jalzelSignal (port : Nat)
  /-- JALZEL_TRAINING_END (R464): Jalzel training succeeds and identity is sent, or fails. -/
  | jalzelTrainingEnd (port : Nat) (ok : Bool)
  /-- JALZEL_TRAIN_RETRY (R464): A failed Jalzel training is retried after 100 ms. -/
  | jalzelTrainRetry (port : Nat)
  /-- JALZEL_LOSS (R464): Loss of lock or signal takes a Jalzel link down and the member leaves. -/
  | jalzelLoss (port : Nat)
  /-- JALZEL_FRAME (R457): A Jalzel frame is received, acknowledgements and credits taken, and data accepted or discarded. -/
  | jalzelFrame (port : Nat) (frame : Bytes)
  /-- REPLAY_REQUEST (R458): The sender receives a replay request and resends kept frames after ACK_SEQ. -/
  | replayRequest (port ackSeq : Nat)
  /-- REPLAY_REQUEST_TIMEOUT (R457): The expected frame has not arrived 2 µs after a request and a further request is sent. -/
  | replayRequestTimeout (port : Nat)
  /-- READ_REQ (R461): A peer's read request of a room address is served. -/
  | readReq (port : Nat)
  /-- READ_DATA (R461): Read data for an earlier request arrives from a peer. -/
  | readData (port : Nat)
  /-- WRITE (R461): A peer's write to a room address is performed and acknowledged. -/
  | write (port : Nat) (masked : Bool)
  /-- WRITE_ACK (R461): A peer acknowledges a write as visible. -/
  | writeAck (port : Nat)
  /-- TOKEN (R461): A hand-over token arrives across a Jalzel link. -/
  | token (port : Nat)
  /-- QUEUE_POST (R461): A peer posts an entry and packet into a Stack-resident queue. -/
  | queuePost (port : Nat)
  /-- BELL (R495): A peer raises a remote Bell source. -/
  | bell (port : Nat)
  /-- BULK (R461): A unit-defined bulk transfer arrives from a peer. -/
  | bulk (port : Nat)
  /-- CONTROL (R461): A room-formation, clerk, Curator, Catalogue or Collator control message arrives. -/
  | control (port : Nat)
  /-- JALZEL_IDENTITY (R463): A peer's identity arrives and the peer is admitted or refused. -/
  | jalzelIdentity (port ordering stepping : Nat) (measurement : Bytes) (position members highest : Nat)
  /-- SET_TIMING (R489): Sets the timing source, profile, roles and limits. -/
  | setTiming (job : Nat) (buf : BufRead)
  /-- ADJUST_TIME (R473): Adds an offset to the slew remainder. -/
  | adjustTime (job : Nat)
  /-- SET_INCREMENT (R473): Replaces the counter increment at the next tick. -/
  | setIncrement (job : Nat)
  /-- HARD_SET (R474): Steps the counter to a new value at the next tick. -/
  | hardSet (job : Nat)
  /-- QUERY_TIME (R490): Writes the time report read at one tick. -/
  | queryTime (job : Nat)
  /-- SET_PULSE (R486): Sets a pulse output's mode, start, width and period. -/
  | setPulse (job : Nat)
  /-- SET_CAPTURE (R487): Sets a capture input's edge, filter and minimum interval. -/
  | setCapture (job : Nat)
  /-- PTP_MESSAGE (R482): A PTP event or general message is stamped and handled by firmware. -/
  | ptpMessage (port : Nat) (msg : Bytes) (transport : Nat) (delay : Option Int)
  /-- PTP_SEND (R481): A SERVE port sends Announce, Sync or delay messages at their intervals. -/
  | ptpSend (port kind seq : Nat)
  /-- SERVO_INTERVAL (R617): A servo interval ends and the offset moves the state between LOCKING and LOCKED. -/
  | servoInterval (offset : Int) (inc : Option (BitVec 64)) (adjust : Bool)
  /-- TIMEKEEPER_EXCHANGE (R479): Every 1 ms a follower exchanges time with the timekeeper and slews its offset. -/
  | timekeeperExchange (offset : Int) (delay : Nat) (keeperLocked : Bool)
  /-- PPS_EDGE (R484): A PPS edge is stamped and used or rejected. -/
  | ppsEdge (stamp : Nat) (secondsOff : Int)
  /-- CAPTURE_EDGE (R487): An accepted capture edge is stamped and writes CAPTURE or is suppressed. -/
  | captureEdge (input : Nat) (rising : Bool) (stamp fine : Nat)
  /-- PULSE_EDGE (R485): A pulse output edge reaches its target and leaves. -/
  | pulseEdge (output : Nat)
  /-- RAISE_MESSAGE (R493): A unit or firmware raise message registers a source as pending. -/
  | raiseMessage (source : Nat)
  /-- BELL_RAISE (R496): A host write of BELL_RAISE raises a host source or is counted as bad. -/
  | bellRaise (word : BitVec 32)
  /-- STORM_WINDOW_END (R505): A source's storm window ends. -/
  | stormWindowEnd (source : Nat)
  /-- STORM_HOLD_EXPIRY (R505): STORM_HOLD_MS after storming, a source is released. -/
  | stormHoldExpiry (source : Nat)
  /-- BELL_STORMED_CLEAR (R505): A write of 1 to a BELL_STORMED bit releases a stormed source. -/
  | bellStormedClear (firmware : Bool) (word : Nat) (value : BitVec 32)
  /-- STORM_LIMIT_ADAPT (R506): Firmware halves or restores storm limits of sources at a slow target. -/
  | stormLimitAdapt (core : Bool) (number : Nat)
  /-- MSIX_UNMASK (R112): A masked vector is unmasked and its pending message is delivered. -/
  | msixUnmask (vector : Nat)
  /-- CLAIM (R501): A core claims the highest deliverable source onto its in-service stack. -/
  | claim (core : Nat)
  /-- THRESHOLD_WRITE (R501): A core sets THRESHOLD and ends the entry of its innermost source. -/
  | thresholdWrite (core value : Nat)
  /-- THRESHOLD_EXIT (R501): A THRESHOLD write with EXIT restores the saved threshold and marks exit. -/
  | thresholdExit (core value : Nat)
  /-- COMPLETE (R501): A core completes its innermost source and claims the next. -/
  | complete (core source : Nat)
  /-- BELL_SOURCE_RECORD_WRITE (R584): A write to a host or vector source record changes its settings. -/
  | bellSourceRecordWrite (source word : Nat) (value : BitVec 32)
  /-- IN_SERVICE_TIMEOUT (R510): A source stays on a stack over 10 ms and is logged. -/
  | inServiceTimeout (core source : Nat)
  /-- CORE_WAKE (R503): A sleeping core is woken to take a deliverable source. -/
  | coreWake (core : Nat)
  /-- WATCHDOG_EXPIRY (R509): A librarian core's watchdog expires; the core is reset and its duties moved. -/
  | watchdogExpiry (core : Nat)
  /-- SLEEP (R515): Puts the device into sleep. -/
  | sleep (job : Nat) (locked : Bool)
  /-- WAKE_EVENT (R516): A wake source wakes the sleeping device and the wake sequence runs. -/
  | wakeEvent (source port : Nat)
  /-- PARKED_LINK_RETRAIN (R517): Parked Jalzel links finish retraining after wake. -/
  | parkedLinkRetrain (port : Nat)
  /-- QUADRANT_CLOCK_STOP (R513): A quadrant idle for 1 ms has its clock stopped. -/
  | quadrantClockStop (q : Nat)
  /-- QUADRANT_CLOCK_START (R513): A quadrant clock starts for a carrel wake or token. -/
  | quadrantClockStart (q : Nat)
  /-- PLL_LOCK (R512): A PLL locks and its clock is ungated. -/
  | pllLock (pll : Nat)
  /-- POWER_LOOP_INTERVAL (R519): Every 1 ms firmware measures power and steps a quadrant down or up. -/
  | powerLoopInterval (power mv : Nat) (waiting : Bool)
  /-- OPERATING_POINT_CHANGE (R518): A quadrant's rail and clock move to a new operating point. -/
  | operatingPointChange (q mv : Nat)
  /-- THERMAL_SENSOR_READ (R521): Every 100 µs sensors are read and throttle, P5 or trip actions taken. -/
  | thermalSensorRead (temps : List Int)
  /-- POWER_ON_RESET (R523): The always-on rail rises or POR_N is driven low and the device starts afresh. -/
  | powerOnReset (straps : Option Straps)
  /-- START_STEP_END (R528): A step of the start sequence ends and the next begins. -/
  | startStepEnd (d : StartData)
  /-- START_FAILURE (R529): A start attempt fails, is recorded and a device-level reset follows. -/
  | startFailure (reason detail : Nat)
  /-- READ_COLOPHON (R534): Writes the colophon. -/
  | readColophon (job : Nat)
  /-- RETRY_START (R531): Clears CONSECUTIVE_FAILURES and performs a device-level reset. -/
  | retryStart (job : Nat)
  /-- WRITE_BOOT_FLASH (R534): Verifies and writes a signed file into a boot NOR device. -/
  | writeBootFlash (job : Nat) (buf : BufRead)
  /-- QUERY_POWER (R534): Writes the power and thermal report. -/
  | queryPower (job : Nat)
  /-- DEVICE_INFO (R534): Writes the ordering code, stepping, firmware measurement and position. -/
  | deviceInfo (job : Nat)
  /-- SMB_READ_STATUS (R536): SMBus command 0x01 returns the device state. -/
  | smbReadStatus (pecOk rightType : Bool)
  /-- SMB_WAKE (R536): SMBus command 0x02 wakes the device. -/
  | smbWake (pecOk rightType : Bool)
  /-- SMB_DEVICE_RESET (R536): SMBus command 0x03 with 0xA5 performs a device-level reset. -/
  | smbDeviceReset (data : Byte) (pecOk rightType : Bool)
  /-- SMB_RETRY_START (R536): SMBus command 0x04 with 0xA5 performs RETRY_START. -/
  | smbRetryStart (data : Byte) (pecOk rightType : Bool)
  /-- SMB_READ_TEMPERATURE (R536): SMBus command 0x10 returns the hottest sensor. -/
  | smbReadTemperature (pecOk rightType : Bool)
  /-- SMB_READ_POWER (R536): SMBus command 0x11 returns device power. -/
  | smbReadPower (pecOk rightType : Bool)
  /-- SMB_COLOPHON_OFFSET (R536): SMBus command 0x20 sets the colophon offset. -/
  | smbColophonOffset (offset : BitVec 16) (pecOk rightType : Bool)
  /-- SMB_COLOPHON_READ (R536): SMBus command 0x21 returns 32 colophon bytes and advances the offset. -/
  | smbColophonRead (pecOk rightType : Bool)
  /-- ERRATA_RECORD (R541): A detected error is recorded with class and scope and raises its Bell source. -/
  | errataRecord (cls unit inst code flags scope location detail0 detail1 : Nat)
  /-- POISON_HANDLING (R546): The owner of a region deals with a poisoned stored word and closes the handling. -/
  | poisonHandling (place : PoisonPlace) (word seq : Nat)
  /-- HANDLING_CLOSE (R543): Firmware writes a closing record that ends a handling. -/
  | handlingClose (seq : Nat)
  /-- UNIT_FATAL_ERROR (R547): A unit-fatal error stops the unit, discards work in scope and starts a unit reset. -/
  | unitFatalError (unit inst code location detail0 recorded : Nat) (scope : FaultScope)
  /-- UNIT_RECOVERED (R547): A reset unit passes its self-test and resumes, or goes out of service. -/
  | unitRecovered (unit inst : Nat) (ok : Bool) (micros : Nat) (sheets : List Nat)
  /-- UNIT_RESET_RETRY (R547): Every 60 s firmware retries the reset of an out-of-service unit. -/
  | unitResetRetry (unit inst : Nat) (ok : Bool) (micros : Nat)
  /-- DEVICE_FATAL_ERROR (R549): A device-fatal error is recorded in the Vault, work discarded and a device-level reset performed. -/
  | deviceFatalError (unit inst code location detail0 recorded : Nat)
  /-- READ_ERRATA (R616): Writes Errata records from the ring or the Vault. -/
  | readErrata (job : Nat)
  /-- ENTER_REFERENCE (R555): The host places the member in reference service. -/
  | enterReference (job : Nat)
  /-- EXIT_REFERENCE (R555): Clears the host's cause of reference service. -/
  | exitReference (job : Nat)
  /-- QUERY_ERRORS (R555): Writes Errata counts and the reference state. -/
  | queryErrors (job : Nat)
  /-- SET_ERRATA (R555): Sets the class and queue of ERRATA_RECORDED events. -/
  | setErrata (job : Nat)
  /-- OWNER_RECORD (R566): Verifies and applies an owner record. -/
  | ownerRecord (job : Nat) (buf : BufRead)
  /-- ATTEST (R572): Signs an attestation report with the device key. -/
  | attest (job : Nat) (writeOk : Bool)
  /-- BOOT_GO (R581): A write of BOOT_GO starts the host push or sets BAD_ARGS. -/
  | bootGo (value : BitVec 32)
  /-- DEVICE_RESET (R581): A write of 0xA5 to DEVICE_RESET performs a device-level reset. -/
  | deviceReset (value : BitVec 32)
  /-- CIRC_FIXED_GO (R586): A GO bit brings a fixed queue up once the device is ready, or refuses it. -/
  | circFixedGo (value : BitVec 32)
  /-- CIRC_FIXED_RESET (R586): A reset bit drains a fixed queue towards free. -/
  | circFixedReset (value : BitVec 32)
  /-- REGISTER_WRITE (R577): A write to a register without behaviour of its own takes effect or is dropped as a bad write. -/
  | registerWrite (offset width : Nat) (value : BitVec 64) (whole : Bool)
  /-- REGISTER_LOW_HALF_READ (R576): A read of bits 31:0 of a 64-bit register latches its upper half. -/
  | registerLowHalfRead (offset width : Nat)
  /-- RAIL_FAULT (R598): A rail leaves its range for more than 10 µs and a device-fatal error follows. -/
  | railFault (rail : Nat)
  /-- TAP_INSTRUCTION_LOAD (R608): A test-port instruction is loaded, with ball-driving instructions allowed only while POR_N is low. -/
  | tapInstructionLoad (inst : TapInst)
  /-- AVS_STEP_TIMEOUT (R609): A core-regulator voltage step not reported complete within 20 µs, or an AVSBus transaction left without response, fails and leaves the last acknowledged core voltage standing. -/
  | avsStepTimeout (noResponse : Bool)
  /-- UNSTARTED_DEADLINE (R95): The deadline of a call slip that is in flight but not yet started passes, and the slip is answered PARTIAL_DEADLINE with NOT_STARTED and no result. -/
  | unstartedDeadline (job : Nat)
  /-- UNIT_AVAILABLE (R269): A frame's features, a point set or a sample record reaches the Concordance unit and is held, dropped or folded late. -/
  | unitAvailable
  /-- EPOCH_CLOSE_TIMED (R268): A TIMED epoch reaches its close time and closes. -/
  | epochCloseTimed
  /-- EPOCH_CLOSE_LIMIT (R268): A COMPLETE epoch reaches CLOSE_LIMIT_MS and closes with CLOSED_BY_LIMIT. -/
  | epochCloseLimit
  /-- EPOCH_COMPUTE_END (R272): All tile runs end and the partial lists are merged into the epoch's track list. -/
  | epochComputeEnd
  /-- AMENDMENT_END (R275): The re-run tiles of an amendment end and the amendment track list is written. -/
  | amendmentEnd
  /-- AUTO_INK_TIMEOUT (R339): AUTO_INK_MS passes and the clerk inks waiting AUTO edits. -/
  | autoInkTimeout
  /-- LARGE_SOLVE_ADMIT (R394): A waiting large solve is admitted once its upkeep carrels are free. -/
  | largeSolveAdmit
  /-- DELETE_FOLD (R410): A pending delete is folded into the tombstone bitmap once no search holds a lower count. -/
  | deleteFold
  /-- ADDENDA_LOG_FLUSH (R409): 10 ms after the oldest unwritten record, the addenda log writes a page. -/
  | addendaLogFlush
  /-- GENERATION_SWITCHED (R430): A reshelving has written its segments and metadata and the new generation becomes current. -/
  | generationSwitched
  /-- ROOM_FORM_TIMEOUT (R465): 5 s after reset the room forms with the members present. -/
  | roomFormTimeout
  /-- TIME_SOURCE_LOST (R617): The timing source is lost and the state enters HOLDOVER. -/
  | timeSourceLost
  /-- SLEW_PINNED_TIMEOUT (R472): A servo pinned at its slew limit for 1 s writes BOUND_PINNED. -/
  | slewPinnedTimeout
  /-- REFERENCE_LOST (R512): The 200 MHz reference count leaves range for four periods and the reference is lost. -/
  | referenceLost
  /-- REFERENCE_RETURN (R512): The reference count is in range for 64 periods and the PLLs start again. -/
  | referenceReturn
  /-- MSIX_DELIVERY (R499): A deliverable vector source is sent as its MSI-X message. -/
  | msixDelivery
  /-- AVS_STEP_COMPLETE (R597): The core regulator reports a voltage step complete and the clock follows. -/
  | avsStepComplete
  /-- FAST_LIMITER_TRIP (R520): Estimated power exceeds a limit and idle cycles are inserted. -/
  | fastLimiterTrip
  /-- FAST_LIMITER_RELEASE (R520): Power is back below the limit and the arrays are released. -/
  | fastLimiterRelease
  /-- THERMAL_TRIP (R521): A sensor at 110 °C for 1 ms stops every fast clock and asserts THERMTRIP_N. -/
  | thermalTrip
  /-- DEVICE_LEVEL_RESET (R523): A device-level reset clears the device and runs the start sequence. -/
  | deviceLevelReset
  /-- FUNCTION_LEVEL_RESET (R525): A PCIe function-level reset destroys host queues and resets the function. -/
  | functionLevelReset
  /-- PERST (R523): PERST_N acts as a device-level or function-level reset under PERST_ACTION. -/
  | perst
  /-- START_COMPLETE (R528): The start reaches READY and writes START_COMPLETE. -/
  | startComplete
  /-- START_TIMEOUT (R529): READY is not reached within 120 s and the attempt fails. -/
  | startTimeout
  /-- BOOT_GO_TIMEOUT (R529): Under host push BOOT_GO is not written within 10 s and the attempt fails. -/
  | bootGoTimeout
  /-- COLD_START_WAIT_END (R611): The thermal monitor reaches 0 °C and a waiting start proceeds. -/
  | coldStartWaitEnd
  /-- COLOPHON_POSTED (R530): Entry to minimal mode writes COLOPHON_POSTED once queue 2 is up. -/
  | colophonPosted
  /-- SMB_ALERT_RESPONSE (R607): A read of the Alert Response Address returns the address and releases SMB_ALERT_N. -/
  | smbAlertResponse
  /-- SMBUS_SCL_TIMEOUT (R609): SMB_SCL held low beyond 25 ms resets the port. -/
  | smbusSclTimeout
  /-- ERRATA_RING_MOVE (R539): A record in the holding buffer is moved to the Errata ring. -/
  | errataRingMove
  /-- REFERENCE_ENTRY (R552): A member enters reference service and its units take their reference states. -/
  | referenceEntry
  /-- REFERENCE_EXIT (R554): Every cause clears and the member leaves reference service. -/
  | referenceExit
  /-- STAMP_SECONDS_READ (R490): A read of STAMP_SECONDS latches the nanoseconds and fraction. -/
  | stampSecondsRead
  /-- AON_RAIL_LOW (R598): The always-on rail below 0.68 V for 10 µs causes a power-on reset. -/
  | aonRailLow
  /-- DATESTAMP_TICK (R469): On each tick of the 200 MHz reference the Datestamp counter advances by INC plus the slew step s, and pending ADJUST_TIME, SET_INCREMENT and HARD_SET take effect. -/
  | datestampTick
  /-- FUNCTION_BACK_IN_D0 (R503): The host returns the PCIe function to D0 with MSI-X enabled, and vector sources that stayed pending at the sleeping vector target send their messages. -/
  | functionBackInD0
  deriving DecidableEq, Repr

end Sys2Proof
end

