-- ==== Sys2Proof/Decode.lean ====
section
/-! DEFINITION. The command that a word of the operation table spells. -/
namespace Sys2Proof

/-- The command whose bits are `w`: the operation table gives no row any bits, so no word spells a command (log 17). -/
def decodeTableWord (_nbits _w : Nat) : Option Instr := none

end Sys2Proof
end

