-- ==== Sys2Proof/Machine/Bits.lean ====
section
/-! DEFINITION. Little-endian fields of records and byte runs (R11, R12), two's complement, and keyed lists in
one canonical form (keys strictly rising). -/
namespace Sys2Proof.Machine

/-- The field of `n` bytes at byte offset `o` of a record (R12). -/
def fld {w : Nat} (r : BitVec w) (o n : Nat) : Nat := (r.toNat >>> (8 * o)) % 2 ^ (8 * n)

/-- Bits `hi` to `lo` of a value, bit 0 least significant (R11). -/
def bitsOf (v hi lo : Nat) : Nat := (v >>> lo) % 2 ^ (hi + 1 - lo)

/-- Bit `i` of a value as 0 or 1 (R11). -/
def bitOf (v i : Nat) : Nat := (v >>> i) % 2

/-- `n` bytes of a value, least significant first (R12). -/
def le : Nat → Nat → Bytes
  | 0, _ => []
  | n + 1, v => BitVec.ofNat 8 v :: le n (v / 256)

/-- The value of a run of bytes, byte 0 least significant (R12). -/
def unle : Bytes → Nat
  | [] => 0
  | b :: bs => b.toNat + 256 * unle bs

/-- The value of a run of bytes in network order (R12). -/
def unbe (l : Bytes) : Nat := unle l.reverse

/-- The field of `n` bytes at offset `o` of a byte run; bytes beyond the run read as zero. -/
def fldB (l : Bytes) (o n : Nat) : Nat := unle ((l.drop o).take n)

/-- The same field in network order (R12). -/
def fldBE (l : Bytes) (o n : Nat) : Nat := unbe ((l.drop o).take n)

/-- `n` zero bytes. -/
def zeros (n : Nat) : Bytes := List.replicate n 0

/-- Exactly `n` bytes of a run, zero bytes standing for those it lacks. -/
def takePad (n : Nat) (l : Bytes) : Bytes := l.take n ++ zeros (n - l.length)

/-- A record of `w` bits made of fields (offset, size in bytes, value); every other byte is zero (R13). -/
def pack (w : Nat) (fs : List (Nat × Nat × Nat)) : BitVec w :=
  BitVec.ofNat w (fs.foldl (fun a f => a ||| ((f.2.2 % 2 ^ (8 * f.2.1)) <<< (8 * f.1))) 0)

/-- The same record as `n` bytes. -/
def packB (n : Nat) (fs : List (Nat × Nat × Nat)) : Bytes := le n (pack (8 * n) fs).toNat

/-- A value read as two's complement of `w` bits (R18). -/
def toInt (w v : Nat) : Int := (BitVec.ofNat w v).toInt

/-- The two's-complement pattern of `w` bits of an integer (R18). -/
def ofInt (w : Nat) (i : Int) : Nat := (BitVec.ofInt w i).toNat

/-- A counter of `w` bits that saturates (R579). -/
def satAdd (w a b : Nat) : Nat := min (a + b) (2 ^ w - 1)

/-- A number that saturates at `w` bits. -/
def sat (w a : Nat) : Nat := min a (2 ^ w - 1)

/-- 1 for true, 0 for false. -/
def flag (b : Bool) : Nat := if b then 1 else 0

/-- n / d to the nearest integer, ties to even. -/
def rneDiv (n d : Nat) : Nat :=
  let k := n / d
  let r := n % d
  if 2 * r < d then k else if d < 2 * r then k + 1 else if k % 2 = 0 then k else k + 1

/-- Whether every byte of a run is zero. -/
def allZero (l : Bytes) : Bool := l.all (· == 0)

/-- The entry of a keyed list at key `k`. -/
def amGet {α : Type} : List (Nat × α) → Nat → Option α
  | [], _ => none
  | (j, a) :: m, k => if j = k then some a else amGet m k

/-- The keyed list with `a` at key `k`, in its place in the rising order. -/
def amSet {α : Type} : List (Nat × α) → Nat → α → List (Nat × α)
  | [], k, a => [(k, a)]
  | (j, b) :: m, k, a =>
    if k < j then (k, a) :: (j, b) :: m
    else if k = j then (k, a) :: m
    else (j, b) :: amSet m k a

/-- The keyed list without key `k`. -/
def amDel {α : Type} : List (Nat × α) → Nat → List (Nat × α)
  | [], _ => []
  | (j, b) :: m, k => if j = k then m else (j, b) :: amDel m k

/-- The canonical form of a keyed list: keys strictly rising. -/
def amWf {α : Type} : List (Nat × α) → Bool
  | [] => true
  | [_] => true
  | (j, _) :: (k, b) :: m => decide (j < k) && amWf ((k, b) :: m)

/-- The entry at key `k`, or `d` where none is listed. -/
def amGetD {α : Type} (m : List (Nat × α)) (k : Nat) (d : α) : α := (amGet m k).getD d

/-- Element `i` of a list replaced, if it has one. -/
def setAt {α : Type} : List α → Nat → α → List α
  | [], _, _ => []
  | _ :: l, 0, a => a :: l
  | b :: l, n + 1, a => b :: setAt l n a

/-- Element `i` of a list changed by `f`. -/
def modAt {α : Type} (l : List α) (i : Nat) (f : α → α) : List α :=
  match l[i]? with
  | none => l
  | some a => setAt l i (f a)

/-- Element `i` of a list of numbers, 0 beyond its end. -/
def natAt (l : List Nat) (i : Nat) : Nat := l.getD i 0

/-- Every element that meets `p` changed by `f`. -/
def mapIf {α : Type} (p : α → Bool) (f : α → α) (l : List α) : List α := l.map (fun a => if p a then f a else a)

/-- The numbers a mask of `n` bits names, rising. -/
def maskList (n v : Nat) : List Nat := (List.range n).filter (fun i => v.testBit i)

/-- The least number of a list, or `d` for none. -/
def minOf (d : Nat) : List Nat → Nat
  | [] => d
  | a :: l => l.foldl min a

/-- Insertion of `a` into a list ordered by `before`, after the elements that are not after it. -/
def insertBy {α : Type} (before : α → α → Bool) (a : α) : List α → List α
  | [] => [a]
  | b :: l => if before a b then a :: b :: l else b :: insertBy before a l

/-- Insertion sort, stable, by `before`. -/
def sortBy {α : Type} (before : α → α → Bool) (l : List α) : List α :=
  l.foldl (fun acc a => insertBy before a acc) []

/-- Ordered pairs of a rising list, each element with itself and with those after it. -/
def pairsOf : List Nat → List (Nat × Nat)
  | [] => []
  | a :: l => (a :: l).map (fun b => (a, b)) ++ pairsOf l

/-- Elements put together, each once. -/
def union {α : Type} [BEq α] (a b : List α) : List α := b.foldl (fun l x => if l.contains x then l else l ++ [x]) a

/-- A count of bytes rounded up to a multiple of 64. -/
def up64 (n : Nat) : Nat := (n + 63) / 64 * 64

end Sys2Proof.Machine
end

