-- ==== Sys2Proof/Machine/Float.lean ====
section
/-! DEFINITION. Floating-point formats and their arithmetic, bit for bit, over exact integers (R43 to R46, R50 to R52,
R61, R62). -/
namespace Sys2Proof.Machine

/-- A binary format (R43): exponent and fraction widths; `e4m3` marks the one whose all-ones exponent is not an
infinity (R44). -/
structure FFmt where
  eBits : Nat
  fBits : Nat
  e4m3 : Bool := false
  deriving DecidableEq, Repr

def fmtE4M3 : FFmt := { eBits := 4, fBits := 3, e4m3 := true }
def fmtE5M2 : FFmt := { eBits := 5, fBits := 2 }
def fmtBf16 : FFmt := { eBits := 8, fBits := 7 }
def fmtF16 : FFmt := { eBits := 5, fBits := 10 }
def fmtF32 : FFmt := { eBits := 8, fBits := 23 }
def fmtF64 : FFmt := { eBits := 11, fBits := 52 }

/-- Width of a format in bits. -/
def FFmt.width (f : FFmt) : Nat := 1 + f.eBits + f.fBits

/-- Bias of the exponent (R43). -/
def FFmt.bias (f : FFmt) : Nat := 2 ^ (f.eBits - 1) - 1

/-- The all-ones exponent field. -/
def FFmt.eMax (f : FFmt) : Nat := 2 ^ f.eBits - 1

/-- The canonical NaN (R45). -/
def FFmt.nan (f : FFmt) : Nat := if f.e4m3 then 0x7F else f.eMax * 2 ^ f.fBits + 2 ^ (f.fBits - 1)

/-- The magnitude bits of the largest finite value (R43, R44). -/
def FFmt.largest (f : FFmt) : Nat := if f.e4m3 then 0x7E else f.eMax * 2 ^ f.fBits - 1

/-- A sign in its place. -/
def FFmt.sign (f : FFmt) (neg : Bool) : Nat := if neg then 2 ^ (f.eBits + f.fBits) else 0

/-- The infinity of a sign. -/
def FFmt.inf (f : FFmt) (neg : Bool) : Nat := f.sign neg + f.eMax * 2 ^ f.fBits

/-- A decoded value: a NaN, an infinity, or `m` times 2 to the `e` with a sign. -/
inductive FP where
  | nan
  | inf (neg : Bool)
  | fin (neg : Bool) (m : Nat) (e : Int)
  deriving DecidableEq, Repr

/-- The value of an encoding (R43, R44, R46). -/
def FFmt.decode (f : FFmt) (v : Nat) : FP :=
  let neg := v.testBit (f.eBits + f.fBits)
  let ef := (v >>> f.fBits) % 2 ^ f.eBits
  let ff := v % 2 ^ f.fBits
  if f.e4m3 && ef = 15 && ff = 7 then .nan
  else if !f.e4m3 && ef = f.eMax then (if ff = 0 then .inf neg else .nan)
  else if ef = 0 then .fin neg ff (1 - (f.bias : Int) - f.fBits)
  else .fin neg (2 ^ f.fBits + ff) ((ef : Int) - f.bias - f.fBits)

/-- Rounding modes (R51); seeded stochastic rounding carries the 32 random bits of its element (R56). -/
inductive Round where
  | rne
  | rtz
  | sr (r : Nat)
  deriving DecidableEq, Repr

/-- Whether the magnitude above the dropped bits is rounded up: `kept` its kept part, `rem` the `d` dropped bits (R51, R56). -/
def roundsUp (mode : Round) (kept rem d : Nat) : Bool :=
  match mode with
  | .rtz => false
  | .rne =>
    let half := 2 ^ (d - 1)
    if rem < half then false
    else if half < rem then true
    else kept % 2 = 1
  | .sr r =>
    let t := if 32 ≤ d then rem >>> (d - 32) else rem <<< (32 - d)
    decide (r % 2 ^ 32 < t)

/-- A rounding to a whole multiple of 2 to the `q`: the kept integer. -/
def roundAt (mode : Round) (m : Nat) (e q : Int) : Nat :=
  if q ≤ e then m <<< (e - q).toNat
  else
    let d := (q - e).toNat
    let kept := m >>> d
    if roundsUp mode kept (m % 2 ^ d) d then kept + 1 else kept

/-- The result of a rounding: the encoding, and whether it saturated (R52, R53). -/
structure Rounded where
  bits : Nat
  saturated : Bool := false
  deriving DecidableEq, Repr

/-- What overflow gives (R52). -/
def FFmt.overflow (f : FFmt) (mode : Round) (sat neg : Bool) : Rounded :=
  if f.e4m3 || sat then { bits := f.sign neg + f.largest, saturated := true }
  else match mode with
    | .rtz => { bits := f.sign neg + f.largest }
    | _ => { bits := f.inf neg }

/-- The magnitude `m` times 2 to the `e` rounded into a format (R51, R52, R56). -/
def FFmt.roundPack (f : FFmt) (mode : Round) (sat neg : Bool) (m : Nat) (e : Int) : Rounded :=
  if m = 0 then { bits := f.sign neg }
  else
    let top : Int := (Nat.log2 m : Int) + e
    let emin : Int := 1 - (f.bias : Int)
    let q := max (top - f.fBits) (emin - f.fBits)
    let kept := roundAt mode m e q
    let field := ((q + f.fBits + f.bias - 1).toNat) * 2 ^ f.fBits + kept
    if f.largest < field then f.overflow mode sat neg
    else { bits := f.sign neg + field }

/-- A value rounded into a format: infinities and NaNs as R52 gives. -/
def FFmt.encode (f : FFmt) (mode : Round) (sat : Bool) : FP → Rounded
  | .nan => { bits := f.nan }
  | .inf neg => if f.e4m3 || sat then { bits := f.sign neg + f.largest, saturated := true } else { bits := f.inf neg }
  | .fin neg m e => f.roundPack mode sat neg m e

/-! ## Exact sums and products -/

/-- A signed dyadic number: `m` times 2 to the `e`. -/
structure Dyadic where
  m : Int
  e : Int
  deriving DecidableEq, Repr

/-- The exact sum of two dyadic numbers. -/
def Dyadic.add (a b : Dyadic) : Dyadic :=
  let e := min a.e b.e
  { m := a.m * (2 ^ (a.e - e).toNat : Nat) + b.m * (2 ^ (b.e - e).toNat : Nat), e := e }

/-- The signed dyadic number of a finite value. -/
def signed (neg : Bool) (m : Nat) (e : Int) : Dyadic := { m := if neg then -(m : Int) else m, e := e }

/-- A dyadic number as a finite value; `zneg` is the sign of an exact zero. -/
def Dyadic.toFP (d : Dyadic) (zneg : Bool) : FP :=
  if d.m = 0 then .fin zneg 0 0 else .fin (decide (d.m < 0)) d.m.natAbs d.e

/-- x + y before rounding (IEEE 754-2019 clauses 5 and 6). -/
def FP.add : FP → FP → FP
  | .nan, _ => .nan
  | _, .nan => .nan
  | .inf a, .inf b => if a = b then .inf a else .nan
  | .inf a, _ => .inf a
  | _, .inf b => .inf b
  | .fin a m e, .fin b n g => ((signed a m e).add (signed b n g)).toFP (m = 0 && n = 0 && a && b)

/-- -x. -/
def FP.neg : FP → FP
  | .nan => .nan
  | .inf a => .inf (!a)
  | .fin a m e => .fin (!a) m e

/-- |x|. -/
def FP.abs : FP → FP
  | .nan => .nan
  | .inf _ => .inf false
  | .fin _ m e => .fin false m e

/-- x times y before rounding. -/
def FP.mul : FP → FP → FP
  | .nan, _ => .nan
  | _, .nan => .nan
  | .inf a, .inf b => .inf (a != b)
  | .inf a, .fin b m _ => if m = 0 then .nan else .inf (a != b)
  | .fin a m _, .inf b => if m = 0 then .nan else .inf (a != b)
  | .fin a m e, .fin b n g => .fin (a != b) (m * n) (e + g)

/-- Whether a value is a NaN. -/
def FP.isNan : FP → Bool
  | .nan => true
  | _ => false

/-! ## Operations of a format, each rounded once -/

/-- x + y (R62). -/
def FFmt.addB (f : FFmt) (x y : Nat) (mode : Round := .rne) : Nat :=
  (f.encode mode false ((f.decode x).add (f.decode y))).bits

/-- x - y. -/
def FFmt.subB (f : FFmt) (x y : Nat) (mode : Round := .rne) : Nat :=
  (f.encode mode false ((f.decode x).add (f.decode y).neg)).bits

/-- x times y. -/
def FFmt.mulB (f : FFmt) (x y : Nat) (mode : Round := .rne) : Nat :=
  (f.encode mode false ((f.decode x).mul (f.decode y))).bits

/-- fma(x, y, z), rounded once (R19). -/
def FFmt.fmaB (f : FFmt) (x y z : Nat) (mode : Round := .rne) : Nat :=
  (f.encode mode false (((f.decode x).mul (f.decode y)).add (f.decode z))).bits

/-- A magnitude known to 96 bits and more, with the part below it kept as one more bit: it rounds as the exact value
does into every format of R43. -/
def inexact (neg : Bool) (m : Nat) (e : Int) (sticky : Bool) : FP := .fin neg (2 * m + flag sticky) (e - 1)

/-- x / y before rounding. -/
def FP.div : FP → FP → FP
  | .nan, _ => .nan
  | _, .nan => .nan
  | .inf _, .inf _ => .nan
  | .inf a, .fin b _ _ => .inf (a != b)
  | .fin a _ _, .inf b => .fin (a != b) 0 0
  | .fin a m e, .fin b n g =>
    if n = 0 then (if m = 0 then .nan else .inf (a != b))
    else if m = 0 then .fin (a != b) 0 0
    else
      let s := Nat.log2 n + 96 - Nat.log2 m
      inexact (a != b) ((m <<< s) / n) (e - g - s) ((m <<< s) % n ≠ 0)

/-- x / y, rounded once. -/
def FFmt.divB (f : FFmt) (x y : Nat) (mode : Round := .rne) : Nat :=
  (f.encode mode false ((f.decode x).div (f.decode y))).bits

/-- The integer square root by bits, highest first: `r` holds the bits found above bit `k`. -/
def isqrtFrom : Nat → Nat → Nat → Nat
  | 0, r, n => if (r + 1) * (r + 1) ≤ n then r + 1 else r
  | k + 1, r, n => if (r + 2 ^ (k + 1)) * (r + 2 ^ (k + 1)) ≤ n then isqrtFrom k (r + 2 ^ (k + 1)) n else isqrtFrom k r n

/-- The greatest integer whose square is at most `n`. -/
def isqrt (n : Nat) : Nat := isqrtFrom (Nat.log2 n / 2) 0 n

/-- sqrt(x) before rounding. -/
def FP.sqrt : FP → FP
  | .nan => .nan
  | .inf neg => if neg then .nan else .inf false
  | .fin neg m e =>
    if m = 0 then .fin neg 0 0
    else if neg then .nan
    else
      let k := if (e - 192) % 2 = 0 then 192 else 193
      let r := isqrt (m <<< k)
      inexact false r ((e - k) / 2) (r * r ≠ m <<< k)

/-- sqrt(x), rounded once. -/
def FFmt.sqrtB (f : FFmt) (x : Nat) (mode : Round := .rne) : Nat := (f.encode mode false (f.decode x).sqrt).bits

/-- 1 / sqrt(x) before rounding. -/
def FP.rsqrt : FP → FP
  | .nan => .nan
  | .inf neg => if neg then .nan else .fin false 0 0
  | .fin neg m e =>
    if m = 0 then .inf neg
    else if neg then .nan
    else
      let m' := if e % 2 = 0 then m else 2 * m
      let e' := if e % 2 = 0 then e else e - 1
      let k := 96 + Nat.log2 m'
      let r := isqrt (2 ^ (2 * k) / m')
      inexact false r (-(e' / 2) - k) (r * r * m' ≠ 2 ^ (2 * k))

/-- 1 / sqrt(x), rounded once. -/
def FFmt.rsqrtB (f : FFmt) (x : Nat) (mode : Round := .rne) : Nat := (f.encode mode false (f.decode x).rsqrt).bits

/-- x < y; false where either is a NaN. -/
def FP.lt : FP → FP → Bool
  | .nan, _ => false
  | _, .nan => false
  | .inf a, .inf b => a && !b
  | .inf a, .fin _ _ _ => a
  | .fin _ _ _, .inf b => !b
  | .fin a m e, .fin b n g =>
    let d := (signed a m e).add (signed (!b) n g)
    decide (d.m < 0)

/-- x = y in value; false where either is a NaN. -/
def FP.eq : FP → FP → Bool
  | .inf a, .inf b => a == b
  | .fin a m e, .fin b n g => decide (((signed a m e).add (signed (!b) n g)).m = 0)
  | _, _ => false

/-- An integer in a format, rounded to nearest (R50). -/
def FFmt.ofInt (f : FFmt) (i : Int) : Nat := (f.roundPack .rne false (decide (i < 0)) i.natAbs 0).bits

/-- A value as an integer toward zero; 0 for a NaN or an infinity. -/
def FP.trunc : FP → Int
  | .fin neg m e =>
    let n : Nat := if 0 ≤ e then m <<< e.toNat else m >>> (-e).toNat
    if neg then -(n : Int) else n
  | _ => 0

/-- A value rounded to an integer in a mode; none for a NaN, and an infinity by its sign. -/
def FP.toInt (mode : Round) : FP → Option Int ⊕ Bool
  | .nan => .inl none
  | .inf neg => .inr neg
  | .fin neg m e =>
    let n := roundAt mode m e 0
    .inl (some (if neg then -(n : Int) else n))

/-- A value at or below which no integer is greater: floor; 0 for a NaN or an infinity. -/
def FP.floor : FP → Int
  | .fin neg m e =>
    if 0 ≤ e then (if neg then -((m <<< e.toNat : Nat) : Int) else ((m <<< e.toNat : Nat) : Int))
    else
      let d := (-e).toNat
      if neg then -(((m + 2 ^ d - 1) >>> d : Nat) : Int) else ((m >>> d : Nat) : Int)
  | _ => 0

/-! ## fp64 and fp32 by name (R54, R62) -/

def f64add (x y : F64) : F64 := BitVec.ofNat 64 (fmtF64.addB x.toNat y.toNat)
def f64sub (x y : F64) : F64 := BitVec.ofNat 64 (fmtF64.subB x.toNat y.toNat)
def f64mul (x y : F64) : F64 := BitVec.ofNat 64 (fmtF64.mulB x.toNat y.toNat)
def f64div (x y : F64) : F64 := BitVec.ofNat 64 (fmtF64.divB x.toNat y.toNat)
def f64fma (x y z : F64) : F64 := BitVec.ofNat 64 (fmtF64.fmaB x.toNat y.toNat z.toNat)
def f64sqrt (x : F64) : F64 := BitVec.ofNat 64 (fmtF64.sqrtB x.toNat)
def f64neg (x : F64) : F64 := x ^^^ 0x8000000000000000#64
def f64abs (x : F64) : F64 := x &&& 0x7FFFFFFFFFFFFFFF#64
def f64lt (x y : F64) : Bool := (fmtF64.decode x.toNat).lt (fmtF64.decode y.toNat)
def f64le (x y : F64) : Bool := f64lt x y || (fmtF64.decode x.toNat).eq (fmtF64.decode y.toNat)
def f64eq (x y : F64) : Bool := (fmtF64.decode x.toNat).eq (fmtF64.decode y.toNat)
def f64isNan (x : F64) : Bool := (fmtF64.decode x.toNat).isNan

/-- Whether an fp64 value is neither a NaN nor an infinity. -/
def f64finite (x : F64) : Bool :=
  match fmtF64.decode x.toNat with
  | .fin _ _ _ => true
  | _ => false

/-- An integer as fp64, to nearest. -/
def f64ofInt (i : Int) : F64 := BitVec.ofNat 64 (fmtF64.ofInt i)

/-- The fp64 value of `m` times 2 to the `e`, to nearest. -/
def f64ofDyadic (m : Int) (e : Int) : F64 :=
  BitVec.ofNat 64 (fmtF64.roundPack .rne false (decide (m < 0)) m.natAbs e).bits

/-- The fp64 value nearest to a quotient of integers: how a decimal literal of the manual is read. -/
def f64ofRat (m : Int) (n : Nat) : F64 :=
  BitVec.ofNat 64 (fmtF64.encode .rne false ((FP.fin (decide (m < 0)) m.natAbs 0).div (.fin false n 0))).bits

/-- The fp64 value nearest to the decimal m / 10^k, rounded once. -/
def f64dec (m : Int) (k : Nat) : F64 :=
  f64ofRat m (10 ^ k)

/-- The greatest integer at or below an fp64 value. -/
def f64floor (x : F64) : Int := (fmtF64.decode x.toNat).floor

/-- An fp64 value toward zero. -/
def f64trunc (x : F64) : Int := (fmtF64.decode x.toNat).trunc

/-- An fp64 value to the nearest integer, ties to even; 0 for a NaN or an infinity. -/
def f64rint (x : F64) : Int :=
  match (fmtF64.decode x.toNat).toInt .rne with
  | .inl (some i) => i
  | _ => 0

/-- max(x, y) as (x > y) ? x : y. -/
def f64max (x y : F64) : F64 := if f64lt y x then x else y

/-- min(x, y) as (x < y) ? x : y. -/
def f64min (x y : F64) : F64 := if f64lt x y then x else y

def f32add (x y : F32) : F32 := BitVec.ofNat 32 (fmtF32.addB x.toNat y.toNat)
def f32sub (x y : F32) : F32 := BitVec.ofNat 32 (fmtF32.subB x.toNat y.toNat)
def f32mul (x y : F32) : F32 := BitVec.ofNat 32 (fmtF32.mulB x.toNat y.toNat)
def f32div (x y : F32) : F32 := BitVec.ofNat 32 (fmtF32.divB x.toNat y.toNat)
def f32fma (x y z : F32) : F32 := BitVec.ofNat 32 (fmtF32.fmaB x.toNat y.toNat z.toNat)
def f32sqrt (x : F32) : F32 := BitVec.ofNat 32 (fmtF32.sqrtB x.toNat)
def f32lt (x y : F32) : Bool := (fmtF32.decode x.toNat).lt (fmtF32.decode y.toNat)
def f32le (x y : F32) : Bool := f32lt x y || (fmtF32.decode x.toNat).eq (fmtF32.decode y.toNat)
def f32isNan (x : F32) : Bool := (fmtF32.decode x.toNat).isNan

/-- Whether an fp32 value is neither a NaN nor an infinity. -/
def f32finite (x : F32) : Bool :=
  match fmtF32.decode x.toNat with
  | .fin _ _ _ => true
  | _ => false

/-- An integer as fp32, to nearest (R50). -/
def f32ofInt (i : Int) : F32 := BitVec.ofNat 32 (fmtF32.ofInt i)

/-- f32_to_f64: exact (R50, R54). -/
def f32ToF64 (x : F32) : F64 := BitVec.ofNat 64 (fmtF64.encode .rne false (fmtF32.decode x.toNat)).bits

/-- f64_to_f32: to nearest, no saturation by default (R52, R54). -/
def f64ToF32 (x : F64) : F32 := BitVec.ofNat 32 (fmtF32.encode .rne false (fmtF64.decode x.toNat)).bits

/-- widen_f16 as fp32 (R54). -/
def f16ToF32 (x : Nat) : F32 := BitVec.ofNat 32 (fmtF32.encode .rne false (fmtF16.decode x)).bits

end Sys2Proof.Machine
end

