-- ==== Sys2Proof/Machine/Elementary.lean ====
section
/-! DEFINITION. The elementary functions of the vector unit, correctly rounded (R61): each is enclosed between two dyadic numbers
at a precision, and the precision is raised until both ends round alike. -/
namespace Sys2Proof.Machine

/-- A real number known to lie between `lo` and `hi` times 2 to the `e`. -/
structure Enclosure where
  lo : Int
  hi : Int
  e : Int
  deriving DecidableEq, Repr

/-- A number `v` times 2 to the `-p`, known to 2^24 units of its last place: more than the errors of a sum below. -/
def about (v : Int) (p : Nat) : Enclosure := { lo := v - 2 ^ 24, hi := v + 2 ^ 24, e := -(p : Int) }

/-- An exact dyadic number. -/
def exactly (v : Int) (e : Int) : Enclosure := { lo := v, hi := v, e := e }

/-- An integer as a finite value. -/
def Enclosure.end_ (x : Enclosure) (v : Int) : FP := .fin (decide (v < 0)) v.natAbs x.e

/-! ## Series, in units of 2^-p; the first number of each is its fuel -/

/-- Terms t, t·r/n, t·r²/(n(n+1)), … summed until one is zero. -/
def expTerms (p : Nat) : Nat → Nat → Nat → Nat → Nat → Nat
  | 0, _, _, _, acc => acc
  | f + 1, r, n, t, acc =>
    let t := t * r / (n * 2 ^ p)
    if t = 0 then acc else expTerms p f r (n + 1) t (acc + t)

/-- e^r for 0 ≤ r < 1. -/
def expFixed (p r : Nat) : Nat := expTerms p p r 1 (2 ^ p) (2 ^ p)

/-- Terms of a series in z² with odd divisors: z/1 ± z³/3 + …; `alt` for alternating signs. -/
def oddTerms (p : Nat) (alt : Bool) : Nat → Int → Int → Nat → Bool → Int → Int
  | 0, _, _, _, _, acc => acc
  | f + 1, z2, t, n, minus, acc =>
    if t = 0 then acc
    else
      let q := t.tdiv n
      oddTerms p alt f z2 ((t * z2).tdiv (2 ^ p : Nat)) (n + 2) (alt && !minus) (if minus then acc - q else acc + q)

/-- artanh z = z + z³/3 + z⁵/5 + … for small z. -/
def artanhFixed (p : Nat) (z : Int) : Int := oddTerms p false p ((z * z).tdiv (2 ^ p : Nat)) z 1 false 0

/-- arctan z = z - z³/3 + z⁵/5 - … for small z. -/
def arctanFixed (p : Nat) (z : Int) : Int := oddTerms p true p ((z * z).tdiv (2 ^ p : Nat)) z 1 false 0

/-- ln 2 = 2 artanh(1/3). -/
def ln2Fixed (p : Nat) : Nat := (2 * artanhFixed p ((2 ^ p / 3 : Nat) : Int)).toNat

/-- π = 16 arctan(1/5) - 4 arctan(1/239). -/
def piFixed (p : Nat) : Int := 16 * arctanFixed p ((2 ^ p / 5 : Nat) : Int) - 4 * arctanFixed p ((2 ^ p / 239 : Nat) : Int)

/-- Terms of the sine and cosine series: t, -t·r²/((n)(n+1)), … -/
def circleTerms (p : Nat) : Nat → Int → Nat → Int → Int → Int
  | 0, _, _, _, acc => acc
  | f + 1, r2, n, t, acc =>
    let t := -((t * r2).tdiv ((n * (n + 1) * 2 ^ p : Nat) : Int))
    if t = 0 then acc else circleTerms p f r2 (n + 2) t (acc + t)

def cosFixed (p : Nat) (r : Int) : Int := circleTerms p p ((r * r).tdiv (2 ^ p : Nat)) 1 (2 ^ p : Nat) (2 ^ p : Nat)
def sinFixed (p : Nat) (r : Int) : Int := circleTerms p p ((r * r).tdiv (2 ^ p : Nat)) 2 r r

/-! ## The functions -/

/-- A finite value in units of 2^-p, rounded down. -/
def toFixed (p : Nat) (neg : Bool) (m : Nat) (e : Int) : Int :=
  let k := e + p
  let v : Int := if 0 ≤ k then ((m <<< k.toNat : Nat) : Int) else ((m >>> (-k).toNat : Nat) : Int)
  if neg then -v else v

/-- Whether m·2^e is at least 2^k. -/
def atLeast (m : Nat) (e k : Int) : Bool := decide (m ≠ 0) && decide (k ≤ (Nat.log2 m : Int) + e)

/-- e^x; far beyond every format's range a number there stands for it. -/
def encExp (p : Nat) (neg : Bool) (m : Nat) (e : Int) : Enclosure :=
  if atLeast m e 15 then exactly 1 (if neg then -60000 else 60000)
  else
    let l : Int := ln2Fixed p
    let x := toFixed p neg m e
    let k := x / l
    let v := about (expFixed p (x - k * l).toNat) p
    { v with e := v.e + k }

/-- 2^x for an x that is no integer. -/
def encExp2 (p : Nat) (neg : Bool) (m : Nat) (e : Int) : Enclosure :=
  if atLeast m e 15 then exactly 1 (if neg then -60000 else 60000)
  else
    let x := toFixed p neg m e
    let k := x / (2 ^ p : Nat)
    let v := about (expFixed p ((x - k * (2 ^ p : Nat)).toNat * ln2Fixed p / 2 ^ p)) p
    { v with e := v.e + k }

/-- ln x for x > 0, in units of 2^-p. -/
def lnFixed (p : Nat) (m : Nat) (e : Int) : Int :=
  let b := Nat.log2 m
  let f : Int := ((m * 2 ^ p / 2 ^ b : Nat) : Int)
  let up : Bool := decide (4 * (2 ^ p : Nat) < 3 * f)
  let f := if up then f / 2 else f
  let k : Int := b + e + flag up
  k * ln2Fixed p + 2 * artanhFixed p (((f - (2 ^ p : Nat)) * (2 ^ p : Nat)).tdiv (f + (2 ^ p : Nat)))

def encLog (p : Nat) (m : Nat) (e : Int) : Enclosure := about (lnFixed p m e) p
def encLog2 (p : Nat) (m : Nat) (e : Int) : Enclosure := about ((lnFixed p m e * (2 ^ p : Nat)).tdiv (ln2Fixed p)) p

/-- x less the nearest multiple of π/2, in units of 2^-p, and that multiple. -/
def quarterTurns (p : Nat) (neg : Bool) (m : Nat) (e : Int) : Int × Int :=
  let extra := ((Nat.log2 m : Int) + e).toNat + 8
  let q := p + extra
  let h := piFixed q / 2
  let x := toFixed q neg m e
  let k := (2 * x + h) / (2 * h)
  ((x - k * h) / (2 ^ extra : Nat), k)

/-- The circular function `turns` quarter turns ahead of the cosine. -/
def encCircle (p : Nat) (neg : Bool) (m : Nat) (e : Int) (turns : Int) : Enclosure :=
  let r := quarterTurns p neg m e
  let n := (r.2 + turns) % 4
  about (if n = 0 then cosFixed p r.1 else if n = 1 then -(sinFixed p r.1) else if n = 2 then -(cosFixed p r.1)
    else sinFixed p r.1) p

/-- A number just below 1. -/
def belowOne (p : Nat) : Enclosure := exactly ((2 ^ p - 1 : Nat) : Int) (-(p : Int))

/-- n / d in units of 2^-p, between its bounds, for positive bounds of d. -/
def quotient (p : Nat) (nLo nHi dLo dHi : Int) : Enclosure :=
  { lo := (nLo * (2 ^ p : Nat)) / dHi - 1, hi := (nHi * (2 ^ p : Nat)) / dLo + 1, e := -(p : Int) }

/-- tanh |x| = (E - 1) / (E + 1) with E = e^(2|x|). -/
def encTanh (p : Nat) (m : Nat) (e : Int) : Enclosure :=
  if atLeast m e 9 then belowOne p
  else
    let E := encExp p false m (e + 1)
    let k : Int := E.e + p
    let up (v : Int) : Int := if 0 ≤ k then v * (2 ^ k.toNat : Nat) else v / (2 ^ (-k).toNat : Nat)
    let one : Int := (2 ^ p : Nat)
    quotient p (up E.lo - one - 1) (up E.hi - one + 1) (up E.lo + one - 1) (up E.hi + one + 1)

/-- 1 / (1 + e^-x), by E = e^-|x|: E / (1 + E) below zero and 1 / (1 + E) above. -/
def encLogistic (p : Nat) (neg : Bool) (m : Nat) (e : Int) : Enclosure :=
  if atLeast m e 12 then (if neg then exactly 1 (-60000) else belowOne p)
  else
    let E := encExp p true m e
    let one : Int := (2 ^ p : Nat)
    let k := (-(E.e + p)).toNat
    let d (v : Int) : Int := one + v / (2 ^ k : Nat)
    if neg then
      let q := quotient p E.lo E.hi (d E.lo - 1) (d E.hi + 1)
      { q with e := E.e }
    else quotient p one one (d E.lo - 1) (d E.hi + 1)

/-- arctan t for 0 ≤ t ≤ 1 in units of 2^-p: three halvings of the angle, then the series. -/
def halfAngle (p : Nat) (t : Nat) : Nat := t * 2 ^ p / (2 ^ p + isqrt (2 ^ (2 * p) + t * t))
def atanUnit (p : Nat) (t : Nat) : Int := 8 * arctanFixed p ((halfAngle p (halfAngle p (halfAngle p t)) : Nat) : Int)

/-- m·2^e / (n·2^g) in units of 2^-p. -/
def ratioFixed (p m : Nat) (e : Int) (n : Nat) (g : Int) : Nat :=
  let k := e - g + p
  if 0 ≤ k then m * 2 ^ k.toNat / n else m / (n * 2 ^ (-k).toNat)

/-- The angle of the point (|x|, |y|), then reflected where x is below zero. -/
def encAtan2 (p : Nat) (my : Nat) (ey : Int) (xNeg : Bool) (mx : Nat) (ex : Int) : Enclosure :=
  let steep : Bool := (FP.fin false mx ex).lt (.fin false my ey)
  let a := if steep then piFixed p / 2 - atanUnit p (ratioFixed p mx ex my ey) else atanUnit p (ratioFixed p my ey mx ex)
  about (if xNeg then piFixed p - a else a) p

/-- k times π/4. -/
def encEighth (p : Nat) (k : Nat) : Enclosure := about (k * piFixed p / 4) p

/-! ## Special operands and the rounding -/

/-- What an elementary function is before its one rounding: a value, or an enclosure by precision with a sign to be put. -/
inductive Elementary where
  | value (v : FP)
  | real (neg : Bool) (enc : Nat → Enclosure)

/-- m·2^e as an integer, where it is one. -/
def dyadicInt (neg : Bool) (m : Nat) (e : Int) : Option Int :=
  let v : Option Nat := if 0 ≤ e then some (m <<< e.toNat) else if m % 2 ^ (-e).toNat = 0 then some (m >>> (-e).toNat) else none
  v.map (fun n => if neg then -(n : Int) else n)

/-- atan2(y, x) (IEEE 754-2019 clause 9.2.1). -/
def atan2Of (y x : FP) : Elementary :=
  match y, x with
  | .nan, _ => .value .nan
  | _, .nan => .value .nan
  | .inf a, .inf b => .real a (fun p => encEighth p (if b then 3 else 1))
  | .inf a, .fin _ _ _ => .real a (fun p => encEighth p 2)
  | .fin a _ _, .inf b => if b then .real a (fun p => encEighth p 4) else .value (.fin a 0 0)
  | .fin a m e, .fin b n g =>
    if m = 0 then (if b then .real a (fun p => encEighth p 4) else .value (.fin a 0 0))
    else if n = 0 then .real a (fun p => encEighth p 2)
    else .real a (fun p => encAtan2 p m e b n g)

/-- An elementary function of one operand; atan2 of two (R61, IEEE 754-2019 clause 9); a NaN for a function that is none. -/
def elementaryOf (fn : VecFn) (x y : FP) : Elementary :=
  match fn, x with
  | .atan2, _ => atan2Of x y
  | _, .nan => .value .nan
  | .exp, .inf neg => .value (if neg then .fin false 0 0 else .inf false)
  | .exp2, .inf neg => .value (if neg then .fin false 0 0 else .inf false)
  | .log, .inf neg => .value (if neg then .nan else .inf false)
  | .log2, .inf neg => .value (if neg then .nan else .inf false)
  | .tanh, .inf neg => .value (.fin neg 1 0)
  | .logistic, .inf neg => .value (.fin false (if neg then 0 else 1) 0)
  | _, .inf _ => .value .nan
  | .exp, .fin n m e => if m = 0 then .value (.fin false 1 0) else .real false (fun p => encExp p n m e)
  | .exp2, .fin n m e =>
    match dyadicInt n m e with
    | some k => .value (.fin false 1 (max (-60000) (min 60000 k)))
    | none => .real false (fun p => encExp2 p n m e)
  | .log, .fin n m e =>
    if m = 0 then .value (.inf true) else if n then .value .nan
    else if dyadicInt false m e = some 1 then .value (.fin false 0 0)
    else .real false (fun p => encLog p m e)
  | .log2, .fin n m e =>
    if m = 0 then .value (.inf true) else if n then .value .nan
    else if m = 2 ^ Nat.log2 m then
      let k := (Nat.log2 m : Int) + e
      .value (.fin (decide (k < 0)) k.natAbs 0)
    else .real false (fun p => encLog2 p m e)
  | .sin, .fin n m e => if m = 0 then .value (.fin n 0 0) else .real false (fun p => encCircle p n m e (-1))
  | .cos, .fin n m e => if m = 0 then .value (.fin false 1 0) else .real false (fun p => encCircle p n m e 0)
  | .tanh, .fin n m e => if m = 0 then .value (.fin n 0 0) else .real n (fun p => encTanh p m e)
  | .logistic, .fin n m e => if m = 0 then .value (.fin false 1 (-1)) else .real false (fun p => encLogistic p n m e)
  | _, _ => .value .nan

/-- The precisions tried, in order: at the last, every value of R43's narrow formats is decided many times over. -/
def precisions : List Nat := [128, 256, 512, 1024, 2048]

/-- The rounding of an enclosed number: at the first precision at which both ends round alike; the last one's lower end after
that, where no operand of R43 leads. -/
def roundReal {α : Type} [DecidableEq α] (made : FP → α) (neg : Bool) (enc : Nat → Enclosure) : List Nat → α
  | [] => made (let x := enc 4096; if neg then (x.end_ x.lo).neg else x.end_ x.lo)
  | p :: l =>
    let x := enc p
    let put (v : FP) : FP := if neg then v.neg else v
    let a := made (put (x.end_ x.lo))
    if a = made (put (x.end_ x.hi)) then a else roundReal made neg enc l

/-- An elementary function rounded once (R61). -/
def Elementary.round {α : Type} [DecidableEq α] (made : FP → α) : Elementary → α
  | .value v => made v
  | .real neg enc => roundReal made neg enc precisions

end Sys2Proof.Machine
end

