-- ==== Sys2Proof/Machine/StAccession.lean ====
section
/-! DEFINITION. State of the accession stations, the decimation chains, the rectification tables and the frame graphs
(R177 to R255). Each field's default value is its value at reset. -/
namespace Sys2Proof.Machine

/-- A stream descriptor (R182). -/
structure StreamDesc where
  kind : Nat
  port : Nat
  udpPort : Nat
  timing : Nat
  flags : Nat
  source : Nat
  matchId : Nat
  latency : Nat
  rate : Nat
  payloadType : Nat
  sampling : Nat
  depth : Nat
  cfa : Nat
  width : Nat
  height : Nat
  buffers : Nat
  channels : Nat
  preset : Nat
  format : Nat
  capacity : Nat
  eventQueue : Nat
  remap : Nat
  deriving DecidableEq, Repr

/-- A video frame, under assembly or delivered (R187 to R190, R226 to R235). A sample of 4096 has not been received. -/
structure Frame where
  /-- the buffer it takes; none for a frame that is dropped whole (R196) -/
  buffer : Option Nat
  number : Nat
  rtp : Nat
  ssrc : Nat
  arrival : Nat
  capture : Nat
  implausible : Bool
  sourceChanged : Bool
  /-- extended sequence numbers received -/
  seqs : List Nat := []
  /-- received lines: samples scaled to 12 bits (R227) -/
  lines : List (Nat × List Nat) := []
  /-- arrival of the marker packet -/
  marker : Option Nat := none
  /-- rows of the level-0 plane produced so far (R231, R233) -/
  rows : List (List Nat) := []
  /-- highest line received -/
  top : Nat := 0
  /-- a fall-back band was used (R235) -/
  bandSram : Bool := false
  closed : Nat := 0
  linesMissing : Nat := 0
  lost : Nat := 0
  deriving DecidableEq, Repr

/-- A part of a point set: its number, its POINT_FORMAT, its points as bytes (R194). -/
structure PointPart where
  part : Nat
  format : Nat
  data : Bytes
  deriving DecidableEq, Repr

/-- A point set, under assembly or delivered (R194, R195). -/
structure PointSet where
  buffer : Option Nat
  number : Nat
  set : Nat
  parts : Nat
  sourceId : Nat
  arrival : Nat
  capture : Nat
  implausible : Bool
  /-- parts received, by rising PART -/
  got : List PointPart := []
  /-- parts that have arrived and were dropped as beyond CAPACITY (R195) -/
  dropped : List Nat := []
  overflow : Bool := false
  closed : Nat := 0
  missing : Nat := 0
  deriving DecidableEq, Repr

/-- Who holds a delivered buffer (R190). -/
inductive Holder where
  /-- a frame in flight of the graph of a stream, by frame number -/
  | graph (stream number : Nat)
  /-- the reference frame of a stream's graph -/
  | reference (stream : Nat)
  /-- a pair stream's graph may still choose it (R243) -/
  | pair (stream : Nat)
  /-- the Concordance unit -/
  | fusion
  deriving DecidableEq, Repr

/-- A buffer of a stream (R190). -/
inductive Buffer where
  | free
  | filling
  | frame (f : Frame) (holders : List Holder)
  | set (p : PointSet) (holders : List Holder)
  deriving DecidableEq, Repr

/-- Settings of a channel (R221). -/
structure ChannelSet where
  dcOn : Bool := false
  dcFrozen : Bool := false
  dcLoad : Bool := false
  atNext : Bool := false
  k : Nat := 12
  mode : Nat := 0
  holdOff : Nat := 0
  upper : BitVec 32 := 0
  lower : BitVec 32 := 0
  /-- DC_ESTIMATE to load, under DC_LOAD -/
  load : Option (BitVec 32) := none
  deriving DecidableEq, Repr

/-- A SET_CHANNEL that waits (R222): its job, its AT_INDEX or none for the next output, and whether it applies late. -/
structure PendingSet where
  job : Nat
  at_ : Option Nat
  late : Bool
  settings : ChannelSet
  deriving DecidableEq, Repr

/-- The output that produced a channel's state (R218). -/
structure Crossing where
  time : Nat
  index : Nat
  value : BitVec 32
  deriving DecidableEq, Repr

/-- A channel: its chain's state (R207) and its thresholds (R216, R217, R223). -/
structure Channel where
  integ : List (BitVec 64) := []
  comb : List (BitVec 64) := []
  /-- FIR history, newest first -/
  hist : List (BitVec 64) := []
  n : Nat := 0
  k : Nat := 0
  /-- outputs since the last restart -/
  outputs : Nat := 0
  e : BitVec 64 := 0
  settings : ChannelSet := {}
  pending : List PendingSet := []
  above : Bool := false
  /-- the state last reported, the end of the hold-off window, the output that made the current state -/
  reported : Bool := false
  windowEnd : Option Nat := none
  crossing : Option Crossing := none
  /-- suppressed since the last event -/
  held : Nat := 0
  rises : Nat := 0
  falls : Nat := 0
  suppressed : Nat := 0
  restarts : Nat := 0
  /-- last input sample, repeated into a gap (R192) -/
  last : Int := 0
  lastF32 : BitVec 32 := 0
  deriving DecidableEq, Repr

/-- A sample record (R193). -/
structure SampleRec where
  time : Nat
  flags : Nat
  index : Nat
  values : List (BitVec 32)
  deriving DecidableEq, Repr

/-- A stream (R181 to R202). -/
structure Stream where
  desc : StreamDesc
  openedAt : Nat
  packets : Nat := 0
  units : Nat := 0
  incomplete : Nat := 0
  busy : Nat := 0
  late : Nat := 0
  lost : Nat := 0
  violations : Nat := 0
  degraded : Nat := 0
  lastArrival : Nat := 0
  lastReason : Nat := 0
  silent : Bool := false
  /-- the CLOSE_STREAM job that waits for the last consumer -/
  closing : Option Nat := none
  buffers : List Buffer := []
  /-- the Stack vault that the Curator keeps its buffers in, and that of its band ring (R25, R235, R356) -/
  vault : Nat := 0
  bandVault : Nat := 0
  /-- frames or sets closed since it opened -/
  closedUnits : Nat := 0
  frame : Option Frame := none
  set : Option PointSet := none
  /-- RTP timestamp, or SET, of the unit closed last -/
  lastClosed : Option Nat := none
  ssrc : Option Nat := none
  sourceChanged : Bool := false
  /-- the band stands in SRAM; the stream waits for room in the pool; a fresh ring has been granted (R235) -/
  sramBand : Bool := false
  poolWait : Bool := false
  ringGranted : Bool := false
  expected : Option Nat := none
  channels : List Channel := []
  /-- flags that the next record carries -/
  gap : Bool := false
  resync : Bool := false
  overrange : Bool := false
  outIndex : Nat := 0
  /-- the sample ring, newest first, at most 2^CAPACITY records -/
  ring : List SampleRec := []
  /-- taps of its chain, formed when it opened (R205) -/
  taps : List (BitVec 32) := []
  deriving DecidableEq, Repr

/-- A custom chain (R206, R220). -/
structure Chain where
  n : Nat
  d : Nat
  taps : List (BitVec 32)
  deriving DecidableEq, Repr

/-- A rectification table (R230, R232); an unmapped node has no position. -/
structure Remap where
  srcW : Nat
  srcH : Nat
  outW : Nat
  outH : Nat
  g : Nat
  nodes : List (Option (Int × Int))
  band : Nat := 2
  deriving DecidableEq, Repr

/-- The stations. -/
structure Accession where
  streams : List (Nat × Stream) := []
  chains : List (Nat × Chain) := []
  remaps : List (Nat × Remap) := []
  deriving DecidableEq, Repr

/-- State of a graph (R248). -/
inductive GraphState where
  | defined | running | stopping
  deriving DecidableEq, Repr

/-- PARAMS of DEFINE_GRAPH (R247). -/
structure GraphSet where
  pair : Option Nat
  levels : Nat
  flow : Bool
  stereo : Bool
  features : Bool
  fusion : Bool
  keyframes : Bool
  loop : Bool
  lrCheck : Bool
  runIncomplete : Bool
  depth : Nat
  flowImage : Nat
  textureMin : Nat
  lrTol : Nat
  keyMaxGap : Nat
  keyMotion : Nat
  validMin : Nat
  pairTol : Nat
  eventQueue : Nat
  deriving DecidableEq, Repr

/-- The header and the elements of a flow field (R244). -/
structure Field where
  number : Nat
  refNumber : Nat
  capture : Nat
  refCapture : Nat
  width : Nat
  height : Nat
  levels : Nat
  flags : Nat
  valid : Nat
  noTexture : Nat
  occluded : Nat
  outside : Nat
  beyond : Nat
  motion : Nat
  /-- rows of (x, y) as int16 patterns -/
  rows : List (List (Nat × Nat)) := []
  deriving DecidableEq, Repr

/-- A frame in flight of a graph (R249, R250): the stage it is in, 2 to 6. -/
structure FrameRun where
  number : Nat
  buffer : Nat
  stage : Nat
  restart : Bool
  deliveredAt : Nat
  /-- temporal flow: the buffer and number of its reference; stereo: of its pair frame, once chosen -/
  other : Option (Nat × Nat) := none
  field : Option Field := none
  /-- the plane given to the features image, formed as the frame reaches FEATURES (R249) -/
  input : List (List Nat) := []
  features : List Keypoint := []
  deriving DecidableEq, Repr

/-- A frame graph (R246 to R253). -/
structure Graph where
  set : GraphSet
  state : GraphState := .defined
  inFlight : List FrameRun := []
  /-- reference frame: its number and buffer -/
  reference : Option (Nat × Nat) := none
  /-- last frame that entered -/
  lastEntered : Option Nat := none
  restart : Bool := true
  stopJob : Option Nat := none
  streamClosed : Bool := false
  /-- step 6 reached since START_GRAPH -/
  framesRun : Nat := 0
  levelsBuilt : Nat := 0
  run : Nat := 0
  busy : Nat := 0
  incomplete : Nat := 0
  noPair : Nat := 0
  fault : Nat := 0
  keyframes : Nat := 0
  bandForced : Nat := 0
  bandSramFrames : Nat := 0
  lastFrame : Nat := 0
  msum : Nat := 0
  gap : Nat := 0
  deriving DecidableEq, Repr

/-- The frame sequencers: the graphs by stream, and the keyframes whose loop candidates are being sought, each with its own
keypoints (R249, R390). -/
structure Vision where
  graphs : List (Nat × Graph) := []
  loops : List (Nat × List Keypoint) := []
  deriving DecidableEq, Repr

end Sys2Proof.Machine
end

