-- ==== Sys2Proof/Machine/ChainMath.lean ====
section
/-! DEFINITION. The arithmetic of the decimation chains, the DC-blocking stage and the thresholds (R203 to R218). -/
namespace Sys2Proof.Machine

/-- The N, D and L of a preset (R204). -/
def presetShape : Nat → Option (Nat × Nat × Nat)
  | 1 => some (3, 4, 31)
  | 2 => some (4, 16, 31)
  | 3 => some (5, 32, 47)
  | 4 => some (5, 64, 63)
  | _ => none

/-- fp32 of a decimal constant written in R205: the nearest fp32 value of m / 10^k. -/
def f32dec (m : Int) (k : Nat) : F32 := BitVec.ofNat 32 (fmtF32.encode .rne false (FP.div (.fin (decide (m < 0)) m.natAbs 0) (.fin false (10 ^ k) 0))).bits

/-- An fp32 elementary function of one operand, rounded to nearest (R61). -/
def f32fn (fn : VecFn) (x : F32) : F32 :=
  (elementaryOf fn (fmtF32.decode x.toNat) (.fin false 0 0)).round (fun v => BitVec.ofNat 32 (fmtF32.encode .rne false v).bits)

/-- The taps of a preset before the division by their sum (R205). -/
def rawTap (l i : Nat) : F32 :=
  let mid := (l - 1) / 2
  let m := f32sub (f32ofInt i) (f32ofInt mid)
  let half := f32dec 5 1
  let w := f32add half (f32mul half (f32fn .cos (f32div (f32mul (f32dec 62831855 7) m) (f32ofInt ((l : Int) + 1)))))
  let s := if i = mid then f32dec 4 1
    else f32div (f32fn .sin (f32mul (f32dec 12566371 7) m)) (f32mul (f32dec 31415927 7) m)
  f32mul w s

/-- The taps of a preset (R205). -/
def presetTaps (l : Nat) : List F32 :=
  let raw := (List.range l).map (rawTap l)
  let sum := raw.foldl f32add 0
  raw.map (fun h => f32div h sum)

/-- What a chain is: N, D and its taps (R203, R206). -/
structure ChainDef where
  n : Nat
  d : Nat
  taps : List F32
  deriving DecidableEq, Repr

/-- R, the decimation of the CIC. -/
def ChainDef.r (c : ChainDef) : Nat := c.d / 2

/-- The span in input samples (R204). -/
def ChainDef.span (c : ChainDef) : Nat := (c.taps.length - 1) * c.r + c.n * (c.r - 1)

/-- Settling outputs (R204): the ceiling of (span + 1) / D, less one. -/
def ChainDef.settling (c : ChainDef) : Nat := (c.span + 1 + c.d - 1) / c.d - 1

/-- N integrators accumulated in order, wrapping (R207). -/
def integrate : BitVec 64 → List (BitVec 64) → List (BitVec 64)
  | _, [] => []
  | x, i :: l => (i + x) :: integrate (i + x) l

/-- The combs: the output v and the new registers (R207). -/
def combs : BitVec 64 → List (BitVec 64) → BitVec 64 × List (BitVec 64)
  | v, [] => (v, [])
  | v, c :: l =>
    let r := combs (v - c) l
    (r.1, v :: r.2)

/-- The FIR: fma in tap order, newest first (R207). -/
def firSum (taps : List F32) (hist : List F64) : F64 :=
  (taps.zip hist).foldl (fun acc p => f64fma (f32ToF64 p.1) p.2 acc) 0

/-- 1 / R^N, exact (R207). -/
def ChainDef.scale (c : ChainDef) : F64 := f64ofDyadic 1 (-((c.n * Nat.log2 c.r : Nat) : Int))

/-- The DC-blocking stage (R213): z and the new estimate. -/
def dcBlock (g : ChannelSet) (settling : Bool) (e y : F64) : F64 × F64 :=
  if !g.dcOn then (y, e)
  else
    let z := f64sub y e
    (z, if !g.dcFrozen && !settling then f64fma (f64ofDyadic 1 (-(g.k : Int))) z e else e)

/-- The registers of a channel at a restart (R215, R216); e, the settings and the counts stand. -/
def Channel.restarted (x : Channel) (c : ChainDef) : Channel :=
  { x with
    integ := List.replicate c.n 0, comb := List.replicate c.n 0, hist := List.replicate c.taps.length 0
    n := 0, k := 0, outputs := 0, above := false, reported := false, windowEnd := none, crossing := none }

/-- One input of a chain as far as the scaled FIR output y: the registers, and y where an output is due (R207). -/
def Channel.input (x : Channel) (c : ChainDef) (v : BitVec 64) : Channel × Option F64 :=
  let integ := integrate v x.integ
  let x := { x with integ := integ, n := x.n + 1 }
  if x.n % c.r ≠ 0 then (x, none)
  else
    let r := combs (integ.getLastD 0) x.comb
    let x := { x with comb := r.2, hist := (f64ofInt r.1.toInt :: x.hist).take c.taps.length, k := x.k + 1 }
    if x.k % 2 ≠ 0 then (x, none)
    else (x, some (f64mul (firSum c.taps x.hist) c.scale))

/-! ## Thresholds (R216 to R218) -/

/-- A threshold event due: rising, deferred, the output that made the state, the suppressed count. -/
structure Crossed where
  rise : Bool
  deferred : Bool
  at_ : Crossing
  suppressed : Nat
  deriving DecidableEq, Repr

/-- The quantity compared (R216). -/
def ChannelSet.compared (g : ChannelSet) (v : F32) : F32 := if g.mode = 2 then v &&& 0x7FFFFFFF#32 else v

/-- The state after an output (R216). -/
def nextAbove (g : ChannelSet) (above : Bool) (v : F32) : Bool :=
  if above then !f32lt (g.compared v) g.lower else f32lt g.upper (g.compared v)

/-- An event written: it opens a hold-off window at the output (R217). -/
def Channel.wrote (x : Channel) (t : Nat) (deferred : Bool) (at_ : Crossing) : Channel × Option Crossed :=
  ({ x with
      reported := x.above
      windowEnd := if x.settings.holdOff = 0 then none else some (t + x.settings.holdOff * 1000000)
      held := 0
      rises := if x.above then satAdd 32 x.rises 1 else x.rises
      falls := if x.above then x.falls else satAdd 32 x.falls 1 },
   some { rise := x.above, deferred := deferred, at_ := at_, suppressed := x.held })

/-- The threshold state taken through an output that is not a settling one (R216, R217). -/
def Channel.threshold (x : Channel) (o : Crossing) : Channel × Option Crossed :=
  if x.settings.mode = 0 then (x, none)
  else
    let above := nextAbove x.settings x.above o.value
    let changed : Bool := above ≠ x.above
    let x := { x with above := above, crossing := if changed then some o else x.crossing }
    match x.windowEnd with
    | some w =>
      if o.time < w then
        (if changed then { x with held := satAdd 32 x.held 1, suppressed := satAdd 32 x.suppressed 1 } else x, none)
      else if changed then x.wrote o.time false o
      else if above ≠ x.reported then x.wrote o.time true (x.crossing.getD o)
      else ({ x with windowEnd := none }, none)
    | none => if changed then x.wrote o.time false o else (x, none)

end Sys2Proof.Machine
end

