-- ==== Sys2Proof/Machine/Num.lean ====
section
/-! DEFINITION. Integer formats, block-8, conversions with their events, seeded stochastic rounding, the reductions of
the multiply-accumulate array and the vector unit (R42 to R61). -/
namespace Sys2Proof.Machine

/-! ## Seeded stochastic rounding (R55, R56) -/

/-- mix of R55. -/
def mix (z : BitVec 64) : BitVec 64 :=
  let z := (z ^^^ (z >>> 30)) * 0xBF58476D1CE4E5B9#64
  let z := (z ^^^ (z >>> 27)) * 0x94D049BB133111EB#64
  z ^^^ (z >>> 31)

/-- sr_bits of R55. -/
def srBits (seed : BitVec 64) (site : Nat) (index : Nat) : BitVec 64 :=
  let k := mix (seed ^^^ (BitVec.ofNat 64 (site % 2 ^ 32) <<< 32))
  mix (k + BitVec.ofNat 64 index * 0x9E3779B97F4A7C15#64)

/-! ## Conversion sites (R49 to R54, R158, R159) -/

/-- The format of a code (R159). -/
def fmtOfCode (c : Nat) : Option OpFmt :=
  if c = 0x01 then some .int4 else if c = 0x02 then some .int8 else if c = 0x03 then some .int32
  else if c = 0x10 then some .e4m3 else if c = 0x11 then some .e5m2 else if c = 0x12 then some .bf16
  else if c = 0x13 then some .f16 else if c = 0x14 then some .f32 else if c = 0x15 then some .f64
  else if c = 0x20 then some .block8 else none

/-- The float format behind a format, if it is one. -/
def fmtFloat : OpFmt → Option FFmt
  | .e4m3 => some fmtE4M3
  | .e5m2 => some fmtE5M2
  | .bf16 => some fmtBf16
  | .f16 => some fmtF16
  | .f32 => some fmtF32
  | .f64 => some fmtF64
  | _ => none

/-- Bits of an element of an integer format (R42). -/
def fmtIntBits : OpFmt → Nat
  | .int4 => 4
  | .int8 => 8
  | _ => 32

/-- A conversion site (R158): seed, target, mode 0 RNE, 1 RTZ, 2 SR, saturation (0, 1, or 0xFF for the default). -/
structure Site where
  number : Nat
  seed : BitVec 64
  target : OpFmt
  mode : Nat
  saturate : Nat
  deriving DecidableEq, Repr

/-- The rounding of an element at a site; `offset` is the job's seed offset (R51, R55). -/
def Site.round (s : Site) (offset : BitVec 64) (index : Nat) : Round :=
  if s.mode = 2 then .sr (srBits (s.seed ^^^ offset) s.number index >>> 32).toNat
  else if s.mode = 1 then .rtz
  else .rne

/-- Whether a float site saturates: by default on for fp8 and off otherwise (R52). -/
def Site.saturates (s : Site) : Bool :=
  if s.saturate = 0xFF then (s.target = .e4m3 || s.target = .e5m2) else s.saturate = 1

/-- The numeric counters of a stage (R53, R60). -/
structure Events where
  saturations : Nat := 0
  nanProduced : Nat := 0
  nanToZero : Nat := 0
  accWrap : Nat := 0
  deriving DecidableEq, Repr

/-- Counters added, saturating at 2^32 - 1 (R174). -/
def Events.add (a b : Events) : Events :=
  { saturations := satAdd 32 a.saturations b.saturations, nanProduced := satAdd 32 a.nanProduced b.nanProduced
    nanToZero := satAdd 32 a.nanToZero b.nanToZero, accWrap := satAdd 32 a.accWrap b.accWrap }

/-- A value as an element of an integer target, saturated (R52); -0 and NaN give 0. -/
def narrowInt (bits : Nat) (mode : Round) (x : FP) : Int × Events :=
  let lo : Int := -(2 ^ (bits - 1) : Nat)
  let hi : Int := (2 ^ (bits - 1) : Nat) - 1
  match x.toInt mode with
  | .inl none => (0, { nanToZero := 1 })
  | .inr neg => (if neg then lo else hi, { saturations := 1 })
  | .inl (some i) =>
    if i < lo then (lo, { saturations := 1 }) else if hi < i then (hi, { saturations := 1 }) else (i, {})

/-- One element narrowed at a site: the bits of the target and the events (R51 to R53). -/
def Site.narrow (s : Site) (offset : BitVec 64) (index : Nat) (x : FP) : Nat × Events :=
  let mode := s.round offset index
  match fmtFloat s.target with
  | some f =>
    let r := f.encode mode s.saturates x
    (r.bits, { saturations := flag r.saturated })
  | none =>
    let r := narrowInt (fmtIntBits s.target) mode x
    (ofInt (fmtIntBits s.target) r.1, r.2)

/-- A block of Ikirnoaz block-8: exponent and 32 mantissas (R47). -/
structure Block8 where
  e : Nat
  m : List Int
  deriving DecidableEq, Repr

/-- pack_b8 (R49, R52, R56): `mode` gives the rounding of element i. In a block that an infinity or a NaN makes NaN, each element
that was not itself a NaN counts as a NaN produced (R53; log 147). -/
def packB8 (mode : Nat → Round) (x : List FP) : Block8 × Events :=
  let zero : Block8 := { e := 0, m := List.replicate 32 0 }
  if x.any (fun v => match v with | .fin _ _ _ => false | _ => true) then
    ({ e := 0xFF, m := List.replicate 32 0 }, { nanProduced := (x.filter (fun v => !v.isNan)).length })
  else
    let mags : List (Nat × Int) := x.filterMap (fun v => match v with
      | .fin _ m e => if m = 0 then none else some (m, e)
      | _ => none)
    match mags with
    | [] => (zero, {})
    | a :: l =>
      let top := l.foldl (fun t v => max t ((Nat.log2 v.1 : Int) + v.2)) ((Nat.log2 a.1 : Int) + a.2)
      let E := max (top + 127) 1
      let q := E - 133
      let ms := (List.range 32).map (fun i =>
        match x.getD i (.fin false 0 0) with
        | .fin neg m e =>
          let n := roundAt (mode i) m e q
          let n' := min n 127
          ((if neg then -(n' : Int) else n'), flag (n' < n))
        | _ => ((0 : Int), 0))
      let ints := ms.map (·.1)
      if ints.all (· = 0) then (zero, { saturations := ms.foldl (fun a v => a + v.2) 0 })
      else ({ e := E.toNat, m := ints }, { saturations := ms.foldl (fun a v => a + v.2) 0 })

/-- unpack_b8: each element as an fp32 value (R47, R49). A mantissa of -128 at E = 0xFE stands for -2^128, which is no fp32 value
and for which the manual states no result: it overflows to -∞ as R52 has it without saturation (DESIGN CHOICE, log 148). -/
def unpackB8 (b : Block8) : List F32 :=
  (List.range 32).map (fun i =>
    if b.e = 0 then 0
    else if b.e = 0xFF then BitVec.ofNat 32 fmtF32.nan
    else
      let m := b.m.getD i 0
      BitVec.ofNat 32 (fmtF32.roundPack .rne false (decide (m < 0)) m.natAbs ((b.e : Int) - 133)).bits)

/-! ## Reductions of the array (R58 to R60) -/

/-- An integer reduction: the wrapped accumulator and whether the true sum left the int32 range (R59, R60). -/
def reduceInt (acc : Int) (a b : List Int) : Int × Bool :=
  let sum := (a.zip b).foldl (fun s p => s + p.1 * p.2) acc
  (toInt 32 (ofInt 32 sum), decide (sum < -(2 ^ 31 : Nat)) || decide ((2 ^ 31 : Nat) - 1 < sum))

/-- The exact sum of a chunk's products with the special values of R60. -/
def chunkSum : List (FP × FP) → FP
  | [] => .fin false 0 0
  | (a, b) :: l => (a.mul b).add (chunkSum l)

/-- An fp32 value rounded from an exact one, as a decoded value. -/
def roundF32 (x : FP) : FP := fmtF32.decode (fmtF32.encode .rne false x).bits

/-- fp32 addition on decoded values. -/
def addF32 (x y : FP) : FP := roundF32 (x.add y)

/-- Chunked reduction: 32 products at a time, each chunk summed exactly and rounded once (R59). The fuel is the number
of chunks. -/
def reduceChunked : Nat → FP → List (FP × FP) → FP
  | 0, acc, _ => acc
  | n + 1, acc, l =>
    if l.isEmpty then acc
    else reduceChunked n (addF32 acc (roundF32 (chunkSum (l.take 32)))) (l.drop 32)

/-- Chained reduction of fp32 operands (R59). -/
def reduceChained : FP → List (FP × FP) → FP
  | acc, [] => acc
  | acc, (a, b) :: l => reduceChained (roundF32 ((a.mul b).add acc)) l

/-- One block pair's contribution (R59, R60). Of a pair with one exponent 0xFF and the other 0x00, which R60 gives both a NaN and
+0, the model makes a NaN (DESIGN CHOICE, log 149). -/
def blockTerm (a b : Block8) : FP :=
  if a.e = 0xFF || b.e = 0xFF then .nan
  else if a.e = 0 || b.e = 0 then .fin false 0 0
  else
    let m := (a.m.zip b.m).foldl (fun s p => s + p.1 * p.2) (0 : Int)
    roundF32 (.fin (decide (m < 0)) m.natAbs ((a.e : Int) + b.e - 266))

/-- Block reduction (R59). -/
def reduceBlock : FP → List (Block8 × Block8) → FP
  | acc, [] => acc
  | acc, (a, b) :: l => reduceBlock (addF32 acc (blockTerm a b)) l

/-- Cycles of an operation of M rows, N columns and reduction length K, times two (R117): `c2` is twice the cycles of a
reduction element. -/
def tileCycles2 (m n k c2 : Nat) : Nat := ((m + 31) / 32) * ((n + 31) / 32) * ((k + 31) / 32) * 32 * c2

end Sys2Proof.Machine
end

