-- ==== Sys2Proof/Machine/ImageFmt.lean ====
section
/-! DEFINITION. The layout of a pipeline image and its checks (R153 to R162). -/
namespace Sys2Proof.Machine

/-- SRAM of a carrel in bytes (R122). -/
def sramBytes : Nat := 393216

/-! ## Parts (R153 to R160) -/

def imgStages (b : Bytes) : Nat := fldB b 18 2
def imgEdges (b : Bytes) : Nat := fldB b 20 2
def imgSites (b : Bytes) : Nat := fldB b 22 2
def imgSections (b : Bytes) : Nat := fldB b 24 2
def imgLen (b : Bytes) : Nat := fldB b 8 4
def imgCarrels (b : Bytes) : Nat := fldB b 26 2
def imgStackBytes (b : Bytes) : Nat := fldB b 28 4
def imgStateful (b : Bytes) : Bool := (fldB b 6 2).testBit 0

/-- Where the edge table begins. -/
def edgeTable (b : Bytes) : Nat := 128 + 64 * imgStages b

/-- Where the site table begins. -/
def siteTable (b : Bytes) : Nat := up64 (edgeTable b + 32 * imgEdges b)

/-- Where the section table begins. -/
def sectionTable (b : Bytes) : Nat := up64 (siteTable b + 16 * imgSites b)

/-- Where the section data may begin. -/
def sectionData (b : Bytes) : Nat := sectionTable b + 64 * imgSections b

/-- A stage entry (R155). -/
structure StageEnt where
  kind : Nat
  width : Nat
  code : Nat
  const : Nat
  weight : Nat
  buffer : Nat
  grant : Nat
  firstSection : Nat
  sections : Nat
  firstSite : Nat
  sites : Nat
  deriving DecidableEq, Repr

/-- Stage `s` of an image. -/
def stageEnt (b : Bytes) (s : Nat) : StageEnt :=
  let o := 128 + 64 * s
  { kind := fldB b o 1, width := fldB b (o + 2) 2, code := fldB b (o + 4) 4, const := fldB b (o + 8) 4
    weight := fldB b (o + 12) 4, buffer := fldB b (o + 16) 4, grant := fldB b (o + 20) 4
    firstSection := fldB b (o + 24) 2, sections := fldB b (o + 26) 2
    firstSite := fldB b (o + 28) 2, sites := fldB b (o + 30) 2 }

/-- Every stage of an image, stage 0 first. -/
def stageEnts (b : Bytes) : List StageEnt := (List.range (imgStages b)).map (stageEnt b)

/-- An edge entry (R157). -/
structure EdgeEnt where
  from_ : Nat
  to_ : Nat
  medium : Nat
  slots : Nat
  slotBytes : Nat
  bufOffset : Nat
  fan : Nat
  deriving DecidableEq, Repr

/-- Edge `e` of an image. -/
def edgeEnt (b : Bytes) (e : Nat) : EdgeEnt :=
  let o := edgeTable b + 32 * e
  { from_ := fldB b o 1, to_ := fldB b (o + 1) 1, medium := fldB b (o + 2) 1, slots := fldB b (o + 3) 1
    slotBytes := fldB b (o + 4) 4, bufOffset := fldB b (o + 8) 4, fan := fldB b (o + 12) 1 }

/-- Every edge of an image. -/
def edgeEnts (b : Bytes) : List EdgeEnt := (List.range (imgEdges b)).map (edgeEnt b)

/-- The image's input edges in input order, and its output edges in output order (R157). -/
def inputEdges (b : Bytes) : List EdgeEnt := (edgeEnts b).filter (fun e => e.from_ == 0xFF)
def outputEdges (b : Bytes) : List EdgeEnt := (edgeEnts b).filter (fun e => e.to_ == 0xFF)

/-- Site `n` of an image (R158); an unknown format reads as fp32, which the checks refuse. -/
def siteEnt (b : Bytes) (n : Nat) : Site :=
  let o := siteTable b + 16 * n
  { number := n, seed := BitVec.ofNat 64 (fldB b o 8), target := (fmtOfCode (fldB b (o + 8) 1)).getD .f32
    mode := fldB b (o + 9) 1, saturate := fldB b (o + 10) 1 }

/-- A section entry (R160). -/
structure SectionEnt where
  type : Nat
  stage : Nat
  slot : Nat
  sram : Nat
  length : Nat
  data : Nat
  digest : Bytes
  deriving DecidableEq, Repr

/-- Section `n` of an image. -/
def sectionEnt (b : Bytes) (n : Nat) : SectionEnt :=
  let o := sectionTable b + 64 * n
  { type := fldB b o 1, stage := fldB b (o + 1) 1, slot := fldB b (o + 2) 2, sram := fldB b (o + 4) 4
    length := fldB b (o + 8) 4, data := fldB b (o + 12) 4, digest := (b.drop (o + 32)).take 32 }

/-- The sections of a stage's slot in table order: its own, and those of every slot (R160, R167). -/
def slotSections (b : Bytes) (stage slot : Nat) : List SectionEnt :=
  let e := stageEnt b stage
  ((List.range e.sections).map (fun i => sectionEnt b (e.firstSection + i))).filter
    (fun x => x.slot == 0xFFFF || x.slot == slot)

/-- The bytes of a section. -/
def sectionBytes (b : Bytes) (x : SectionEnt) : Bytes := (b.drop x.data).take x.length

/-! ## Footprint and spill (R155, R162) -/

/-- F of a slot (R155). -/
def StageEnt.footprint (e : StageEnt) : Nat := e.code + e.const + e.weight + e.buffer

/-- What R162 makes of a footprint. -/
inductive Footprint where
  | resident | spilled | tooLarge
  deriving DecidableEq, Repr

/-- The outcome of R162 for a stage. -/
def StageEnt.outcome (e : StageEnt) : Footprint :=
  if e.footprint ≤ sramBytes then .resident
  else if e.footprint ≤ 491520 && decide (e.code + e.const + e.buffer + 32768 ≤ sramBytes) then .spilled
  else .tooLarge

/-- Whether a section holds weights (R160). -/
def SectionEnt.isWeight (x : SectionEnt) : Bool := decide (2 ≤ x.type)

/-- The sections kept resident: weights in table order while each fits whole in what is left, and none after the first
that does not; everything else always (R162). -/
def keepResident : Nat → Bool → List SectionEnt → List SectionEnt
  | _, _, [] => []
  | left, full, x :: l =>
    if !x.isWeight then x :: keepResident left full l
    else if full || decide (left < x.length) then keepResident left true l
    else x :: keepResident (left - x.length) false l

/-- The resident sections of a stage's slot (R162). -/
def residentSections (b : Bytes) (stage slot : Nat) : List SectionEnt :=
  let e := stageEnt b stage
  match e.outcome with
  | .spilled => keepResident (360448 - e.code - e.const - e.buffer) false (slotSections b stage slot)
  | _ => slotSections b stage slot

/-- S of a slot: the total length of its weight sections that stay in the Stack (R162). -/
def spilledBytes (b : Bytes) (stage slot : Nat) : Nat :=
  let total (l : List SectionEnt) : Nat := l.foldl (fun a x => a + x.length) 0
  total (slotSections b stage slot) - total (residentSections b stage slot)

/-- Whether a stage is spilled. -/
def stageSpilled (b : Bytes) (stage : Nat) : Bool := (stageEnt b stage).outcome == .spilled

/-- The stages that are spilled. -/
def spilledStages (b : Bytes) : Nat := ((List.range (imgStages b)).filter (stageSpilled b)).length

/-- The (stage, slot) pairs of an image, in order. -/
def imageSlots (b : Bytes) : List (Nat × Nat) :=
  (List.range (imgStages b)).flatMap (fun s => (List.range (stageEnt b s).width).map (fun i => (s, i)))

/-- Spilled bytes of all slots. -/
def imageSpill (b : Bytes) : Nat := (imageSlots b).foldl (fun a p => a + spilledBytes b p.1 p.2) 0

/-! ## Edges by slot (R144, R147, R157) -/

/-- The producer and consumer slots that an edge joins, by FAN and the two widths. With FAN 0 between stages of unequal width,
which the manual does not exclude, the slots up to the smaller width are joined (DESIGN CHOICE, log 151). -/
def fanPairs (fan wFrom wTo : Nat) : List (Nat × Nat) :=
  if fan = 0 then (List.range (min wFrom wTo)).map (fun i => (i, i))
  else if fan = 1 then (List.range wFrom).flatMap (fun i => (List.range wTo).map (fun k => (i, k)))
  else if fan = 2 then (List.range wFrom).map (fun i => (i, 0))
  else (List.range wTo).map (fun k => (0, k))

/-- The width of an edge's end; outside the image it is one place. -/
def endWidth (b : Bytes) (s : Nat) : Nat := if s = 0xFF then 1 else (stageEnt b s).width

/-- The inputs of a stage's slot: edge number, producer slot, hand-over slots (R144, R157). -/
def slotInputs (b : Bytes) (stage slot : Nat) : List (Nat × Nat × Nat) :=
  (List.range (imgEdges b)).flatMap (fun i =>
    let e := edgeEnt b i
    if e.to_ = stage then
      ((fanPairs e.fan (endWidth b e.from_) (endWidth b stage)).filter (fun p => p.2 == slot)).map
        (fun p => (i, p.1, e.slots))
    else [])

/-- The outputs of a stage's slot: edge number, consumer slot, hand-over slots. -/
def slotOutputs (b : Bytes) (stage slot : Nat) : List (Nat × Nat × Nat) :=
  (List.range (imgEdges b)).flatMap (fun i =>
    let e := edgeEnt b i
    if e.from_ = stage then
      ((fanPairs e.fan (endWidth b stage) (endWidth b e.to_)).filter (fun p => p.1 == slot)).map
        (fun p => (i, p.2, e.slots))
    else [])

/-! ## Stack ranges (R126, R154) -/

/-- The stages' grants, stage by stage and slot by slot, and then the ranges of the Stack edges, one after another: where the
grant of a slot begins (log 150). -/
def grantStart (b : Bytes) (stage slot : Nat) : Nat :=
  ((stageEnts b).take stage).foldl (fun a e => a + e.grant * e.width) 0 + (stageEnt b stage).grant * slot

/-- The end of the stages' grants. -/
def grantsEnd (b : Bytes) : Nat := (stageEnts b).foldl (fun a e => a + e.grant * e.width) 0

/-- Where the range of a Stack edge begins. -/
def edgeStart (b : Bytes) (edge : Nat) : Nat :=
  ((edgeEnts b).take edge).foldl (fun a e => if e.medium = 1 then a + e.slots * e.slotBytes else a) (grantsEnd b)

/-! ## The checks of step 4 of R167 -/

/-- Bytes of a run from `o` on for `n` bytes are zero. -/
def clearRun (b : Bytes) (o n : Nat) : Bool := allZero ((b.drop o).take n)

/-- A sum of a field over the stages. -/
def sumStages (b : Bytes) (f : StageEnt → Nat) : Nat := (stageEnts b).foldl (fun a e => a + f e) 0

/-- The header's counts and fields (R154). -/
def headerOk (b : Bytes) : Bool :=
  fldB b 0 4 = 0x5A4B5049 && fldB b 4 2 = 1 && bitsOf (fldB b 6 2) 15 1 = 0 && imgLen b % 64 = 0 &&
    decide (1 ≤ imgStages b) && decide (imgStages b ≤ 64) && decide (1 ≤ imgEdges b) && decide (imgEdges b ≤ 256) &&
    decide (imgSites b ≤ 4096) && decide (1 ≤ imgSections b) && decide (imgSections b ≤ 4096) &&
    decide (1 ≤ imgCarrels b) && decide (imgCarrels b ≤ 256) && imgCarrels b = sumStages b (·.width) &&
    clearRun b 72 56 && decide (sectionData b + 2880 ≤ b.length) && b.length = imgLen b

/-- STACK_BYTES: the stages' grants of every slot and the ranges of the Stack edges (R154). The manual does not say how large an
edge's range is: SLOTS × SLOT_BYTES once, whatever its FAN and the widths (DESIGN CHOICE, log 152). -/
def stackBytesOk (b : Bytes) : Bool :=
  imgStackBytes b = sumStages b (fun e => e.grant * e.width) +
    ((edgeEnts b).filter (fun e => e.medium == 1)).foldl (fun a e => a + e.slots * e.slotBytes) 0

/-- A stage entry (R155, R156). -/
def stageOk (b : Bytes) (s : Nat) : Bool :=
  let e := stageEnt b s
  decide (1 ≤ e.kind) && decide (e.kind ≤ 4) && fldB b (129 + 64 * s) 1 = 0 && decide (1 ≤ e.width) &&
    decide (e.width ≤ 256) && [e.code, e.const, e.weight, e.buffer, e.grant].all (· % 64 = 0) &&
    decide (e.grant ≤ 16 * 1024 * 1024) && decide (e.firstSection + e.sections ≤ imgSections b) &&
    decide (e.firstSite + e.sites ≤ imgSites b) && clearRun b (160 + 64 * s) 32

/-- An edge entry (R157). -/
def edgeOk (b : Bytes) (i : Nat) : Bool :=
  let e := edgeEnt b i
  let inside (x : Nat) : Bool := decide (x < imgStages b)
  (inside e.from_ || e.from_ = 0xFF) && (inside e.to_ || e.to_ = 0xFF) && !(e.from_ = 0xFF && e.to_ = 0xFF) &&
    decide (e.medium ≤ 1) && decide (2 ≤ e.slots) && decide (e.slots ≤ 16) && e.slotBytes % 64 = 0 &&
    decide (e.slotBytes ≤ if e.medium = 0 then 131072 else 16 * 1024 * 1024) &&
    (e.medium = 0 || e.bufOffset = 0) && decide (e.fan ≤ 3) && clearRun b (edgeTable b + 32 * i + 13) 19 &&
    (if e.from_ = 0xFF then (if (stageEnt b e.to_).width = 1 then e.fan = 0 else e.fan = 3)
     else if e.to_ = 0xFF then (if (stageEnt b e.from_).width = 1 then e.fan = 0 else e.fan = 2)
     else true) &&
    (e.medium = 1 || e.to_ = 0xFF ||
      (decide (e.slots * e.slotBytes ≤ (stageEnt b e.to_).buffer) &&
        decide (e.bufOffset + e.slots * e.slotBytes ≤ sramBytes)))

/-- Whether a target ignores SATURATE: fp8 E4M3, the integers and Ikirnoaz block-8 (R158). -/
def ignoresSaturate (f : OpFmt) : Bool := f = .e4m3 || f = .int4 || f = .int8 || f = .int32 || f = .block8

/-- A site entry (R158, R159): SATURATE takes one of its values, or the target ignores it. -/
def siteOk (b : Bytes) (n : Nat) : Bool :=
  let o := siteTable b + 16 * n
  (fmtOfCode (fldB b (o + 8) 1)).isSome && decide (fldB b (o + 9) 1 ≤ 2) &&
    (decide (fldB b (o + 10) 1 ≤ 1) || fldB b (o + 10) 1 = 0xFF || ignoresSaturate (siteEnt b n).target) && clearRun b (o + 11) 5

/-- A section entry (R160). -/
def sectionOk (b : Bytes) (n : Nat) : Bool :=
  let x := sectionEnt b n
  decide (x.type ≤ 4) && decide (x.stage < imgStages b) &&
    (x.slot = 0xFFFF || decide (x.slot < (stageEnt b x.stage).width)) && x.sram % 32 = 0 && x.length % 64 = 0 &&
    x.data % 64 = 0 && decide (sectionData b ≤ x.data) && decide (x.data + x.length + 2880 ≤ b.length) &&
    clearRun b (sectionTable b + 64 * n + 16) 16

/-- Whether two ranges share no byte. -/
def apart (a n c m : Nat) : Bool := decide (a + n ≤ c) || decide (c + m ≤ a)

/-- No two ranges of a list overlap. -/
def allApart : List (Nat × Nat) → Bool
  | [] => true
  | r :: l => l.all (fun q => apart r.1 r.2 q.1 q.2) && allApart l

/-- The SRAM ranges of a slot: its resident sections and its hand-over buffers (R157, R160). -/
def slotRanges (b : Bytes) (stage slot : Nat) : List (Nat × Nat) :=
  (residentSections b stage slot).map (fun x => (x.sram, x.length)) ++
    ((edgeEnts b).filter (fun e => e.to_ == stage && e.medium == 0)).map (fun e => (e.bufOffset, e.slots * e.slotBytes))

/-- The layout of a slot (R160, R162). -/
def slotOk (b : Bytes) (stage slot : Nat) : Bool :=
  let r := slotRanges b stage slot
  (stageEnt b stage).outcome = .tooLarge || (allApart r && r.all (fun q => decide (q.1 + q.2 ≤ sramBytes)))

/-- The sections of a stage are its run of the section table and no others (R155, R160). -/
def ownSections (b : Bytes) (s : Nat) : Bool :=
  let e := stageEnt b s
  (List.range (imgSections b)).all (fun i =>
    ((sectionEnt b i).stage == s) == (decide (e.firstSection ≤ i) && decide (i < e.firstSection + e.sections)))

/-- The bytes of a slot's sections of one kind: code, constants or weights (R155, R160). -/
def sectionTotal (l : List SectionEnt) (p : SectionEnt → Bool) : Nat := (l.filter p).foldl (fun a x => a + x.length) 0

/-- CODE_BYTES, CONST_BYTES and WEIGHT_BYTES are what a slot's sections of each type hold (R155, R160; log 154). -/
def totalsOk (b : Bytes) (stage slot : Nat) : Bool :=
  let e := stageEnt b stage
  let l := slotSections b stage slot
  sectionTotal l (·.type == 0) = e.code && sectionTotal l (·.type == 1) = e.const && sectionTotal l (·.isWeight) = e.weight

/-- The hand-over buffers of a consumer together lie within its BUFFER_BYTES (R157). -/
def buffersOk (b : Bytes) (s : Nat) : Bool :=
  decide ((((edgeEnts b).filter (fun e => e.to_ == s && e.medium == 0)).foldl (fun a e => a + e.slots * e.slotBytes) 0) ≤
    (stageEnt b s).buffer)

/-- The signature block's zero fields (R161). -/
def sigBlockOk (b : Bytes) : Bool :=
  clearRun b (b.length - 2876) 4 && clearRun b (b.length - 52) 52

/-- Step 4 of R167: every count, field, check and placement rule of R153 to R161. -/
def imageFormOk (b : Bytes) : Bool :=
  headerOk b && stackBytesOk b && sigBlockOk b &&
    (List.range (imgStages b)).all (fun s => stageOk b s && ownSections b s && buffersOk b s) &&
    (List.range (imgEdges b)).all (edgeOk b) && (List.range (imgSites b)).all (siteOk b) &&
    (List.range (imgSections b)).all (sectionOk b) && (imageSlots b).all (fun p => slotOk b p.1 p.2 && totalsOk b p.1 p.2) &&
    decide (1 ≤ (inputEdges b).length) && decide ((inputEdges b).length ≤ 16) &&
    decide (1 ≤ (outputEdges b).length) && decide ((outputEdges b).length ≤ 16) &&
    clearRun b (edgeTable b + 32 * imgEdges b) (siteTable b - edgeTable b - 32 * imgEdges b) &&
    clearRun b (siteTable b + 16 * imgSites b) (sectionTable b - siteTable b - 16 * imgSites b)

/-- The stepping that runs is A0, bit 0 (R154). -/
def deviceOk (b : Bytes) : Bool := fldB b 12 4 = 0x88000026 && (fldB b 16 2).testBit 0

/-- The bytes of a run's inputs or outputs: the SLOT_BYTES of each edge (R169). -/
def edgeBytes (l : List EdgeEnt) : Nat := l.foldl (fun a e => a + up64 e.slotBytes) 0

end Sys2Proof.Machine
end

