-- ==== Sys2Proof/Machine/Rectify.lean ====
section
/-! DEFINITION. Planes, rectification tables, the band and the pyramid (R226 to R237). -/
namespace Sys2Proof.Machine

/-- The unmapped sample (R226). -/
def unmapped : Nat := 0xFFFF

/-- A sample that has not been received, in the lines of a frame under assembly. -/
def missing : Nat := 4096

/-- Row pitch of a plane of u16 samples (R226). -/
def planePitch (w : Nat) : Nat := up64 (2 * w)

/-- A received sample scaled to 12 bits (R227). -/
def scale12 (depth s : Nat) : Nat :=
  if depth = 8 then (s * 16) ||| (s / 16) else if depth = 10 then (s * 4) ||| (s / 256) else s

/-- A received line of a frame. -/
def Frame.line (f : Frame) (y : Nat) : Option (List Nat) := amGet f.lines y

/-- The scaled sample S(x, y); what has not been received reads as 0 (R189, R227). -/
def Frame.sample (f : Frame) (x y : Nat) : Nat :=
  match f.line y with
  | none => 0
  | some l => (fun v => if v = missing then 0 else v) (l.getD x 0)

/-- Whether a line has been wholly received (R189). -/
def Frame.whole (f : Frame) (y : Nat) : Bool :=
  match f.line y with
  | none => false
  | some l => l.all (· ≠ missing)

/-- The luma of R227. -/
def Frame.luma (f : Frame) (d : StreamDesc) (x y : Nat) : Nat :=
  if d.sampling = 2 then
    let x1 := min (x + 1) (d.width - 1)
    let y1 := min (y + 1) (d.height - 1)
    (f.sample x y + f.sample x1 y + f.sample x y1 + f.sample x1 y1 + 2) / 4
  else f.sample x y

/-! ## Tables (R230 to R232) -/

def Remap.nodesX (r : Remap) : Nat := (r.outW - 1) / 2 ^ r.g + 2
def Remap.nodesY (r : Remap) : Nat := (r.outH - 1) / 2 ^ r.g + 2

/-- Node (i, j) (R230). -/
def Remap.node (r : Remap) (i j : Nat) : Option (Int × Int) := r.nodes.getD (j * r.nodesX + i) none

/-- Bilinear interpolation between four nodes' coordinates, shifted (R231). -/
def nodeMix (g : Nat) (a b c d fx fy : Int) : Int :=
  let G : Int := 2 ^ g
  ((a * (G - fx) + b * fx) * (G - fy) + (c * (G - fx) + d * fx) * fy).fdiv (2 ^ (2 * g))

/-- (sx, sy) of an output sample; none where it is unmapped (R231). -/
def Remap.source (r : Remap) (x y : Nat) : Option (Nat × Nat) :=
  let G := 2 ^ r.g
  let i := x / G
  let j := y / G
  match r.node i j, r.node (i + 1) j, r.node i (j + 1), r.node (i + 1) (j + 1) with
  | some a, some b, some c, some d =>
    let fx : Int := (x % G : Nat)
    let fy : Int := (y % G : Nat)
    let sx := nodeMix r.g a.1 b.1 c.1 d.1 fx fy
    let sy := nodeMix r.g a.2 b.2 c.2 d.2 fx fy
    if sx < 0 || sy < 0 || (256 * ((r.srcW : Int) - 1)) < sx || (256 * ((r.srcH : Int) - 1)) < sy then none
    else some (sx.toNat, sy.toNat)
  | _, _, _, _ => none

/-- lo(y) and hi(y) of an output row; none for a row that needs no source row (R232). -/
def Remap.rowNeeds (r : Remap) (y : Nat) : Option (Nat × Nat) :=
  match (List.range r.outW).filterMap (fun x => (r.source x y).map (fun p => p.2 / 256)) with
  | [] => none
  | v :: vs => some (vs.foldl min v, min (vs.foldl max v + 1) (r.srcH - 1))

/-- lo and hi of every output row. -/
def Remap.needs (r : Remap) : List (Option (Nat × Nat)) := (List.range r.outH).map r.rowNeeds

/-- H(y) + 1 for each row, 0 where no row up to y needs a source row (R232). -/
def runningHigh : Nat → List (Option (Nat × Nat)) → List Nat
  | _, [] => []
  | h, none :: l => h :: runningHigh h l
  | h, some p :: l => max h (p.2 + 1) :: runningHigh (max h (p.2 + 1)) l

/-- Lo(y) for each row; none where no row from y on needs a source row (R232). -/
def runningLow : List (Option (Nat × Nat)) → List (Option Nat)
  | [] => []
  | a :: l =>
    let rest := runningLow l
    let below := rest.headD none
    (match a, below with
      | none, b => b
      | some p, none => some p.1
      | some p, some b => some (min p.1 b)) :: rest

/-- The band of a table (R232). -/
def bandOf (needs : List (Option (Nat × Nat))) : Nat :=
  let hs := runningHigh 0 needs
  let ls := runningLow needs
  (List.range needs.length).foldl (fun b y =>
    match needs.getD y none, ls.getD y none with
    | some _, some lo => max b (natAt hs y - lo)
    | _, _ => b) 2

/-! ## The level-0 plane (R228, R231, R233, R235) -/

/-- Rows that the fall-back band of SRAM holds (R235). -/
def sramBandRows (srcW : Nat) : Nat := max 2 (65536 / planePitch srcW)

/-- The value of an output sample from the frame as it stands (R231). Under the fall-back band, a sample whose source rows
have left the band is unmapped (R235). -/
def Remap.rectify (r : Remap) (d : StreamDesc) (f : Frame) (x y : Nat) : Nat :=
  match r.source x y with
  | none => unmapped
  | some (sx, sy) =>
    let ix := sx / 256
    let ax := sx % 256
    let iy := sy / 256
    let ay := sy % 256
    let ix1 := min (ix + 1) (r.srcW - 1)
    let iy1 := min (iy + 1) (r.srcH - 1)
    if f.bandSram && decide (iy + sramBandRows r.srcW ≤ f.top) then unmapped
    else
      let v := f.luma d ix iy * (256 - ax) * (256 - ay) + f.luma d ix1 iy * ax * (256 - ay) +
        f.luma d ix iy1 * (256 - ax) * ay + f.luma d ix1 iy1 * ax * ay
      (v + 32768) / 65536

/-- A row of the level-0 plane. -/
def Remap.row (r : Remap) (d : StreamDesc) (f : Frame) (y : Nat) : List Nat := (List.range r.outW).map (fun x => r.rectify d f x y)

/-- Rows produced from the next one on while `go` holds of them. -/
def produceWhile (r : Remap) (d : StreamDesc) (go : Nat → Bool) : Nat → Frame → Frame
  | 0, f => f
  | n + 1, f =>
    let y := f.rows.length
    if decide (y < r.outH) && go y then produceWhile r d go n { f with rows := f.rows ++ [r.row d f y] } else f

/-- Whether a row of luma is whole: a row of a Bayer mosaic takes the line below it too (R227). -/
def Frame.wholeLuma (f : Frame) (d : StreamDesc) (y : Nat) : Bool :=
  f.whole y && (d.sampling ≠ 2 || f.whole (min (y + 1) (d.height - 1)))

/-- Source rows whole from row 0 on. -/
def wholePrefix (f : Frame) (d : StreamDesc) : Nat → Nat → Nat
  | 0, y => y
  | n + 1, y => if f.wholeLuma d y then wholePrefix f d n (y + 1) else y

/-- Every row produced whose source rows up to H(y) are whole (R233). -/
def produceReady (r : Remap) (d : StreamDesc) (f : Frame) : Frame :=
  let hs := runningHigh 0 r.needs
  let w := wholePrefix f d d.height 0
  produceWhile r d (fun y => decide (natAt hs y ≤ w)) r.outH f

/-- Pending rows produced until a source row fits in the band (R233). -/
def produceForced (r : Remap) (d : StreamDesc) (line : Nat) (f : Frame) : Frame :=
  let ls := runningLow r.needs
  produceWhile r d (fun y => match ls.getD y none with
    | none => false
    | some lo => decide (lo + r.band ≤ line)) r.outH f

/-- The level-0 plane at the close of a frame (R228, R233). -/
def closePlane (r : Option Remap) (d : StreamDesc) (f : Frame) : Frame :=
  match r with
  | none => { f with rows := (List.range d.height).map (fun y => (List.range d.width).map (fun x => f.luma d x y)) }
  | some r => produceWhile r d (fun _ => true) r.outH f

/-! ## The pyramid (R236, R237) -/

/-- A plane as rows of samples. -/
abbrev Plane := List (List Nat)

/-- Sample (x, y) of a plane. -/
def planeAt (p : Plane) (x y : Nat) : Nat := (p.getD y []).getD x 0

/-- Coordinates clamped to a plane's range. -/
def clampTo (n : Nat) (i : Int) : Nat := min i.toNat (n - 1)

/-- Weights of R237. -/
def pyramidWeight (a : Nat) : Nat := natAt [1, 4, 6, 4, 1] a

/-- A sample of the next level (R237). -/
def reduceAt (p : Plane) (w h x y : Nat) : Nat :=
  let vs := (List.range 5).flatMap (fun b => (List.range 5).map (fun a =>
    (pyramidWeight a * pyramidWeight b,
     planeAt p (clampTo w (2 * (x : Int) + a - 2)) (clampTo h (2 * (y : Int) + b - 2)))))
  if vs.any (fun v => v.2 == unmapped) then unmapped
  else (vs.foldl (fun s v => s + v.1 * v.2) 0 + 128) / 256

/-- Width and height of each level built, level 0 first (R236). -/
def levelSizes : Nat → Nat → Nat → List (Nat × Nat)
  | 0, _, _ => []
  | n + 1, w, h =>
    let w1 := (w + 1) / 2
    let h1 := (h + 1) / 2
    (w, h) :: (if decide (16 ≤ w1) && decide (16 ≤ h1) then levelSizes n w1 h1 else [])

/-- The levels of a pyramid, level 0 first. -/
def pyramid : Nat → Nat → Nat → Plane → List Plane
  | 0, _, _, _ => []
  | n + 1, w, h, p =>
    let w1 := (w + 1) / 2
    let h1 := (h + 1) / 2
    p :: (if decide (16 ≤ w1) && decide (16 ≤ h1) then
        pyramid n w1 h1 ((List.range h1).map (fun y => (List.range w1).map (fun x => reduceAt p w h x y)))
      else [])

/-- Pyramid bytes of a plane under LEVELS (R245). -/
def pyramidBytes (levels w h : Nat) : Nat := (levelSizes levels w h).foldl (fun a s => a + planePitch s.1 * s.2) 0

/-- Field bytes of a plane (R244, R245). -/
def fieldBytes (w h : Nat) : Nat := 64 + up64 (4 * w) * h

/-- Bytes of a frame buffer: the plane and the 64-byte descriptor (R190, R228). -/
def frameBufferBytes (w h : Nat) : Nat := planePitch w * h + 64

end Sys2Proof.Machine
end

