-- ==== Sys2Proof/Machine/Flow.lean ====
section
/-! DEFINITION. Dense flow: the displacement search, its refinement, the reserved codes and the flow field (R238 to
R244). -/
namespace Sys2Proof.Machine

/-- A level of a pyramid with its size. -/
structure Level where
  w : Nat
  h : Nat
  p : Plane
  deriving DecidableEq, Repr

/-- Sample of a level with coordinates clamped (R239). -/
def Level.at_ (l : Level) (x y : Int) : Nat := planeAt l.p (clampTo l.w x) (clampTo l.h y)

/-- Positions of a 5 × 5 patch: rows in increasing order. -/
def patch : List (Int × Int) := ([-2, -1, 0, 1, 2] : List Int).flatMap (fun b => ([-2, -1, 0, 1, 2] : List Int).map (fun a => (a, b)))

/-- `cost` of R239. -/
def flowCost (i1 i2 : Level) (px py dx dy : Int) : Nat :=
  patch.foldl (fun c q =>
    let u := i1.at_ (px + q.1) (py + q.2)
    let v := i2.at_ (px + dx + q.1) (py + dy + q.2)
    c + (if u = unmapped || v = unmapped then 4095 else ((u : Int) - v).natAbs)) 0

/-- The displacement of a pixel, D, and its last correction, U (R239). -/
structure Disp where
  dx : Int
  dy : Int
  ux : Int
  uy : Int
  deriving DecidableEq, Repr

/-- The candidates (u, v) in scanning order (R239). -/
def candidates (stereo : Bool) : List (Int × Int) :=
  let us : List Int := [-4, -3, -2, -1, 0, 1, 2, 3, 4]
  (if stereo then [0] else us).flatMap (fun v => us.map (fun u => (u, v)))

/-- The best candidate about `c` (R239): least cost, then least |u| + |v|, then the first scanned. -/
def searchPixel (stereo : Bool) (i1 i2 : Level) (px py cx cy : Int) : Disp :=
  let r := (candidates stereo).foldl (fun (b : Nat × Int × Int) q =>
    let k := flowCost i1 i2 px py (cx + q.1) (cy + q.2)
    if k < b.1 || (k = b.1 && q.1.natAbs + q.2.natAbs < b.2.1.natAbs + b.2.2.natAbs) then (k, q.1, q.2) else b)
    (0xFFFFFFFF, 0, 0)
  { dx := cx + r.2.1, dy := cy + r.2.2, ux := r.2.1, uy := r.2.2 }

/-- D and U of a level as rows. -/
abbrev DispRows := List (List Disp)

/-- A displacement of a level. -/
def dispAt (d : DispRows) (x y : Nat) : Disp := (d.getD y []).getD x { dx := 0, dy := 0, ux := 0, uy := 0 }

/-- D of a level from the one above it, if there is one (R239). -/
def searchLevel (stereo : Bool) (i1 i2 : Level) (above : Option DispRows) : DispRows :=
  (List.range i1.h).map (fun (y : Nat) => (List.range i1.w).map (fun (x : Nat) =>
    let c : Int × Int := match above with
      | none => (0, 0)
      | some d => (2 * (dispAt d (x / 2) (y / 2)).dx, 2 * (dispAt d (x / 2) (y / 2)).dy)
    searchPixel stereo i1 i2 x y c.1 c.2))

/-- D of level 0, from levels listed coarsest first (R239). -/
def searchDown (stereo : Bool) : Option DispRows → List (Level × Level) → DispRows
  | d, [] => d.getD []
  | d, (a, b) :: l => searchDown stereo (some (searchLevel stereo a b d)) l

/-- `frac` of R240. -/
def fracOf (km k0 kp : Nat) : Int :=
  let den : Int := (km : Int) - 2 * k0 + kp
  if den ≤ 0 then 0 else max (-16) (min 16 ((16 * ((km : Int) - kp)).tdiv den))

/-- The reach of a pyramid of `l` levels (R241). -/
def reachOf (l : Nat) : Nat := 4 * (2 ^ l - 1)

/-- The texture measure T(p) (R241): a term that touches an unmapped sample counts 0. -/
def texture (i1 : Level) (px py : Int) : Nat :=
  patch.foldl (fun t q =>
    let x := px + q.1
    let y := py + q.2
    let diff (dx dy : Int) : Nat :=
      let u := i1.at_ (x + dx) (y + dy)
      let v := i1.at_ x y
      if u = unmapped || v = unmapped then 0 else ((u : Int) - v).natAbs
    t + diff 1 0 + diff 0 1) 0

/-- A component pair or a reserved code (R241). -/
inductive FlowElem where
  | code (c : Nat)
  | flow (x y : Int)
  deriving DecidableEq, Repr

/-- The element of a pixel by R240 and rows 1 to 4 of R241. -/
def flowElem (stereo : Bool) (textureMin levels : Nat) (i1 i2 : Level) (d : Disp) (x y : Nat) : FlowElem :=
  let px : Int := x
  let py : Int := y
  let reach := reachOf levels
  let qx := px + d.dx
  let qy := py + d.dy
  if planeAt i1.p x y = unmapped then .code 0x8002
  else if texture i1 px py < textureMin then .code 0x8000
  else if reach ≤ d.dx.natAbs || reach ≤ d.dy.natAbs then .code 0x8003
  else if qx < 0 || qy < 0 || (i2.w : Int) ≤ qx || (i2.h : Int) ≤ qy || planeAt i2.p qx.toNat qy.toNat = unmapped then
    .code 0x8002
  else
    let c (dx dy : Int) : Nat := flowCost i1 i2 px py (d.dx + dx) (d.dy + dy)
    let fx := if d.ux.natAbs < 4 then fracOf (c (-1) 0) (c 0 0) (c 1 0) else 0
    let fy := if !stereo && decide (d.uy.natAbs < 4) then fracOf (c 0 (-1)) (c 0 0) (c 0 1) else 0
    .flow (32 * d.dx + fx) (if stereo then 0 else 32 * d.dy + fy)

/-- The field of I1 to I2 by R239, R240 and rows 1 to 4 of R241, with D of level 0. -/
def halfField (stereo : Bool) (textureMin : Nat) (i1 i2 : List Level) : List (List FlowElem) × DispRows :=
  let d := searchDown stereo none (i1.zip i2).reverse
  match i1.head?, i2.head? with
  | some a, some b =>
    ((List.range a.h).map (fun y => (List.range a.w).map (fun x => flowElem stereo textureMin i1.length a b (dispAt d x y) x y)), d)
  | _, _ => ([], d)

/-- The forward-backward check of R242: whether it passes. -/
def lrPasses (tol : Nat) (back : List (List FlowElem)) (d : Disp) (fx fy : Int) (x y : Nat) : Bool :=
  match (back.getD ((y : Int) + d.dy).toNat []).getD ((x : Int) + d.dx).toNat (.code 0x8002) with
  | .code _ => false
  | .flow bx by_ => decide ((fx + bx).natAbs ≤ tol) && decide ((fy + by_).natAbs ≤ tol)

/-- The flow field of a pair (R238 to R242). -/
def flowField (stereo lr : Bool) (textureMin lrTol : Nat) (i1 i2 : List Level) : List (List FlowElem) :=
  let f := halfField stereo textureMin i1 i2
  if !lr then f.1
  else
    let b := (halfField stereo textureMin i2 i1).1
    (List.range f.1.length).map (fun y => (List.range (f.1.getD y []).length).map (fun x =>
      match (f.1.getD y []).getD x (.code 0x8002) with
      | .code c => .code c
      | .flow fx fy => if lrPasses lrTol b (dispAt f.2 x y) fx fy x y then .flow fx fy else .code 0x8001))

/-- Elements as int16 patterns (R244). -/
def FlowElem.pair : FlowElem → Nat × Nat
  | .code c => (c, c)
  | .flow x y => (ofInt 16 x, ofInt 16 y)

/-- The numbers, times, size and FLAGS of a field's header (R244). -/
structure FieldHead where
  number : Nat
  refNumber : Nat
  capture : Nat
  refCapture : Nat
  width : Nat
  height : Nat
  levels : Nat
  flags : Nat
  deriving DecidableEq, Repr

/-- The flow field of elements: its header with the counts (R244). -/
def fieldOf (h : FieldHead) (rows : List (List FlowElem)) : Field :=
  let l := rows.flatten
  let count (c : Nat) : Nat := (l.filter (fun e => e == .code c)).length
  { number := h.number, refNumber := h.refNumber, capture := h.capture, refCapture := h.refCapture, width := h.width
    height := h.height, levels := h.levels, flags := h.flags
    valid := (l.filter (fun e => match e with | .flow _ _ => true | .code _ => false)).length
    noTexture := count 0x8000, occluded := count 0x8001, outside := count 0x8002, beyond := count 0x8003
    motion := l.foldl (fun a e => match e with | .flow x y => a + x.natAbs + y.natAbs | .code _ => a) 0
    rows := rows.map (fun r => r.map FlowElem.pair) }

/-- The levels of a level-0 plane (R236). -/
def levelsOf (levels w h : Nat) (p : Plane) : List Level :=
  ((levelSizes levels w h).zip (pyramid levels w h p)).map (fun q => { w := q.1.1, h := q.1.2, p := q.2 })

end Sys2Proof.Machine
end

