-- ==== Sys2Proof/Config.lean ====
section
/-! DEFINITION. What the spec fixes outside itself or leaves open: uninterpreted constants, no one of them with a
value that anything here can compute. -/
namespace Sys2Proof.Config

/-- A value the spec leaves open, by the count of values drawn so far (log 6). -/
opaque freeValue : Nat → BitVec 64

/-- SHAKE256(X, 256) of FIPS 202 (R160, R161): 32 bytes as a number, byte 0 least significant (log 9). -/
opaque shake256 : Bytes → BitVec 256

/-- KMAC256(K, X, L, S) of NIST SP 800-185: L bits as a number, byte 0 least significant (R569, R570; log 9). -/
opaque kmac256 : Bytes → Bytes → Nat → String → Nat

/-- XMSS_verify of RFC 8391 with a 68-byte key, a message and a signature (R557; log 9). -/
opaque xmssVerify : Bytes → Bytes → Bytes → Bool

/-- The XMSS^MT signature of a report under the attestation key by leaf index: 9,893 bytes (R564, R572; log 9). -/
opaque attestSign : Nat → Bytes → Bytes

/-- The attestation public key of 68 bytes (R564). -/
opaque attestKey : Bytes

/-- The device certificate of 3,008 bytes (R565). -/
opaque deviceCert : Bytes

/-- Thagrim root 0 and root 1, 68 bytes each (R557). -/
opaque root : Nat → Bytes

/-- The digest of boot ROM (R571). -/
opaque bootRomDigest : BitVec 256

/-- The device's own clockIdentity in PTP, which the manual does not give (R492; log 11). -/
opaque clockIdentity : Nat

/-- Thagrim's codebooks: collection number, sub-vector, code, component, as fp32 bits (R396, R400; log 11). -/
opaque catalogueCodebook : Nat → Nat → Nat → Nat → BitVec 32

/-- Thagrim's matching codebook: 32,768 bytes (R388; log 11). -/
opaque matchingCodebook : Bytes

/-- What a fusion image writes for a tile: from the image, SEED_OFFSET, the tile's feature cells and its input state cells, the
output state cells and the partial track list (R63, R271, R273; log 11). -/
opaque fusionRun : Bytes → Nat → Bytes → Bytes → Bytes × Bytes

/-- The records of one table of a sheet in an edition, by key, as the member that holds the sheet keeps them: edition, sheet, table
(0 landmarks, 1 keyframes, 2 edges). An edition never changes, so that what its holder answers depends on these alone (R35, R38,
R334; log 26). -/
opaque sheetElsewhere : Nat → Nat → Nat → List (Nat × Bytes)

/-- Bytes of scratch that the working set of a large solve takes, by its blocks, its residuals and the structural scalars of its
factor (R394; log 68). -/
opaque solveScratch : Nat → Nat → Nat → Nat

/-- The power in W that admitted sessions need, by their units in 10^-3 units/s (R359). -/
opaque sessionPower : Nat → Nat

/-- The 64 bytes of DEVICE_INFO, whose places the manual does not give: from the ordering code, the stepping, the firmware
measurement, BOOT_MODE and the room position (R534). -/
opaque deviceInfo : Nat → Nat → Bytes → Nat → Nat → Bytes

end Sys2Proof.Config
end

