-- ==== Sys2Proof/Machine/StBase.lean ====
section
/-! DEFINITION. The state that every chapter shares: what leaves the device, Circulation's queues and jobs, the
Bell, the Errata log. Each field's default value is its value at reset. -/
namespace Sys2Proof.Machine

/-- A pin or ball that the device drives. -/
inductive Pin where
  /-- THERMTRIP_N (R521, R601) -/
  | thermtrip
  /-- SMB_ALERT_N (R607) -/
  | smbAlert
  /-- pulse output 0 to 7 (R485) -/
  | pulse (n : Nat)
  deriving DecidableEq, Repr

/-- What leaves the device, in order. The list of these is the model's own record of the outside effects (log 4). -/
inductive Output where
  /-- One posted 32-byte write of an entry the device produces, queue `q`, at a host address (R84, R109) -/
  | entry (q addr : Nat) (e : Entry)
  /-- A posted write of job output or of a received packet into host memory (R94, R109) -/
  | buffer (addr : Nat) (data : Bytes)
  /-- One MSI-X message (R499) -/
  | msix (vector addr data : Nat)
  /-- PME signalled under PCIe (R503) -/
  | pme
  /-- A frame's payload sent on a room-wide logical port (R448, R450) -/
  | packet (port : Nat) (data : Bytes)
  /-- A message of the kind code of R461 to the member at a room position, with its header values and data -/
  | link (dest kind : Nat) (args : List Nat) (data : Bytes)
  /-- A Jalzel frame-level action on a port: 0 replay request, 1 replayed frame, 2 retrain, 3 identity (R457, R458, R463) -/
  | frame (port kind : Nat) (args : List Nat)
  /-- Bytes the SMBus port answers (R536) -/
  | smbus (data : Bytes)
  /-- NACK of the SMBus port: of a PEC byte, or of a command (R609) -/
  | smbusNack
  /-- The value a read returns: of a register, or of the doorbell window from offset 0x100_0000 on (R15, R90, R576; log 165) -/
  | read (offset value : Nat)
  /-- The value a Bell-port operation returns to its core (R501) -/
  | bellPort (core value : Nat)
  /-- A pin driven to a level -/
  | pin (p : Pin) (level : Bool)
  /-- A pulse edge: the output, its level, the tick's time in ns and the delay in steps of 39.0625 ps (R485) -/
  | edge (o : Nat) (level : Bool) (tick fine : Nat)
  /-- A PTP message sent on a local logical port: message type, sequence identifier, the record time of its stamp and its
  fraction in units of 2^-16 ns (R481, R483) -/
  | ptp (port kind seq stamp fraction : Nat)
  /-- A command on a flash channel: engine, LUN, kind (0 read, 1 program, 2 erase, 3 reset), row address, page data -/
  | flash (engine lun kind row : Nat) (data : Bytes)
  /-- A write of a boot NOR device (0 A, 1 B) (R534) -/
  | bootFlash (device : Nat) (data : Bytes)
  /-- A core-regulator voltage request over AVSBus in mV (R518, R597) -/
  | avs (mv : Nat)
  deriving DecidableEq, Repr

/-- Kind of a circulation queue (R79). -/
inductive QKind where
  | submission | ret | receive | transmit | event
  deriving DecidableEq, Repr

/-- STATE of a queue context (R85). -/
inductive QState where
  | free | active | halted | draining
  deriving DecidableEq, Repr

/-- Why a queue drains (R86): the job number of the RESET_QUEUE or DESTROY_QUEUE, a fault, or the reset of R586. -/
inductive Drain where
  | none
  | reset (job : Nat)
  | destroy (job : Nat)
  | fault
  | fixed
  deriving DecidableEq, Repr

/-- A queue context (R85); IN_FLIGHT is the number of jobs of the queue in `Circ.jobs`. -/
structure Queue where
  /-- RING_ADDR -/
  ringAddr : Nat := 0
  /-- BUF_ADDR -/
  bufAddr : Nat := 0
  /-- KIND -/
  kind : QKind := .submission
  /-- LOG2_SIZE -/
  log2 : Nat := 0
  /-- GEN, 0 to 255 -/
  gen : Nat := 0
  /-- STATE -/
  state : QState := .free
  /-- HEAD -/
  head : Nat := 0
  /-- TAIL -/
  tail : Nat := 0
  /-- PARTNER -/
  partner : Nat := 0
  /-- VECTOR -/
  vector : Nat := 0
  /-- COAL_COUNT -/
  coalCount : Nat := 0
  /-- CLASS is serving -/
  serving : Bool := false
  /-- COAL_TIME -/
  coalTime : Nat := 0
  /-- QUOTA -/
  quota : Nat := 0
  /-- PHASE -/
  phase : Bool := false
  /-- record times of the entries that UNSIGNALLED counts, oldest first (R111) -/
  entryTimes : List Nat := []
  /-- BINDING: SESSION_ID or flow of a Stack-resident queue -/
  binding : Nat := 0
  /-- STALE_DOORBELLS -/
  stale : Nat := 0
  /-- DISCARDED_COUNT -/
  discarded : Nat := 0
  /-- why the queue drains (R86) -/
  drain : Drain := .none
  /-- events dropped while the queue was full or draining, or queue 2 after its fixed reset (R100, R614) -/
  lost : Nat := 0
  deriving DecidableEq, Repr

/-- How a job ended: STATUS and DETAIL of R96 and R97, RESULT, and its output as runs of bytes at offsets of the
data buffer. -/
structure Ending where
  status : Nat
  detail : Nat := 0
  result : Nat := 0
  output : List (Nat × Bytes) := []
  deriving DecidableEq, Repr

/-- A call slip in flight (R108). -/
structure Job where
  /-- the job's number: how many call slips had been read before it since reset -/
  num : Nat
  /-- submission queue, slot and GEN when it was read (R96) -/
  sq : Nat
  slot : Nat
  gen : Nat
  /-- the 64 bytes read (R92) -/
  slip : Slip
  /-- a fence holds the start back (R107) -/
  held : Bool := false
  /-- a unit has taken it -/
  started : Bool := false
  /-- it has ended and its final return slip is not yet written -/
  ending : Option Ending := none
  /-- its final return slip waits for a full return queue (R110) -/
  waiting : Bool := false
  deriving DecidableEq, Repr

/-- The CIRC_FIXED registers of one fixed queue (R585). -/
structure FixedReg where
  ring : Nat := 0
  log2 : Nat := 0
  vector : Nat := 0xFFFF
  coalCount : Nat := 0
  coalTime : Nat := 0
  deriving DecidableEq, Repr

/-- Circulation (R79 to R115, R585, R586). -/
structure Circ where
  /-- queue contexts by number; an unlisted queue is free with GEN 0 (R86) -/
  queues : List (Nat × Queue) := []
  /-- jobs in flight, in the order in which their slots were read (R106, R108) -/
  jobs : List Job := []
  /-- call slips read since reset -/
  read : Nat := 0
  /-- job numbers whose final return slips wait, in order (R110) -/
  waiting : List Nat := []
  /-- last queue fetched from in each class, for the round robin of R108 -/
  lastServing : Nat := 0
  lastUpkeep : Nat := 0
  /-- fixed-queue registers (R585) -/
  fixed : List FixedReg := [{}, {}, {}]
  /-- GO bits held until READY or MINIMAL (R586) -/
  goHeld : Nat := 0
  /-- ERROR bits (R585) -/
  goError : Nat := 0
  /-- for each return queue the record time from which the next 100 ms of its stall count (R110) -/
  stalls : List (Nat × Nat) := []
  /-- words corrected in the queue caches (R76) -/
  corrected : Nat := 0
  deriving DecidableEq, Repr

/-- Where a Bell source is delivered (R497). -/
inductive BellTarget where
  | core (n : Nat)
  | vector (v : Nat)
  deriving DecidableEq, Repr

/-- A Bell source: its settings (R497) and its state (R493, R505, R506). -/
structure BellSource where
  pending : Bool := false
  /-- record time at which it became pending (R506) -/
  pendingAt : Nat := 0
  priority : Nat := 0
  target : BellTarget := .core 0
  wake : Bool := true
  fallback : Nat := 0
  stormLimit : Nat := 16
  windowUs : Nat := 1000
  holdMs : Nat := 100
  /-- effective STORM_LIMIT of R506 -/
  effLimit : Nat := 16
  /-- record time at which the window opened, while one is open (R505) -/
  openAt : Option Nat := none
  /-- messages in the window -/
  count : Nat := 0
  stormed : Bool := false
  /-- record time at which it was stormed (R505) -/
  stormedAt : Nat := 0
  /-- messages dropped while stormed -/
  dropped : Nat := 0
  /-- record time of the last release from a storm (R505) -/
  releasedAt : Option Nat := none
  /-- moved to FALLBACK (R503) -/
  moved : Bool := false
  deriving DecidableEq, Repr

/-- An entry of an in-service stack with its entry and exit flags (R500). -/
structure InService where
  source : Nat
  priority : Nat
  saved : Nat
  entry : Bool
  exit : Bool
  /-- record time of its claim, and whether its stay has been recorded (R510) -/
  since : Nat := 0
  told : Bool := false
  deriving DecidableEq, Repr

/-- A librarian core's Bell port (R500) and its clock (R503). -/
structure BellCore where
  threshold : Nat := 0
  /-- innermost entry first -/
  stack : List InService := []
  sleeping : Bool := false
  deriving DecidableEq, Repr

/-- One entry of the MSI-X table (R588). -/
structure MsixEntry where
  addr : Nat := 0
  data : Nat := 0
  masked : Bool := true
  /-- the vector's bit of the pending-bit array (R112) -/
  pending : Bool := false
  deriving DecidableEq, Repr

/-- The Bell (R493 to R507, R583). -/
structure Bell where
  /-- sources that differ from their reset settings, by number -/
  sources : List (Nat × BellSource) := []
  cores : List BellCore := List.replicate 8 {}
  /-- vectors whose table entry differs from reset, by number -/
  msix : List (Nat × MsixEntry) := []
  /-- the PCIe function is in D0 with MSI-X enabled (R503) -/
  vectorsAwake : Bool := false
  spurious : Nat := 0
  fallbacks : Nat := 0
  badComplete : Nat := 0
  raiseBad : Nat := 0
  remoteBad : Nat := 0
  /-- BELL_STORM_FLOOR (R583) -/
  stormFloor : Nat := 1
  /-- record time of the last change of the limits of a target whose limits are lowered (R506) -/
  adaptAt : List (Nat × Nat) := []
  deriving DecidableEq, Repr

/-- An Errata record (R541). -/
structure ErrRec where
  time : Nat
  seq : Nat
  cls : Nat
  depth : Nat
  flags : Nat
  scope : Nat
  unit : Nat
  inst : Nat
  code : Nat
  orig : Nat
  location : Nat
  parent : Nat
  count : Nat
  detail0 : Nat
  detail1 : Nat
  deriving DecidableEq, Repr

/-- An open handling (R543): its record's SEQUENCE, class, scope, UNIT and INSTANCE, and the ORIGINAL_CLASS values seen
within it. -/
structure Handling where
  seq : Nat
  cls : Nat
  scope : Nat
  unit : Nat
  inst : Nat
  seen : List Nat
  deriving DecidableEq, Repr

/-- The key of a reporting window (R613): event family, the key object, the reason. -/
structure WinKey where
  family : Nat
  subject : Nat
  reason : Nat
  deriving DecidableEq, Repr

/-- A reporting window: when it opened, its count, and the count of the previous window of the key (R613). -/
structure Win where
  key : WinKey
  openAt : Nat
  count : Nat
  previous : Nat
  deriving DecidableEq, Repr

/-- An element within a unit reset or out of service (R547, R548). -/
structure DownUnit where
  unit : Nat
  inst : Nat
  /-- SEQUENCE of the unit-fatal record -/
  seq : Nat
  /-- resets tried -/
  tries : Nat := 0
  /-- out of service after two failed resets -/
  out : Bool := false
  /-- record time of the last reset tried (R547) -/
  triedAt : Nat := 0
  deriving DecidableEq, Repr

/-- The Errata log (R539 to R548, R555). -/
structure ErrataLog where
  /-- records not yet moved, oldest first; those beyond the 64th wait with their unit stalled (R539) -/
  holding : List ErrRec := []
  /-- the Errata ring, oldest first -/
  ring : List ErrRec := []
  /-- SEQUENCE of the newest record, 0 before the first -/
  sequence : Nat := 0
  /-- records of class 0 to 4, merged occurrences included (R592) -/
  counts : List Nat := [0, 0, 0, 0, 0]
  escalations : Nat := 0
  lost : Nat := 0
  overwritten : Nat := 0
  /-- open handlings, innermost first -/
  handlings : List Handling := []
  /-- SEQUENCE of the last 16 corrected records, newest first (R540) -/
  lastCorrected : List Nat := []
  eventClass : Nat := 2
  eventQueue : Nat := 2
  windows : List Win := []
  down : List DownUnit := []
  deriving DecidableEq, Repr

/-- The shared part of the state: what events, errors, raises and return slips act on. -/
structure Desk where
  circ : Circ := {}
  bell : Bell := {}
  errata : ErrataLog := {}
  out : List Output := []
  deriving DecidableEq, Repr

end Sys2Proof.Machine
end

