-- ==== Sys2Proof/Machine/Desk.lean ====
section
/-! DEFINITION. Operations on the shared state: queue entries, events, Errata records, raise messages. Each unit
tells the desk what happened as a list of notices; one notice may bring others about. -/
namespace Sys2Proof.Machine

/-! ## Reporting windows (R613) -/

/-- Length of a reporting window: 1 s (R613). -/
def reportNs : Nat := 1000000000

/-- Counts one occurrence of a key: whether it opens a window, and the count of the previous window (R613). -/
def countWin (now : Nat) (k : WinKey) : List Win → Bool × Nat × List Win
  | [] => (true, 0, [{ key := k, openAt := now, count := 1, previous := 0 }])
  | w :: ws =>
    if w.key = k then
      if now < w.openAt + reportNs then (false, w.previous, { w with count := w.count + 1 } :: ws)
      else (true, w.count, { w with openAt := now, count := 1, previous := w.count } :: ws)
    else
      let r := countWin now k ws
      (r.1, r.2.1, w :: r.2.2)

/-! ## Queues (R82 to R86) -/

/-- The context of a queue; an unlisted queue is free with GEN 0 (R86). -/
def Circ.queue (c : Circ) (q : Nat) : Queue := amGetD c.queues q {}

/-- The context of a queue replaced. -/
def Circ.setQueue (c : Circ) (q : Nat) (x : Queue) : Circ := { c with queues := amSet c.queues q x }

/-- N of a ring (R82). -/
def Queue.slots (x : Queue) : Nat := 2 ^ x.log2

/-- A ring is full when (tail + 1) mod N equals head (R82). -/
def Queue.full (x : Queue) : Bool := (x.tail + 1) % x.slots == x.head

/-- Entries in a ring (R82). -/
def Queue.used (x : Queue) : Nat := (x.tail + x.slots - x.head) % x.slots

/-- UNSIGNALLED, which saturates at 255 (R85, R111). -/
def Queue.unsignalled (x : Queue) : Nat := min 255 x.entryTimes.length

/-- The size of an entry in bytes by kind (R79). -/
def QKind.entryBytes : QKind → Nat
  | .submission => 64
  | .ret => 32
  | .receive => 32
  | .transmit => 64
  | .event => 32

/-- Whether the device fills a ring of the kind (R79). -/
def QKind.deviceProduced : QKind → Bool
  | .ret => true
  | .receive => true
  | .event => true
  | .submission => false
  | .transmit => false

/-- Host-resident queues are 0 to 524,287 (R80). -/
def hostResident (q : Nat) : Bool := decide (q < 524288)

/-- GEN advanced: the next value of 1 to 255, and from 255 back to 1 (R86). -/
def nextGen (g : Nat) : Nat := if g = 255 then 1 else g + 1

/-- MSI-X vector 0xFFFF stands for none (R85). -/
def noVector : Nat := 0xFFFF

/-! ## Notices -/

/-- An error as its unit reports it (R541). -/
structure Report where
  cls : Nat
  unit : Nat
  inst : Nat := 0
  code : Nat := 0
  /-- HOST_MISTAKE 2, PEER_VIOLATION 4, REFERENCE_CAUSE 16 (R541) -/
  flags : Nat := 0
  scope : Nat := 0
  location : Nat := 0
  detail0 : Nat := 0
  detail1 : Nat := 0
  deriving DecidableEq, Repr

/-- An event as its owner writes it (R99). -/
structure EventIn where
  code : Nat
  detail : Nat := 0
  subject : Nat := 0
  value : Nat := 0
  payload : Nat := 0
  deriving DecidableEq, Repr

/-- What a unit tells the desk. -/
inductive Notice where
  /-- a raise message for a Bell source (R493) -/
  | raise (source : Nat)
  /-- an event for an event queue (R99) -/
  | event (q : Nat) (e : EventIn)
  /-- an error (R537) -/
  | errata (r : Report)
  deriving DecidableEq, Repr

/-- The 32 bytes of an event record, phase bit apart (R99). -/
def eventEntry (now : Nat) (e : EventIn) : Entry :=
  pack 256 [(0, 2, e.code), (2, 2, e.detail), (4, 4, e.subject), (8, 4, e.value), (16, 8, now), (24, 8, e.payload)]

/-- An entry with its phase bit, bit 0 of byte 15 (R84). -/
def withPhase (e : Entry) (phase : Bool) : Entry :=
  (e &&& ~~~(BitVec.ofNat 256 (2 ^ 120))) ||| BitVec.ofNat 256 (flag phase * 2 ^ 120)

/-- Whether UNSIGNALLED, or IMMEDIATE of the entry just written, brings a queue's message about now (R111). -/
def messageDue (x : Queue) (immediate : Bool) : Bool :=
  x.vector != noVector && (immediate || decide (max x.coalCount 1 ≤ x.unsignalled))

/-- An entry written at the tail of a device-produced host-resident ring (R84, R111): the new context, the output,
and the vector message if one is due. -/
def writeEntry (now q : Nat) (x : Queue) (e : Entry) (immediate : Bool) : Queue × Output × List Notice :=
  let o := Output.entry q (x.ringAddr + x.tail * x.kind.entryBytes) (withPhase e x.phase)
  let tail := (x.tail + 1) % x.slots
  let y := { x with
    tail := tail
    phase := if tail = 0 then !x.phase else x.phase
    entryTimes := x.entryTimes ++ [now] }
  if messageDue y immediate then ({ y with entryTimes := [] }, o, [.raise (2048 + y.vector)])
  else (y, o, [])

/-- EVENTS_LOST written first where events were dropped and a place is free (R100). -/
def writeLost (now q : Nat) (x : Queue) : Queue × List Output × List Notice :=
  if x.lost = 0 || x.full then (x, [], [])
  else
    let r := writeEntry now q x (eventEntry now { code := 0x0005, subject := q, value := sat 32 x.lost }) false
    ({ r.1 with lost := 0 }, [r.2.1], r.2.2)

/-- Whether a queue drains towards free after DESTROY_QUEUE (R86). -/
def Queue.dying (x : Queue) : Bool :=
  x.state = .draining && (match x.drain with | .destroy _ => true | _ => false)

/-- An event for an event queue (R99, R100, R614): written, or dropped and counted while the ring is full or drains, and for
queue 2 from its fixed reset until it is active again. An event whose queue is free, is being destroyed, or is no event queue any
more, goes to queue 2; before queue 2 is first active it has nowhere to go (log 5). -/
def postEvent (now q : Nat) (e : EventIn) (d : Desk) : Desk × List Notice :=
  let o := d.circ.queue q
  let q := if o.state = .free || o.dying || o.kind ≠ .event then 2 else q
  let x := d.circ.queue q
  if x.kind ≠ .event then (d, []) else
  match x.state with
  | .free => ({ d with circ := d.circ.setQueue q { x with lost := x.lost + 1 } }, [])
  | .halted => ({ d with circ := d.circ.setQueue q { x with lost := x.lost + 1 } }, [])
  | .draining => ({ d with circ := d.circ.setQueue q { x with lost := x.lost + 1 } }, [])
  | .active =>
    let l := writeLost now q x
    if l.1.full || l.1.lost ≠ 0 then
      ({ d with circ := d.circ.setQueue q { l.1 with lost := l.1.lost + 1 }, out := d.out ++ l.2.1 }, l.2.2)
    else
      let r := writeEntry now q l.1 (eventEntry now e) false
      ({ d with circ := d.circ.setQueue q r.1, out := d.out ++ l.2.1 ++ [r.2.1] }, l.2.2 ++ r.2.2)

/-! ## The Bell (R493 to R506) -/

/-- Default priority of a source (R494, R497). -/
def defaultPriority (s : Nat) : Nat :=
  if s = 1 then 4 else if s = 2 then 6 else if s = 3 then 12 else if s = 4 then 14
  else if s = 5 then 15 else if s = 6 then 15
  else if 16 ≤ s && s ≤ 23 then 15
  else if s = 24 || s = 25 then 13
  else if 32 ≤ s && s ≤ 38 then 11
  else if 40 ≤ s && s ≤ 43 then 10
  else if 64 ≤ s && s ≤ 72 then 9
  else if 73 ≤ s && s ≤ 80 then 8
  else if s = 81 then 10
  else if 96 ≤ s && s ≤ 167 then 7
  else if 168 ≤ s && s ≤ 171 then 8
  else if s = 172 then 9
  else if s = 173 || s = 174 then 12
  else if 2048 ≤ s then 8
  else 0

/-- Default target of a source (R494, R497). Host sources reset to vector 0 (R584). -/
def defaultTarget (s : Nat) : BellTarget :=
  if s ≤ 6 then .core 1
  else if s = 17 then .core 0
  else if 16 ≤ s && s ≤ 23 then .core 1
  else if s = 24 || s = 25 then .core 4
  else if 32 ≤ s && s ≤ 38 then .core 3
  else if 40 ≤ s && s ≤ 43 then .core 2
  else if 64 ≤ s && s ≤ 81 then .core 2
  else if 96 ≤ s && s ≤ 167 then .core 5
  else if s = 168 || s = 169 then .core 4
  else if s = 170 || s = 171 then .core 5
  else if s = 172 then .core 0
  else if s = 173 then .core 6
  else if s = 174 then .core 1
  else if 1024 ≤ s && s < 2048 then .vector 0
  else if 2048 ≤ s then .vector (s - 2048)
  else .core 0

/-- A source at its reset settings (R497, R584). -/
def defaultSource (s : Nat) : BellSource :=
  { priority := defaultPriority s
    target := defaultTarget s
    stormLimit := if 2048 ≤ s then 64 else 16
    effLimit := if 2048 ≤ s then 64 else 16 }

/-- A source's settings and state. -/
def Bell.source (b : Bell) (s : Nat) : BellSource := amGetD b.sources s (defaultSource s)

/-- A source replaced; a source at its reset settings is not listed. -/
def Bell.setSource (b : Bell) (s : Nat) (x : BellSource) : Bell :=
  { b with sources := if x = defaultSource s then amDel b.sources s else amSet b.sources s x }

/-- PAYLOAD of BELL_STORM: the target (R507). -/
def targetPayload : BellTarget → Nat
  | .core n => n
  | .vector v => 0xFF + v * 2 ^ 16

/-- Ten seconds, within which a second storm is a repeated one (R505). -/
def repeatNs : Nat := 10000000000

/-- A raise message registered (R493, R505): it merges with a pending source, counts in the source's window, and
storms the source when the count passes STORM_LIMIT. -/
def raiseSource (now s : Nat) (d : Desk) : Desk × List Notice :=
  if s = 0 || 4096 ≤ s then (d, []) else
  let x := d.bell.source s
  if x.stormed then
    ({ d with bell := d.bell.setSource s { x with dropped := satAdd 32 x.dropped 1 } }, [])
  else
    let fresh : Bool := match x.openAt with
      | none => true
      | some t => decide (t + x.windowUs * 1000 ≤ now)
    let x := if fresh then { x with openAt := some now, count := 1 } else { x with count := x.count + 1 }
    if x.effLimit ≠ 0 && decide (x.effLimit < x.count) then
      let again : Bool := match x.releasedAt with
        | none => false
        | some t => decide (now < t + repeatNs)
      ({ d with bell := d.bell.setSource s { x with
          stormed := true, stormedAt := now, pending := false, moved := false, dropped := 0, openAt := none } },
        [.event 2 { code := 0x0860, subject := s, detail := flag again, value := x.count,
                    payload := targetPayload x.target },
         .errata { cls := 0, unit := 0x0018, code := 0, location := 0, detail1 := s }])
    else
      ({ d with bell := d.bell.setSource s { x with
          pending := true, pendingAt := if x.pending then x.pendingAt else now } }, [])

/-! ## The Errata log (R539 to R544) -/

/-- SEQUENCE after `n`: it starts at 1 and wraps past 0xFFFF_FFFF to 1 (R539). -/
def nextSequence (n : Nat) : Nat := if n = 0xFFFFFFFF then 1 else n + 1

/-- A corrected record that R540 merges with: same UNIT, INSTANCE, CODE and LOCATION, no more than 1 s older. -/
def mergesWith (now : Nat) (r : Report) (e : ErrRec) : Bool :=
  e.cls == 1 && e.unit == r.unit && e.inst == r.inst && e.code == r.code && e.location == r.location
    && decide (now ≤ e.time + 1000000000)

/-- The record among the last 16 corrected ones that a report merges with (R540). -/
def mergeTarget (now : Nat) (r : Report) (l : ErrataLog) : Option ErrRec :=
  (l.holding ++ l.ring).find? (fun e => l.lastCorrected.contains e.seq && mergesWith now r e)

/-- COUNT of a record incremented (R540). -/
def bumpCount (seq : Nat) (l : List ErrRec) : List ErrRec :=
  mapIf (fun e => e.seq == seq) (fun e => { e with count := satAdd 32 e.count 1 }) l

/-- Whether a report escalates within the innermost open handling (R544). -/
def escalates (l : ErrataLog) (cls : Nat) : Bool :=
  match l.handlings with
  | [] => false
  | h :: _ => (cls == 1 || cls == 2 || cls == 3) && h.seen.contains cls

/-- Class at which a report is recorded: one level up under R544, device-fatal for a ninth handling (R543). -/
def recordClass (l : ErrataLog) (cls : Nat) : Nat :=
  let c := if escalates l cls then cls + 1 else cls
  if 2 ≤ c && decide (8 ≤ l.handlings.length) then 4 else c

/-- Counts of records by class, saturating (R592). -/
def countClass (l : List Nat) (c : Nat) : List Nat := modAt l c (fun n => satAdd 32 n 1)

/-- One Errata record made (R539 to R544): the new log and, unless it merges or is dropped, the record's notices. -/
def recordError (now : Nat) (r : Report) (d : Desk) : Desk × List Notice :=
  let l := d.errata
  let esc := escalates l r.cls
  let cls := recordClass l r.cls
  let ninth : Bool := cls ≠ (if esc then r.cls + 1 else r.cls)
  let scope := if cls = 4 then 4
    else if esc then (match l.handlings with | [] => r.scope | h :: _ => h.scope)
    else r.scope
  let seen := match l.handlings with
    | [] => l.handlings
    | h :: hs => { h with seen := if h.seen.contains r.cls then h.seen else r.cls :: h.seen } :: hs
  match (if cls = 1 then mergeTarget now r l else none) with
  | some e =>
    ({ d with errata := { l with
        holding := bumpCount e.seq l.holding
        ring := bumpCount e.seq l.ring
        counts := countClass l.counts 1
        handlings := seen } }, [])
  | none =>
    if cls ≤ 1 && decide (64 ≤ l.holding.length) then
      ({ d with errata := { l with lost := satAdd 32 l.lost 1, handlings := seen } }, [])
    else
      let seq := nextSequence l.sequence
      let rec' : ErrRec := {
        time := now, seq := seq, cls := cls, depth := l.handlings.length
        flags := (r.flags ||| (if esc || ninth then 1 else 0)) % 32
        scope := scope, unit := r.unit, inst := r.inst, code := r.code, orig := r.cls
        location := r.location
        parent := (match l.handlings with | [] => 0 | h :: _ => h.seq)
        count := 1, detail0 := r.detail0, detail1 := r.detail1 }
      ({ d with errata := { l with
          holding := l.holding ++ [rec']
          sequence := seq
          counts := countClass l.counts cls
          escalations := if esc || ninth then satAdd 32 l.escalations 1 else l.escalations
          handlings := if 2 ≤ cls then { seq := seq, cls := cls, scope := scope, unit := r.unit, inst := r.inst, seen := [r.cls] } :: seen else seen
          lastCorrected := if cls = 1 then (seq :: l.lastCorrected).take 16 else l.lastCorrected } },
        (.raise (cls + 1)) :: (if esc || ninth then [.raise 6] else []) ++
        (if l.eventClass ≤ cls then
          [.event l.eventQueue { code := 0x0880, subject := seq, detail := cls, value := r.unit + r.inst * 2 ^ 16,
                                 payload := r.location }]
        else []))

/-! ## Taking notices -/

/-- One notice taken: the new desk and the notices it brings about. -/
def notice (now : Nat) (n : Notice) (d : Desk) : Desk × List Notice :=
  match n with
  | .raise s => raiseSource now s d
  | .event q e => postEvent now q e d
  | .errata r => recordError now r d

/-- Notices taken in order, each followed at once by those it brings about. The fuel bounds the chain: a chain ends
because each storm in it stills one source. -/
def notify (now : Nat) : Nat → List Notice → Desk → Desk
  | 0, _, d => d
  | _ + 1, [], d => d
  | k + 1, n :: ns, d =>
    let r := notice now n d
    notify now k (r.2 ++ ns) r.1

/-- Fuel enough for the notices of one command. -/
def noticeFuel (ns : List Notice) : Nat := 64 + 16 * ns.length

/-- The desk told of a list of happenings. -/
def Desk.tell (d : Desk) (now : Nat) (ns : List Notice) : Desk := notify now (noticeFuel ns) ns d

/-- An occurrence of a key under R613: counted, and the notices written only where it opens a window. The notices are
given the count of the previous window. -/
def Desk.report (d : Desk) (now : Nat) (k : WinKey) (ns : Nat → List Notice) : Desk :=
  let r := countWin now k d.errata.windows
  let d' := { d with errata := { d.errata with windows := r.2.2 } }
  if r.1 then d'.tell now (ns r.2.1) else d'

end Sys2Proof.Machine
end

