-- ==== Sys2Proof/Machine/WordCode.lean ====
section
/-! DEFINITION. The word code of 32 data bytes and 3 check bytes (R71 to R78), and byte-addressed storage in its
canonical form. -/
namespace Sys2Proof.Machine

/-! ## The field and the code -/

/-- One step of the shift-and-add of `gmul`: `p` the sum, `a` and `b` the operands so far (R71). -/
def gmulStep : Nat → Byte → Byte → Byte → Byte
  | 0, p, _, _ => p
  | k + 1, p, a, b =>
    let p := if b &&& 1 = 1 then p ^^^ a else p
    let a := if a &&& 0x80 = 0x80 then (a <<< 1) ^^^ 0x1D else a <<< 1
    gmulStep k p a (b >>> 1)

/-- Multiplication in GF(2^8) (R71). -/
def gmul (a b : Byte) : Byte := gmulStep 8 0 a b

/-- The power of α = 0x02 (R71). -/
def alphaPow : Nat → Byte
  | 0 => 1
  | n + 1 => gmul (alphaPow n) 2

/-- The check bytes of the data bytes from byte 31 down to byte 0 (R73): (c2, c1, c0) folded over `D[i]`. -/
def checkStep (d : Byte) (c : Byte × Byte × Byte) : Byte × Byte × Byte :=
  let f := d ^^^ c.1
  (c.2.1 ^^^ gmul f 0x07, c.2.2 ^^^ gmul f 0x0E, gmul f 0x08)

/-- C0, C1, C2 of 32 data bytes, byte 0 first (R73). -/
def checkBytes (data : Bytes) : Bytes :=
  let c := data.foldr checkStep (0, 0, 0)
  [c.2.2, c.2.1, c.1]

/-- The codeword of a word: C0, C1, C2 and then D0 to D31, by byte position (R72). -/
def encodeWord (data : Bytes) : Bytes := checkBytes data ++ data

/-- A syndrome over the byte positions 34 down to 0 (R74). -/
def syndrome (c : Bytes) (a : Byte) : Byte := c.foldr (fun x s => gmul s a ^^^ x) 0

/-- What a reader decides of a word (R74). -/
inductive Decision where
  | clean
  | oneByte (position : Nat) (value : Byte)
  | uncorrectable
  deriving DecidableEq, Repr

/-- S0, S1, S2 in bytes 0 to 2, as an Errata record carries them (R541). -/
def syndromes (c : Bytes) : Nat := unle [syndrome c 1, syndrome c 2, syndrome c 4]

/-- The decision of R74 from the three syndromes. -/
def decideWord (c : Bytes) : Decision :=
  let s0 := syndrome c 1
  let s1 := syndrome c 2
  let s2 := syndrome c 4
  if s0 = 0 && s1 = 0 && s2 = 0 then .clean
  else if s0 ≠ 0 && s1 ≠ 0 && s2 ≠ 0 && gmul s1 s1 = gmul s0 s2 then
    match (List.range 35).find? (fun p => gmul s0 (alphaPow p) = s1) with
    | some p => .oneByte p s0
    | none => .uncorrectable
  else .uncorrectable

/-- The codeword with a one-byte error put right (R74). -/
def fixWord (c : Bytes) (p : Nat) (v : Byte) : Bytes := modAt c p (· ^^^ v)

/-- The 32 data bytes of a codeword (R72). -/
def dataOf (c : Bytes) : Bytes := c.drop 3

/-! ## Storage -/

/-- The byte at an address; an unlisted address reads as zero (log 2). -/
def cellGet (m : List Host.Cell) (a : Nat) : Byte := amGetD m a 0

/-- A byte written, keeping the canonical form: a zero byte is not listed. -/
def cellSet (m : List Host.Cell) (a : Nat) (b : Byte) : List Host.Cell := if b = 0 then amDel m a else amSet m a b

/-- The canonical form of storage: addresses strictly rising, no listed byte zero. -/
def cellsWf (m : List Host.Cell) : Bool := amWf m && m.all (fun c => c.2 ≠ 0)

/-- Bytes written from an address on. -/
def cellsSet (m : List Host.Cell) (a : Nat) : Bytes → List Host.Cell
  | [] => m
  | b :: bs => cellsSet (cellSet m a b) (a + 1) bs

/-- `n` bytes read from an address on. -/
def cellsGet (m : List Host.Cell) (a n : Nat) : Bytes := (List.range n).map (fun i => cellGet m (a + i))

/-- Storage under the word code: the data bytes by address, the check bytes of word `w` at 3w to 3w + 2. -/
structure Store where
  data : List Host.Cell := []
  check : List Host.Cell := []
  deriving DecidableEq, Repr

/-- Both lists of a store are canonical. -/
def Store.wf (m : Store) : Bool := cellsWf m.data && cellsWf m.check

/-- The codeword of the word number `w` (the 32 bytes from 32w). -/
def Store.word (m : Store) (w : Nat) : Bytes := cellsGet m.check (3 * w) 3 ++ cellsGet m.data (32 * w) 32

/-- A codeword stored whole. -/
def Store.putWord (m : Store) (w : Nat) (c : Bytes) : Store :=
  { data := cellsSet m.data (32 * w) (dataOf c), check := cellsSet m.check (3 * w) (c.take 3) }

/-- A full-word write with fresh check bytes (R78). -/
def Store.writeWord (m : Store) (w : Nat) (data : Bytes) : Store := m.putWord w (encodeWord (takePad 32 data))

/-- New bytes merged into the 32 of a word: byte i is taken where `mask` holds at i (R78). -/
def mergeBytes (old new : Bytes) (mask : List Bool) : Bytes :=
  (List.range 32).map (fun i => if mask.getD i false then new.getD i 0 else old.getD i 0)

/-- The stored check bytes inverted, which makes a word uncorrectable (R544). -/
def Store.poison (m : Store) (w : Nat) : Store :=
  let c := m.word w
  let d := match decideWord c with
    | .oneByte p v => dataOf (fixWord c p v)
    | _ => dataOf c
  m.putWord w ((checkBytes d).map (· ^^^ 0xFF) ++ d)

end Sys2Proof.Machine
end

