-- ==== Sys2Proof/Machine/StCarrel.lean ====
section
/-! DEFINITION. State of the carrels, the Stack vaults and the pipeline images (R21 to R25, R116 to R176). Each field's
default value is its value at reset. -/
namespace Sys2Proof.Machine

/-- STATE of a carrel (R127, R590). -/
inductive CarrelState where
  | off | idle | loading | ready | running | retention | halted | retired
  deriving DecidableEq, Repr

/-- The stage slot bound to a carrel (R147). -/
structure Bound where
  handle : Nat
  stage : Nat
  slot : Nat
  serving : Bool
  deriving DecidableEq, Repr

/-- An input of a stage slot: the edge, the producer's slot, the tokens held in arrival order (R148). -/
structure InPort where
  edge : Nat
  src : Nat
  slots : Nat
  held : List Token := []
  deriving DecidableEq, Repr

/-- An output of a stage slot: the edge, the consumer's slot, the hand-over slots and the credits held (R144). -/
structure OutPort where
  edge : Nat
  dst : Nat
  slots : Nat
  credits : List Nat
  deriving DecidableEq, Repr

/-- A carrel (R122, R127, R152). -/
structure Carrel where
  state : CarrelState := .off
  bound : Option Bound := none
  ins : List InPort := []
  outs : List OutPort := []
  /-- CARREL_BUSY_CYCLES, wraps -/
  busy : Nat := 0
  /-- CARREL_SRAM_CORRECTED -/
  corrected : Nat := 0
  /-- record times of the last 65 corrected words, newest first, and whether more than 64 ever fell within one hour (R151) -/
  recent : List Nat := []
  worn : Bool := false
  sram : Store := {}
  /-- words corrected and not yet written back (R76) -/
  writeBack : List Nat := []
  /-- words whose last write was a partial one that was not performed: the writer received the uncorrectable report (R78) -/
  refused : List Nat := []
  deriving DecidableEq, Repr

/-- A message on a request channel of the mesh (R132, R134): its source, a carrel or 256 and above for an edge port, its
destination carrel, its class, the consumer's input port, and what it carries. -/
structure MeshMsg where
  src : Nat
  dst : Nat
  serving : Bool
  port : Nat
  body : MeshBody
  deriving DecidableEq, Repr

/-- A credit on its way back to its producer on a response channel (R134, R144). -/
structure CreditMsg where
  to_ : CreditTo
  slot : Nat
  deriving DecidableEq, Repr

/-- The Stack (R25, R138 to R143). -/
structure StackMem where
  store : Store := {}
  /-- words corrected and not yet written back (R76) -/
  writeBack : List Nat := []
  /-- STACK_CORRECTED and STACK_UNCORRECTABLE by vault, unlisted 0 (R590) -/
  corrected : List (Nat × Nat) := []
  uncorrectable : List (Nat × Nat) := []
  /-- the words the last read request delivered, each with its poison mark (R77) -/
  lastRead : List (Bytes × Bool) := []
  /-- whether the last write request was acknowledged, by word (R78, R143) -/
  lastAck : List Bool := []
  deriving DecidableEq, Repr

/-- The carrel array and the Stack. -/
structure Fabric where
  /-- carrels that differ from reset, by number -/
  carrels : List (Nat × Carrel) := []
  stack : StackMem := {}
  /-- messages sent on request channels and not yet arrived, in the order of their sending (R134, R136) -/
  mesh : List MeshMsg := []
  /-- credits returned and not yet arrived, in the order of their sending (R134, R144) -/
  credits : List CreditMsg := []
  deriving DecidableEq, Repr

/-- A run in flight (R169 to R173). -/
structure Run where
  job : Nat
  handle : Nat
  sq : Nat
  seedOffset : Nat
  startAt : Nat
  steps : Nat := 0
  events : Events := {}
  /-- spilled bytes streamed (R163, R170) -/
  streamed : Nat := 0
  /-- inputs read and not yet sent on their edges: edge, bytes (R170) -/
  inputs : List (Nat × Bytes) := []
  /-- what each output edge has delivered: edge, bytes, producer slots that have sent their token, whether a word of it is
  poisoned (R170, R546) -/
  outputs : List (Nat × Bytes × List Nat × Bool) := []
  /-- the deadline has passed: no new step starts (R173) -/
  expired : Bool := false
  deriving DecidableEq, Repr

/-- Where a load stands (R166, R167). -/
inductive LoadState where
  /-- pieces are still to come -/
  | partial_
  /-- slots are being loaded for the LOAD_IMAGE job of the last piece -/
  | placing (job : Nat)
  | loaded
  deriving DecidableEq, Repr

/-- A pipeline image by its handle (R153 to R176). -/
structure Image where
  state : LoadState
  serving : Bool
  budget : Nat
  /-- the submission queue its pieces come from -/
  sq : Nat
  content : Bytes
  /-- bytes received: the sum of DATA_LEN of its pieces (R166) -/
  received : Nat
  /-- record time of its last piece (R166) -/
  pieceAt : Nat := 0
  ownerSigned : Bool := false
  /-- a default image of R176, which cannot be unloaded -/
  default_ : Bool := false
  measurement : Bytes := []
  /-- carrels by (stage, slot) -/
  placed : List (Nat × Nat × Nat) := []
  /-- (stage, slot) pairs that failed to load once, with the carrel (R167) -/
  failed : List (Nat × Nat × Nat) := []
  /-- where its Stack ranges begin in the scratch of the Stack vaults taken together (R126, R167; log 150) -/
  base : Nat := 0
  /-- credits that Circulation holds for the image inputs: edge, consumer slot, hand-over slots (R144, R170) -/
  inCredits : List (Nat × Nat × List Nat) := []
  /-- hand-overs sent on image inputs so far (R145) -/
  inSeq : Nat := 0
  /-- submission queues it is bound to -/
  queues : List Nat := []
  /-- UNBIND_IMAGE jobs that wait for the queue's runs: queue, job -/
  unbinding : List (Nat × Nat) := []
  /-- counters and steps by stage (R174) -/
  counters : List Events := []
  steps : List Nat := []
  deriving DecidableEq, Repr

/-- Images and runs. -/
structure Images where
  table : List (Nat × Image) := []
  runs : List Run := []
  deriving DecidableEq, Repr

end Sys2Proof.Machine
end

