-- ==== Sys2Proof/Machine/StCatalogue.lean ====
section
/-! DEFINITION. State of the Catalogue and the shelf engines (R396 to R439). Each field's default value is its value at
reset. -/
namespace Sys2Proof.Machine

/-- A collection's definition (R396, R424): whether its elements are fp16, its DIM, and its codebook as the bytes of R400;
none for Thagrim's. -/
structure Collection where
  half : Bool
  dim : Nat
  book : Option Bytes
  deriving DecidableEq, Repr

/-- A node of a generation (R404): its neighbours, nearest first, each with its code. -/
structure Node where
  id : Nat
  attr : Nat
  coll : Nat
  gen : Nat
  code : Bytes
  nbrs : List (Nat × Bytes)
  deriving DecidableEq, Repr

/-- A catalogue generation (R406). -/
structure Generation where
  number : Nat := 0
  base : Nat := 0
  folded : Nat := 0
  counter : Nat := 1
  /-- entry nodes by collection -/
  entries : List (Nat × List Nat) := []
  /-- engine that holds each shard -/
  engines : List Nat := List.range 64
  /-- block list of each segment that has one: channel-local block numbers -/
  segments : List (Nat × List Nat) := []
  /-- nodes by identifier -/
  nodes : List (Nat × Node) := []
  deriving DecidableEq, Repr

/-- An addenda entry (R407): forward and back links as positions. -/
structure Addendum where
  pos : Nat
  id : Nat
  attr : Nat
  coll : Nat
  code : Bytes
  forward : List Nat := []
  back : List Nat := []
  deriving DecidableEq, Repr

/-- A record of the addenda log (R409). -/
inductive LogRec where
  | entry (a : Addendum)
  | delete (id : Nat)
  | reserve (last : Nat)
  deriving DecidableEq, Repr

/-- A search's snapshot on a member (R411). -/
structure Snapshot where
  gen : Nat
  addEnd : Nat
  deletes : Nat
  deriving DecidableEq, Repr

/-- PARAMS of a search, defaults filled in (R420). -/
structure SearchParams where
  coll : Nat
  widen : Bool
  invert : Bool
  localOnly : Bool
  k : Nat
  list : Nat
  limit : Nat
  mask : Nat
  value : Nat
  expand : Nat
  deriving DecidableEq, Repr

/-- Whom a search serves. -/
inductive SearchOwner where
  | job (num : Nat)
  | session (index : Nat)
  | loop (keyframe : Nat)
  deriving DecidableEq, Repr

/-- What a member answers to a round (R413, R414, R422). -/
structure MemberResult where
  member : Nat
  snapshot : Snapshot
  hits : List SearchHit
  expansions : Nat
  deleted : Nat
  filtered : Nat
  /-- EXPAND_LIMIT 2, READ_FAILED 4, SHARD_MISSING 8, MEMBER_MISSING 16 -/
  flags : Nat
  deriving DecidableEq, Repr

/-- A search that this member issued (R414). -/
structure Search where
  owner : SearchOwner
  params : SearchParams
  vector : Bytes
  /-- LIST and EXPAND_MAX of the round -/
  list : Nat
  expand : Nat
  widened : Bool := false
  /-- members that have not answered the round -/
  waiting : List Nat
  results : List MemberResult := []
  flags : Nat := 0
  deriving DecidableEq, Repr

/-- A search served on this member: its issuer and number there, with the snapshot it has fixed (R411). -/
structure Served where
  member : Nat
  number : Nat
  snapshot : Snapshot
  /-- what this member found, of a search of its own, until it is merged -/
  result : Option MemberResult := none
  /-- shelf engines that it has read from (R438) -/
  engines : List Nat := []
  deriving DecidableEq, Repr

/-- A reshelving under way (R429). -/
structure Reshelving where
  cut : Nat
  deletes : Nat
  /-- nodes unreadable at the cut (R435) -/
  bad : List Nat
  jobs : List Nat
  /-- record time at which its writing began (R425, R430) -/
  since : Nat := 0
  /-- slots whose tombstone bit deletes beyond the cut have set -/
  later : List Nat := []
  deriving DecidableEq, Repr

/-- A LUN that an engine has found (R433). -/
structure Lun where
  ce : Nat
  lun : Nat
  /-- blocks, pages of a block, from the parameter page -/
  blocks : Nat
  pages : Nat
  /-- in service, left unused, or out of service -/
  inService : Bool := true
  unused : Bool := false
  /-- it has been reset once for staying busy, and the operation is tried again (R437) -/
  retrying : Bool := false
  deriving DecidableEq, Repr

/-- A block that has been used: its channel-local number, its erase count, whether data stands in it, whether it is
retired, whether it is to be rewritten and retired at the next reshelving (R435). -/
structure FlashBlock where
  erases : Nat := 0
  used : Bool := false
  retired : Bool := false
  worn : Bool := false
  deriving DecidableEq, Repr

/-- A page of the addenda log under way to NAND, with where it is written (R409). -/
structure LogPage where
  engine : Nat
  block : Nat
  recs : List LogRec
  deriving DecidableEq, Repr

/-- A DELETE that found the pending list full (R410): its job or none for the device's own, the identifiers still to enter,
and its counts so far. -/
structure WaitingDelete where
  job : Option Nat
  /-- the member that forwarded it, and the identifier it asked for -/
  asker : Option Nat := none
  asked : Nat := 0
  ids : List Nat
  /-- identifiers forwarded to other members, whose answer has not come -/
  remote : List Nat := []
  durable : Bool := false
  fresh : Nat
  already : Nat
  never : Nat
  deriving DecidableEq, Repr

/-- A SET_COLLECTION that other members are still to answer: its job, the collection and its definition, the members
waited for, whether they are asked if they hold no vector of it, or to take the definition (R424). -/
structure Defining where
  job : Nat
  coll : Nat
  value : Collection
  waiting : List Nat
  asking : Bool := true
  refused : Bool := false
  deriving DecidableEq, Repr

/-- A page that an engine reads for walks (R412, R417): the nodes of it that a walk expands or scores, and those that are
only read ahead, which no walk has expanded so far. -/
structure ShelfRead where
  block : Nat
  page : Nat
  wanted : List Nat := []
  ahead : List Nat := []
  deriving DecidableEq, Repr

/-- A shelf engine and its channel (R433 to R437, R590). -/
structure Engine where
  /-- RATE code of SHELF_STATE -/
  rate : Nat := 0
  luns : List Lun := []
  /-- chip enables not used or out of service -/
  ceBad : List Nat := []
  blocks : List (Nat × FlashBlock) := []
  /-- block that takes pages of the log, the map and the metadata, and its next page -/
  filling : Option (Nat × Nat) := none
  retired : Nat := 0
  violations : Nat := 0
  /-- the three 16 KiB table slots: the search (its issuer, its number there) whose quantised table each holds, the most
  recently used first (R417) -/
  tables : List (Nat × Nat) := []
  /-- page reads under way for walks -/
  reads : List ShelfRead := []
  deriving DecidableEq, Repr

/-- The Catalogue. -/
structure Catalogue where
  collections : List (Nat × Collection) :=
    [(0, { half := true, dim := 256, book := none }), (1, { half := false, dim := 128, book := none })]
  current : Generation := {}
  previous : Option Generation := none
  addenda : List Addendum := []
  /-- addenda end (R407, R409) -/
  addEnd : Nat := 0
  /-- X (R410) -/
  deletes : Nat := 0
  pendingDeletes : List (Nat × Nat) := []
  tombstones : List Nat := []
  /-- next local identifier, and the end of those reserved in the log (R398, R409) -/
  nextId : Nat := 1
  reserved : Nat := 0
  searches : List (Nat × Search) := []
  served : List Served := []
  nextSearch : Nat := 1
  reshelving : Option Reshelving := none
  /-- RESHELVE jobs that wait while the previous generation is held -/
  reshelveWaiting : List Nat := []
  deleteWaiting : List WaitingDelete := []
  defining : List Defining := []
  /-- a codebook that another member sends, as its bytes come -/
  bookIn : Bytes := []
  /-- identifiers that the last reshelving removed, while the previous generation is held (R429) -/
  removed : List Nat := []
  /-- runs of local identifiers never assigned: first and last (R398) -/
  skipped : List (Nat × Nat) := []
  /-- records not yet on a page, oldest first, with the record time of the oldest; pages being written; what the NAND
  holds (R409) -/
  logOpen : List LogRec := []
  logSince : Nat := 0
  logPages : List LogPage := []
  logNand : List LogRec := []
  logCount : Nat := 0
  /-- records appended to the log, and of those the ones on NAND -/
  logged : Nat := 0
  logSafe : Nat := 0
  /-- jobs that wait for their records to be on NAND: the job, the count of records appended that it needs (R409) -/
  durable : List (Nat × Nat × Ending) := []
  /-- deletes of other members that wait so: the count of records, the member, the identifier (R409, R423) -/
  durableAsked : List (Nat × Nat × Nat) := []
  /-- record time up to which the writing done has used WRITE_MIB_S (R425, R430) -/
  writeFree : Nat := 0
  /-- generation as the metadata on NAND holds it -/
  shelved : Generation := {}
  engines : List Engine := List.replicate 64 {}
  /-- nodes whose page could not be read (R412, R435) -/
  unreadable : List Nat := []
  /-- shelf policy (R425) -/
  writeMib : Nat := 8000
  reshelveAt : Nat := 75
  sparePct : Nat := 5
  eventQueue : Nat := 2
  /-- counts of R427 -/
  lostRecords : Nat := 0
  ended : Nat := 0
  short : Nat := 0
  widened : Nat := 0
  readFailed : Nat := 0
  switches : Nat := 0
  blocksRetired : Nat := 0
  deriving DecidableEq, Repr

end Sys2Proof.Machine
end

