-- ==== Sys2Proof/Machine/Geometry.lean ====
section
/-! DEFINITION. Map positions, poses, quaternions and covariances (R64 to R68). -/
namespace Sys2Proof.Machine

/-! ## Map positions (R64) -/

/-- A map position: x, y and z in units of 2^-10 m. -/
structure MapPos where
  x : Int
  y : Int
  z : Int
  deriving DecidableEq, Repr

/-- The map position in 12 bytes at an offset (R64). -/
def mapPosAt (b : Bytes) (o : Nat) : MapPos :=
  { x := toInt 32 (fldB b o 4), y := toInt 32 (fldB b (o + 4) 4), z := toInt 32 (fldB b (o + 8) 4) }

/-- A map position as 12 bytes. -/
def MapPos.bytes (p : MapPos) : Bytes := le 4 (ofInt 32 p.x) ++ le 4 (ofInt 32 p.y) ++ le 4 (ofInt 32 p.z)

/-- A length in fp64 metres as map units, to nearest, ties to even; none outside the range or not finite (R64). -/
def mapUnits (x : F64) : Option Int :=
  if !f64finite x then none
  else
    let y := f64mul x (f64ofInt 1024)
    let i := f64rint y
    if f64finite y && -(2 ^ 31 : Int) ≤ i && i < 2 ^ 31 then some i else none

/-- A position in fp64 metres as a map position (R64). -/
def toMapPos (x y z : F64) : Option MapPos :=
  match mapUnits x, mapUnits y, mapUnits z with
  | some a, some b, some c => some { x := a, y := b, z := c }
  | _, _, _ => none

/-- A map unit count as fp64 metres: exact. -/
def ofMapUnits (i : Int) : F64 := f64ofDyadic i (-10)

/-! ## Vectors of three fp64 values (R19: each operation rounded in the order written) -/

/-- A vector of three fp64 values. -/
structure Vec3 where
  x : F64
  y : F64
  z : F64
  deriving DecidableEq, Repr

def Vec3.add (a b : Vec3) : Vec3 := { x := f64add a.x b.x, y := f64add a.y b.y, z := f64add a.z b.z }
def Vec3.sub (a b : Vec3) : Vec3 := { x := f64sub a.x b.x, y := f64sub a.y b.y, z := f64sub a.z b.z }
def Vec3.scale (k : F64) (a : Vec3) : Vec3 := { x := f64mul k a.x, y := f64mul k a.y, z := f64mul k a.z }
def Vec3.zero : Vec3 := { x := 0, y := 0, z := 0 }
def Vec3.list (a : Vec3) : List F64 := [a.x, a.y, a.z]

/-- A scalar product, its index increasing, summed by `fma` from zero (R365). -/
def Vec3.dot (a b : Vec3) : F64 := f64fma a.z b.z (f64fma a.y b.y (f64fma a.x b.x 0))

/-- A vector product. -/
def Vec3.cross (a b : Vec3) : Vec3 :=
  { x := f64sub (f64mul a.y b.z) (f64mul a.z b.y), y := f64sub (f64mul a.z b.x) (f64mul a.x b.z)
    z := f64sub (f64mul a.x b.y) (f64mul a.y b.x) }

/-- A map position as fp64 metres. -/
def MapPos.vec (p : MapPos) : Vec3 := { x := ofMapUnits p.x, y := ofMapUnits p.y, z := ofMapUnits p.z }

/-! ## Quaternions and poses (R65 to R67) -/

/-- A quaternion. -/
structure Quat where
  w : F64
  x : F64
  y : F64
  z : F64
  deriving DecidableEq, Repr

/-- A pose (R65). -/
structure Pose where
  t : Vec3
  q : Quat
  deriving DecidableEq, Repr

/-- fp64 one. -/
def f64one : F64 := f64ofInt 1

/-- The identity rotation. -/
def Quat.one : Quat := { w := f64one, x := 0, y := 0, z := 0 }

/-- The pose at an offset of a byte run, as supplied (R65). -/
def poseAt (b : Bytes) (o : Nat) : Pose :=
  let g (i : Nat) : F64 := BitVec.ofNat 64 (fldB b (o + 8 * i) 8)
  { t := { x := g 0, y := g 1, z := g 2 }, q := { w := g 3, x := g 4, y := g 5, z := g 6 } }

/-- A pose as 56 bytes (R65). -/
def Pose.bytes (p : Pose) : Bytes :=
  [p.t.x, p.t.y, p.t.z, p.q.w, p.q.x, p.q.y, p.q.z].flatMap (fun v => le 8 v.toNat)

/-- The exact square of a finite fp64 value, as an integer over 2^2148. -/
def exactSquare (x : F64) : Nat :=
  match fmtF64.decode x.toNat with
  | .fin _ m e => m * m * 2 ^ ((2 * e + 2148).toNat)
  | _ => 0

/-- Whether the norm of a quaternion of finite values lies within 2^-k of 1 (R66, R67), compared exactly by squares. -/
def Quat.nearUnit (q : Quat) (k : Nat) : Bool :=
  let n := exactSquare q.w + exactSquare q.x + exactSquare q.y + exactSquare q.z
  decide ((2 ^ k - 1) ^ 2 * 2 ^ 2148 ≤ n * 2 ^ (2 * k)) && decide (n * 2 ^ (2 * k) ≤ (2 ^ k + 1) ^ 2 * 2 ^ 2148)

/-- Whether a quaternion passes the checks of R67. -/
def Quat.ok (q : Quat) : Bool :=
  f64finite q.w && f64finite q.x && f64finite q.y && f64finite q.z && q.nearUnit 20

/-- The sign of a quaternion brought to canonical form: QW not negative, or with QW zero the first non-zero of the others
positive (R66). -/
def Quat.canonSign (q : Quat) : Quat :=
  let neg : Bool := f64lt q.w 0 || (f64eq q.w 0 && (f64lt q.x 0 || (f64eq q.x 0 && (f64lt q.y 0 ||
    (f64eq q.y 0 && f64lt q.z 0)))))
  if neg then { w := f64neg q.w, x := f64neg q.x, y := f64neg q.y, z := f64neg q.z } else q

/-- Whether a quaternion is canonical as it stands (R66). -/
def Quat.isCanon (q : Quat) : Bool := q.nearUnit 50 && q.canonSign == q

/-- A quaternion divided by its norm, then brought to canonical form: `canon` of R366 (R67). -/
def Quat.canon (q : Quat) : Quat :=
  let n := f64sqrt (f64add (f64add (f64add (f64mul q.w q.w) (f64mul q.x q.x)) (f64mul q.y q.y)) (f64mul q.z q.z))
  Quat.canonSign { w := f64div q.w n, x := f64div q.x n, y := f64div q.y n, z := f64div q.z n }

/-- The product of two quaternions: `qmul` of R366. -/
def Quat.mul (a b : Quat) : Quat :=
  let m (x y : F64) : F64 := f64mul x y
  { w := f64sub (f64sub (f64sub (m a.w b.w) (m a.x b.x)) (m a.y b.y)) (m a.z b.z)
    x := f64sub (f64add (f64add (m a.w b.x) (m a.x b.w)) (m a.y b.z)) (m a.z b.y)
    y := f64add (f64add (f64sub (m a.w b.y) (m a.x b.z)) (m a.y b.w)) (m a.z b.x)
    z := f64add (f64sub (f64add (m a.w b.z) (m a.x b.y)) (m a.y b.x)) (m a.z b.w) }

/-- The conjugate. -/
def Quat.conj (q : Quat) : Quat := { w := q.w, x := f64neg q.x, y := f64neg q.y, z := f64neg q.z }

/-- The rows of R(q) (R366). -/
def Quat.rows (q : Quat) : Vec3 × Vec3 × Vec3 :=
  let two := f64ofInt 2
  let m (a b : F64) : F64 := f64mul a b
  let d (a b : F64) : F64 := f64sub f64one (f64mul two (f64add a b))
  let p (a b : F64) : F64 := f64mul two (f64add a b)
  let n (a b : F64) : F64 := f64mul two (f64sub a b)
  ({ x := d (m q.y q.y) (m q.z q.z), y := n (m q.x q.y) (m q.w q.z), z := p (m q.x q.z) (m q.w q.y) },
   { x := p (m q.x q.y) (m q.w q.z), y := d (m q.x q.x) (m q.z q.z), z := n (m q.y q.z) (m q.w q.x) },
   { x := n (m q.x q.z) (m q.w q.y), y := p (m q.y q.z) (m q.w q.x), z := d (m q.x q.x) (m q.y q.y) })

/-- A 3 × 3 matrix by rows. -/
abbrev Mat3 := Vec3 × Vec3 × Vec3

/-- A matrix times a vector (R365). -/
def mulMV (r : Mat3) (p : Vec3) : Vec3 := { x := r.1.dot p, y := r.2.1.dot p, z := r.2.2.dot p }

/-- A matrix transposed. -/
def transpose3 (r : Mat3) : Mat3 :=
  ({ x := r.1.x, y := r.2.1.x, z := r.2.2.x }, { x := r.1.y, y := r.2.1.y, z := r.2.2.y },
   { x := r.1.z, y := r.2.1.z, z := r.2.2.z })

/-- R(q) p. -/
def Quat.rotate (q : Quat) (p : Vec3) : Vec3 := mulMV q.rows p

/-- p_venue = R(q) p_body + t (R65). -/
def Pose.apply (p : Pose) (v : Vec3) : Vec3 := (p.q.rotate v).add p.t

/-- Whether a pose has a finite translation and passes R67. -/
def Pose.ok (p : Pose) : Bool := f64finite p.t.x && f64finite p.t.y && f64finite p.t.z && p.q.ok

/-- Index of entry (i, j), i at most j, of a covariance of n parameters (R68). -/
def covIndex (n i j : Nat) : Nat := i * n - i * (i - 1) / 2 + (j - i)

end Sys2Proof.Machine
end

