-- ==== Sys2Proof/Machine/Packet.lean ====
section
/-! DEFINITION. The bytes of Ethernet frames and of the packets in them, in network order (R12, R442 to R450, R454). -/
namespace Sys2Proof.Machine

/-- The 16-bit ones' complement sum of a byte run, of RFC 1071. -/
def onesSum : Bytes → Nat
  | [] => 0
  | [a] => a.toNat * 256
  | a :: b :: l => a.toNat * 256 + b.toNat + onesSum l

/-- A sum folded to 16 bits. -/
def fold16 (n : Nat) : Nat :=
  let a := n / 65536 + n % 65536
  let b := a / 65536 + a % 65536
  b / 65536 + b % 65536

/-- The Internet checksum of a byte run. -/
def inetSum (l : Bytes) : Nat := 0xFFFF - fold16 (onesSum l)

/-- A frame read as far as the steering needs it (R444). -/
structure Parsed where
  dst : Nat
  src : Nat
  /-- number of tags, and the tag control information of the first -/
  tags : Nat
  vlan : Nat
  etherType : Nat
  /-- offset of what follows the EtherType -/
  body : Nat
  /-- IP version, or 0 -/
  ip : Nat := 0
  srcAddr : Nat := 0
  dstAddr : Nat := 0
  /-- an IPv6 extension header stands before the payload -/
  extension : Bool := false
  headerBad : Bool := false
  lengthBad : Bool := false
  /-- a fragment: only the ports of a first one are read (R200, reason 0x13) -/
  fragment : Bool := false
  udp : Bool := false
  srcPort : Nat := 0
  dstPort : Nat := 0
  checksumBad : Bool := false
  /-- offset and length of the UDP payload -/
  payload : Nat := 0
  payloadLen : Nat := 0
  deriving DecidableEq, Repr

/-- An IPv4 address as an IPv4-mapped IPv6 address (R452). -/
def mapped4 (a : Nat) : Nat := 0xFFFF * 2 ^ 32 + a

/-- The UDP part of a packet: `pseudo` the pseudo-header, `o` the offset of the UDP header, `n` the bytes that IP gives it. -/
def parseUdp (f : Bytes) (p : Parsed) (pseudo : Bytes) (o n : Nat) : Parsed :=
  let len := fldBE f (o + 4) 2
  let sum := fldBE f (o + 6) 2
  let bad := decide (len < 8) || decide (n < len)
  { p with
    udp := true, srcPort := fldBE f o 2, dstPort := fldBE f (o + 2) 2
    lengthBad := p.lengthBad || bad
    checksumBad := !bad && (if sum = 0 then p.ip == 6
      else decide (fold16 (onesSum (pseudo ++ ((f.drop o).take len))) ≠ 0xFFFF))
    payload := o + 8, payloadLen := len - 8 }

/-- An IPv4 packet (R443, R454). -/
def parseIp4 (f : Bytes) (p : Parsed) : Parsed :=
  let o := p.body
  let ihl := fldBE f o 1 % 16 * 4
  let total := fldBE f (o + 2) 2
  let src := fldBE f (o + 12) 4
  let dst := fldBE f (o + 16) 4
  let head := (f.drop o).take ihl
  let frag := fldBE f (o + 6) 2 % 0x4000 ≠ 0
  let p := { p with
    ip := 4, srcAddr := mapped4 src, dstAddr := mapped4 dst, fragment := frag
    headerBad := fldBE f o 1 / 16 ≠ 4 || decide (ihl < 20) || decide (total < ihl) || decide (fold16 (onesSum head) ≠ 0xFFFF)
    lengthBad := decide (f.length < o + total) }
  if fldBE f (o + 9) 1 = 17 && !frag && !p.lengthBad && decide (20 ≤ ihl) && decide (ihl ≤ total) then
    parseUdp f p ((f.drop (o + 12)).take 8 ++ [0, 17] ++ ((f.drop (o + ihl + 4)).take 2)) (o + ihl) (total - ihl)
  else if fldBE f (o + 9) 1 = 17 && fldBE f (o + 6) 2 % 0x2000 = 0 && !p.headerBad && !p.lengthBad then
    { p with srcPort := fldBE f (o + ihl) 2, dstPort := fldBE f (o + ihl + 2) 2, payload := o + ihl + 8
             payloadLen := total - ihl - 8 }
  else p

/-- IPv6 next-header values that stand for extension headers: hop-by-hop, routing, fragment, authentication, ESP,
destination options, mobility. -/
def extensionHeaders : List Nat := [0, 43, 44, 51, 50, 60, 135]

/-- An IPv6 packet (R443, R454). -/
def parseIp6 (f : Bytes) (p : Parsed) : Parsed :=
  let o := p.body
  let len := fldBE f (o + 4) 2
  let next := fldBE f (o + 6) 1
  let p := { p with
    ip := 6, srcAddr := fldBE f (o + 8) 16, dstAddr := fldBE f (o + 24) 16, extension := extensionHeaders.contains next
    headerBad := fldBE f o 1 / 16 ≠ 6, lengthBad := decide (f.length < o + 40 + len) }
  if next = 17 && !p.lengthBad then
    parseUdp f p ((f.drop (o + 8)).take 32 ++ [0, 0] ++ ((f.drop (o + 44)).take 2) ++ [0, 0, 0, 17]) (o + 40) len
  else p

/-- A frame from its destination MAC address on, without FCS. -/
def parseFrame (f : Bytes) : Parsed :=
  let tagged := fldBE f 12 2 = 0x8100 || fldBE f 12 2 = 0x88A8
  let o := if tagged then 16 else 12
  let e := fldBE f o 2
  let p : Parsed := {
    dst := fldBE f 0 6, src := fldBE f 6 6, etherType := e, body := o + 2
    vlan := if tagged then fldBE f 14 2 else 0
    tags := if tagged then (if e = 0x8100 || e = 0x88A8 then 2 else 1) else 0 }
  if e = 0x0800 then parseIp4 f p else if e = 0x86DD then parseIp6 f p else p

/-- The UDP payload of a frame. -/
def Parsed.data (p : Parsed) (f : Bytes) : Bytes := (f.drop p.payload).take p.payloadLen

/-- `n` bytes of a value in network order. -/
def be (n v : Nat) : Bytes := (le n v).reverse

/-- Where a UDP answer goes, as R450 takes it from the query's last part. -/
structure Reply where
  srcMac : Nat
  dstMac : Nat
  vlan : Nat
  ip : Nat
  srcAddr : Nat
  dstAddr : Nat
  srcPort : Nat
  dstPort : Nat
  deriving DecidableEq, Repr

/-- The reply to a frame that arrived at a port whose MAC address is `mac` (R450). -/
def replyTo (mac : Nat) (p : Parsed) : Reply :=
  { srcMac := mac, dstMac := p.src, vlan := if p.tags = 0 then 0 else p.vlan, ip := p.ip
    srcAddr := p.dstAddr, dstAddr := p.srcAddr, srcPort := p.dstPort, dstPort := p.srcPort }

/-- A UDP checksum field: a computed zero is sent as 0xFFFF (RFC 768, RFC 8200). -/
def udpField (pseudo udp : Bytes) : Nat :=
  let c := inetSum (pseudo ++ udp)
  if c = 0 then 0xFFFF else c

/-- The frame of a UDP packet (R450): hop limit 64 and no options; fields that the spec does not give are zero. -/
def udpFrame (r : Reply) (data : Bytes) : Bytes :=
  let n := 8 + data.length
  let head := be 2 r.srcPort ++ be 2 r.dstPort ++ be 2 n
  let tag := if r.vlan = 0 then [] else be 2 0x8100 ++ be 2 r.vlan
  let eth (t : Nat) : Bytes := be 6 r.dstMac ++ be 6 r.srcMac ++ tag ++ be 2 t
  if r.ip = 6 then
    let pseudo := be 16 r.srcAddr ++ be 16 r.dstAddr ++ be 4 n ++ be 4 17
    let udp := head ++ be 2 (udpField pseudo (head ++ [0, 0] ++ data)) ++ data
    eth 0x86DD ++ be 4 0x60000000 ++ be 2 n ++ be 1 17 ++ be 1 64 ++ be 16 r.srcAddr ++ be 16 r.dstAddr ++ udp
  else
    let a := r.srcAddr % 2 ^ 32
    let b := r.dstAddr % 2 ^ 32
    let pseudo := be 4 a ++ be 4 b ++ be 2 17 ++ be 2 n
    let udp := head ++ be 2 (udpField pseudo (head ++ [0, 0] ++ data)) ++ data
    let ip (c : Nat) : Bytes := be 2 0x4500 ++ be 2 (20 + n) ++ be 4 0 ++ be 2 0x4011 ++ be 2 c ++ be 4 a ++ be 4 b
    eth 0x0800 ++ ip (inetSum (ip 0)) ++ udp

/-! ## Jalzel frames (R456) -/

/-- One bit of CRC-32C, least significant bit first (polynomial 0x1EDC_6F41, R456). -/
def crcBits : Nat → Nat → Nat
  | 0, c => c
  | k + 1, c => crcBits k (if c % 2 = 1 then (c / 2) ^^^ 0x82F63B78 else c / 2)

/-- CRC-32C of a byte run. -/
def crc32c (l : Bytes) : Nat := (l.foldl (fun c b => crcBits 8 (c ^^^ b.toNat)) 0xFFFFFFFF) ^^^ 0xFFFFFFFF

/-- Whether the header of a link frame checks (R456, R457). -/
def headerCrcOk (f : Bytes) : Bool := crc32c ((f.drop 8).take 28) == fldB f 36 4

/-- The 35-byte codeword of word `i` of a link frame, check bytes first as R72 numbers its positions (R456). -/
def frameWord (f : Bytes) (i : Nat) : Bytes :=
  let w := (f.drop (40 + 35 * i)).take 35
  takePad 3 (w.drop 32) ++ takePad 32 (w.take 32)

end Sys2Proof.Machine
end

