-- ==== Sys2Proof/Machine/StMap.lean ====
section
/-! DEFINITION. State of the map: editions, sheets, edits, inking (R326 to R346). Each field's default value is its value
at reset. -/
namespace Sys2Proof.Machine

/-- The three tables of the map (R330 to R332). -/
inductive MapTable where
  | landmark | keyframe | edge
  deriving DecidableEq, Repr

/-- A page of a table: its own number, and its records by key, each as its bytes (R333). -/
structure Page where
  id : Nat
  table : MapTable
  recs : List (Nat × Bytes)
  deriving DecidableEq, Repr

/-- An edition as this member keeps it: a number, and a sheet version, as its pages, for every sheet whose pages stand here
(R35, R38, R334). -/
structure Edition where
  number : Nat := 0
  sheets : List (Nat × List Page) := []
  deriving DecidableEq, Repr

/-- A record that an edit writes: its table, its key, its bytes. -/
structure MapWrite where
  table : MapTable
  key : Nat
  data : Bytes
  deriving DecidableEq, Repr

/-- STATE of an edit (R339, R353). -/
inductive EditState where
  | pencilled | inking | inked | withdrawn
  deriving DecidableEq, Repr

/-- The re-base entry of a sheet: the anchor's base pose and edit pose (R346). -/
structure Anchor where
  sheet : Nat
  base : Pose
  edit : Pose
  deriving DecidableEq, Repr

/-- What a loop edit is carried through (R390): its keyframe, its candidate, the step it waits at or runs. -/
structure LoopWork where
  keyframe : Nat
  candidate : Nat
  /-- region of step 1 -/
  region : List Nat
  /-- 2 waits, 3 pose-graph solve, 6 bundle adjustment -/
  step : Nat := 2
  /-- a solve of it has been discarded once (R395) -/
  retried : Bool := false
  deriving DecidableEq, Repr

/-- An edit (R338 to R340, R353). -/
structure Edit where
  verdict : Nat
  depends : Nat
  base : Nat
  eventQueue : Nat
  state : EditState := .pencilled
  writes : List MapWrite
  /-- edges that its keyframes carry from a sheet into another (R328) -/
  carried : List MapWrite := []
  /-- what its earlier states wrote, the first state first: a SOLVE edit may be revised (R339) -/
  past : List (List MapWrite) := []
  sheets : List Nat
  /-- pages it has taken at pencilling (R333) -/
  pages : List Page := []
  pencilTime : Nat
  endTime : Nat := 0
  inkedIn : Nat := 0
  reason : Nat := 0
  /-- context indices of the sessions that consumed it (R344); none while it has no bitmap -/
  consumers : Option (List Nat) := none
  rebase : List Anchor := []
  /-- the INK_EDIT job, or the SOLVE_MAP job, that waits for its end -/
  job : Option Nat := none
  loop : Option LoopWork := none
  /-- a restoring edit: the sheet that it restores (R546) -/
  restores : Option Nat := none
  deriving DecidableEq, Repr

/-- An inking that the clerk runs (R336). -/
structure Inking where
  number : Nat
  member : Nat
  edits : List Nat
  /-- holders that have not acknowledged -/
  waiting : List Nat
  /-- every holder has acknowledged and PUBLISH is sent -/
  published : Bool := false
  /-- sheets that a holder found missing, and edits for which one found no free page -/
  missing : List Nat := []
  noPage : List Nat := []
  deriving DecidableEq, Repr

/-- A sheet whose holder has changed while readers were at work (R33): the holder it had, the readers of this member that started
before, and, where the old copy stands here, the members whose such readers have not ended. -/
structure OldCopy where
  sheet : Nat
  holder : Nat
  readers : List Nat
  members : List Nat
  deriving DecidableEq, Repr

/-- The copy of a sheet that moves here (R33): whence it comes, and its version in each edition that it was copied for. -/
structure Arriving where
  sheet : Nat
  source : Nat
  versions : List (Nat × List Page)
  deriving DecidableEq, Repr

/-- A published edition that is being shelved: its content, the holders still to shelve their part (R337). -/
structure Shelving where
  edition : Edition
  waiting : List Nat
  /-- record time at which it began (R425) -/
  since : Nat := 0
  deriving DecidableEq, Repr

/-- What the map area of the flash keeps over a restart (R334, R337, R338). -/
structure MapFlash where
  /-- the highest shelved edition -/
  edition : Edition := {}
  /-- the highest number ever assigned in the room, as this member knows it -/
  highest : Nat := 0
  /-- end of the last block of edit serials reserved (R338) -/
  reserved : Nat := 0
  /-- map identifier serial (R329) -/
  lastId : Nat := 0
  /-- holder of every sheet (R327) -/
  sheets : List (Nat × Nat) := []
  /-- numbers of map pages written so far, which stripe them across the channels (R403) -/
  written : Nat := 0
  deriving DecidableEq, Repr

/-- The map as this member holds it. -/
structure MapSt where
  /-- editions held, by number, the last inked among them -/
  editions : List Edition := [{}]
  lastInked : Nat := 0
  lastShelved : Nat := 0
  flash : MapFlash := {}
  edits : List (Nat × Edit) := []
  /-- last edit serial assigned (R338) -/
  lastSerial : Nat := 0
  /-- next page number -/
  nextPage : Nat := 1
  /-- HOLD_EDITION of this member (R335) -/
  holds : List Nat := []
  /-- editions that another member has not released: the member, the edition; and those that this member has (R335) -/
  otherHolds : List (Nat × Nat) := []
  released : List Nat := []
  /-- READ_SHEET, solves and queries in flight that have fixed an edition: a key of the reader, the edition -/
  fixed : List (Nat × Nat) := []
  /-- sheets reported missing; versions that could not be restored, by edition and sheet (R38, R546) -/
  missing : List Nat := []
  lost : List (Nat × Nat) := []
  /-- the clerk's: inkings asked for and not yet numbered, the one that runs (R336) -/
  inkWaiting : List (Nat × List Nat) := []
  inking : Option Inking := none
  /-- a holder's: the set it has made sheet versions for, and the edition made -/
  made : Option (Nat × List Nat) := none
  /-- edges that keyframes of that set carry here from sheets of other holders (R328) -/
  madeCarried : List MapWrite := []
  /-- sheets that have moved while readers were at work; copies of sheets that move here (R33) -/
  oldCopies : List OldCopy := []
  arriving : List Arriving := []
  /-- members whose readers had ended on a sheet before its switch came here, and the sheet (R33) -/
  copiesLeft : List (Nat × Nat) := []
  shelving : List Shelving := []
  /-- a new clerk's question for the last inked edition: members still to answer, the newest edition named so far and the
  edits inked in it (R336) -/
  asking : Option (List Nat × Nat × List Nat) := none
  /-- MAX_SHEETS of other members as they tell it (R359) -/
  memberMax : List (Nat × Nat) := []
  /-- solver policy (R387), as its 64 bytes with defaults filled in by readers, and the matching codebook (R388);
  none stands for Thagrim's -/
  policy : Bytes := []
  codebook : Option Bytes := none
  /-- loop edits inked on this member since the last bundle adjustment (R390) -/
  loopsInked : Nat := 0
  deriving DecidableEq, Repr

end Sys2Proof.Machine
end

