-- ==== Sys2Proof/Machine/StSession.lean ====
section
/-! DEFINITION. State of the localisation sessions (R290 to R325). Each field's default value is its value at reset. -/
namespace Sys2Proof.Machine

/-- A matrix of fp64 values by rows. -/
abbrev Mat := List (List F64)

/-- A camera (R298, R367). -/
structure Camera where
  model : Nat
  width : Nat
  height : Nat
  params : List F64
  deriving DecidableEq, Repr

/-- A session descriptor (R298); its key as the session uses it (R569). -/
structure SessionDesc where
  raw : Bytes
  host : Bool
  read : Nat
  kinds : Nat
  port : Nat
  udpPort : Nat
  bindQueue : Nat
  eventQueue : Nat
  rate : Nat
  units : Nat
  burst : Nat
  missLimit : Nat
  minInliers : Nat
  relocK : Nat
  idle : Nat
  pin : Nat
  gate : F32
  accel : F32
  angacc : F32
  relocMs : Nat
  assemblyMs : Nat
  body : Pose
  camera : Camera
  key : Bytes
  deriving DecidableEq, Repr

/-- The filter (R308). -/
structure Filter where
  p : Vec3
  q : Quat
  v : Vec3
  w : Vec3
  t : Nat
  cov : Mat
  deriving DecidableEq, Repr

/-- State of a session but closing (R294). -/
inductive SessionMode where
  | seeking | tracking | lost
  deriving DecidableEq, Repr

/-- Where an answer goes: the port and the addresses of the query's last part, or a SUBMIT_QUERY job (R292, R312). -/
inductive AnswerTo where
  | packet (port : Nat) (r : Reply)
  /-- over a Jalzel link, for a query whose last part arrived at another member -/
  | link (member port : Nat) (r : Reply)
  | job (num : Nat) (replay : Nat)
  deriving DecidableEq, Repr

/-- A query part received (R300). -/
structure QueryPartIn where
  part : Nat
  body : Bytes
  deriving DecidableEq, Repr

/-- A query under assembly, or closed (R300, R303). -/
structure Query where
  seq : Nat
  parts : Nat
  capture : Nat
  kind : Nat
  flags : Nat
  width : Nat
  height : Nat
  got : List QueryPartIn := []
  /-- arrival of its first part, and of its last part so far -/
  firstAt : Nat := 0
  lastAt : Nat
  /-- record time of its close (R303, R320) -/
  closedAt : Nat := 0
  /-- where its answer goes, and the source address of its last part -/
  answer : AnswerTo
  source : Nat
  guaranteed : Bool := false
  deriving DecidableEq, Repr

/-- A correspondence: keypoint index, its pixel, the landmark and its position (R391). -/
structure Match where
  keypoint : Nat
  u : F32
  v : F32
  landmark : Nat
  position : MapPos
  dist : Nat
  deriving DecidableEq, Repr

/-- Where a query in service stands. -/
inductive ServeStep where
  /-- holders that have not answered (R36) -/
  | matching (waiting : List Nat)
  | solving
  /-- a Catalogue search of this number runs (R316) -/
  | searching (search : Nat)
  /-- candidate keyframes not yet verified, in order -/
  | verifying (candidates : List Nat)
  deriving DecidableEq, Repr

/-- A query in service (R304 to R309). -/
structure Service where
  query : Query
  step : ServeStep
  /-- the draft cut or edition it reads: the edition, the pencilled edits -/
  edition : Nat
  cut : List Nat
  /-- what the edits of the cut wrote as it was fixed, in order (R29, R342) -/
  draft : List MapWrite := []
  fromDraft : Bool
  /-- the filter it starts from, re-based where it reports a withdrawal (R315, R346) -/
  base : Option Filter
  /-- predicted filter; under R311 the filter as it stands; none where it relocalises -/
  predicted : Option Filter := none
  outOfOrder : Bool := false
  sheets : List Nat := []
  missing : List Nat := []
  /-- of the selected sheets, those that this member matches, and what the other holders have returned (R36) -/
  own : List Nat := []
  found : List Match := []
  keypoints : List Keypoint := []
  /-- the solver policy and the matching codebook that its solves started with (R380) -/
  policy : Bytes := []
  codebook : Option Bytes := none
  /-- global descriptor of the place image (R316) -/
  place : Bytes := []
  /-- inliers and correspondences of its last solve -/
  inliers : Nat := 0
  matched : Nat := 0
  /-- MISSES as it leaves them where it ends `LOST` -/
  misses : Nat
  /-- it has made the session lost: DETAIL of SESSION_LOST (R323) -/
  lost : Option Nat := none
  /-- relocalisation was not attempted (R317) -/
  deferred : Bool := false
  /-- edits whose withdrawal this answer reports, and whether OVERFLOW was set at step 4 (R315, R345) -/
  revoked : List Nat := []
  overflow : Bool := false
  deriving DecidableEq, Repr

/-- A session (R293 to R299). -/
structure Session where
  desc : SessionDesc
  /-- the entry of the session-context region that its context stands in: 1,024 a Stack vault (R25) -/
  slot : Nat := 0
  mode : SessionMode := .seeking
  /-- closing, and the CLOSE_SESSION job that waits -/
  closing : Bool := false
  closeJob : Option Nat := none
  filter : Option Filter := none
  misses : Nat := 0
  lastSeq : Option Nat := none
  lastEdition : Nat := 0
  /-- token bucket in units of 10^-12 query, and the close before (R320) -/
  bucket : Nat
  lastClose : Option Nat := none
  answers : Nat := 0
  losses : Nat := 0
  relocalisations : Nat := 0
  authFailures : Nat := 0
  bestEffort : Nat := 0
  violations : Nat := 0
  revocations : Nat := 0
  /-- SEED_POSE not yet in effect: time, pose, covariance (R310) -/
  seed : Option (Nat × Pose × List F64) := none
  /-- READ and PIN_EDITION not yet in effect (R297) -/
  newRead : Option (Nat × Nat) := none
  /-- READ 2 took effect while PIN_EDITION was held (R335) -/
  pinHeld : Bool := false
  /-- pending revocation record (R345) -/
  pendingRevoked : List Nat := []
  overflow : Bool := false
  /-- SEED region: the last seeding or relocalising pose, covariance and time (R293) -/
  seeded : Option (Nat × Pose × List F64) := none
  /-- the last 16 answers, newest first (R293) -/
  history : List Bytes := []
  /-- landmarks of the last accepted solve's inliers (R293) -/
  inlierCache : List Nat := []
  assembling : Option Query := none
  /-- closed queries that wait, oldest first -/
  closed : List Query := []
  service : Option Service := none
  lastReloc : Option Nat := none
  /-- record time of its opening, or of its last query part whose tag held (R294) -/
  usedAt : Nat := 0
  deriving DecidableEq, Repr

/-- The sessions of this device. -/
structure Sessions where
  open_ : List (Nat × Session) := []
  /-- next index of the rotation (R295) -/
  nextIndex : Nat := 0
  /-- parts dropped under reason 0x02 (R322, R591) -/
  notOpen : Nat := 0
  /-- working heads in the Curator's session cache, most recently used first (R24, R27) -/
  cache : List Nat := []
  /-- sessions and admitted units of other members, as they tell it (R361) -/
  members : List (Nat × Nat × Nat) := []
  /-- OPEN_SESSION jobs passed on to another member: the job, the member (R361) -/
  opening : List (Nat × Nat) := []
  /-- a part that another member forwards, as its bytes come (R292, R461) -/
  partIn : List (Nat × Bytes) := []
  deriving DecidableEq, Repr

end Sys2Proof.Machine
end

