-- ==== Sys2Proof/Machine/StCollator.lean ====
section
/-! DEFINITION. State of the Collator: problems, large solves, counts (R365 to R395). Each field's default value is its
value at reset. -/
namespace Sys2Proof.Machine

/-- The value of a parameter block (R365). -/
inductive BlockVal where
  | pose (p : Pose)
  /-- a pose whose attitude is held: the body position that a range query solves (R392) -/
  | position (p : Pose)
  | landmark (x : Vec3)
  | velocity (v : Vec3)
  deriving DecidableEq, Repr

/-- A parameter block (R365, R383). -/
structure Block where
  fixed : Bool
  value : BlockVal
  deriving DecidableEq, Repr

/-- A residual, its values widened to fp64 (R368, R370). -/
structure Residual where
  kind : Nat
  kernel : Nat
  camera : Nat
  scale : F64
  blocks : List Nat
  m : List F64
  sigma : List F64
  dt : F64
  deriving DecidableEq, Repr

/-- A least-squares problem (R365, R382). -/
structure Problem where
  cameras : List Camera
  blocks : List Block
  residuals : List Residual
  gravity : F64
  deriving DecidableEq, Repr

/-- PARAMS of a solve, defaults filled in (R381). -/
structure SolveParams where
  maxIterations : Nat
  refineMax : Nat
  covariance : Bool
  residualOut : Bool
  tau : Nat
  rho : Nat
  lambda0 : F64
  tolCost : F64
  tolStep : F64
  deriving DecidableEq, Repr

/-- How an iteration left the solve (R376). -/
inductive SolveEnd where
  | ok
  | stalled
  | iterLimit
  | diverged
  | deadline
  deriving DecidableEq, Repr

/-- The iteration of a solve (R376) and what R385 counts of it. -/
structure Progress where
  x : List BlockVal
  f : F64
  f0 : F64
  lam : F64
  fails : Nat := 0
  it : Nat := 0
  acc : Nat := 0
  retries : Nat := 0
  pivots : Nat := 0
  landmarkPivots : Nat := 0
  firstPivot : Option Nat := none
  zeroPivot : Bool := false
  refineLimit : Bool := false
  midFactor : Bool := false
  covarianceMissing : Bool := false
  /-- the deadline has passed in the covariance stage of a solve that had ended (R377) -/
  late : Bool := false
  ended : Option SolveEnd := none
  deriving DecidableEq, Repr

/-- What a map solve was built from (R386): the edition and cut read, whether it adjusts bundles, its sheets; its free
keyframes with their blocks and records; the landmarks it may move, each with its own block, or for a pose graph the
block of its reference keyframe, and its record; its loop edges with their residuals; what becomes of the result. -/
structure MapSolve where
  edition : Nat
  cut : List Nat
  adjust : Bool
  sheets : List Nat
  frames : List (Nat × Bytes)
  marks : List (Nat × Bytes)
  /-- residual, edge key -/
  loops : List (Nat × Nat)
  output : Bool
  eventQueue : Nat
  /-- the solver policy that it started with (R380) -/
  policy : Bytes := []
  deriving DecidableEq, Repr

/-- A large solve (R380, R394). -/
structure LargeSolve where
  owner : SolveOwner
  problem : Problem
  params : SolveParams
  map : Option MapSolve := none
  /-- block records as given, and where the output area begins (R382) -/
  given : List Bytes := []
  outAt : Nat := 0
  /-- its deadline, 0 for none; of a loop's bundle adjustment, set at its start (R390) -/
  deadline : Nat := 0
  /-- FACTOR_ENTRIES (R394) -/
  entries : Nat
  /-- where its working set stands in the scratch region, and its length (R394) -/
  scratch : Nat × Nat := (0, 0)
  /-- once it is admitted, how it stands -/
  progress : Option Progress := none
  deriving DecidableEq, Repr

/-- The Collator. -/
structure Collator where
  /-- large solves in start order -/
  solves : List LargeSolve := []
  /-- the sixteen counts of R380 -/
  counts : List Nat := List.replicate 16 0
  /-- SET_SOLVER and SET_CODEBOOK jobs of this member: members still to take the setting -/
  settings : List (Nat × List Nat) := []
  /-- a codebook that another member sends, as its bytes come -/
  bookIn : Bytes := []
  deriving DecidableEq, Repr

end Sys2Proof.Machine
end

