-- ==== Sys2Proof/Machine/StConcord.lean ====
section
/-! DEFINITION. State of the Concordance unit (R256 to R289). Each field's default value is its value at reset. -/
namespace Sys2Proof.Machine

/-- The grid descriptor (R284). -/
structure GridSet where
  originX : Int
  originY : Int
  zLow : Int
  zHigh : Int
  periodMs : Nat
  closeDelayMs : Nat
  closeLimitMs : Nat
  complete : Bool
  image : Nat
  maxAgeMs : Nat
  disagreeGap : F32
  contraCells : Nat
  persist : Nat
  releaseEpochs : Nat
  eventQueue : Nat
  deriving DecidableEq, Repr

/-- A binding (R261, R266, R278, R279, R287). -/
structure Binding where
  stream : Nat
  source : Nat
  k : Nat
  amend : Bool
  noQuarantine : Bool
  weight : F32
  pose : Pose
  homography : List F32
  encoding : Bytes
  scale : List F32
  reliability : F32
  quarantined : Bool := false
  /-- closes since it was quarantined, and consecutive closes at which no pair holding it was in contradiction (R279) -/
  closesQuarantined : Nat := 0
  closesClean : Nat := 0
  /-- greatest instant of a unit made available, for COMPLETE (R268) -/
  newest : Option Nat := none
  units : Nat := 0
  late : Nat := 0
  amended : Nat := 0
  stale : Nat := 0
  future : Nat := 0
  outOfGrid : Nat := 0
  quarantines : Nat := 0
  deriving DecidableEq, Repr

/-- An item placed on the grid (R263, R265): its cell, its index within its unit, its 64 fp8 channels. -/
structure GridItem where
  i : Nat
  j : Nat
  index : Nat
  f : List Nat
  deriving DecidableEq, Repr

/-- A unit taken (R262, R269): its binding, number, instant, items, and its age where it is folded in late. -/
structure FusionUnit where
  binding : Nat
  number : Nat
  instant : Nat
  items : List GridItem
  /-- folded in late, with its age in ns (R274) -/
  late : Bool := false
  age : Nat := 0
  deriving DecidableEq, Repr

/-- What a stream hands over to the Concordance unit (R261): a frame's features, a set's points by part, a record's
values. -/
inductive Handed where
  | frame (features : List Keypoint)
  | set (parts : List (Nat × Bytes))
  | sample (values : List F32)
  deriving DecidableEq, Repr

/-- A unit that has reached the Concordance unit and has not been taken (R262). -/
structure Reached where
  stream : Nat
  number : Nat
  instant : Nat
  implausible : Bool
  data : Handed
  deriving DecidableEq, Repr

/-- A feature cell with items: 64 fp8 channels and the cell record (R258). -/
structure Cell where
  i : Nat
  j : Nat
  feature : List Nat
  weight : F32
  items : Nat
  age : Nat
  flags : Nat
  high : Nat
  low : Nat
  bindings : Nat
  deriving DecidableEq, Repr

/-- A closed epoch (R268 to R273): what its computation and its amendment need. -/
structure Epoch where
  number : Nat
  instant : Nat
  closeTime : Nat
  overrun : Bool := false
  byLimit : Bool := false
  restart : Bool := false
  /-- its input list (R273) and the cells of its feature grid -/
  inputs : List FusionUnit := []
  cells : List Cell := []
  lateFolded : Nat := 0
  disagree : Nat := 0
  quarantinedCount : Nat := 0
  /-- partial track lists by tile, once computed -/
  partials : List Bytes := []
  /-- tile runs that faults have discarded in the attempt under way, and whether a first attempt has failed (R288) -/
  failedTiles : Nat := 0
  retried : Bool := false
  failed : Bool := false
  deriving DecidableEq, Repr

/-- A track list retained (R280). -/
structure TrackList where
  seq : Nat
  amendment : Bool
  header : Bytes
  tracks : List Bytes
  deriving DecidableEq, Repr

/-- STATE of fusion (R285). -/
inductive FusionState where
  | unset | set | running | stopping
  deriving DecidableEq, Repr

/-- A binding command that takes effect at the next close (R279, R283). -/
inductive AtClose where
  | unbind (job binding : Nat)
  | quarantine (job binding : Nat)
  | release (job binding : Nat)
  deriving DecidableEq, Repr

/-- The Concordance unit. -/
structure Concord where
  state : FusionState := .unset
  grid : Option GridSet := none
  bindings : List (Nat × Binding) := []
  /-- runs of pairs in contradiction, by 256 a + b (R277) -/
  runs : List (Nat × Nat) := []
  reached : List Reached := []
  /-- epoch origin T0, the open epoch, the units held for it and the next (R267 to R269) -/
  origin : Nat := 0
  openEpoch : Nat := 0
  held : List (Nat × FusionUnit) := []
  /-- late units folded into the open epoch (R274) -/
  folded : List FusionUnit := []
  /-- the close of the open epoch has been postponed: when it was due, and whether the limit closed it (R268) -/
  postponed : Option (Nat × Bool) := none
  nextRestart : Bool := false
  atClose : List AtClose := []
  /-- the epoch that computes, the last one computed, and the one before that, retained for its amendment -/
  computing : Option Epoch := none
  /-- the close of the open epoch falls in this Datestamp tick: when it was due, CLOSED_BY_LIMIT, OVERRUN; it is made as the tick
  ends, so that every unit available in the tick is on time (R268, R269) -/
  closing : Option (Nat × Bool × Bool) := none
  last : Option Epoch := none
  retained : Option Epoch := none
  /-- units gathered for the most recently closed epoch, and those of the retained one (R275) -/
  gathered : List FusionUnit := []
  amendUnits : List FusionUnit := []
  /-- item weights by binding at the close that ended their gathering (R270, R275) -/
  amendWeights : List (Nat × F32) := []
  amending : Bool := false
  amendFailed : Bool := false
  /-- the STOP_FUSION job, and whether reference service stopped fusion -/
  stopJob : Option Nat := none
  byReference : Bool := false
  /-- state buffers 0 to 2 and the amendment sink, output states by tile (R259, R271, R275) -/
  buffers : List (List (Nat × Bytes)) := [[], [], [], []]
  /-- SEQ of the last list, lists retained, newest first (R280) -/
  seq : Nat := 0
  lists : List TrackList := []
  lastEpoch : Nat := 0
  /-- close time of the last epoch given out since START_FUSION -/
  lastClose : Option Nat := none
  overruns : Nat := 0
  amendments : Nat := 0
  failed : Nat := 0
  lastComputeUs : Nat := 0
  deriving DecidableEq, Repr

end Sys2Proof.Machine
end

