-- ==== Sys2Proof/Machine/StCurator.lean ====
section
/-! DEFINITION. State of the Curator: the host's bounds, what stands at a bound, the conflicts open, its counts
(R356 to R363). Each field's default value is its value at reset. -/
namespace Sys2Proof.Machine

/-- The policy record (R357) with its defaults. -/
structure Policy where
  servingCarrels : Nat := 128
  powerCapW : Nat := 0
  maxSheets : Nat := 16384
  moveMibS : Nat := 2000
  maxSessions : Nat := 65536
  quadrantSleep : Nat := 0xF
  vaultMask : Nat := 2 ^ 64 - 1
  autoInkMs : Nat := 1000
  retainEditions : Nat := 3
  holderMoves : Bool := true
  mapEventQueue : Nat := 2
  deriving DecidableEq, Repr

/-- A loop at a bound (R358): its DETAIL code and the record time since which it stands there. -/
structure Pinned where
  code : Nat
  since : Nat
  /-- record time of its last BOUND_PINNED -/
  told : Nat := 0
  deriving DecidableEq, Repr

/-- An open conflict (R359). -/
structure Conflict where
  code : Nat
  since : Nat
  object : Nat
  deriving DecidableEq, Repr

/-- A move under way (R356, R360): what, which object, and where to. -/
structure Move where
  kind : MoveKind
  object : Nat
  dest : Nat
  /-- of a sheet: the last inked edition when its copy was made, none for a copy to be made anew -/
  copied : Option Nat := none
  /-- of a sheet: the copy is complete, and the switch is asked for (R360) -/
  asked : Bool := false
  deriving DecidableEq, Repr

/-- The Curator. -/
structure Curator where
  policy : Policy := {}
  /-- SET_POLICY jobs whose room-wide fields are not yet in effect everywhere: the job, the members still to take them -/
  policyWaiting : List (Nat × List Nat) := []
  pinned : List Pinned := []
  conflicts : List Conflict := []
  moves : List Move := []
  /-- counts of QUERY_CURATOR (R362) -/
  sheetMoves : Nat := 0
  movedMib : Nat := 0
  stageMoves : Nat := 0
  contextMoves : Nat := 0
  /-- pins: sheet and member, by sheet (R362) -/
  pins : List (Nat × Nat) := []
  deriving DecidableEq, Repr

end Sys2Proof.Machine
end

