-- ==== Sys2Proof/Machine/StNet.lean ====
section
/-! DEFINITION. State of the Ethernet ports, the Jalzel links and the room (R440 to R467). Each field's default value is
its value at reset. -/
namespace Sys2Proof.Machine

/-- STATE of a logical port (R589). -/
inductive PortState where
  | down | training | up
  deriving DecidableEq, Repr

/-- A frame that waits for its destination: the record time of its last bit (R183), the room-wide logical port, the
bytes from the destination MAC address on, without FCS. -/
structure Arrival where
  time : Nat
  port : Nat
  frame : Bytes
  deriving DecidableEq, Repr

/-- A Datestamp unit message that waits at a port (R449): its type and sequenceId, the stamp it carries in ns and 2^-16 ns,
none where it is the one taken as it leaves, and the type of the message that follows it with that stamp. -/
structure PtpOut where
  kind : Nat
  seq : Nat
  stamp : Option (Nat × Nat) := none
  follow : Option Nat := none
  deriving DecidableEq, Repr

/-- A local logical port (R440 to R446, R449, R452, R453). -/
structure LogPort where
  state : PortState := .down
  /-- a training has failed and PORT_DOWN stands for it, and the record time of the last failure (R454) -/
  failed : Bool := false
  failedAt : Nat := 0
  vlan : Nat := 0
  mac : Nat := 0
  unicast : List Nat := []
  groups : List Nat := []
  rx : Nat := 0
  tx : Nat := 0
  fecCorrected : Nat := 0
  fecBad : Nat := 0
  macFiltered : Nat := 0
  unclaimed : Nat := 0
  rxDrops : Nat := 0
  rxQueueFull : Nat := 0
  violations : Nat := 0
  /-- the 128 KiB queues to the stations and to the session stage, oldest first (R446) -/
  stations : List Arrival := []
  sessions : List Arrival := []
  /-- frames held in sleep for orders 4 and 5, oldest first (R515) -/
  held : List Arrival := []
  /-- what waits for transmission, by class: Datestamp unit messages, session answers, one frame of each host transmit
  queue with its number; the queue served last; bits of the frame on the wire still to go (R449) -/
  sync : List PtpOut := []
  answers : List Bytes := []
  host : List (Nat × Bytes) := []
  turn : Nat := 0
  left : Nat := 0
  deriving DecidableEq, Repr

/-- A physical port (R440, R451). -/
structure PhysPort where
  /-- its settings have been applied -/
  provided : Bool := false
  breakout : Nat := 0
  medium : Nat := 0
  autoneg : Bool := false
  exceptionQueue : Nat := 0
  /-- the SET_PORT job whose training has not ended -/
  job : Option Nat := none
  deriving DecidableEq, Repr

/-- A flow rule (R445, R451). -/
structure FlowRule where
  queue : Nat
  udpPort : Nat
  port : Nat
  matchAddr : Bool
  source : Nat
  deriving DecidableEq, Repr

/-- A link message (R460): `words` are its data words of 32 bytes, `poison` their marks. -/
structure LinkMsg where
  kind : Nat
  channel : Nat
  source : Nat
  dest : Nat
  tag : Nat := 0
  address : Nat := 0
  poison : Nat := 0
  words : List Bytes := []
  deriving DecidableEq, Repr

/-- A data frame kept until it is acknowledged (R458). -/
structure TxFrame where
  seq : Nat
  words : List Bytes
  /-- times it has been sent again as the first of a replay -/
  replays : Nat := 0
  deriving DecidableEq, Repr

/-- A request to a peer that waits for its response (R460, R461). -/
structure LinkReq where
  tag : Nat
  write : Bool
  address : Nat
  deriving DecidableEq, Repr

/-- STATE of a Jalzel port (R464). -/
inductive LinkState where
  | down | training | identifying | up | refused
  deriving DecidableEq, Repr

/-- A Jalzel port (R455 to R466). -/
structure Jalzel where
  state : LinkState := .down
  /-- a training has failed, at this record time, and is retried after 100 ms (R464) -/
  failed : Bool := false
  failedAt : Nat := 0
  /-- held in sleep (R515) -/
  parked : Bool := false
  partner : Option Nat := none
  corrected : Nat := 0
  replayed : Nat := 0
  requests : Nat := 0
  /-- since the link came up (R589) -/
  retrains : Nat := 0
  violations : Nat := 0
  /-- the training is a retrain of a link that was up, and how many in a row have failed (R458) -/
  retraining : Bool := false
  fails : Nat := 0
  /-- next FRAME_SEQ, the frames kept, the messages that wait for a credit or for a place among them (R458, R459) -/
  nextSeq : Nat := 0
  kept : List TxFrame := []
  waiting : List LinkMsg := []
  /-- words sent by channel, and words freed by the peer as its CREDITS last gave, both modulo 2^16 (R456, R459) -/
  sent : List Nat := [0, 0, 0, 0]
  credits : List Nat := [0, 0, 0, 0]
  /-- last data frame accepted, and whether a replay request stands for the one after it (R457) -/
  accepted : Nat := 2 ^ 32 - 1
  asked : Bool := false
  /-- record time of that request (R457) -/
  askedAt : Nat := 0
  /-- words delivered and not yet made into a whole message (R460) -/
  stream : List Bytes := []
  /-- words received and freed by channel since the link came up (R456, R459) -/
  received : List Nat := [0, 0, 0, 0]
  freed : List Nat := [0, 0, 0, 0]
  /-- messages received and not yet taken, oldest first -/
  inbox : List LinkMsg := []
  nextTag : Nat := 0
  open_ : List LinkReq := []
  /-- data words of the newest READ_DATA taken, each with its poison mark -/
  lastRead : List (Bytes × Bool) := []
  deriving DecidableEq, Repr

/-- A region of the Stack opened to a member for a transfer (R461). -/
structure Opened where
  source : Nat
  base : Nat
  length : Nat
  deriving DecidableEq, Repr

/-- A hand-over token that waits for the acknowledgements of its data on a Jalzel port (R146, R149): the tags still open, the
message. -/
structure FarToken where
  port : Nat
  tags : List Nat
  msg : LinkMsg
  deriving DecidableEq, Repr

/-- The network and the room. -/
structure Net where
  /-- tokens for other members that wait for the acknowledgements of their data -/
  farTokens : List FarToken := []
  phys : List PhysPort := List.replicate 4 {}
  ports : List LogPort := List.replicate 16 {}
  /-- flow rules by number -/
  rules : List (Nat × FlowRule) := []
  /-- TX_BAD (R448) -/
  txBad : Nat := 0
  jalzel : List Jalzel := List.replicate 7 {}
  opened : List Opened := []
  /-- ROOM_MEMBERS of the configuration record (R462) -/
  members : Nat := 0
  /-- the room has formed (R465) -/
  formed : Bool := false
  /-- the session ports that each other member last sent (R444) -/
  sessionPorts : List (Nat × List Nat) := []
  /-- parts dropped by the home device for a wrong port (R444) -/
  wrongPort : Nat := 0
  deriving DecidableEq, Repr

end Sys2Proof.Machine
end

