-- ==== Sys2Proof/Machine/StPower.lean ====
section
/-! DEFINITION. State of power, clocks, reset and start-up (R511 to R536), the Vault and identity (R561 to R573), the
reference service (R551 to R555), the setup window's own latches (R576) and the management ports (R607 to R609).
Each field's default value is its value at reset. -/
namespace Sys2Proof.Machine

/-- GEN_STATE (R581). -/
inductive GenState where
  | starting | waitImage | ready | minimal
  deriving DecidableEq, Repr

/-- GEN block, boot registers and the attempt under way (R526 to R529, R581). -/
structure Boot where
  gen : GenState := .starting
  /-- BOOT_MODE and POSITION straps as sampled (R526, R602) -/
  bootMode : Nat := 0
  position : Nat := 0
  /-- PERST_ACTION is 1 (R523) -/
  perstAction : Bool := false
  imageAddr : Nat := 0
  imageLen : Nat := 0
  configAddr : Nat := 0
  configLen : Nat := 0
  accepted : Bool := false
  badArgs : Bool := false
  /-- GEN_BAD_WRITES -/
  badWrites : Nat := 0
  /-- last step of R528 begun -/
  step : Nat := 1
  /-- the attempt waits for the host push, or for the firmware or record of it (R528) -/
  waiting : Bool := false
  /-- SOURCE of the attempt: 0 NOR A, 1 NOR B, 2 host push (R532) -/
  source : Nat := 0
  /-- the start waits at step 1 for 0 °C (R611) -/
  coldWait : Bool := false
  /-- flags and version of the firmware image that runs (R560) -/
  raiseFloor : Bool := false
  revokeRoot0 : Bool := false
  imageVersion : Nat := 0
  /-- the colophon's event is still to be posted (R530) -/
  colophonDue : Bool := false
  /-- the setup window answers, from step 6 on (R578) -/
  window : Bool := false
  /-- minimal mode has been entered and START_COMPLETE or COLOPHON_POSTED written -/
  completed : Bool := false
  /-- boot NOR devices A and B hold a verified image (R534) -/
  norVerified : List Bool := [true, true]
  /-- record time at the release of reset (R532) -/
  releasedAt : Nat := 0
  /-- record time from which the attempt waits for the host push (R529) -/
  waitAt : Nat := 0
  deriving DecidableEq, Repr

/-- An attempt record (R532). -/
structure Attempt where
  serial : Nat
  outcome : Nat := 0
  step : Nat := 1
  source : Nat := 0
  resetKind : Nat := 0
  time : Nat := 0
  detail : Nat := 0
  errataClass : Nat := 0xFFFF
  errataUnit : Nat := 0
  measurement : Nat := 0
  elapsedMs : Nat := 0
  deriving DecidableEq, Repr

/-- A device-fatal record kept in the Vault with its START_SERIAL (R549). -/
structure FatalRec where
  serial : Nat
  record : ErrRec
  deriving DecidableEq, Repr

/-- The Vault (R561); the two copies of R562 hold one value between writes. -/
structure Vault where
  startSerial : Nat := 0
  failures : Nat := 0
  /-- LAST_GOOD: 0 A, 1 B, 3 none (R592) -/
  lastGood : Nat := 3
  /-- attempt records, newest first, at most eight -/
  attempts : List Attempt := []
  floor : Nat := 0
  root0Revoked : Bool := false
  attestReserved : Nat := 0
  /-- device-fatal records, newest first, at most eight -/
  fatal : List FatalRec := []
  owned : Bool := false
  ownerSerial : Nat := 0
  ownerSeq : Nat := 0
  ownerKey : Bytes := []
  /-- SESSION_ROOT, none while not set -/
  sessionRoot : Option Bytes := none
  deriving DecidableEq, Repr

/-- Measurements and attestation (R571 to R573). -/
structure Security where
  bootRom : Bytes := zeros 32
  firmware : Bytes := zeros 32
  config : Bytes := zeros 32
  images : Bytes := zeros 32
  /-- measurement of the image that the newest attempt tried, which minimal mode reports (R572) -/
  lastFirmware : Bytes := []
  /-- next leaf index and the end of the block in use (R573) -/
  nextLeaf : Nat := 0
  blockEnd : Nat := 0
  deriving DecidableEq, Repr

/-- A quadrant's clock and operating point (R512, R513, R518). -/
structure Quadrant where
  clockOn : Bool := false
  pllLocked : Bool := false
  /-- the PLL has been started and has not locked -/
  starting : Bool := false
  /-- P0 to P5 -/
  point : Nat := 0
  /-- a raise waits for the rail: the point to follow -/
  wanted : Option Nat := none
  deriving DecidableEq, Repr

/-- Awake, asleep, or waking with the source registered (R515 to R517). -/
inductive SleepState where
  | awake
  | asleep
  | waking (source port : Nat)
  deriving DecidableEq, Repr

/-- The PWR registers as last refreshed (R582). -/
structure PwrRegs where
  points : Nat := 0xFFFF
  power : Nat := 0
  hottest : Nat := 0
  sensor : Nat := 0
  coreMv : Nat := 0
  limiterEvents : Nat := 0
  throttle : Nat := 0
  capW : Nat := 420
  deriving DecidableEq, Repr

/-- A temperature sensor (R521). -/
structure Sensor where
  /-- last reading in units of 1/256 °C -/
  temp : Int := 0
  /-- it holds a throttle -/
  holds : Bool := false
  /-- readings since its last step down -/
  ticks : Nat := 0
  /-- readings in a row at 110 °C or above -/
  hot : Nat := 0
  deriving DecidableEq, Repr

/-- Power, clocks and thermal state (R511 to R522, R582). -/
structure Power where
  quadrants : List Quadrant := List.replicate 4 {}
  /-- the ring and librarian PLLs have locked -/
  ringPll : Bool := false
  libPll : Bool := false
  /-- core rail in mV as last acknowledged, and the command in progress (R597) -/
  coreMv : Nat := 750
  avsPending : Option Nat := none
  /-- the operating voltage to which a wake raises the rail (R517) -/
  wakeMv : Nat := 750
  /-- AVSBus failures in a row (R609) -/
  avsFailures : Nat := 0
  /-- power of the last interval in units of 1/16 W (R519, R582) -/
  power : Nat := 0
  /-- the PWR block -/
  regs : PwrRegs := {}
  sensors : List Sensor := List.replicate 8 {}
  /-- a throttle stands until every sensor is below 98 °C for 10 ms -/
  throttled : Bool := false
  /-- readings in a row with every sensor below 98 °C -/
  coolReads : Nat := 0
  limiterOn : Bool := false
  limiterEvents : Nat := 0
  /-- intervals in a row below 90 % of the limit (R519) -/
  lowIntervals : Nat := 0
  sleep : SleepState := .awake
  sleptAt : Nat := 0
  /-- WAKE settings of the SLEEP (R534) -/
  wakeEthernet : Bool := false
  wakeAlarm : Bool := false
  captureMask : Nat := 0
  wakePort : Nat := 0
  wakeAt : Nat := 0
  /-- a rail fault met in sleep, to be handled once awake (R598) -/
  railWaiting : Option Nat := none
  /-- thermal trip stands (R521) -/
  tripped : Bool := false
  /-- SMB_ALERT_N is asserted, and a rail fault is in handling (R607) -/
  alert : Bool := false
  railFault : Bool := false
  deriving DecidableEq, Repr

/-- REFERENCE_STATE (R592). -/
inductive RefState where
  | normal | entering | active | exiting
  deriving DecidableEq, Repr

/-- The error that caused reference service (R556): unit, instance and SEQUENCE of its record. -/
structure RefCause where
  unit : Nat
  inst : Nat
  seq : Nat
  deriving DecidableEq, Repr

/-- Reference service (R551 to R555). -/
structure Reference where
  state : RefState := .normal
  /-- ENTER_REFERENCE stands without its EXIT_REFERENCE -/
  hostCause : Bool := false
  /-- record time of ACTIVE -/
  enteredAt : Nat := 0
  /-- what the stay began with: an element, or none for the host -/
  cause : Option RefCause := none
  /-- ENTER_REFERENCE jobs to be answered at ACTIVE, EXIT_REFERENCE jobs to be answered at NORMAL -/
  enterJobs : List Nat := []
  exitJobs : List Nat := []
  deriving DecidableEq, Repr

/-- The setup window's latches (R576) and the management ports (R536, R607 to R609). -/
structure Ports where
  /-- latched upper halves of 64-bit registers by offset (R576) -/
  latched : List (Nat × Nat) := []
  /-- upper halves written and held, by offset (R576) -/
  heldHigh : List (Nat × Nat) := []
  /-- PCIE_LINK (R588) -/
  linkSpeed : Nat := 0
  linkWidth : Nat := 0
  flit : Bool := false
  dState : Nat := 0
  aerCorrectable : Nat := 0
  aerUncorrectable : Nat := 0
  tags : Nat := 0
  /-- colophon offset of the SMBus port (R536) -/
  colophonOffset : Nat := 0
  /-- partner violations, by 256 × port + reason (R609) -/
  violations : List (Nat × Nat) := []
  tap : TapInst := .idcode
  /-- POR_N is low (R608) -/
  porLow : Bool := false
  /-- librarian cores: duties masks, states (0 running or sleeping, 2 in reset, 3 out of service), watchdog counts (R592) -/
  coreState : List Nat := List.replicate 8 0
  duties : List Nat := [1, 2, 4, 8, 16, 32, 64, 128]
  watchdog : List Nat := List.replicate 8 0
  deriving DecidableEq, Repr

end Sys2Proof.Machine
end

