-- ==== Sys2Proof/Machine/StTime.lean ====
section
/-! DEFINITION. State of the Datestamp unit (R468 to R492). Each field's default value is its value at power-on reset. -/
namespace Sys2Proof.Machine

/-- STATE of R490. -/
inductive TimeState where
  | unset | free | locking | locked | holdover
  deriving DecidableEq, Repr

/-- The SET_TIMING record (R489) with its defaults. -/
structure Timing where
  source : Nat := 2
  profile : Nat := 0
  transport : Nat := 1
  stepMode : Nat := 0
  slewPpb : Nat := 100000
  roles : Nat := 0
  domain : Nat := 0
  priority1 : Nat := 128
  priority2 : Nat := 128
  clockClass : Nat := 248
  logSync : Int := -3
  logAnnounce : Int := 1
  logDelay : Int := -3
  holdoverServe : Bool := false
  lockNs : Nat := 100
  ppsWindowNs : Nat := 1000
  ppsFilter : Nat := 4
  eventQueue : Nat := 2
  deriving DecidableEq, Repr

/-- An operation accepted and waiting for the next tick (R473, R474); `job` is none for one of firmware's own. -/
inductive TimeOp where
  | adjust (job : Option Nat) (offset : Int)
  | setInc (job : Option Nat) (inc : BitVec 64)
  | hardSet (job : Option Nat) (seconds : BitVec 64) (nanos fraction : BitVec 32)
  deriving DecidableEq, Repr

/-- A pulse output's setting (R486); the targets stand in units of 2^-32 ns (R485). -/
structure PulseSet where
  /-- 1 one-shot, 2 periodic -/
  periodic : Bool
  activeLow : Bool
  /-- START, and START_FINE steps, in units of 2^-32 ns -/
  start : Nat
  fine : Nat
  widthNs : Nat
  periodNs : Nat
  deriving DecidableEq, Repr

/-- A pulse output (R485, R486). -/
structure Pulse where
  setting : Option PulseSet := none
  /-- target of the next leading edge, in units of 2^-32 ns -/
  target : Nat := 0
  /-- a pulse is in progress; its trailing edge is due at `trailing` -/
  high : Bool := false
  trailing : Nat := 0
  /-- a SET_PULSE waiting for the pulse in progress to end, none in it where it stops the output, and the counter at its
  acceptance in units of 2^-32 ns -/
  next : Option (Option PulseSet × Nat) := none
  deriving DecidableEq, Repr

/-- An accepted edge held in sleep (R515): stamp, rising, FINE. -/
structure HeldEdge where
  stamp : Nat
  rising : Bool
  fine : Nat
  deriving DecidableEq, Repr

/-- A capture input (R487). -/
structure Capture where
  /-- EDGE: 0 off, 1 rising, 2 falling, 3 both -/
  edge : Nat := 0
  filterTicks : Nat := 0
  minIntervalUs : Nat := 0
  /-- stamp of the last edge that was stamped -/
  last : Option Nat := none
  /-- suppressed since the last CAPTURE -/
  suppressed : Nat := 0
  /-- capture sequence -/
  seq : Nat := 0
  /-- events held in sleep, oldest first, at most 16 (R515) -/
  held : List HeldEdge := []
  deriving DecidableEq, Repr

/-- The Datestamp unit. -/
structure Stamp where
  /-- SECONDS, NANOSECONDS, FRACTION (R468) -/
  seconds : BitVec 64 := 0
  nanos : BitVec 32 := 0
  fraction : BitVec 32 := 0
  /-- INC (R469) -/
  inc : BitVec 64 := 21474836480
  /-- remainder r in units of 2^-32 ns (R472) -/
  r : Int := 0
  /-- record time since which r has stood at a limit (R472) -/
  pinnedAt : Option Nat := none
  state : TimeState := .unset
  /-- a time of day has reached the counter since power-on reset (R617) -/
  todSet : Bool := false
  timing : Timing := {}
  /-- servo intervals running within LOCK_NS, and beyond 4 × LOCK_NS (R477) -/
  near : Nat := 0
  far : Nat := 0
  /-- OFFSET of R490 in 2^-16 ns -/
  offset : Int := 0
  pathDelay : Nat := 0
  parent : Nat := 0
  /-- data set of the parent's Announce, smaller is better (R481) -/
  parentData : Option Nat := none
  /-- stamp of the last usable Sync, and until when PTP counts as present: 4 Sync intervals after it (R617) -/
  lastSync : Nat := 0
  ptpUntil : Nat := 0
  violations : Nat := 0
  ppsOffTime : Nat := 0
  ppsExtra : Nat := 0
  /-- stamp of the last used PPS edge (R484) -/
  lastPps : Option Nat := none
  /-- by 16 × local port + message type, the sequence identifier of the open request, or of the last Sync with its source
  port identity above it (R492) -/
  openSeq : List (Nat × Nat) := []
  /-- operations waiting for the next tick, in the order accepted (R475) -/
  ops : List TimeOp := []
  pulses : List Pulse := List.replicate 8 {}
  captures : List Capture := List.replicate 9 {}
  /-- what STAMP_NANOSECONDS and STAMP_FRACTION return (R490) -/
  latchNanos : BitVec 32 := 0
  latchFraction : BitVec 32 := 0
  /-- the 200 MHz reference is lost (R512) -/
  refLost : Bool := false
  /-- the timekeeper reports LOCKED (R479) -/
  keeperLocked : Bool := false
  deriving DecidableEq, Repr

end Sys2Proof.Machine
end

