-- ==== Sys2Proof/Machine/State.lean ====
section
/-! DEFINITION. The state of the block, its stops, and the state at reset. -/
namespace Sys2Proof.Machine

/-- Why the block stops with a fault. -/
inductive Fault where
  /-- a Stack request names an address that no Stack vault holds (R25, R138). Raised by STACK_READ_REQUEST and
  STACK_WRITE_REQUEST; safe: the spec gives no such address -/
  | noSuchAddress
  deriving DecidableEq, Repr

/-- Why a command is refused. -/
inductive Refusal where
  /-- the command has no meaning in the model yet; safe: nothing can be proved of it -/
  | notModelled (mnemonic : String)
  deriving DecidableEq, Repr

/-- The state of the block. -/
structure State where
  /-- commands that wait, first in first out -/
  pending : List Instr := []
  /-- Circulation, the Bell, the Errata log and what has left the device -/
  desk : Desk := {}
  stamp : Stamp := {}
  boot : Boot := {}
  vault : Vault := {}
  security : Security := {}
  power : Power := {}
  reference : Reference := {}
  ports : Ports := {}
  curator : Curator := {}
  fabric : Fabric := {}
  images : Images := {}
  net : Net := {}
  accession : Accession := {}
  vision : Vision := {}
  concord : Concord := {}
  map : MapSt := {}
  sessions : Sessions := {}
  collator : Collator := {}
  catalogue : Catalogue := {}
  /-- PCIe accesses held during sleep, in arrival order (R516) -/
  heldAccess : List Instr := []
  /-- how many free values have been drawn: the model's own field (log 6) -/
  fresh : Nat := 0
  deriving DecidableEq, Repr

/-- The block right after a power-on reset (R17, R524, R579). -/
def State.reset : State := {}

end Sys2Proof.Machine
end

