-- ==== Sys2Proof/Machine/Ops.lean ====
section
/-! DEFINITION. The named operations over the state: record time, notices, jobs and their endings, return slips,
the generation rule of a fault. -/
namespace Sys2Proof.Machine

/-- What a meaning answers. -/
abbrev Answer := Host.Outcome State Fault Refusal

/-! ## Status codes (R104) -/

def stOk : Nat := 0x0000
def stPartialDeadline : Nat := 0x0001
def stShortResult : Nat := 0x0002
def stRevoked : Nat := 0x0003
def stPivotRegularised : Nat := 0x0004
def stSpilled : Nat := 0x0005
def stDiscarded : Nat := 0x0010
def stMalformed : Nat := 0x0011
def stNotPermitted : Nat := 0x0012
def stNoResource : Nat := 0x0013
def stTooLarge : Nat := 0x0014
def stStaleEdition : Nat := 0x0015
def stNumericDiverged : Nat := 0x0020
def stRefusedDegraded : Nat := 0x0030
def stLost : Nat := 0x0031

/-- NOT_STARTED, bit 13 of DETAIL (R97). -/
def notStarted : Nat := 0x2000

/-- BY_CIRCULATION, bit 14 of DETAIL (R97). -/
def byCirculation : Nat := 0x4000

/-- The codes that apply to a job, as STATUS and ALSO mask (R97, R105). -/
def statusOf (codes : List Nat) : Nat × Nat :=
  let bad := codes.filter (fun c => decide (16 ≤ c))
  let good := (List.range 6).filter (fun c => c ≠ 0 && codes.contains c)
  let also (l : List Nat) : Nat := l.foldl (fun a c => a + 2 ^ (7 + c)) 0
  match bad with
  | b :: _ => (b, also good)
  | [] =>
    match good with
    | [] => (stOk, 0)
    | g :: gs => (g, also gs)

/-- The ending of a job from the codes that apply, its detail flags, RESULT and output (R97, R104, R105). -/
def endWith (codes : List Nat) (flags : Nat := 0) (result : Nat := 0) (output : List (Nat × Bytes) := []) : Ending :=
  let s := statusOf codes
  { status := s.1, detail := flags % 256 + s.2, result := if s.1 < 16 then result else 0, output := output }

/-- A refusal by a unit with its detail flags. -/
def refusal (code : Nat) (flags : Nat := 0) : Ending := { status := code, detail := flags % 256 }

/-- A refusal under R615 and wherever a chapter sets NOT_STARTED. -/
def refusalNotStarted (code : Nat) (flags : Nat := 0) : Ending := { status := code, detail := flags % 256 + notStarted }

/-- A refusal or answer by Circulation with a reason of R115 (R97). -/
def refusalByCirculation (code reason : Nat) : Ending :=
  { status := code, detail := reason % 256 + notStarted + byCirculation }

/-! ## Record time and notices -/

/-- The record time of the present tick (R69). No event is stamped 0, which means that no time is present (R70): before the counter
first leaves 0 the record time is 1 (DESIGN CHOICE, log 27). -/
def State.now (s : State) : Nat := max 1 ((s.stamp.seconds.toNat * 1000000000 + s.stamp.nanos.toNat) % 2 ^ 64)

/-- The desk told of happenings at the present record time. -/
def State.tell (s : State) (ns : List Notice) : State := { s with desk := s.desk.tell s.now ns }

/-- An occurrence of a key under R613. -/
def State.report (s : State) (k : WinKey) (ns : Nat → List Notice) : State :=
  { s with desk := s.desk.report s.now k ns }

/-- Something leaves the device. -/
def State.emit (s : State) (o : List Output) : State := { s with desk := { s.desk with out := s.desk.out ++ o } }

/-- An Errata record of a host mistake: HOST_MISTAKE, the reason in CODE, the slip's SQ and SLOT (R115, R541). -/
def mistake (unit reason : Nat) (location detail0 : Nat := 0) : Notice :=
  .errata { cls := 0, unit := unit, code := reason, flags := 2, location := location, detail0 := detail0 }

/-- A host mistake that Circulation answers, which also raises its source 172 (R115, R494). -/
def circMistake (reason : Nat) (location detail0 : Nat := 0) : List Notice :=
  [mistake 0x0016 reason location detail0, .raise 172]

/-- SQ and SLOT of a call slip in DETAIL0 (R541; the places within it are log 7). -/
def slipPlace (sq slot : Nat) : Nat := sq + slot * 2 ^ 32

/-- A free value of `w` bits: an uninterpreted constant of Config applied to the count of values drawn. -/
def State.draw (s : State) : State := { s with fresh := s.fresh + 1 }

/-! ## Call slip fields (R92) -/

def opcodeOf (j : Slip) : Nat := fld j 0 2
def flagsOf (j : Slip) : Nat := fld j 2 2
def deadlineOf (j : Slip) : Nat := fld j 8 8
def dataAddrOf (j : Slip) : Nat := fld j 16 8
def dataLenOf (j : Slip) : Nat := fld j 24 4
def fenceOf (j : Slip) : Bool := (flagsOf j).testBit 0
def immediateOf (j : Slip) : Bool := (flagsOf j).testBit 1

/-- A deadline has passed once record time is beyond it (R95; log 8). -/
def State.passed (s : State) (deadline : Nat) : Bool := deadline ≠ 0 && decide (deadline < s.now)

/-- Whether PARAMS bytes outside the named runs (offset, size) are all zero: for opcodes whose unnamed call-slip bytes
are reserved and checked. -/
def paramsClear (j : Slip) (used : List (Nat × Nat)) : Bool :=
  (List.range 32).all (fun i =>
    used.any (fun u => decide (u.1 ≤ 32 + i) && decide (32 + i < u.1 + u.2)) || fld j (32 + i) 1 = 0)

/-! ## Jobs -/

/-- The job of a number, while it is in flight. -/
def Circ.job (c : Circ) (n : Nat) : Option Job := c.jobs.find? (fun j => j.num == n)

/-- A job changed. -/
def Circ.modJob (c : Circ) (n : Nat) (f : Job → Job) : Circ := { c with jobs := mapIf (fun j => j.num == n) f c.jobs }

/-- The job of a number, while it is in flight. -/
def State.job (s : State) (n : Nat) : Option Job := s.desk.circ.job n

/-- Circulation's state changed. -/
def State.modCirc (s : State) (f : Circ → Circ) : State := { s with desk := { s.desk with circ := f s.desk.circ } }

/-- A job ends: its first ending stands (R105). -/
def State.finish (s : State) (n : Nat) (e : Ending) : State :=
  s.modCirc (fun c => c.modJob n (fun j => if j.ending.isSome then j else { j with ending := some e }))

/-- A job is in flight, taken by its unit, and has not ended. -/
def State.running (s : State) (n : Nat) : Bool :=
  match s.job n with
  | none => false
  | some j => j.started && j.ending.isNone

/-- Jobs of one queue read before a job. -/
def Circ.earlier (c : Circ) (j : Job) : List Job := c.jobs.filter (fun i => i.sq == j.sq && decide (i.num < j.num))

/-- A job may start: it waits for no fence, and every earlier call slip of its queue has started or ended (R106, R107). -/
def Circ.canStart (c : Circ) (j : Job) : Bool :=
  !j.held && !j.started && j.ending.isNone && (c.earlier j).all (fun i => i.started || i.ending.isSome)

/-- A unit of the Errata log is out of service or in its reset (R547, R548). -/
def State.unitDown (s : State) (unit inst : Nat) : Bool := s.desk.errata.down.any (fun d => d.unit == unit && d.inst == inst)

/-- A unit is out of service after two failed resets (R547). -/
def State.unitOut (s : State) (unit inst : Nat) : Bool :=
  s.desk.errata.down.any (fun d => d.unit == unit && d.inst == inst && d.out)

/-- Stack vaults that may take an object: those of VAULT_MASK in service, or, where none is, the others in service (R25, R357,
R359, R548). -/
def State.vaultList (s : State) : List Nat :=
  let l := (maskList 64 s.curator.policy.vaultMask).filter (fun v => !s.unitOut 0x0002 v)
  if !l.isEmpty then l
  else
    let m := (List.range 64).filter (fun v => !s.unitOut 0x0002 v)
    if m.isEmpty then List.range 64 else m

/-- A Stack vault among those that may take an object, by a free value (R25). -/
def State.freeVault (s : State) (n : Nat) : Nat :=
  let l := s.vaultList
  l.getD ((Config.freeValue (s.fresh + n)).toNat % l.length) 0

/-- The elements of a unit kind of R542, as far as another unit may need the whole kind. -/
def unitInstances : Nat → List Nat
  | 0x0002 => List.range 64
  | 0x0010 => List.range 8
  | 0x0011 => List.range 64
  | 0x0019 => List.range 8
  | _ => [0]

/-- The unit kinds that a unit kind can not work without, as far as R542 names them (R23). The Bell needs librarian cores or PCIe, and
has one of them as long as the device runs. -/
def unitNeeds : Nat → List Nat
  | 0x0010 => [0x0017, 0x0002]
  | 0x0011 => [0x0014]
  | 0x0012 => [0x0002, 0x0019]
  | 0x0013 => [0x0002]
  | 0x0014 => [0x0011, 0x0002]
  | 0x0015 => [0x0002, 0x0010]
  | 0x0016 => [0x0022, 0x0002, 0x0018]
  | 0x0019 => [0x001A]
  | 0x001B => [0x0002]
  | _ => []

/-- A unit kind has stopped: every element of it is down (R23). -/
def State.kindStopped (s : State) (unit : Nat) : Bool := (unitInstances unit).all (fun i => s.unitDown unit i)

/-- A unit works: it is up, and so is each kind that it needs (R23, R547). -/
def State.unitWorks (s : State) (unit inst : Nat) : Bool := !s.unitDown unit inst && !(unitNeeds unit).any s.kindStopped

/-- The unit that takes the jobs of an opcode: by R101 the owner of its family, of family 0x08xx the owner of the chapter that gives the
opcode; none where the opcode is firmware's or a port's (R23, R101). -/
def State.unitOf (s : State) (j : Slip) : Option (Nat × Nat) :=
  let op := opcodeOf j
  match op / 256 with
  | 1 => if op = 0x0101 then some (0x0012, 0) else none
  | 2 => some (0x0023, s.boot.position)
  | 3 => some (0x0012, 0)
  | 4 => some (0x0013, 0)
  | 5 => some (0x0014, 0)
  | 6 => some (0x0015, 0)
  | 8 =>
    if op < 0x0810 then some (0x0016, 0)
    else if op < 0x0830 then some (0x0010, fld j 32 2 / 128)
    else if op < 0x0840 then some (0x0012, 0)
    else if op < 0x0850 then none
    else if op < 0x0860 then some (0x0017, 0)
    else if op < 0x0880 then none
    else if op < 0x0890 then some (0x001B, 0)
    else some (0x001A, 0)
  | _ => none

/-- The unit that a call slip goes to takes new work (R23, R547 step 1). -/
def State.serves (s : State) (j : Slip) : Bool := (s.unitOf j).all (fun u => s.unitWorks u.1 u.2)

/-- The start of a job by its unit (R95, R106): a command that names no job of its opcode that may start changes
nothing; a job whose deadline has passed is answered without being started; a unit that is stopped takes none, and the job waits (R23,
R547); otherwise the unit takes it. -/
def State.begin (s : State) (n op : Nat) (k : Job → State → State) : State :=
  match s.job n with
  | none => s
  | some j =>
    if opcodeOf j.slip ≠ op || !s.desk.circ.canStart j then s
    else if s.passed (deadlineOf j.slip) then s.finish n (refusalByCirculation stPartialDeadline 0)
    else if !s.serves j.slip then s
    else k j (s.modCirc (fun c => c.modJob n (fun i => { i with started := true })))

/-- A job that a unit has taken goes back to wait: its work needs an object that is being moved (R33). -/
def State.putBack (s : State) (n : Nat) : State := s.modCirc (fun c => c.modJob n (fun i => { i with started := false }))

/-- The start of a job that reads its data buffer: a read that fails ends it with reason 0x0A, whatever the opcode's own checks
would find (R115). DESIGN CHOICE (log 162): the buffer is read before those checks. -/
def State.beginRead (s : State) (n op : Nat) (buf : BufRead) (k : Job → Bytes → State → State) : State :=
  s.begin n op (fun j s =>
    match buf with
    | none => (s.tell (circMistake 0x0A 0 (slipPlace j.sq j.slot))).finish n (refusalByCirculation stMalformed 0x0A)
    | some b => k j (takePad (dataLenOf j.slip) b) s)

/-- A job refused by a unit: `none` of the checks failing lets it go on. -/
def State.check (s : State) (n : Nat) (e : Option Ending) (k : State → State) : State :=
  match e with
  | some e => s.finish n e
  | none => k s

/-- The first check that fails, in order (R105). -/
def firstFailure : List (Bool × Ending) → Option Ending
  | [] => none
  | (bad, e) :: l => if bad then some e else firstFailure l

/-! ## Return slips (R96 to R98, R109, R110) -/

/-- The return slip of a job's ending, phase bit apart: `head` is the submission queue's head (R96). -/
def returnEntry (j : Job) (e : Ending) (head : Nat) (final : Bool) : Entry :=
  pack 256 [(0, 2, e.status), (2, 2, e.detail), (4, 2, fld j.slip 4 2), (6, 2, head), (8, 4, j.sq), (12, 2, j.slot),
    (14, 1, j.gen), (15, 1, if final then 2 else 0), (16, 16, e.result)]

/-- A job leaves: its place in flight is free, and DISCARDED_COUNT counts a slip answered so (R85, R108). -/
def Circ.leave (c : Circ) (j : Job) (discarded : Bool) : Circ :=
  let q := c.queue j.sq
  let c := if discarded then c.setQueue j.sq { q with discarded := satAdd 64 q.discarded 1 } else c
  { c with jobs := c.jobs.filter (fun i => i.num ≠ j.num), waiting := c.waiting.filter (· ≠ j.num) }

/-- The return queue of a job: queue 1 for queue 0, otherwise PARTNER (R81, R85). -/
def Circ.returnOf (c : Circ) (sq : Nat) : Nat := if sq = 0 then 1 else (c.queue sq).partner

/-- The final return slip of a job written into its return queue, which has room (R98, R109, R111). -/
def State.writeFinal (s : State) (j : Job) (e : Ending) (rq : Nat) : State :=
  let c := s.desk.circ
  let w := writeEntry s.now rq (c.queue rq) (returnEntry j e (c.queue j.sq).head true) (immediateOf j.slip)
  let d := { s.desk with circ := (c.setQueue rq w.1).leave j (e.status == stDiscarded), out := s.desk.out ++ [w.2.1] }
  ({ s with desk := d } : State).tell w.2.2

/-- Whether final return slips wait for a return queue (R110). -/
def Circ.stalled (c : Circ) (rq : Nat) : Bool :=
  c.waiting.any (fun n => match c.job n with | none => false | some j => c.returnOf j.sq == rq)

/-- The output of a job written into its data buffer (R94, R109). -/
def outputWrites (j : Job) (e : Ending) : List Output :=
  e.output.map (fun o => Output.buffer (dataAddrOf j.slip + o.1) (o.2.take (dataLenOf j.slip - o.1)))

/-! ## Faults and discarded work (R86, R113) -/

/-- A queue enters draining for a reason, with its generation advanced (R86). -/
def drainQueue (x : Queue) (d : Drain) : Queue := { x with gen := nextGen x.gen, state := .draining, drain := d }

/-- The jobs that a discard meets: those that have not ended (R105). -/
def State.discardable (s : State) (p : Job → Bool) : List Job := s.desk.circ.jobs.filter (fun j => p j && j.ending.isNone)

/-- A fault takes a queue: GEN is advanced, the queue drains, GENERATION_ADVANCED is written (R86, R99). -/
def State.faultQueue (s : State) (q : Nat) : State :=
  let x := s.desk.circ.queue q
  match x.state with
  | .free => s
  | .draining => s
  | _ =>
    let y := drainQueue x .fault
    (s.modCirc (fun c => c.setQueue q y)).tell [.event 2 { code := 0x0003, subject := q, value := y.gen }]

/-- GEN of every submission queue with work in a fault's scope is advanced, before the work is discarded (R113). -/
def State.faultQueues (s : State) (p : Job → Bool) : State :=
  (sortBy (fun a b => decide (a < b)) ((s.discardable p).map (·.sq)).eraseDups).foldl (fun s q => s.faultQueue q) s

/-- The Errata log changed. -/
def State.modErrata (s : State) (f : ErrataLog → ErrataLog) : State := { s with desk := { s.desk with errata := f s.desk.errata } }

/-! ## Sleep (R516) -/

/-- The wake logic registers a source: the core rail is sent back to the operating voltage, and the PLLs of the quadrants whose
QUADRANT_SLEEP bit is clear start, and that of the first quadrant, whose clock runs again at every wake (DEDUCED, log 166). A later
source is not repeated (R41, R516, R517 step 1). -/
def State.startWake (s : State) (source port : Nat) : State :=
  match s.power.sleep with
  | .asleep =>
    let mask := s.curator.policy.quadrantSleep
    let p := { s.power with
      sleep := .waking source port
      avsPending := some s.power.wakeMv
      quadrants := (List.range 4).map (fun q =>
        let x := s.power.quadrants.getD q {}
        if mask.testBit q && q ≠ 0 then x else { x with starting := true }) }
    ({ s with power := p } : State).emit [.avs s.power.wakeMv]
  | _ => s

/-- A PCIe access of the setup window or the doorbell window: carried out at once, or during sleep held, waking the device; before
step 6 of the start the function answers none (R516, R578). -/
def State.pcieAccess (s : State) (c : Instr) (k : State → State) : State :=
  if !s.boot.window then s
  else match s.power.sleep with
  | .awake => k s
  | _ => { s.startWake 0 0 with heldAccess := s.heldAccess ++ [c] }

/-! ## Events of one queue number -/

/-- An event for a queue. -/
def State.event (s : State) (q : Nat) (e : EventIn) : State := s.tell [.event q e]

/-- An event queue that a host names: host-resident, an event queue that is active, or 2. -/
def State.eventQueueOk (s : State) (q : Nat) : Bool :=
  q = 2 || (hostResident q && (let x := s.desk.circ.queue q; x.kind = .event && x.state = .active))

end Sys2Proof.Machine
end

