-- ==== Sys2Proof/Machine/LinkSend.lean ====
section
/-! DEFINITION. The room as this member sees it, and the sending side of the Jalzel links (R336, R455 to R467, R479). -/
namespace Sys2Proof.Machine

/-! ## The room -/

/-- Own room position (R3, R462). -/
def State.position (s : State) : Nat := s.boot.position

/-- A Jalzel port changed. -/
def State.modJalzel (s : State) (p : Nat) (f : Jalzel → Jalzel) : State :=
  { s with net := { s.net with jalzel := modAt s.net.jalzel p f } }

/-- A Jalzel port. -/
def State.jalzel (s : State) (p : Nat) : Jalzel := s.net.jalzel.getD p {}

/-- Whether a link counts its partner as a member: it has been admitted and has not gone down (R463, R464). -/
def Jalzel.joined (x : Jalzel) : Bool := x.partner.isSome && (x.state = .up || x.retraining)

/-- Positions present, rising: the device itself and every member whose link is up (R464, R589). -/
def State.present (s : State) : List Nat :=
  (List.range 8).filter (fun m => m == s.position || s.net.jalzel.any (fun x => x.joined && x.partner == some m))

/-- The clerk and timekeeper: the member at the lowest position present (R336, R479). -/
def State.clerk (s : State) : Nat := s.present.headD s.position

/-- Whether this member is the clerk. -/
def State.isClerk (s : State) : Bool := s.clerk == s.position

/-- The other members present. -/
def State.others (s : State) : List Nat := s.present.filter (· ≠ s.position)

/-- The port that links to a position. -/
def State.portTo (s : State) (m : Nat) : Option Nat :=
  (List.range 7).find? (fun p => (s.jalzel p).joined && (s.jalzel p).partner == some m)

/-! ## Sending (R456 to R460) -/

/-- Data words a link message takes, its header word included (R459, R460). -/
def LinkMsg.count (m : LinkMsg) : Nat := 1 + m.words.length

/-- The header word (R460). -/
def LinkMsg.header (m : LinkMsg) : Bytes :=
  packB 32 [(0, 1, m.kind), (1, 1, m.channel), (2, 1, m.source), (3, 1, m.dest), (4, 2, m.words.length), (6, 2, m.tag),
    (8, 8, m.address), (16, 16, m.poison)]

/-- Words of credit left on a channel: 1,024 less what was sent and not yet freed, modulo 2^16 (R456, R459). -/
def Jalzel.creditLeft (x : Jalzel) (c : Nat) : Nat :=
  1024 - (natAt x.sent c + 65536 - natAt x.credits c) % 65536

/-- Words cut into data frames of at most 96 (R456, R458). -/
def cutFrames : Nat → Nat → List Bytes → List TxFrame
  | 0, _, _ => []
  | n + 1, seq, ws =>
    if ws.isEmpty then []
    else { seq := seq, words := ws.take 96 } :: cutFrames n ((seq + 1) % 2 ^ 32) (ws.drop 96)

/-- The next message that may be sent: the first of the lowest channel whose first message has credit for all of its words
and places among the 128 frames kept (R458, R459). -/
def Jalzel.nextMessage (x : Jalzel) : Option LinkMsg :=
  ((List.range 4).filterMap (fun c => x.waiting.find? (fun m => m.channel == c))).find? (fun m =>
    decide (m.count ≤ x.creditLeft m.channel) && decide (x.kept.length + (m.count + 95) / 96 ≤ 128))

/-- Messages sent while they may be; the fuel is how many wait. -/
def pump (p : Nat) : Nat → State → State
  | 0, s => s
  | n + 1, s =>
    let x := s.jalzel p
    if x.state ≠ .up || x.parked then s
    else
      match x.nextMessage with
      | none => s
      | some m =>
        let fs := cutFrames 2 x.nextSeq (m.header :: m.words)
        let y := { x with
          waiting := x.waiting.erase m
          sent := modAt x.sent m.channel (fun w => (w + m.count) % 65536)
          kept := x.kept ++ fs
          nextSeq := (x.nextSeq + fs.length) % 2 ^ 32 }
        pump p n ((s.modJalzel p (fun _ => y)).emit
          [.link m.dest m.kind [m.channel, m.tag, m.address, m.poison] m.words.flatten])

/-- Everything of a port that may be sent is sent. -/
def State.pumpPort (s : State) (p : Nat) : State := pump p (s.jalzel p).waiting.length s

/-- A message for a member; with no link to it the message is lost, as its sender knows from the room. -/
def State.sendLink (s : State) (m : LinkMsg) : State :=
  match s.portTo m.dest with
  | none => s
  | some p => (s.modJalzel p (fun x => { x with waiting := x.waiting ++ [m] })).pumpPort p

/-- A CONTROL message of the upkeep request channel, whose meaning `code` and values stand in its first data word: the
manual gives CONTROL messages no layout (log 14). -/
def controlMsg (own dest code : Nat) (args : List Nat) : LinkMsg :=
  { kind := 9, channel := 2, source := own, dest := dest, address := code
    words := args.map (fun a => le 32 a) }

/-- A CONTROL message to a member. -/
def State.control (s : State) (dest code : Nat) (args : List Nat) : State :=
  s.sendLink (controlMsg s.position dest code args)

/-- A CONTROL message to every other member present. -/
def State.controlAll (s : State) (code : Nat) (args : List Nat) : State :=
  s.others.foldl (fun s m => s.control m code args) s

/-- A request that waits for its response, with the next tag of the port (R460, R461). -/
def State.request (s : State) (dest : Nat) (write : Bool) (m : LinkMsg) : State :=
  match s.portTo dest with
  | none => s
  | some p =>
    let x := s.jalzel p
    let s := s.modJalzel p (fun x => { x with
      nextTag := (x.nextTag + 1) % 65536, open_ := x.open_ ++ [{ tag := x.nextTag, write := write, address := m.address }] })
    s.sendLink { m with tag := x.nextTag }

/-- Where the target of a copy opens the region that member `m` writes to: 31 MiB of its scratch in vault m (R25, R461;
log 14). -/
def copyBase (m : Nat) : Nat := m * 0x20000000 + 0x1E100000

/-! ## What a link recognises (R458, R466) -/

/-- A Jalzel peer violation counted and, first of its reason on its port in a reporting window, reported (R466, R613). -/
def State.jalzelViolation (s : State) (p reason source : Nat) : State :=
  (s.modJalzel p (fun x => { x with violations := satAdd 64 x.violations 1 })).report
    { family := 0x084A, subject := p, reason := reason }
    (fun prev => [.event 2 { code := 0x084A, subject := p, detail := reason, value := sat 32 prev },
      .errata { cls := 0, unit := 0x0021, inst := p, code := reason, flags := 4, detail0 := source }])

/-- A link retrains: it leaves up, and the retrain is counted (R458, R464, R494). -/
def State.retrain (s : State) (p : Nat) : State :=
  if (s.jalzel p).state ≠ .up then s
  else
    ((s.modJalzel p (fun x => { x with
      state := .training, retraining := true, fails := 0, retrains := satAdd 16 x.retrains 1 })).emit
        [.frame p 2 []]).tell [.raise (32 + p)]

end Sys2Proof.Machine
end

