-- ==== Sys2Proof/Machine/Bounds.lean ====
section
/-! DEFINITION. Bounds and conflicts, which every adaptive loop shares (R358, R359, R363). -/
namespace Sys2Proof.Machine

/-- The Curator changed. -/
def State.modCurator (s : State) (f : Curator → Curator) : State := { s with curator := f s.curator }

/-- Whole seconds since a record time. -/
def State.secondsSince (s : State) (t : Nat) : Nat := (s.now - t) / 1000000000

/-- A loop comes to stand at a bound: BOUND_PINNED on entering that state (R358). -/
def State.pinBound (s : State) (code : Nat) : State :=
  if s.curator.pinned.any (fun p => p.code == code) then s
  else
    (s.modCurator (fun c => { c with pinned := c.pinned ++ [{ code := code, since := s.now, told := s.now }] })).event
      s.curator.policy.mapEventQueue { code := 0x0830, subject := s.position, detail := code, value := 0 }

/-- A loop no longer stands at a bound. -/
def State.unpinBound (s : State) (code : Nat) : State :=
  s.modCurator (fun c => { c with pinned := c.pinned.filter (fun p => p.code ≠ code) })

/-- A conflict opens: BOUND_CONFLICT once at its start (R359). -/
def State.openConflict (s : State) (code object : Nat) : State :=
  if s.curator.conflicts.any (fun p => p.code == code) then s
  else
    (s.modCurator (fun c => { c with conflicts := c.conflicts ++ [{ code := code, since := s.now, object := object }] })).event
      s.curator.policy.mapEventQueue { code := 0x0831, subject := s.position, detail := code, value := object }

/-- A conflict ends: BOUND_CLEARED (R359). -/
def State.clearConflict (s : State) (code : Nat) : State :=
  match s.curator.conflicts.find? (fun p => p.code == code) with
  | none => s
  | some p =>
    (s.modCurator (fun c => { c with conflicts := c.conflicts.filter (fun p => p.code ≠ code) })).event
      s.curator.policy.mapEventQueue
      { code := 0x0832, subject := s.position, detail := code, value := sat 32 (s.secondsSince p.since) }

end Sys2Proof.Machine
end

