-- ==== Sys2Proof/Machine/Fabric.lean ====
section
/-! DEFINITION. The carrels' SRAM and the Stack as their readers and writers use them: corrected and uncorrectable
words, partial writes, write-backs (R76 to R78, R122, R125, R138, R139). -/
namespace Sys2Proof.Machine

/-! ## Carrels -/

/-- Carrel `c`; an unlisted carrel is as at reset. -/
def State.carrel (s : State) (c : Nat) : Carrel := amGetD s.fabric.carrels c {}

/-- Carrel `c` replaced; a carrel as at reset is not listed. -/
def State.setCarrel (s : State) (c : Nat) (x : Carrel) : State :=
  { s with fabric := { s.fabric with
      carrels := if x = {} then amDel s.fabric.carrels c else amSet s.fabric.carrels c x } }

/-- Carrel `c` changed. -/
def State.modCarrel (s : State) (c : Nat) (f : Carrel → Carrel) : State := s.setCarrel c (f (s.carrel c))

/-- Quadrant of a carrel (R21). -/
def quadrantOf (c : Nat) : Nat := (c / 16 / 8) * 2 + c % 16 / 8

/-- Bay of a carrel, and the number of the Stack vault under it (R21, R22). -/
def bayOf (c : Nat) : Nat := (c / 16 / 2) * 8 + c % 16 / 2

/-- A carrel's SRAM cleared and its stage gone: the counts stand (R128). -/
def Carrel.cleared (x : Carrel) (st : CarrelState) : Carrel :=
  { x with state := st, bound := none, ins := [], outs := [], sram := {}, writeBack := [], refused := [] }

/-! ## Corrected words (R76, R77, R151, R544) -/

/-- LOCATION of a carrel-local word (R541). -/
def sramLocation (c w : Nat) : Nat := c * 2 ^ 24 + 32 * w

/-- Bytes as the word code delivers them: the data, and whether it goes on with a poison mark (R74, R76, R77). -/
def deliver (c : Bytes) : Bytes × Bool :=
  match decideWord c with
  | .clean => (dataOf c, false)
  | .oneByte p v => (dataOf (fixWord c p v), false)
  | .uncorrectable => (dataOf c, true)

/-- A corrected error reported, and whether it escalated (R76, R544). -/
def State.reportCorrected (s : State) (unit inst location synd : Nat) : State × Bool :=
  (s.tell [.errata { cls := 1, unit := unit, inst := inst, location := location, detail0 := synd }],
   escalates s.desk.errata 1)

/-- An uncorrectable word reported (R77). -/
def State.reportPoison (s : State) (unit inst location synd : Nat) : State :=
  s.tell [.errata { cls := 2, unit := unit, inst := inst, location := location, detail0 := synd }]

/-- An hour (R151). -/
def hourNs : Nat := 3600000000000

/-- A corrected word counted against R151. -/
def Carrel.countCorrected (x : Carrel) (now : Nat) : Carrel :=
  let recent := (now :: x.recent).take 65
  { x with
    corrected := satAdd 32 x.corrected 1
    recent := recent
    worn := x.worn || (match recent[64]? with | some t => decide (now ≤ t + hourNs) | none => false) }

/-- Word `w` of a carrel's SRAM read: its bytes and poison mark, and the state after (R76, R77). -/
def State.readSram (s : State) (c w : Nat) : (Bytes × Bool) × State :=
  let x := s.carrel c
  let cw := x.sram.word w
  match decideWord cw with
  | .clean => (deliver cw, s)
  | .oneByte _ _ =>
    let r := s.reportCorrected 0x0001 c (sramLocation c w) (syndromes cw)
    let y := x.countCorrected s.now
    (deliver cw, r.1.setCarrel c
      (if r.2 then { y with sram := y.sram.poison w, writeBack := y.writeBack.filter (· ≠ w) }
       else { y with writeBack := if y.writeBack.contains w then y.writeBack else y.writeBack ++ [w] }))
  | .uncorrectable => (deliver cw, s.reportPoison 0x0001 c (sramLocation c w) (syndromes cw))

/-- Words of a carrel's SRAM read one after another: whether any is poisoned, and the state after. -/
def State.readSramWords (s : State) (c : Nat) : List Nat → List (Bytes × Bool) × State
  | [] => ([], s)
  | w :: ws =>
    let r := s.readSram c w
    let l := r.2.readSramWords c ws
    (r.1 :: l.1, l.2)

/-- The words that `n` bytes from an address on touch. -/
def wordsOf (addr n : Nat) : List Nat :=
  if n = 0 then [] else (List.range ((addr + n - 1) / 32 + 1 - addr / 32)).map (fun i => addr / 32 + i)

/-- `n` bytes of a carrel's SRAM from an address on, and each byte's poison mark, which is its word's (R77). -/
def State.readMarked (s : State) (c addr n : Nat) : (Bytes × List Bool) × State :=
  let r := s.readSramWords c (wordsOf addr n)
  ((((r.1.flatMap (·.1)).drop (addr % 32)).take n,
    ((r.1.flatMap (fun w => List.replicate 32 w.2)).drop (addr % 32)).take n), r.2)

/-- The part of a write that falls in word `w`: the 32 new bytes and which of them are written. -/
def wordPart (addr : Nat) (data : Bytes) (w : Nat) : Bytes × List Bool :=
  let at_ (i : Nat) : Option Byte := if addr ≤ 32 * w + i then data[32 * w + i - addr]? else none
  ((List.range 32).map (fun i => (at_ i).getD 0), (List.range 32).map (fun i => (at_ i).isSome))

/-- A word of a carrel's SRAM written, whole or in part (R78): a partial write of an uncorrectable word is not performed, and its
writer receives the uncorrectable report instead of an acknowledgement, which `refused` holds until the word is written.
`poison` marks what is written (R77). Of an access beyond 0x5_FFFF the manual says nothing: a write there has no effect, and
no word is listed there to be read (DESIGN CHOICE, log 155). -/
def State.writeSramWord (s : State) (c w : Nat) (new : Bytes) (mask : List Bool) (poison : Bool) : State :=
  if sramBytes ≤ 32 * w then s
  else
    let put (s : State) (d : Bytes) : State :=
      s.modCarrel c (fun x =>
        let m := x.sram.writeWord w d
        { x with
          sram := if poison then m.poison w else m, writeBack := x.writeBack.filter (· ≠ w)
          refused := x.refused.filter (· ≠ w) })
    if mask.all id then put s new
    else
      let r := s.readSram c w
      if r.1.2 then r.2.modCarrel c (fun x => { x with refused := union x.refused [w] })
      else put r.2 (mergeBytes r.1.1 new mask)

/-- Bytes written into a carrel's SRAM from an address on; a word takes the poison of any of its bytes (R77). -/
def State.writeMarked (s : State) (c addr : Nat) (data : Bytes) (marks : List Bool) : State :=
  (wordsOf addr data.length).foldl (fun s w =>
    let p := wordPart addr data w
    let mark := (List.range 32).any (fun i => decide (addr ≤ 32 * w + i) && marks.getD (32 * w + i - addr) false)
    s.writeSramWord c w p.1 p.2 mark) s

/-- Bytes without poison written into a carrel's SRAM from an address on. -/
def State.writeBytes (s : State) (c addr : Nat) (data : Bytes) : State := s.writeMarked c addr data []

/-! ## The Stack (R138, R139) -/

/-- The Stack has 35-bit addresses (R138). -/
def stackLimit : Nat := 2 ^ 35

/-- The regions of every Stack vault: vault-relative offset and size in MiB (R25, R138). -/
inductive Region where
  | landmarks | keyframes | edges | contexts | queues | frames | grid | weights | addenda | tombstones | scratch
  deriving DecidableEq, Repr

/-- Where a region begins in every vault (R138). -/
def Region.offset : Region → Nat
  | .landmarks => 0x00000000
  | .keyframes => 0x08000000
  | .edges => 0x09000000
  | .contexts => 0x0D000000
  | .queues => 0x0E000000
  | .frames => 0x0E100000
  | .grid => 0x12100000
  | .weights => 0x14100000
  | .addenda => 0x18100000
  | .tombstones => 0x1C100000
  | .scratch => 0x1E100000

/-- A region's size in every vault (R25, R138). -/
def Region.mib : Region → Nat
  | .landmarks => 128
  | .keyframes => 16
  | .edges => 64
  | .contexts => 16
  | .queues => 1
  | .frames => 64
  | .grid => 32
  | .weights => 64
  | .addenda => 64
  | .tombstones => 32
  | .scratch => 31

/-- Bytes of a region in one vault, and over the 64 vaults (R25). -/
def Region.bytes (r : Region) : Nat := r.mib * 1048576
def Region.total (r : Region) : Nat := 64 * r.bytes

/-- The address of a place in a region, counted through the vaults one after another (R138): bay 36's share of the session
contexts begins at 36 × 0x2000_0000 + 0x0D00_0000. -/
def Region.address (r : Region) (x : Nat) : Nat := x / r.bytes * 0x20000000 + r.offset + x % r.bytes

/-- The place in a region of an address, where it lies there. -/
def Region.place (r : Region) (addr : Nat) : Option Nat :=
  let o := addr % 0x20000000
  if r.offset ≤ o && decide (o < r.offset + r.bytes) then some (addr / 0x20000000 * r.bytes + (o - r.offset)) else none

/-- The vault that holds a Stack word (R138). -/
def vaultOfWord (w : Nat) : Nat := 32 * w / 0x20000000

/-- The Stack changed. -/
def State.modStack (s : State) (f : StackMem → StackMem) : State :=
  { s with fabric := { s.fabric with stack := f s.fabric.stack } }

/-- A count by vault incremented, saturating (R590). -/
def bump (l : List (Nat × Nat)) (k : Nat) : List (Nat × Nat) := amSet l k (satAdd 32 (amGetD l k 0) 1)

/-- Word `w` of the Stack read (R76, R77). -/
def State.readStackWord (s : State) (w : Nat) : (Bytes × Bool) × State :=
  let m := s.fabric.stack
  let cw := m.store.word w
  let v := vaultOfWord w
  match decideWord cw with
  | .clean => (deliver cw, s)
  | .oneByte _ _ =>
    let r := s.reportCorrected 0x0002 v (32 * w) (syndromes cw)
    (deliver cw, r.1.modStack (fun m =>
      let m := { m with corrected := bump m.corrected v }
      if r.2 then { m with store := m.store.poison w, writeBack := m.writeBack.filter (· ≠ w) }
      else { m with writeBack := if m.writeBack.contains w then m.writeBack else m.writeBack ++ [w] }))
  | .uncorrectable =>
    (deliver cw, (s.reportPoison 0x0002 v (32 * w) (syndromes cw)).modStack
      (fun m => { m with uncorrectable := bump m.uncorrectable v }))

/-- Words of the Stack read one after another. -/
def State.readStackWords (s : State) : List Nat → List (Bytes × Bool) × State
  | [] => ([], s)
  | w :: ws =>
    let r := s.readStackWord w
    let l := r.2.readStackWords ws
    (r.1 :: l.1, l.2)

/-- A word of the Stack written whole (R78). -/
def State.putStackWord (s : State) (w : Nat) (d : Bytes) : State :=
  s.modStack (fun m => { m with store := m.store.writeWord w d, writeBack := m.writeBack.filter (· ≠ w) })

/-- A word of the Stack written where `mask` holds (R78, R139): the state after, and whether it was performed. -/
def State.writeStackWord (s : State) (w : Nat) (new : Bytes) (mask : List Bool) : State × Bool :=
  if mask.all id then (s.putStackWord w new, true)
  else
    let r := s.readStackWord w
    if r.1.2 then (r.2, false) else (r.2.putStackWord w (mergeBytes r.1.1 new mask), true)

/-- `n` bytes of the Stack from an address on, each with its word's poison mark. -/
def State.readStackBytes (s : State) (addr n : Nat) : (Bytes × List Bool) × State :=
  let r := s.readStackWords (wordsOf addr n)
  ((((r.1.flatMap (·.1)).drop (addr % 32)).take n,
    ((r.1.flatMap (fun w => List.replicate 32 w.2)).drop (addr % 32)).take n), r.2)

/-- Bytes written into the Stack from an address on, each word whole or in part, with the poison marks of the bytes (R77, R78): the
state after, and whether every word was performed. -/
def State.writeStackBytes (s : State) (addr : Nat) (data : Bytes) (marks : List Bool) : State × Bool :=
  (wordsOf addr data.length).foldl (fun r w =>
    let p := wordPart addr data w
    let mark := (List.range 32).any (fun i => decide (addr ≤ 32 * w + i) && marks.getD (32 * w + i - addr) false)
    let q := r.1.writeStackWord w p.1 p.2
    (if mark && q.2 then q.1.modStack (fun m => { m with store := m.store.poison w }) else q.1, r.2 && q.2)) (s, true)

/-- Words `lo` up to, but not including, `hi` of the Stack zero with fresh check bytes: nothing listed there (R78; log 2). -/
def Store.clearWords (m : Store) (lo hi : Nat) : Store :=
  { data := m.data.filter (fun c => decide (c.1 < 32 * lo) || decide (32 * hi ≤ c.1))
    check := m.check.filter (fun c => decide (c.1 < 3 * lo) || decide (3 * hi ≤ c.1)) }

/-- Words of the Stack written one after another. -/
def State.writeStackWords (s : State) (data : Bytes) (mask : List Bool) : Nat → List Nat → State × List Bool
  | _, [] => (s, [])
  | i, w :: ws =>
    let r := s.writeStackWord w (takePad 32 (data.drop (32 * i)))
      ((List.range 32).map (fun k => mask.getD (32 * i + k) true))
    let l := r.1.writeStackWords data mask (i + 1) ws
    (l.1, r.2 :: l.2)

end Sys2Proof.Machine
end

