-- ==== Sys2Proof/Machine/Signed.lean ====
section
/-! DEFINITION. Signed items: the signature block, the keys it names, the measurement (R161, R557, R558). -/
namespace Sys2Proof.Machine

/-- The SHAKE256 digest of a byte run as 32 bytes (R160). -/
def digest (b : Bytes) : Bytes := le 32 (Config.shake256 b).toNat

/-- The signature block: the last 2,880 bytes of an item (R153, R161). -/
def sigBlock (item : Bytes) : Bytes := item.drop (item.length - 2880)

/-- The signed message: the item up to byte 8 of its signature block (R161). -/
def signedMessage (item : Bytes) : Bytes := item.take (item.length - 2872)

/-- SIGNER of an item (R161). -/
def signerOf (item : Bytes) : Nat := fldB (sigBlock item) 0 4

/-- The measurement of an item (R161). -/
def measurementOf (item : Bytes) : Bytes := digest (signedMessage item)

/-- The key that a SIGNER value names: a root that is not revoked, or the owner's (R557, R558, R560). -/
def Vault.key (v : Vault) (signer : Nat) : Option Bytes :=
  if signer = 0 then (if v.root0Revoked then none else some (Config.root 0))
  else if signer = 1 then some (Config.root 1)
  else if signer = 2 && v.owned then some v.ownerKey
  else none

/-- Whether the signature of an item verifies under a key (R557). -/
def verifiesUnder (key item : Bytes) : Bool :=
  decide (2880 ≤ item.length) && Config.xmssVerify key (signedMessage item) (((sigBlock item).drop 8).take 2820)

/-- Whether an item verifies under the key that its SIGNER names (R557, R558). -/
def Vault.verifies (v : Vault) (item : Bytes) : Bool :=
  match v.key (signerOf item) with
  | none => false
  | some k => verifiesUnder k item

end Sys2Proof.Machine
end

