-- ==== Sys2Proof/Machine/Images.lean ====
section
/-! DEFINITION. Pipeline images: loading, binding, running (R153 to R176). -/
namespace Sys2Proof.Machine

/-! ## The table -/

/-- The image of a handle. -/
def State.image (s : State) (h : Nat) : Option Image := amGet s.images.table h

/-- The image of a handle set. -/
def State.setImage (s : State) (h : Nat) (x : Image) : State :=
  { s with images := { s.images with table := amSet s.images.table h x } }

/-- The image of a handle changed. -/
def State.modImage (s : State) (h : Nat) (f : Image → Image) : State :=
  match s.image h with
  | none => s
  | some x => s.setImage h (f x)

/-- Runs of an image in flight (R172). -/
def State.runsOf (s : State) (h : Nat) : List Run := s.images.runs.filter (fun r => r.handle == h && s.running r.job)

/-- A carrel's stage unbound and its SRAM cleared (R127, R128). -/
def State.releaseCarrel (s : State) (c : Nat) : State :=
  let x := s.carrel c
  match x.state with
  | .halted => s.setCarrel c { x with bound := none, ins := [], outs := [] }
  | .retired => s
  | .off => s
  | _ => s.setCarrel c (x.cleared .idle)

/-- Carrels that hold or load a stage of an image. -/
def State.carrelsOf (s : State) (h : Nat) : List Nat :=
  (s.fabric.carrels.filter (fun e => match e.2.bound with | some b => b.handle == h | none => false)).map (·.1)

/-- An image freed: no stage is left bound, and its handle and resources are free; no placement is held at SERVING_CARRELS any more
(R165, R166, R167, R358). -/
def State.freeImage (s : State) (h : Nat) : State :=
  let s := ((s.carrelsOf h).foldl (fun s c => s.releaseCarrel c) s).unpinBound 2
  { s with images := { s.images with table := amDel s.images.table h } }

/-- The lowest free owner handle, 1 to 64 (R165; log 12). -/
def State.freeHandle (s : State) : Option Nat :=
  ((List.range 64).map (· + 1)).find? (fun h => (s.image h).isNone)

/-! ## Resources (R31, R167 step 6) -/

/-- Carrels of a class's share (R31, R357). -/
def State.share (s : State) (serving : Bool) : Nat :=
  if serving then s.curator.policy.servingCarrels else 256 - s.curator.policy.servingCarrels

/-- Carrels that hold or load a stage of a class. -/
def State.taken (s : State) (serving : Bool) : Nat :=
  (s.fabric.carrels.filter (fun e => match e.2.bound with | some b => b.serving == serving | none => false)).length

/-- Carrels that images being placed are still to take, by class. -/
def State.promised (s : State) (serving : Bool) : Nat :=
  s.images.table.foldl (fun a e =>
    match e.2.state with
    | .placing _ => if e.2.serving == serving then a + (imgCarrels e.2.content - (s.carrelsOf e.1).length) else a
    | _ => a) 0

/-- Carrels that no stage holds and that are neither halted nor retired (R127, R151). -/
def State.unheld (s : State) : Nat :=
  256 - (s.fabric.carrels.filter (fun e =>
    e.2.bound.isSome || e.2.state = .halted || e.2.state = .retired)).length

/-- Upkeep carrels that a solve's solver image takes, from its structural scalars (R394). -/
def solverCarrels (entries : Nat) : Nat := 16 * min 4 (max 1 ((entries + 2 ^ 24 - 1) / 2 ^ 24))

/-- Upkeep carrels of the large solves admitted (R394). -/
def State.solveCarrels (s : State) : Nat :=
  (s.collator.solves.filter (·.progress.isSome)).foldl (fun a x => a + solverCarrels x.entries) 0

/-- Carrels free for a class: within its share, and there (R31, R167). -/
def State.freeCarrels (s : State) (serving : Bool) : Nat :=
  let solver := s.solveCarrels
  min (s.share serving - s.taken serving - s.promised serving - (if serving then 0 else solver))
    (s.unheld - s.promised true - s.promised false - solver)

/-- The places of the scratch region that are taken, each with its length: the Stack ranges of images placed, what is open for
a copy, the working sets of large solves, and what lies in a vault out of service (R126, R394, R461, R548). -/
def State.scratchTaken (s : State) : List (Nat × Nat) :=
  (s.images.table.filter (fun e => e.2.state ≠ .partial_)).map (fun e => (e.2.base, imgStackBytes e.2.content)) ++
    s.net.opened.filterMap (fun o => (Region.scratch.place o.base).map (fun p => (p, o.length))) ++
    s.collator.solves.map (·.scratch) ++
    ((List.range 64).filter (s.unitOut 0x0002)).map (fun v => (v * Region.scratch.bytes, Region.scratch.bytes))

/-- The highest place of the scratch region at which `n` bytes are free (log 150). -/
def State.scratchRoom (s : State) (n : Nat) : Option Nat :=
  let t := s.scratchTaken
  let ends := (Region.scratch.total :: t.map (·.1)).filter (fun e => decide (n ≤ e))
  ((ends.map (fun e => e - n)).filter (fun p => t.all (fun q => apart p n q.1 q.2))).foldl
    (fun best p => match best with
      | none => some p
      | some b => some (max b p)) none

/-- Bytes of the pipeline weights and spill region that are taken: what every image has received, which its slots are loaded and
loaded again from, and the spilled bytes of the images placed (R127, R162, R166, R175; log 156). -/
def State.weightsTaken (s : State) : Nat :=
  s.images.table.foldl (fun a e =>
    a + e.2.received + (if e.2.state = .partial_ then 0 else imageSpill e.2.content)) 0

/-- Spilled bytes that Stack vault `v` keeps for the slots placed in its bay (R163). -/
def State.spillIn (s : State) (v : Nat) : Nat :=
  s.images.table.foldl (fun a e =>
    e.2.placed.foldl (fun a p => if bayOf p.2.2 = v then a + spilledBytes e.2.content p.1 p.2.1 else a) a) 0

/-- Whether the Stack vault of a carrel's bay has room for a slot's spilled bytes (R25, R163). -/
def State.spillFits (s : State) (b : Bound) (carrel : Nat) : Bool :=
  match s.image b.handle with
  | none => false
  | some i => decide (s.spillIn (bayOf carrel) + spilledBytes i.content b.stage b.slot ≤ Region.weights.bytes)

/-- Step 6 of R167: carrels, scratch and spill for an image whose pieces are all in. -/
def State.roomFor (s : State) (serving : Bool) (b : Bytes) : Bool :=
  decide (imgCarrels b ≤ s.freeCarrels serving) && (s.scratchRoom (imgStackBytes b)).isSome &&
    decide (s.weightsTaken + imageSpill b ≤ Region.weights.total)

/-! ## Loading (R166, R167) -/

/-- The first of steps 1 to 6 of R167 that fails, with its status. Solver stages are Thagrim's only, and the Collator alone loads
them, so a LOAD_IMAGE of one is refused whoever signed it (R156). -/
def State.placeFailure (s : State) (x : Image) : Option Nat :=
  let b := x.content
  if !s.vault.verifies b then some stNotPermitted
  else if !deviceOk b then some stNotPermitted
  else if (stageEnts b).any (fun e => e.kind == 4) then some stNotPermitted
  else if !imageFormOk b then some stMalformed
  else if decide (128 * 1024 * 1024 < imgLen b) || decide (x.budget < imgCarrels b) ||
      (stageEnts b).any (fun e => e.outcome == .tooLarge) then some stTooLarge
  else if !s.roomFor x.serving b then some stNoResource
  else none

/-- The credits that Circulation holds for an image's inputs at its load: every slot of every consumer slot (R144, R157, R170). -/
def inputCredits (b : Bytes) : List (Nat × Nat × List Nat) :=
  (List.range (imgEdges b)).flatMap (fun i =>
    let e := edgeEnt b i
    if e.from_ = 0xFF then (fanPairs e.fan 1 (endWidth b e.to_)).map (fun p => (i, p.2, List.range e.slots)) else [])

/-- Whether only the share that SERVING_CARRELS leaves to its class keeps an image from carrels that stand free (R31, R358). -/
def State.shareHolds (s : State) (serving : Bool) (n : Nat) : Bool :=
  decide (s.freeCarrels serving < n) && decide (n ≤ s.unheld - s.promised true - s.promised false - s.solveCarrels)

/-- The last piece: steps 1 to 6 of R167; where SERVING_CARRELS alone keeps the image out, the placement stands at that bound (R358). The
slots are then loaded one by one. -/
def State.verifyPlace (s : State) (h n : Nat) (x : Image) : State :=
  match s.placeFailure x with
  | some code =>
    let t := (s.freeImage h).finish n (refusal code)
    if code = stNoResource && s.shareHolds x.serving (imgCarrels x.content) then t.pinBound 2 else t
  | none =>
    s.setImage h { x with
      state := .placing n, ownerSigned := signerOf x.content = 2, measurement := measurementOf x.content
      base := (s.scratchRoom (imgStackBytes x.content)).getD 0, inCredits := inputCredits x.content
      counters := List.replicate (imgStages x.content) {}, steps := List.replicate (imgStages x.content) 0 }

/-- Whether the PARAMS of a piece hold values of R166. -/
def pieceOk (j : Slip) : Bool :=
  decide (fld j 34 1 ≤ 1) && decide (fld j 35 1 ≤ 1) && fld j 36 4 % 64 = 0 && decide (1 ≤ fld j 40 2) &&
    decide (fld j 40 2 ≤ 256) && fld j 42 22 = 0

/-- Whether a later piece follows the pieces before it (R166). -/
def Image.follows (x : Image) (j : Job) : Bool :=
  x.state = .partial_ && x.serving = (fld j.slip 34 1 == 1) && x.budget = fld j.slip 40 2 && x.sq = j.sq &&
    x.received = fld j.slip 36 4

/-- A piece added to its image; the piece with LAST set must end at IMAGE_LEN (R166). -/
def State.addPiece (s : State) (h : Nat) (x : Image) (j : Job) (b : Bytes) : State :=
  let y := { x with content := x.content ++ b, received := x.received + b.length, pieceAt := s.now }
  if fld j.slip 35 1 = 1 then
    if y.received = imgLen y.content then (s.setImage h y).verifyPlace h j.num y
    else (s.freeImage h).finish j.num (refusal stMalformed)
  else (s.setImage h y).finish j.num (endWith [] 0 h)

/-- LOAD_IMAGE (0x0101): one piece of an image; `buf` is what the read of the data buffer returns (R165 to R167). -/
def execLoadImage (job : Nat) (buf : BufRead) (s : State) : Answer :=
  .next <| s.beginRead job 0x0101 buf fun j b s =>
    let h := fld j.slip 32 2
    if h = 0 then
      if !pieceOk j.slip || fld j.slip 36 4 ≠ 0 then s.finish j.num (refusal stMalformed)
      else
        match s.freeHandle with
        | none => s.finish j.num (refusal stNoResource)
        | some h =>
          let x : Image := { state := .partial_, serving := fld j.slip 34 1 = 1, budget := fld j.slip 40 2, sq := j.sq,
                             content := [], received := 0 }
          s.addPiece h x j b
    else
      match s.image h with
      | none => s.finish j.num (refusal stMalformed)
      | some x =>
        if pieceOk j.slip && x.follows j then s.addPiece h x j b
        else
          let s := if x.state = .partial_ then s.freeImage h else s
          s.finish j.num (refusal stMalformed)

/-- PARTIAL_IMAGE_TIMEOUT: a partial image has received no piece for 10 s and is freed (R166). -/
def execPartialImageTimeout (handle : Nat) (s : State) : Answer :=
  .next <|
    match s.image handle with
    | none => s
    | some x => if x.state = .partial_ && decide (x.pieceAt + 10000000000 ≤ s.now) then s.freeImage handle else s

/-! ## Slots (R127, R167 steps 7 and 8) -/

/-- Whether a slot of an image stands in a carrel. -/
def Image.slotPlaced (x : Image) (p : Nat × Nat) : Bool := x.placed.any (fun e => e.1 == p.1 && e.2.1 == p.2)

/-- The upkeep copy of the features image, kept beside the serving copy of handle 0xF001 (R176). -/
def upkeepFeatures : Nat := 0x1F001

/-- Whether a consumer of R176, a frame graph or the Concordance unit is running an image: a session's query with an image, a
frame in flight of a graph, a search for a lost session, a tile run. -/
def State.consumed (s : State) (h : Nat) : Bool :=
  let frames (p : GraphSet → Bool) : Bool := s.vision.graphs.any (fun g => p g.2.set && !g.2.inFlight.isEmpty)
  let served (p : Service → Bool) : Bool := s.sessions.open_.any (fun e => e.2.service.any p)
  if h = 0xF001 then served (fun v => v.query.kind == 1)
  else if h = 0xF002 then served (fun v => v.lost.isSome || v.base.isNone) || frames (·.features)
  else
    (h = upkeepFeatures && frames (·.features)) || frames (fun g => g.flow && g.flowImage == h) ||
      (s.concord.computing.isSome && (match s.concord.grid with | some g => g.image == h | none => false))

/-- Whether a job holds an image's stages: a run of it, or a consumer that runs it (R33, R129, R176). -/
def State.imageHeld (s : State) (h : Nat) : Bool := !(s.runsOf h).isEmpty || s.consumed h

/-- Whether an image takes slots now: while it is placed, where a slot of it was lost, or a default image for a consumer that
runs it (R167, R175, R176). -/
def State.takes (s : State) (h : Nat) (x : Image) (p : Nat × Nat) : Bool :=
  x.state ≠ .partial_ && (imageSlots x.content).contains p && !x.slotPlaced p && (!x.default_ || s.consumed h)

/-- Every slot of an image stands in a carrel. -/
def Image.complete (x : Image) : Bool := (imageSlots x.content).all x.slotPlaced

/-- IMAGES extended by a load (R571). -/
def State.extendImages (s : State) (h : Nat) (measurement : Bytes) : State :=
  { s with security := { s.security with images := digest (s.security.images ++ measurement ++ le 2 h) } }

/-- RESULT of the final load return slip (R167). -/
def loadResult (h : Nat) (b : Bytes) : Nat :=
  h + spilledStages b % 2 ^ 16 * 2 ^ 16 + imgCarrels b * 2 ^ 32 + sat 32 (imageSpill b / 1024) * 2 ^ 64

/-- The SPILLED code of an image (R164). -/
def Image.codes (x : Image) : List Nat := if spilledStages x.content = 0 then [] else [stSpilled]

/-- The Stack words that hold `n` bytes of scratch from a place on, vault by vault, as runs (R25, R138). -/
def scratchRuns (place n : Nat) : List (Nat × Nat) :=
  let v0 := place / Region.scratch.bytes
  let v1 := if n = 0 then v0 else (place + n - 1) / Region.scratch.bytes + 1
  (List.range (v1 - v0)).map (fun i =>
    let lo := max place ((v0 + i) * Region.scratch.bytes)
    let hi := min (place + n) ((v0 + i + 1) * Region.scratch.bytes)
    (Region.scratch.address lo / 32, Region.scratch.address lo / 32 + (hi - lo) / 32))

/-- Every STACK_GRANT range of an image written as zero (R167 step 8). -/
def State.zeroGrants (s : State) (x : Image) : State :=
  s.modStack (fun m => { m with
    store := (scratchRuns x.base (grantsEnd x.content)).foldl (fun st r => st.clearWords r.1 r.2) m.store })

/-- The last slot of a load is ready: step 8 of R167. -/
def State.loadDone (s : State) (h : Nat) (x : Image) : State :=
  match x.state with
  | .placing n =>
    if x.complete then
      (((s.setImage h { x with state := .loaded, failed := [] }).zeroGrants x).extendImages h x.measurement).finish n
        (endWith x.codes 0 (loadResult h x.content))
    else s
  | _ => s

/-- STAGE_LOAD: the Curator loads a stage's slot into an idle carrel whose bay's Stack vault has room for its spilled bytes; a slot
that failed to load once goes to another carrel (R127, R131, R163, R167). -/
def execStageLoad (carrel handle stage slot : Nat) (s : State) : Answer :=
  .next <|
    let x := s.carrel carrel
    match s.image handle with
    | none => s
    | some i =>
      if decide (carrel < 256) && x.state = .idle && x.bound.isNone && s.takes handle i (stage, slot) &&
          !i.failed.contains (stage, slot, carrel) &&
          decide (s.spillIn (bayOf carrel) + spilledBytes i.content stage slot ≤ Region.weights.bytes) &&
          decide (s.taken i.serving < s.share i.serving) &&
          !(s.fabric.carrels.any (fun e => e.2.bound == some { handle := handle, stage := stage, slot := slot, serving := i.serving }))
      then s.setCarrel carrel { x with
        state := .loading, bound := some { handle := handle, stage := stage, slot := slot, serving := i.serving } }
      else s

/-- The ports of a slot at its binding: no token held, a credit for each slot of each consumer (R144, R148). -/
def boundPorts (b : Bytes) (stage slot : Nat) : List InPort × List OutPort :=
  ((slotInputs b stage slot).map (fun p => { edge := p.1, src := p.2.1, slots := p.2.2 }),
   (slotOutputs b stage slot).map (fun p => { edge := p.1, dst := p.2.1, slots := p.2.2, credits := List.range p.2.2 }))

/-- A slot's sections written into a carrel's SRAM (R127, R162). -/
def copySections (m : Store) (b : Bytes) (l : List SectionEnt) : Store :=
  l.foldl (fun m x =>
    (List.range (x.length / 32)).foldl (fun m i =>
      m.writeWord (x.sram / 32 + i) (((sectionBytes b x).drop (32 * i)).take 32)) m) m

/-- A slot of a loaded image fails to load a second time after a fault of its carrel: its load ends, so the runs that wait for it
are discarded, and the next starts the two attempts anew (R167, R175; log 157). -/
def State.reloadFailed (s : State) (h : Nat) (x : Image) (stage slot : Nat) : State :=
  let s := s.setImage h { x with failed := x.failed.filter (fun f => !(f.1 == stage && f.2.1 == slot)) }
  (s.desk.circ.jobs.filter (fun j => opcodeOf j.slip == 0x0110 && fld j.slip 32 2 == h && !j.started && j.ending.isNone)).foldl
    (fun s j => s.finish j.num (refusalNotStarted stDiscarded)) s

/-- STAGE_LOAD_END: the last section is copied and the digests decide; `sourceBad` for an uncorrectable word in the
source (R127, R167). -/
def execStageLoadEnd (carrel : Nat) (sourceBad : Bool) (s : State) : Answer :=
  .next <|
    let x := s.carrel carrel
    match x.bound with
    | none => s
    | some b =>
      if x.state ≠ .loading then s
      else
        match s.image b.handle with
        | none => s.setCarrel carrel (x.cleared .idle)
        | some i =>
          let gone : Bool := match i.state with
            | .placing n => !s.running n
            | _ => false
          let secs := slotSections i.content b.stage b.slot
          if gone then (s.setCarrel carrel (x.cleared .idle)).freeImage b.handle
          else if !sourceBad && secs.all (fun e => digest (sectionBytes i.content e) == e.digest) then
            let p := boundPorts i.content b.stage b.slot
            let s := s.setCarrel carrel { x with
              state := .ready, ins := p.1, outs := p.2
              sram := copySections x.sram i.content (residentSections i.content b.stage b.slot) }
            let i := { i with placed := i.placed ++ [(b.stage, b.slot, carrel)] }
            (s.setImage b.handle i).loadDone b.handle i
          else
            let s := s.setCarrel carrel (x.cleared .idle)
            if i.failed.any (fun f => f.1 == b.stage && f.2.1 == b.slot) then
              match i.state with
              | .placing n => (s.freeImage b.handle).finish n (refusal stDiscarded)
              | _ => s.reloadFailed b.handle i b.stage b.slot
            else s.setImage b.handle { i with failed := i.failed ++ [(b.stage, b.slot, carrel)] }

/-! ## Binding (R165, R168) -/

/-- Whether a defined graph or the grid names a handle (R245, R271). -/
def State.handleNamed (s : State) (h : Nat) : Bool :=
  s.vision.graphs.any (fun g => g.2.set.flowImage == h) ||
    (match s.concord.grid with | some g => g.image == h | none => false)

/-- UNLOAD_IMAGE (0x0102), the handle in bytes 32 and 33, where the manual gives it no place (log 13): refused while a queue is
bound or a graph or grid names the handle; a default image cannot be unloaded (R165, R168, R176, R245, R271). -/
def execUnloadImage (job : Nat) (s : State) : Answer :=
  .next <| s.begin job 0x0102 fun j s =>
    let h := fld j.slip 32 2
    match s.image h with
    | none => s.finish j.num (refusal stNotPermitted)
    | some x =>
      if x.default_ || x.state ≠ .loaded || !x.queues.isEmpty || s.handleNamed h then s.finish j.num (refusal stNotPermitted)
      else (s.freeImage h).finish j.num (endWith [])

/-- BIND_IMAGE (0x0103): the queue in bytes 32 to 35, the handle in bytes 36 and 37 (R165, R168; log 13). The units bind the
default images themselves (R176), so a host's BIND_IMAGE of one is refused (DESIGN CHOICE, log 158). -/
def execBindImage (job : Nat) (s : State) : Answer :=
  .next <| s.begin job 0x0103 fun j s =>
    let q := fld j.slip 32 4
    let h := fld j.slip 36 2
    let c := s.desk.circ.queue q
    match s.image h with
    | none => s.finish j.num (refusal stNotPermitted)
    | some x =>
      if x.default_ || x.state ≠ .loaded || c.kind ≠ .submission || c.state = .free || c.serving ≠ x.serving ||
          (imgStateful x.content && x.queues.any (· ≠ q)) then s.finish j.num (refusal stNotPermitted)
      else
        (s.setImage h { x with queues := if x.queues.contains q then x.queues else x.queues ++ [q] }).finish j.num (endWith [])

/-- Runs of an image from one queue whose final return slips are not written (R168). -/
def State.runsFrom (s : State) (h q : Nat) : Bool :=
  s.desk.circ.jobs.any (fun i => i.sq == q && opcodeOf i.slip == 0x0110 && fld i.slip 32 2 == h && i.started)

/-- UNBIND_IMAGE jobs whose queue has no run left end (R165, R168). -/
def State.endUnbinding (s : State) (h : Nat) : State :=
  match s.image h with
  | none => s
  | some x =>
    let ready := x.unbinding.filter (fun p => !s.runsFrom h p.1)
    let s := s.setImage h { x with
      unbinding := x.unbinding.filter (fun p => s.runsFrom h p.1)
      queues := x.queues.filter (fun q => ready.all (fun p => p.1 ≠ q)) }
    ready.foldl (fun s p => s.finish p.2 (endWith [])) s

/-- UNBIND_IMAGE jobs of every image looked at once more, after a return slip has been written. -/
def State.endUnbindings (s : State) : State :=
  (s.images.table.filter (fun e => !e.2.unbinding.isEmpty)).foldl (fun s e => s.endUnbinding e.1) s

/-- UNBIND_IMAGE (0x0104): completes once the last run from the queue has its final return slip (R165, R168). -/
def execUnbindImage (job : Nat) (s : State) : Answer :=
  .next <| s.begin job 0x0104 fun j s =>
    let q := fld j.slip 32 4
    let h := fld j.slip 36 2
    match s.image h with
    | none => s.finish j.num (refusal stNotPermitted)
    | some x =>
      if !x.queues.contains q then s.finish j.num (refusal stNotPermitted)
      else (s.setImage h { x with unbinding := x.unbinding ++ [(q, j.num)] }).endUnbinding h

/-! ## The report (R174) -/

/-- The record of a stage (R174). -/
def stageRecord (x : Image) (stage : Nat) : Bytes :=
  let c := x.counters.getD stage {}
  packB 32 [(0, 4, c.saturations), (4, 4, c.nanProduced), (8, 4, c.nanToZero), (12, 4, c.accWrap),
    (16, 4, if stageSpilled x.content stage then spilledBytes x.content stage 0 / 1024 else 0), (20, 4, natAt x.steps stage)]

/-- QUERY_IMAGE (0x0105), the handle in bytes 32 and 33 as for UNLOAD_IMAGE (log 13): the image report (R165, R174, R615). -/
def execQueryImage (job : Nat) (s : State) : Answer :=
  .next <| s.begin job 0x0105 fun j s =>
    let h := fld j.slip 32 2
    match s.image h with
    | none => s.finish j.num (refusal stNotPermitted)
    | some x =>
      if x.state ≠ .loaded then s.finish j.num (refusal stNotPermitted)
      else if dataLenOf j.slip < 64 + 32 * imgStages x.content then s.finish j.num (refusalNotStarted stTooLarge)
      else
        let sum := takePad 32 x.measurement ++ packB 32 [(0, 2, h), (2, 2, x.queues.length), (4, 2, spilledStages x.content)]
        s.finish j.num (endWith [] 0 0 [(0, sum ++ (List.range (imgStages x.content)).flatMap (stageRecord x))])

/-! ## Running (R169 to R173) -/

/-- Whether the run of a RUN_IMAGE slip is one of an upkeep-class image (R175). -/
def State.upkeepImage (s : State) (h : Nat) : Bool :=
  match s.image h with
  | some x => !x.serving
  | none => false

/-- Runs of an image that may be in flight at once (R172). -/
def Image.places (x : Image) : Nat := if imgStateful x.content then 1 else 16

/-- Whether a further run of the slip's image waits unstarted: for a place, or for a halted slot to be loaded again (R172,
R175). -/
def State.runWaits (s : State) (n : Nat) : Bool :=
  match s.job n with
  | none => false
  | some j =>
    match s.image (fld j.slip 32 2) with
    | none => false
    | some x => decide (x.places ≤ (s.runsOf (fld j.slip 32 2)).length) || (x.state = .loaded && !x.complete)

/-! ### Inputs on their edges (R144, R145, R169, R170) -/

/-- A hand-over slot for which Circulation holds the credit of every consumer slot of an input edge. -/
def Image.inputSlot (x : Image) (edge : Nat) : Option Nat :=
  (List.range (edgeEnt x.content edge).slots).find? (fun n =>
    x.inCredits.all (fun c => c.1 ≠ edge || c.2.2.contains n))

/-- The credits spent on a hand-over slot of an input edge. -/
def Image.spendInput (x : Image) (edge slot : Nat) : Image :=
  { x with
    inCredits := x.inCredits.map (fun c => if c.1 = edge then (c.1, c.2.1, c.2.2.filter (· ≠ slot)) else c)
    inSeq := (x.inSeq + 1) % 2 ^ 32 }

/-- The data messages of a hand-over: at most 4 KiB each (R132, R145). -/
def dataMsgs (m : MeshMsg) (slot offset : Nat) (data : Bytes) (marks : List Bool) : List MeshMsg :=
  (List.range ((data.length + 4095) / 4096)).map (fun i =>
    { m with body := .data slot (offset + 4096 * i) ((data.drop (4096 * i)).take 4096) ((marks.drop (4096 * i)).take 4096) })

/-- Messages sent into the mesh (R136). -/
def State.sendMesh (s : State) (l : List MeshMsg) : State :=
  { s with fabric := { s.fabric with mesh := s.fabric.mesh ++ l } }

/-- Where a Stack edge keeps one of its hand-over slots, as a place of the scratch region (R126, R146). -/
def Image.slotPlace (x : Image) (edge slot : Nat) : Nat :=
  x.base + edgeStart x.content edge + slot * (edgeEnt x.content edge).slotBytes

/-- Bytes at a place of the scratch region, each with its word's poison mark. A range may pass from one vault to the next. -/
def State.readScratch (s : State) (place n : Nat) : (Bytes × List Bool) × State :=
  (scratchRuns place n).foldl (fun r q =>
    let d := r.2.readStackBytes (32 * q.1) (32 * (q.2 - q.1))
    ((r.1.1 ++ d.1.1, r.1.2 ++ d.1.2), d.2)) (([], []), s)

/-- Bytes written over ranges of Stack words, one range after the other: whether every word was performed (R78, R143). -/
def State.writeRuns (s : State) (l : List (Nat × Nat)) (data : Bytes) (marks : List Bool) : State × Bool :=
  (l.foldl (fun (r : (State × Bool) × Nat) q =>
    let n := 32 * (q.2 - q.1)
    let d := r.1.1.writeStackBytes (32 * q.1) ((data.drop r.2).take n) ((marks.drop r.2).take n)
    ((d.1, r.1.2 && d.2), r.2 + n)) ((s, true), 0)).1

/-- Bytes written at a place of the scratch region: whether every word was performed (R78, R143). -/
def State.writeScratch (s : State) (place : Nat) (data : Bytes) (marks : List Bool) : State × Bool :=
  s.writeRuns (scratchRuns place data.length) data marks

/-- The input port of a consumer's slot that an edge from a producer slot reaches. -/
def portOf (ins : List InPort) (edge src : Nat) : Nat := ins.findIdx (fun p => p.edge == edge && p.src == src)

/-- One input of a run sent as one hand-over to every consumer slot of its edge: its data by the mesh or into the edge's Stack
range, and then the token (R145, R146, R170). Circulation's edge ports are source 256 (R137). -/
def State.sendInput (s : State) (h : Nat) (x : Image) (run edge slot : Nat) (data : Bytes) : State :=
  let e := edgeEnt x.content edge
  let s := if e.medium = 1 then (s.writeScratch (x.slotPlace edge slot) data []).1 else s
  (fanPairs e.fan 1 (endWidth x.content e.to_)).foldl (fun s p =>
    match x.placed.find? (fun q => q.1 == e.to_ && q.2.1 == p.2) with
    | none => s
    | some q =>
      let m : MeshMsg := { src := 256, dst := q.2.2, serving := x.serving, port := portOf (s.carrel q.2.2).ins edge 0
                           body := .token { slot := slot, bytes := e.slotBytes, seq := x.inSeq, run := some run } }
      s.sendMesh (if e.medium = 1 then [m] else dataMsgs m slot 0 (data.take e.slotBytes) [] ++ [m]))
    (s.setImage h (x.spendInput edge slot))

/-- The first input of the first run of an image, on each edge, that a credit allows to be sent (R144, R170, R172). -/
def State.nextInput (s : State) (h : Nat) (x : Image) : Option (Run × Nat × Nat × Bytes) :=
  (s.images.runs.filter (fun r => r.handle == h && !r.expired)).findSome? (fun r =>
    r.inputs.findSome? (fun i =>
      if s.images.runs.any (fun q => q.handle == h && !q.expired && decide (q.job < r.job) && q.inputs.any (fun k => k.1 == i.1)) then none
      else (x.inputSlot i.1).map (fun n => (r, i.1, n, i.2))))

/-- Inputs of an image's runs sent while credits allow; the fuel is more than the inputs that may wait. -/
def State.sendInputs (s : State) (h : Nat) : Nat → State
  | 0 => s
  | n + 1 =>
    match s.image h with
    | none => s
    | some x =>
      match s.nextInput h x with
      | none => s
      | some (r, edge, slot, data) =>
        let s := { s with images := { s.images with
          runs := mapIf (fun q => q.job == r.job) (fun q => { q with inputs := q.inputs.filter (fun i => i.1 ≠ edge) }) s.images.runs } }
        (s.sendInput h x r.job edge slot data).sendInputs h n

/-- Input edges and output edges by number (R157). -/
def inputNumbers (b : Bytes) : List Nat := (List.range (imgEdges b)).filter (fun i => (edgeEnt b i).from_ == 0xFF)
def outputNumbers (b : Bytes) : List Nat := (List.range (imgEdges b)).filter (fun i => (edgeEnt b i).to_ == 0xFF)

/-- The data buffer cut into the inputs, in input order (R169). -/
def cutInputs (b : Bytes) : List Nat → Bytes → List (Nat × Bytes)
  | [], _ => []
  | i :: l, data =>
    let n := (edgeEnt b i).slotBytes
    (i, takePad n data) :: cutInputs b l (data.drop (up64 n))

/-- RUN_IMAGE (0x0110): a run enters the pipeline: each input is read once and goes on its edge as one hand-over as soon as a
credit allows; `inputs` is what the read of the data buffer returns (R169, R170, R172). -/
def execRunImage (job : Nat) (inputs : BufRead) (s : State) : Answer :=
  .next <|
    if s.runWaits job then s
    else s.beginRead job 0x0110 inputs fun j b s =>
      let h := fld j.slip 32 2
      match s.image h with
      | none => s.finish j.num (refusal stNotPermitted)
      | some x =>
        if fld j.slip 34 6 ≠ 0 || fld j.slip 48 16 ≠ 0 then s.finish j.num (refusal stMalformed)
        else if x.state = .loaded && dataLenOf j.slip ≠ edgeBytes (inputEdges x.content) + edgeBytes (outputEdges x.content) then
          s.finish j.num (refusal stMalformed)
        else if x.state ≠ .loaded || !x.queues.contains j.sq || x.unbinding.any (fun p => p.1 == j.sq) then
          s.finish j.num (refusal stNotPermitted)
        else
          ({ s with images := { s.images with runs := s.images.runs ++
              [{ job := j.num, handle := h, sq := j.sq, seedOffset := fld j.slip 40 8, startAt := s.now
                 inputs := cutInputs x.content (inputNumbers x.content) b
                 outputs := (outputNumbers x.content).map (fun i => (i, zeros (edgeEnt x.content i).slotBytes, [], false)) }] } } : State).sendInputs
            h 256

/-- RESULT of a run (R170). -/
def runResult (s : State) (r : Run) : Nat :=
  sat 32 (r.streamed / 1024) + sat 32 r.steps * 2 ^ 32 +
    sat 32 (r.events.saturations + r.events.nanProduced + r.events.nanToZero + r.events.accWrap) * 2 ^ 64 +
    sat 32 ((s.now - r.startAt) / 10) * 2 ^ 96

/-- Detail flags of a run (R171). -/
def runFlags (e : Events) (noOutput : Bool) : Nat :=
  flag (e.saturations ≠ 0) + 2 * flag (e.nanProduced ≠ 0) + 4 * flag (e.nanToZero ≠ 0) + 8 * flag (e.accWrap ≠ 0) +
    16 * flag noOutput

/-- A run leaves the pipeline with its ending. -/
def State.endRun (s : State) (r : Run) (e : Ending) : State :=
  ({ s with images := { s.images with runs := s.images.runs.filter (fun i => i.job ≠ r.job) } } : State).finish r.job e

/-- How a fault or a queue's reset ends a run: discarded, with its image's codes, the events it had and no output (R105, R113, R171,
R175). -/
def discardedRun (x : Option Image) (r : Run) : Ending :=
  endWith (stDiscarded :: x.elim [] (·.codes)) (runFlags r.events true)

/-- Whether an output edge has delivered its hand-over: every producer slot's token has come (R157, R170). -/
def outputDone (b : Bytes) (o : Nat × Bytes × List Nat × Bool) : Bool :=
  (fanPairs (edgeEnt b o.1).fan (endWidth b (edgeEnt b o.1).from_) 1).all (fun p => o.2.2.1.contains p.1)

/-- The outputs as the data buffer takes them, in output order, each padded to 64 bytes (R169, R170). -/
def outputBytes (r : Run) : Bytes := r.outputs.flatMap (fun o => takePad (up64 o.2.1.length) o.2.1)

/-- RUN_END: every output edge has delivered its hand-over, and the outputs are written in one pass (R164, R170). A poisoned word in
them discards the run instead (R546). -/
def execRunEnd (job : Nat) (s : State) : Answer :=
  .next <|
    match s.images.runs.find? (fun r => r.job == job) with
    | none => s
    | some r =>
      match s.image r.handle with
      | none => s
      | some x =>
        if r.expired || !r.outputs.all (outputDone x.content) then s
        else if r.outputs.any (·.2.2.2) then s.endRun r (discardedRun (some x) r)
        else s.endRun r (endWith x.codes (runFlags r.events false) (runResult s r)
          [(edgeBytes (inputEdges x.content), outputBytes r)])

/-- Whether a carrel runs a step of a run now: its inputs' first tokens are the run's (R148, R173). -/
def Carrel.stepOf (x : Carrel) (job : Nat) : Bool :=
  x.state = .running && x.ins.any (fun p => match p.held with | t :: _ => t.run == some job | [] => false)

/-- A run whose deadline has passed ends once none of its steps runs (R173). -/
def State.endExpired (s : State) (job : Nat) : State :=
  match s.images.runs.find? (fun r => r.job == job && r.expired) with
  | none => s
  | some r =>
    if s.fabric.carrels.any (fun e => e.2.stepOf job) then s
    else
      let codes := match s.image r.handle with
        | some x => x.codes
        | none => []
      s.endRun r (endWith (stPartialDeadline :: codes) (runFlags r.events true) (runResult s r))

/-- RUN_DEADLINE: the deadline of a run in flight has passed: no new step of it starts, and it ends once its running steps have
ended (R173). -/
def execRunDeadline (job : Nat) (s : State) : Answer :=
  .next <|
    match s.images.runs.find? (fun r => r.job == job), s.job job with
    | some r, some j =>
      if !s.passed (deadlineOf j.slip) then s
      else
        ({ s with images := { s.images with
          runs := mapIf (fun q => q.job == r.job) (fun q => { q with expired := true, inputs := [] }) s.images.runs } } : State).endExpired job
    | _, _ => s

end Sys2Proof.Machine
end

