-- ==== Sys2Proof/Machine/PortSend.lean ====
section
/-! DEFINITION. Transmission at a logical port: the three classes of R449, the frame on the wire, the turn of the host's
queues. -/
namespace Sys2Proof.Machine

/-- A local logical port. -/
def State.netPort (s : State) (l : Nat) : LogPort := s.net.ports.getD l {}

/-- A local logical port changed. -/
def State.modPort (s : State) (l : Nat) (f : LogPort → LogPort) : State :=
  { s with net := { s.net with ports := modAt s.net.ports l f } }

/-- A physical port. -/
def State.phys (s : State) (k : Nat) : PhysPort := s.net.phys.getD k {}

/-- A physical port changed. -/
def State.modPhys (s : State) (k : Nat) (f : PhysPort → PhysPort) : State :=
  { s with net := { s.net with phys := modAt s.net.phys k f } }

/-- The room-wide number of a local logical port (R440). -/
def State.roomPort (s : State) (l : Nat) : Nat := 16 * s.boot.position + l

/-- Logical ports that a breakout gives (R440). -/
def breakoutPorts (b : Nat) : Nat := if b = 0 then 1 else if b = 1 then 2 else 4

/-- Rate of a breakout's logical ports in Gb/s (R440). -/
def breakoutRate (b : Nat) : Nat := if b = 0 then 200 else if b = 1 then 100 else 50

/-- Bits that a frame given without FCS takes on the wire: the frame, its FCS, and the preamble and the gap of IEEE 802.3
(log 182). -/
def wireBits (bytes : Nat) : Nat := 8 * (max 60 bytes + 24)

/-- Bytes of a PTP message of a type in its frame: the header and the body of IEEE 1588, over layer 2, IPv4 or IPv6
(log 182). -/
def ptpFrameBytes (wire kind : Nat) : Nat :=
  (if wire = 0 then 14 else if wire = 1 then 42 else 62) +
    (if kind = 11 then 64 else if kind = 0 || kind = 1 || kind = 8 then 44 else 54)

/-- A port takes a frame of so many bytes: it is counted and the port is busy while it lasts (R449, R453). -/
def State.occupy (s : State) (l bytes : Nat) : State :=
  s.modPort l (fun x => { x with tx := satAdd 64 x.tx 1, left := wireBits bytes })

/-- A Datestamp unit message leaves: an event message is stamped as it does, which raises Bell source 81, and the message
that follows it carries that stamp (R482, R483, R494). -/
def State.sendPtp (s : State) (l : Nat) (m : PtpOut) : State :=
  let x := s.stamp
  let own := (s.now, x.fraction.toNat / 65536)
  let st := m.stamp.getD own
  let wire := if x.timing.profile = 2 then 0 else x.timing.transport
  let s := (s.occupy l (ptpFrameBytes wire m.kind)).emit [.ptp l m.kind m.seq st.1 st.2]
  let s := match m.follow with
    | none => s
    | some k => s.modPort l (fun p => { p with sync := { kind := k, seq := m.seq, stamp := some own } :: p.sync })
  if m.kind ≤ 3 then s.tell [.raise 81] else s

/-- The host frame whose turn it is: that of the lowest queue number after the last one served, or else of the lowest
(R449). -/
def LogPort.nextHost (x : LogPort) : Option (Nat × Bytes) :=
  let low (l : List (Nat × Bytes)) : Option (Nat × Bytes) :=
    l.foldl (fun b e => match b with
      | none => some e
      | some a => if e.1 < a.1 then some e else some a) none
  match low (x.host.filter (fun e => decide (x.turn < e.1))) with
  | some e => some e
  | none => low x.host

/-- A port that is up and has no frame on the wire takes the next one: a Datestamp unit message, else a session answer, else
the host frame whose turn it is (R449). -/
def State.transmit (s : State) (l : Nat) : State :=
  let x := s.netPort l
  if x.state ≠ .up || x.left ≠ 0 then s
  else
    match x.sync, x.answers with
    | m :: rest, _ => (s.modPort l (fun p => { p with sync := rest })).sendPtp l m
    | [], f :: rest =>
      ((s.modPort l (fun p => { p with answers := rest })).occupy l f.length).emit [.packet (s.roomPort l) f]
    | [], [] =>
      match x.nextHost with
      | none => s
      | some (q, f) =>
        ((s.modPort l (fun p => { p with host := p.host.erase (q, f), turn := q })).occupy l f.length).emit
          [.packet (s.roomPort l) f]

/-- A Datestamp unit message given to a port (R449 class 1). -/
def State.queuePtp (s : State) (l : Nat) (m : PtpOut) : State :=
  (s.modPort l (fun p => { p with sync := p.sync ++ [m] })).transmit l

/-- A session answer, or a frame that the port itself answers, given to a port (R449 class 2; log 182). -/
def State.sendFrame (s : State) (l : Nat) (f : Bytes) : State :=
  (s.modPort l (fun p => { p with answers := p.answers ++ [f] })).transmit l

/-- A host frame of transmit queue `q` given to a port (R449 class 3). -/
def State.sendHost (s : State) (l q : Nat) (f : Bytes) : State :=
  (s.modPort l (fun p => { p with host := p.host ++ [(q, f)] })).transmit l

/-- Whether a frame of a transmit queue waits at a port: a queue has one frame at a time there (R449). -/
def State.hostWaits (s : State) (q : Nat) : Bool := s.net.ports.any (fun p => p.host.any (fun e => e.1 == q))

/-- A tick of 5 ns at the ports: the frame on each wire goes on, and where it ends the port takes the next one (R449,
R469). -/
def State.portsTick (s : State) : State :=
  (List.range 16).foldl (fun s l =>
    let x := s.netPort l
    if x.left = 0 then s
    else (s.modPort l (fun x => { x with left := x.left - 5 * breakoutRate (s.phys (l / 4)).breakout })).transmit l) s

end Sys2Proof.Machine
end

