-- ==== Sys2Proof/Machine/Network.lean ====
section
/-! DEFINITION. The Ethernet ports: settings, training, transmission, reports (R440 to R454, R467). -/
namespace Sys2Proof.Machine

/-! ## Ports -/

/-- Whether a local logical port is one that its physical port's breakout gives (R440). -/
def State.portGiven (s : State) (l : Nat) : Bool :=
  let k := s.phys (l / 4)
  k.provided && decide (l < 16) && decide (l % 4 < breakoutPorts k.breakout)

/-- An Ethernet peer violation counted and, first of its reason on its port in a reporting window, reported (R454, R613). -/
def State.netViolation (s : State) (l reason source : Nat) : State :=
  (s.modPort l (fun x => { x with violations := satAdd 64 x.violations 1 })).report
    { family := 0x0842, subject := s.roomPort l, reason := reason }
    (fun prev => [.event 2 { code := 0x0842, subject := s.roomPort l, detail := reason, value := sat 32 prev },
      .errata { cls := 0, unit := 0x0020, inst := s.roomPort l, code := reason, flags := 4, detail0 := source % 2 ^ 64 }])

/-- A logical port goes down : PORT_DOWN with its cause, and the Bell source (R467, R494). The Datestamp unit's messages and
the answers that wait there are lost; host frames wait for the port (log 182). -/
def State.portDown (s : State) (l cause : Nat) : State :=
  (s.modPort l (fun x => { x with state := .down, sync := [], answers := [], left := 0 })).tell
    [.event 2 { code := 0x0841, subject := s.roomPort l, detail := cause }, .raise (40 + l / 4)]

/-- The settings of a physical port applied, and its training begun (R451). -/
def State.applyPort (s : State) (k : Nat) (x : PhysPort) : State :=
  let s := (List.range 4).foldl (fun s i =>
    if (s.netPort (4 * k + i)).state = .up then s.portDown (4 * k + i) 0 else s) s
  let s := s.modPhys k (fun _ => { x with provided := true })
  (List.range 4).foldl (fun s i => s.modPort (4 * k + i) (fun p =>
    { p with state := if i < breakoutPorts x.breakout then .training else .down, failed := false })) s

/-- A queue that SET_PORT or ADD_FLOW may name: a host-resident receive queue that is active (R451). -/
def State.receiveQueue (s : State) (q : Nat) : Bool :=
  hostResident q && (s.desk.circ.queue q).kind = .receive && (s.desk.circ.queue q).state = .active

/-- SET_PORT (0x0840): the port goes down and trains again; the job ends with the training (R451). -/
def execSetPort (job : Nat) (s : State) : Answer :=
  .next <| s.begin job 0x0840 fun j s =>
    let k := fld j.slip 32 1
    let q := fld j.slip 36 4
    if decide (3 < k) || decide (2 < fld j.slip 33 1) || decide (1 < fld j.slip 34 1) || decide (1 < fld j.slip 35 1) ||
        fld j.slip 40 24 ≠ 0 || (q ≠ 0 && !s.receiveQueue q) then s.finish j.num (refusal stMalformed)
    else
      let s := match (s.phys k).job with
        | some n => s.finish n (endWith [])
        | none => s
      s.applyPort k { breakout := fld j.slip 33 1, medium := fld j.slip 34 1, autoneg := fld j.slip 35 1 = 1
                      exceptionQueue := q, job := some j.num }

/-- A SET_PORT job ends once no logical port of its physical port trains (R451). -/
def State.endSetPort (s : State) (k : Nat) : State :=
  if (List.range 4).any (fun i => (s.netPort (4 * k + i)).state = .training) then s
  else
    match (s.phys k).job with
    | none => s
    | some n => (s.modPhys k (fun x => { x with job := none })).finish n (endWith [])

/-- PORT_TRAINING_END: training of a logical port has ended; it comes up or stays down (R441, R451, R454, R467). -/
def execPortTrainingEnd (port : Nat) (ok : Bool) (s : State) : Answer :=
  .next <|
    let x := s.netPort port
    if x.state ≠ .training then s
    else
      let k := s.phys (port / 4)
      let s :=
        if ok then
          ((s.modPort port (fun x => { x with state := .up, failed := false })).tell
            [.event 2 { code := 0x0840, subject := s.roomPort port, detail := k.breakout, value := breakoutRate k.breakout },
             .raise (40 + port / 4)]).transmit port
        else
          let s := s.netViolation port 0x0A 0
          let s := if x.failed then s.modPort port (fun x => { x with state := .down }) else s.portDown port 2
          s.modPort port (fun x => { x with failed := true, failedAt := s.now })
      s.endSetPort (port / 4)

/-- PORT_TRAIN_RETRY: 1 s after a failed training the port trains again (R454). -/
def execPortTrainRetry (port : Nat) (s : State) : Answer :=
  .next <|
    let x := s.netPort port
    if x.state = .down && x.failed && decide (x.failedAt + 1000000000 ≤ s.now) && s.portGiven port then s.modPort port (fun x => { x with state := .training }) else s

/-- PORT_SIGNAL_LOSS: an up port loses signal and goes down; it is trained again as after a failed training (R454, R467). -/
def execPortSignalLoss (port : Nat) (s : State) : Answer :=
  .next <|
    if (s.netPort port).state = .up then (s.portDown port 1).modPort port (fun x => { x with failed := true, failedAt := s.now }) else s

/-! ## Addresses and rules (R451, R452) -/

/-- Whether an address is an IPv6 or an IPv4-mapped multicast address. -/
def isMulticast (a : Nat) : Bool :=
  a / 2 ^ 120 = 0xFF || (a / 2 ^ 32 = 0xFFFF && a / 2 ^ 28 % 16 = 14)

/-- The fields of a SET_ADDRESS buffer in range (R452). -/
def addressOk (b : Bytes) : Bool :=
  decide (fldB b 0 1 ≤ 15) && fldB b 1 1 = 0 && decide (fldB b 2 2 ≤ 4094) && !(fldB b 4 1).testBit 0 &&
    allZero ((b.drop 10).take 54) &&
    (List.range 4).all (fun i => !isMulticast (fldBE b (64 + 16 * i) 16)) &&
    (List.range 8).all (fun i => fldBE b (128 + 16 * i) 16 = 0 || isMulticast (fldBE b (128 + 16 * i) 16))

/-- The addresses of a SET_ADDRESS buffer applied to their port (R443, R452). -/
def State.applyAddress (s : State) (b : Bytes) : State :=
  let used (l : List Nat) : List Nat := l.filter (· ≠ 0)
  s.modPort (fldB b 0 1) (fun x => { x with
    vlan := fldB b 2 2, mac := fldBE b 4 6
    unicast := used ((List.range 4).map (fun i => fldBE b (64 + 16 * i) 16))
    groups := used ((List.range 8).map (fun i => fldBE b (128 + 16 * i) 16)) })

/-- SET_ADDRESS (0x0841): `buf` is what the read of the data buffer returns (R451, R452). -/
def execSetAddress (job : Nat) (buf : BufRead) (s : State) : Answer :=
  .next <| s.beginRead job 0x0841 buf fun j b s =>
    if dataLenOf j.slip ≠ 256 || fld j.slip 32 32 ≠ 0 || !addressOk b then s.finish j.num (refusal stMalformed)
    else (s.applyAddress b).finish j.num (endWith [])

/-- REMOVE_FLOW (0x0843): every packet that the rule steered has been written when it runs, since a packet is written in
the step in which it is steered (R447, R451). -/
def execRemoveFlow (job : Nat) (s : State) : Answer :=
  .next <| s.begin job 0x0843 fun j s =>
    let n := fld j.slip 32 2
    if fld j.slip 34 30 ≠ 0 || decide (4096 ≤ n) then s.finish j.num (refusal stMalformed)
    else if (amGet s.net.rules n).isNone then s.finish j.num (refusal stNotPermitted)
    else ({ s with net := { s.net with rules := amDel s.net.rules n } } : State).finish j.num (endWith [])

/-! ## Reports (R453) -/

/-- QUERY_PORT (0x0844): the counts of a local logical port (R451, R453, R615). -/
def execQueryPort (job : Nat) (s : State) : Answer :=
  .next <| s.begin job 0x0844 fun j s =>
    let l := fld j.slip 32 1
    let x := s.netPort l
    if decide (15 < l) || fld j.slip 33 31 ≠ 0 then s.finish j.num (refusal stMalformed)
    else if dataLenOf j.slip < 64 then s.finish j.num (refusalNotStarted stTooLarge)
    else
      s.finish j.num (endWith [] 0 0 [(0,
        [x.rx, x.tx, x.fecCorrected, x.fecBad, x.macFiltered, x.unclaimed, x.rxDrops, x.rxQueueFull].flatMap
          (fun v => le 8 (sat 64 v)))])

/-- The code of a Jalzel state (R589). -/
def LinkState.code : LinkState → Nat
  | .down => 0
  | .training => 1
  | .identifying => 2
  | .up => 3
  | .refused => 4

/-- QUERY_JALZEL (0x0845): a port's state, partner and counts, the counts from byte 8 on (R451, R453, R615; log 15). -/
def execQueryJalzel (job : Nat) (s : State) : Answer :=
  .next <| s.begin job 0x0845 fun j s =>
    let p := fld j.slip 32 1
    let x := s.jalzel p
    if decide (6 < p) || fld j.slip 33 31 ≠ 0 then s.finish j.num (refusal stMalformed)
    else if dataLenOf j.slip < 64 then s.finish j.num (refusalNotStarted stTooLarge)
    else
      s.finish j.num (endWith [] 0 0 [(0, takePad 64
        (packB 8 [(0, 1, x.state.code), (1, 1, x.partner.getD 0xFF)] ++
          [x.corrected, x.replayed, x.requests, x.retrains, x.violations].flatMap (fun v => le 8 (sat 64 v))))])

/-! ## Transmission (R448, R449) -/

/-- Whether the fields of a transmit entry are in range (R448). -/
def txEntryOk (e : Slip) : Bool :=
  decide (60 ≤ fld e 8 2) && decide (fld e 8 2 ≤ 9212) && decide (fld e 10 1 ≤ 15) && decide (fld e 11 1 ≤ 3) && fld e 12 52 = 0

/-- Two bytes of a frame replaced, in network order. -/
def put2 (f : Bytes) (o v : Nat) : Bytes := f.take o ++ be 2 v ++ f.drop (o + 2)

/-- The checksums that a transmit entry asks for computed into its frame (R448). -/
def fillChecksums (ip4 udp : Bool) (f : Bytes) : Bytes :=
  let tagged := fldBE f 12 2 = 0x8100
  let o := if tagged then 18 else 14
  let e := fldBE f (o - 2) 2
  let ihl := if e = 0x0800 then fldBE f o 1 % 16 * 4 else 40
  let f1 := if ip4 && e = 0x0800 then
      let z := put2 f (o + 10) 0
      put2 z (o + 10) (inetSum ((z.drop o).take ihl))
    else f
  let isUdp := (e = 0x0800 && fldBE f (o + 9) 1 = 17) || (e = 0x86DD && fldBE f (o + 6) 1 = 17)
  if udp && isUdp then
    let u := o + ihl
    let len := fldBE f (u + 4) 2
    let pseudo := if e = 0x0800 then (f.drop (o + 12)).take 8 ++ [0, 17] ++ be 2 len
      else (f.drop (o + 8)).take 32 ++ be 4 len ++ be 4 17
    let z := put2 f1 (u + 6) 0
    put2 z (u + 6) (udpField pseudo ((z.drop u).take len))
  else f1

/-- HEAD of a transmit queue advanced past an entry (R448). -/
def State.passEntry (s : State) (q : Nat) : State :=
  s.modCirc (fun c =>
    let x := c.queue q
    c.setQueue q { x with head := (x.head + 1) % x.slots })

/-- TX_ENTRY_FETCH: the entry at the head of transmit queue `q` and its frame are read, none where a read fails; the frame
goes to its port, which sends it in its turn, or the entry is skipped (R86, R115, R448, R449). An entry for a port that is not
up waits, and so does one behind a frame of its queue that a port has not yet sent. -/
def execTxEntryFetch (q : Nat) (entry : Option Slip) (frame : Option Bytes) (s : State) : Answer :=
  .next <|
    let x := s.desk.circ.queue q
    if x.kind ≠ .transmit || x.state ≠ .active || x.head = x.tail || !hostResident q || s.hostWaits q then s
    else
      match entry with
      | none =>
        (s.modCirc (fun c => c.setQueue q { x with state := .halted })).tell
          (circMistake 0x05 q ++ [.event 2 { code := 0x0002, detail := 0x05, subject := q, value := x.head }])
      | some e =>
        let skip := (({ s with net := { s.net with txBad := satAdd 32 s.net.txBad 1 } } : State).tell
          (circMistake 0x13 q (slipPlace q x.head))).passEntry q
        if !txEntryOk e then skip
        else
          match frame with
          | none => skip
          | some f =>
            if (s.netPort (fld e 10 1)).state ≠ .up then s
            else
              (s.passEntry q).sendHost (fld e 10 1) q
                (fillChecksums ((fld e 11 1).testBit 0) ((fld e 11 1).testBit 1) (takePad (fld e 8 2) f))

end Sys2Proof.Machine
end

