-- ==== Sys2Proof/Machine/Streams.lean ====
section
/-! DEFINITION. Streams as their stations, graphs and consumers share them: lookup, violations, buffers, the frame store,
the flow match (R177 to R180, R190, R200). -/
namespace Sys2Proof.Machine

/-! ## Lookup -/

/-- An open stream. -/
def State.stream (s : State) (k : Nat) : Option Stream := amGet s.accession.streams k

/-- A stream replaced. -/
def State.setStream (s : State) (k : Nat) (x : Stream) : State :=
  { s with accession := { s.accession with streams := amSet s.accession.streams k x } }

/-- A stream changed, if it is open. -/
def State.modStream (s : State) (k : Nat) (f : Stream → Stream) : State :=
  match s.stream k with
  | none => s
  | some x => s.setStream k (f x)

/-- The station that holds a stream (R177). -/
def stationOf (k : Nat) : Nat := k / 128

/-- The open streams that a station holds. -/
def State.stationStreams (s : State) (st : Nat) : List (Nat × Stream) :=
  s.accession.streams.filter (fun e => stationOf e.1 == st)

/-- A stream's rectification table, if it names one. -/
def State.remapOf (s : State) (d : StreamDesc) : Option Remap :=
  if d.remap = 0 then none else amGet s.accession.remaps d.remap

/-- Level-0 size of a video stream (R228). -/
def State.planeSize (s : State) (d : StreamDesc) : Nat × Nat :=
  match s.remapOf d with
  | some r => (r.outW, r.outH)
  | none => (d.width, d.height)

/-- a − b of record times, modulo 2^64. -/
def subTime (a b : Nat) : Nat := (a + 2 ^ 64 - b % 2 ^ 64) % 2 ^ 64

/-! ## Violations (R200) -/

/-- A peer violation of a stream: counted, and the first of its stream in a reporting window reported (R200, R613). -/
def State.streamViolation (s : State) (k reason source : Nat) : State :=
  match s.stream k with
  | none => s
  | some x =>
    (s.setStream k { x with violations := satAdd 32 x.violations 1, lastReason := reason }).report
      { family := 0x0820, subject := k, reason := 0 }
      (fun prev => [.event x.desc.eventQueue { code := 0x0820, subject := k, detail := reason, value := sat 32 prev },
        .errata { cls := 0, unit := 0x0010, inst := stationOf k, code := reason, flags := 4, detail0 := source % 2 ^ 64,
                  detail1 := k }])

/-- An event on a stream's event queue. -/
def State.streamEvent (s : State) (k : Nat) (e : EventIn) : State :=
  match s.stream k with
  | none => s
  | some x => s.event x.desc.eventQueue e

/-! ## Buffers (R190) -/

/-- The lowest free buffer of a stream. -/
def Stream.freeBuffer (x : Stream) : Option Nat := (List.range x.buffers.length).find? (fun b => x.buffers[b]? == some .free)

/-- A buffer after a holder has let go: it is free once no one holds it. -/
def Buffer.drop (b : Buffer) (h : Holder) : Buffer :=
  match b with
  | .frame f hs => if hs == [h] then .free else .frame f (hs.filter (· ≠ h))
  | .set p hs => if hs == [h] then .free else .set p (hs.filter (· ≠ h))
  | b => b

/-- A buffer with a further holder. -/
def Buffer.hold (b : Buffer) (h : Holder) : Buffer :=
  match b with
  | .frame f hs => .frame f (if hs.contains h then hs else hs ++ [h])
  | .set p hs => .set p (if hs.contains h then hs else hs ++ [h])
  | b => b

/-- One buffer of a stream changed. -/
def State.modBuffer (s : State) (k b : Nat) (f : Buffer → Buffer) : State :=
  s.modStream k (fun x => { x with buffers := modAt x.buffers b f })

/-- A holder lets go of every buffer of a stream. -/
def State.dropHolder (s : State) (k : Nat) (h : Holder) : State :=
  s.modStream k (fun x => { x with buffers := x.buffers.map (fun b => b.drop h) })

/-- The delivered frame in a buffer of a stream. -/
def State.frameIn (s : State) (k b : Nat) : Option Frame :=
  match s.stream k with
  | none => none
  | some x => match x.buffers[b]? with
    | some (.frame f _) => some f
    | _ => none

/-! ## The frame store (R179, R190, R229, R234, R246) -/

/-- The frame store region in bytes (R25). -/
def frameStoreBytes : Nat := 4096 * 1024 * 1024

/-- Band ring bytes of a table (R234). -/
def Remap.ringBytes (r : Remap) : Nat := r.band * planePitch r.srcW

/-- Bytes that a stream reserves: its buffers and its band ring, or its record ring (R190, R193, R195, R234). -/
def State.streamBytes (s : State) (d : StreamDesc) : Nat :=
  if d.kind = 0 then
    let z := s.planeSize d
    d.buffers * frameBufferBytes z.1 z.2 + (match s.remapOf d with | some r => r.ringBytes | none => 0)
  else if d.kind = 1 then 64 * 2 ^ d.capacity
  else d.buffers * (up64 (16 * d.capacity) + 64)

/-- Bytes of a loaded table (R229). -/
def Remap.bytes (r : Remap) : Nat := 64 + 8 * r.nodes.length

/-- Bytes that a running graph reserves: DEPTH + 1 pyramid slots and DEPTH flow fields (R236, R244, R246). -/
def graphBytes (g : GraphSet) (w h : Nat) : Nat :=
  (g.depth + 1) * (pyramidBytes g.levels w h - planePitch w * h) + g.depth * fieldBytes w h

/-- The graph of a stream. -/
def State.graph (s : State) (k : Nat) : Option Graph := amGet s.vision.graphs k

/-- A graph replaced. -/
def State.setGraph (s : State) (k : Nat) (g : Graph) : State :=
  { s with vision := { s.vision with graphs := amSet s.vision.graphs k g } }

/-- A graph changed, if it is defined. -/
def State.modGraph (s : State) (k : Nat) (f : Graph → Graph) : State :=
  match s.graph k with
  | none => s
  | some g => s.setGraph k (f g)

/-- Bytes of the frame store in use. -/
def State.frameStoreUsed (s : State) : Nat :=
  s.accession.streams.foldl (fun a e => a + s.streamBytes e.2.desc) 0 +
  s.accession.remaps.foldl (fun a e => a + e.2.bytes) 0 +
  s.vision.graphs.foldl (fun a e => a +
    (match e.2.state, s.stream e.1 with
      | .defined, _ => 0
      | _, none => 0
      | _, some x => graphBytes e.2.set (s.planeSize x.desc).1 (s.planeSize x.desc).2)) 0

/-! ## The flow match (R180) -/

/-- Whether a packet that arrived at a room-wide logical port meets a stream's conditions (R180). -/
def StreamDesc.takes (d : StreamDesc) (port : Nat) (p : Parsed) (data : Bytes) : Bool :=
  p.dstPort = d.udpPort && (d.port = 0xFF || d.port = port) &&
    (!(d.flags.testBit 1) || p.srcAddr = d.source) &&
    (!(d.flags.testBit 2) || (if d.kind = 0 then fldBE data 8 4 else fldB data 4 4) = d.matchId)

/-- The stream that takes a packet: the lowest of those that qualify (R180). -/
def State.takerOf (s : State) (port : Nat) (p : Parsed) (data : Bytes) : Option Nat :=
  (s.accession.streams.find? (fun e => e.2.closing.isNone && e.2.desc.takes port p data)).map (·.1)

/-- Two unit periods of a video or point stream, in ns (R189, R195). -/
def StreamDesc.twoPeriods (d : StreamDesc) : Nat := 2 * 10 ^ 12 / d.rate

/-- The silence period of a stream: the greater of 1 s and four unit periods (R199). -/
def StreamDesc.silence (d : StreamDesc) : Nat :=
  max 1000000000 (if d.kind = 1 then 4 * 10 ^ 9 / d.rate else 4 * 10 ^ 12 / d.rate)

/-- A stream named by the binding of a Concordance grid (R261). -/
def State.boundTo (s : State) (k : Nat) : Option (Nat × Binding) :=
  s.concord.bindings.find? (fun e => e.2.stream == k)

/-- A unit reaches the Concordance unit while fusion runs and its stream is bound with its source kind (R262). -/
def State.handOver (s : State) (source : Nat) (u : Reached) : State :=
  match s.boundTo u.stream with
  | none => s
  | some b =>
    if s.concord.state = .running && b.2.source = source then
      { s with concord := { s.concord with reached := s.concord.reached ++ [u] } }
    else s

end Sys2Proof.Machine
end

