-- ==== Sys2Proof/Machine/Chains.lean ====
section
/-! DEFINITION. Sample streams through their chains: outputs, records, threshold events, and the chain opcodes (R193, R203,
R207 to R223). -/
namespace Sys2Proof.Machine

/-- The chain of a sample stream; none with PRESET 0 (R203). -/
def State.chainOf (s : State) (x : Stream) : Option ChainDef :=
  match presetShape x.desc.preset with
  | some (n, d, _) => some { n := n, d := d, taps := x.taps }
  | none =>
    if 16 ≤ x.desc.preset then
      (amGet s.accession.chains (x.desc.preset - 16)).map (fun c => { n := c.n, d := c.d, taps := x.taps })
    else none

/-- Group delay of a chain in ns, truncated (R210, R212; log 19). -/
def ChainDef.delayNs (c : ChainDef) (rate : Nat) : Nat := c.span * 10 ^ 9 / (2 * rate)

/-- The 64 bytes of a sample record (R193). -/
def SampleRec.bytes (r : SampleRec) (k : Nat) : Bytes :=
  packB 64 ([(0, 8, r.time), (8, 2, k), (10, 1, r.values.length), (11, 1, r.flags), (12, 4, r.index)] ++
    (List.range r.values.length).map (fun i => (32 + 4 * i, 4, (r.values.getD i 0).toNat)))

/-- One input sample: its record time, whether that is implausible, its channels' values and, for fp32 samples, their bits. -/
structure SampleIn where
  time : Nat
  implausible : Bool
  ints : List Int
  floats : List F32
  deriving DecidableEq, Repr

/-- A record written into the ring: it takes the pending flags, and a bound stream's record reaches the Concordance unit
(R193, R209, R262). -/
def State.writeRecord (s : State) (k : Nat) (x : Stream) (delay : Nat) (i : SampleIn) (values : List F32) : State :=
  let r : SampleRec := {
    time := i.time, index := x.outIndex, values := values
    flags := flag x.gap + 2 * flag x.resync + 4 * flag x.overrange + 8 * flag i.implausible }
  let y := { x with
    ring := (r :: x.ring).take (2 ^ x.desc.capacity), outIndex := (x.outIndex + 1) % 2 ^ 32
    gap := false, resync := false, overrange := false, units := satAdd 64 x.units 1 }
  (s.setStream k y).handOver 2 { stream := k, number := x.outIndex, instant := subTime i.time delay
                                 implausible := i.implausible, data := .sample values }

/-! ## Settings that take effect (R222) -/

/-- How far an output index lies behind another, modulo 2^32. -/
def behind (next at_ : Nat) : Nat := (next + 2 ^ 32 - at_ % 2 ^ 32) % 2 ^ 32

/-- Whether a waiting SET_CHANNEL takes effect before output `o`. -/
def PendingSet.due (p : PendingSet) (o : Nat) : Bool := p.late || (match p.at_ with | none => true | some a => a == o)

/-- New settings taken by a channel: a change of mode from 0 starts it in BELOW (R222). -/
def Channel.take (x : Channel) (g : ChannelSet) : Channel :=
  let y := { x with
    settings := { g with load := none }
    e := match g.load with | some e => f32ToF64 e | none => x.e }
  if x.settings.mode = 0 && g.mode ≠ 0 then { y with above := false, reported := false, windowEnd := none, crossing := none }
  else y

/-- The waiting SET_CHANNELs of a channel before output `o`: the channel, and how each that leaves ends. One that waits while
a later one takes effect is discarded (R222). -/
def Channel.applyPending (x : Channel) (o : Nat) : Channel × List (Nat × Ending) :=
  let dueFrom := (List.range x.pending.length).filter (fun i => match x.pending[i]? with | some p => p.due o | none => false)
  match dueFrom.getLast? with
  | none => (x, [])
  | some last =>
    let gone := x.pending.take (last + 1)
    let y := gone.foldl (fun c p => if p.due o then c.take p.settings else c) x
    ({ y with pending := x.pending.drop (last + 1) },
     gone.map (fun p => (p.job, if p.due o then endWith [] (flag p.late) o else refusalNotStarted stDiscarded)))

/-! ## Inputs -/

/-- One channel at an output: the DC stage, the value, the threshold (R207, R213, R216). -/
def Channel.output (x : Channel) (c : ChainDef) (y : F64) (time index : Nat) : Channel × F32 × Option Crossed :=
  let settling := decide (x.outputs < c.settling)
  let r := dcBlock x.settings settling x.e y
  let v := f64ToF32 r.1
  let x := { x with e := r.2, outputs := x.outputs + 1 }
  if settling then (x, v, none)
  else
    let t := x.threshold { time := time, index := index, value := v }
    (t.1, v, t.2)

/-- A threshold event (R218). -/
def crossedEvent (k ch : Nat) (c : Crossed) : EventIn :=
  { code := if c.rise then 0x0828 else 0x0829, subject := k, detail := ch + 256 * flag c.deferred, value := c.at_.value.toNat
    payload := c.at_.index + sat 32 c.suppressed * 2 ^ 32 }

/-- The outputs of every channel of a stream at one output instant: settings, values, record, events (R207, R209, R222). -/
def State.chainOutput (s : State) (k : Nat) (x : Stream) (c : ChainDef) (ys : List F64) (i : SampleIn) : State :=
  let o := x.outIndex
  let set := x.channels.map (fun ch =>
    ({ ch with pending := ch.pending.filter (fun p => s.running p.job) } : Channel).applyPending o)
  let out := (set.zip ys).map (fun p => p.1.1.output c p.2 i.time o)
  let s := s.writeRecord k { x with channels := out.map (·.1) } (c.delayNs x.desc.rate) i (out.map (·.2.1))
  let s := (set.flatMap (·.2)).foldl (fun s e => s.finish e.1 e.2) s
  (List.range out.length).foldl (fun s ch =>
    match (out[ch]?).bind (·.2.2) with
    | none => s
    | some e => { s with desk := s.desk.tell e.at_.time [.event x.desc.eventQueue (crossedEvent k ch e)] }) s

/-- A sample as fp32 for PRESET 0 (R193). -/
def SampleIn.values (i : SampleIn) (format : Nat) : List F32 := if format = 3 then i.floats else i.ints.map f32ofInt

/-- One input sample of a stream (R193, R207). -/
def State.sampleIn (s : State) (k : Nat) (i : SampleIn) : State :=
  match s.stream k with
  | none => s
  | some x =>
    let x := { x with channels := (x.channels.zip (i.ints.zip i.floats)).map (fun p => { p.1 with last := p.2.1, lastF32 := p.2.2 }) }
    match s.chainOf x with
    | none => s.writeRecord k x 0 i (i.values x.desc.format)
    | some c =>
      let r := (x.channels.zip i.ints).map (fun p => p.1.input c (BitVec.ofInt 64 p.2))
      let x := { x with channels := r.map (·.1) }
      let ys := r.filterMap (·.2)
      if ys.length = x.channels.length && !ys.isEmpty then s.chainOutput k x c ys i else s.setStream k x

/-- Samples of a stream in order. -/
def State.samplesIn (s : State) (k : Nat) (l : List SampleIn) : State := l.foldl (fun s i => s.sampleIn k i) s

/-- The chains of a stream restarted empty (R215); `counted` where the restart is one of those that RESTARTS counts. -/
def State.restartChains (s : State) (k : Nat) (counted : Bool) : State :=
  match s.stream k with
  | none => s
  | some x =>
    match s.chainOf x with
    | none => s
    | some c =>
      s.setStream k { x with channels := x.channels.map (fun ch =>
        let ch := ch.restarted c
        if counted then { ch with restarts := satAdd 32 ch.restarts 1 } else ch) }

/-! ## Opcodes -/

/-- Whether a chain is named by an open stream (R220). -/
def State.chainNamed (s : State) (n : Nat) : Bool :=
  s.accession.streams.any (fun e => e.2.desc.kind == 1 && e.2.desc.preset == 16 + n)

/-- SET_CHAIN (0x0824) (R206, R220). -/
def execSetChain (job : Nat) (buf : BufRead) (s : State) : Answer :=
  .next <| s.beginRead job 0x0824 buf fun j b s =>
    let n := fld j.slip 33 1
    let d := fld j.slip 34 1
    let l := fld j.slip 36 2
    let taps : List F32 := (List.range l).map (fun i => BitVec.ofNat 32 (fldB b (4 * i) 4))
    let ok := decide (fld j.slip 32 1 ≤ 15) && decide (3 ≤ n) && decide (n ≤ 5) && [4, 8, 16, 32, 64].contains d &&
      decide (1 ≤ l) && decide (l ≤ 255) && paramsClear j.slip [(32, 3), (36, 2)] && dataLenOf j.slip = 4 * l &&
      taps.all f32finite && taps.reverse = taps
    if !ok then s.finish j.num (refusal stMalformed)
    else if s.chainNamed (fld j.slip 32 1) then s.finish j.num (refusal stNotPermitted)
    else
      ({ s with accession := { s.accession with
          chains := amSet s.accession.chains (fld j.slip 32 1) { n := n, d := d, taps := taps } } } : State).finish j.num (endWith [])

/-- The settings of a SET_CHANNEL (R221). -/
def channelSetOf (j : Slip) : ChannelSet :=
  let f := fld j 35 1
  { dcOn := f.testBit 0, dcFrozen := f.testBit 1, dcLoad := f.testBit 2, atNext := f.testBit 3, k := fld j 36 1, mode := fld j 37 1, holdOff := fld j 38 2
    upper := BitVec.ofNat 32 (fld j 40 4), lower := BitVec.ofNat 32 (fld j 44 4)
    load := if f.testBit 2 then some (BitVec.ofNat 32 (fld j 48 4)) else none }

/-- Whether the settings lie in range (R221). -/
def channelSetOk (j : Slip) : Bool :=
  let g := channelSetOf j
  decide (fld j 35 1 < 16) && decide (4 ≤ g.k) && decide (g.k ≤ 20) && decide (g.mode ≤ 2) && decide (g.holdOff ≤ 60000) &&
    f32finite g.upper && f32finite g.lower && f32lt g.lower g.upper &&
    fld j 56 8 = 0

/-- SET_CHANNEL (0x0825): answered when the settings take effect (R219, R221, R222). -/
def execSetChannel (job : Nat) (s : State) : Answer :=
  .next <| s.begin job 0x0825 fun j s =>
    let k := fld j.slip 32 2
    let ch := fld j.slip 34 1
    match s.stream k with
    | none => s.finish j.num (refusal stNotPermitted)
    | some x =>
      if x.desc.kind ≠ 1 || x.desc.preset = 0 || x.closing.isSome || decide (x.desc.channels ≤ ch) then
        s.finish j.num (refusal stNotPermitted)
      else if !channelSetOk j.slip then s.finish j.num (refusal stMalformed)
      else
        let at_ := fld j.slip 52 4
        let gap := behind x.outIndex at_
        let next := (channelSetOf j.slip).atNext
        let p : PendingSet := {
          job := j.num, at_ := if next then none else some at_, settings := channelSetOf j.slip
          late := !next && decide (1 ≤ gap) && decide (gap ≤ 2 ^ 31) }
        s.setStream k { x with channels := modAt x.channels ch (fun c => { c with pending := c.pending ++ [p] }) }

/-- DC_FLAGS as set (R223). -/
def ChannelSet.flags (g : ChannelSet) : Nat := flag g.dcOn + 2 * flag g.dcFrozen + 4 * flag g.dcLoad + 8 * flag g.atNext

/-- The record of a channel (R223). -/
def Channel.report (x : Channel) : Bytes :=
  packB 32 [(0, 8, x.e.toNat), (8, 1, flag x.above), (9, 1, x.settings.flags), (12, 4, x.rises), (16, 4, x.falls),
    (20, 4, x.suppressed), (24, 4, x.restarts)]

/-- QUERY_CHANNELS (0x0826) (R223). -/
def execQueryChannels (job : Nat) (s : State) : Answer :=
  .next <| s.begin job 0x0826 fun j s =>
    match s.stream (fld j.slip 32 2) with
    | none => s.finish j.num (refusal stNotPermitted)
    | some x =>
      if x.desc.kind ≠ 1 then s.finish j.num (refusal stNotPermitted)
      else if dataLenOf j.slip < 32 * x.desc.channels then s.finish j.num (refusalNotStarted stTooLarge)
      else s.finish j.num (endWith [] 0 0 [(0, x.channels.flatMap Channel.report)])

end Sys2Proof.Machine
end

