-- ==== Sys2Proof/Machine/Graphs.lean ====
section
/-! DEFINITION. The frame sequencers: delivery of frames, frame graphs, rectification tables (R229, R230, R243, R245 to
R250, R252, R253, R255). -/
namespace Sys2Proof.Machine

/-! ## Events -/

/-- An event on a graph's event queue (R252). -/
def State.graphEvent (s : State) (k : Nat) (e : EventIn) : State :=
  match s.graph k with
  | none => s
  | some g => s.event g.set.eventQueue e

/-- FRAME_SKIPPED with its count (R250, R252, R253). -/
def State.skipped (s : State) (k reason number : Nat) : State :=
  (s.modGraph k (fun g =>
    match reason with
    | 0 => { g with busy := satAdd 32 g.busy 1 }
    | 1 => { g with incomplete := satAdd 32 g.incomplete 1 }
    | 2 => { g with noPair := satAdd 32 g.noPair 1 }
    | _ => { g with fault := satAdd 32 g.fault 1 })).graphEvent k
      { code := 0x0701, subject := k, detail := reason, value := number % 2 ^ 32 }

/-! ## Stopping and closing (R181, R248, R283) -/

/-- CLOSE_STREAM completes: no consumer holds a buffer, no graph runs on the stream or pairs with it, no binding names it
(R181, R248, R283). SET_CHANNEL calls that still wait are answered as discarded (R222). -/
def State.endClose (s : State) (k : Nat) : State :=
  match s.stream k with
  | none => s
  | some x =>
    match x.closing with
    | none => s
    | some n =>
      let busy := x.buffers.any (fun b => b ≠ .free) || (s.boundTo k).isSome ||
        s.vision.graphs.any (fun g => (g.1 == k || g.2.set.pair == some k) && g.2.state ≠ .defined)
      if busy then s
      else
        let waiting := x.channels.flatMap (fun c => c.pending.map (·.job))
        let s : State := { s with accession := { s.accession with streams := amDel s.accession.streams k } }
        (waiting.foldl (fun s m => s.finish m (refusalNotStarted stDiscarded)) s).finish n (endWith [])

/-- A stopping graph whose last frame has ended becomes defined: slots released, GRAPH_STOPPED, the STOP_GRAPH job
answered (R246, R248, R252). -/
def State.endGraphStop (s : State) (k : Nat) : State :=
  match s.graph k with
  | none => s
  | some g =>
    if g.state ≠ .stopping || !g.inFlight.isEmpty then s
    else
      let s := s.setGraph k { g with state := .defined, reference := none, lastEntered := none, stopJob := none, streamClosed := false }
      let s := s.dropHolder k (.reference k)
      let s := match g.set.pair with
        | some p => (s.dropHolder p (.pair k))
        | none => s
      let s := s.graphEvent k { code := 0x0704, subject := k, detail := flag g.streamClosed, value := sat 32 g.framesRun }
      let s := match g.stopJob with
        | some n => s.finish n (endWith [] 0 (sat 32 g.framesRun))
        | none => s
      let s := s.endClose k
      match g.set.pair with
      | some p => s.endClose p
      | none => s

/-! ## Frames entering and leaving (R249, R250) -/

/-- The next stage that a graph selects after a stage (R249): 2 FLOW, 3 FEATURES, 4 FUSION, 5 KEYFRAMES, 6 the end. -/
def GraphSet.next (g : GraphSet) (stage : Nat) : Nat :=
  if decide (stage < 2) && g.flow then 2
  else if decide (stage < 3) && g.features then 3
  else if decide (stage < 4) && g.fusion then 4
  else if decide (stage < 5) && g.keyframes then 5
  else 6

/-- A frame in flight of a graph. -/
def Graph.frame (g : Graph) (number : Nat) : Option FrameRun := g.inFlight.find? (fun r => r.number == number)

/-- A frame in flight changed. -/
def Graph.modFrame (g : Graph) (number : Nat) (f : FrameRun → FrameRun) : Graph :=
  { g with inFlight := mapIf (fun r => r.number == number) f g.inFlight }

/-- A frame leaves its graph: what it held returns, and the graph may have stopped (R248, R249 step 6). -/
def State.leaveGraph (s : State) (k number : Nat) : State :=
  let s := s.modGraph k (fun g => { g with inFlight := g.inFlight.filter (fun r => r.number ≠ number) })
  let s := s.dropHolder k (.graph k number)
  let s := match (s.graph k).bind (fun g => g.set.pair) with
    | some p => s.dropHolder p (.graph k number)
    | none => s
  let s := s.endGraphStop k
  let s := s.endClose k
  match (s.graph k).bind (fun g => g.set.pair) with
  | some p => s.endClose p
  | none => s

/-- The levels of a delivered frame's plane (R236). -/
def State.frameLevels (s : State) (k levels : Nat) (f : Frame) : List Level :=
  match s.stream k with
  | none => []
  | some x => levelsOf levels (s.planeSize x.desc).1 (s.planeSize x.desc).2 f.rows

/-- What FEATURES runs over: the finest level of a frame whose size is within 1920 × 1080, its unmapped samples as 0; no rows
where no level is small enough (R249). -/
def State.featuresPlane (s : State) (k levels : Nat) (f : Frame) : List (List Nat) :=
  match (s.frameLevels k levels f).find? (fun l => decide (l.w ≤ 1920) && decide (l.h ≤ 1080)) with
  | none => []
  | some l => l.p.map (fun r => r.map (fun v => if v = unmapped then 0 else v))

/-- A frame in flight as it stands in its stage: the input of FEATURES is formed as the frame reaches it (R249). -/
def State.atStage (s : State) (k : Nat) (g : Graph) (r : FrameRun) : FrameRun :=
  if r.stage ≠ 3 || !r.input.isEmpty then r
  else
    match s.frameIn k r.buffer with
    | none => r
    | some f => { r with input := s.featuresPlane k g.set.levels f }

/-- A frame whose reference frame is skipped, as if that one had never entered: `other` is the reference of the skipped frame,
which it takes while that lies at most 4 frame numbers back; else it is a restart, and leaves FLOW (R250). -/
def FrameRun.rebase (r : FrameRun) (set : GraphSet) (other : Option (Nat × Nat)) : FrameRun :=
  match other with
  | some o =>
    if decide (r.number ≤ o.1 + 4) || decide (2 < r.stage) then { r with other := some o }
    else { r with other := none, restart := true, stage := set.next 2 }
  | none => if r.stage = 2 then { r with other := none, restart := true, stage := set.next 2 } else { r with other := none }

/-- What rests on a frame of temporal flow that is skipped is put on its own reference frame: the graph's reference, and the
frames in flight that have it for theirs (R250). -/
def State.unchain (s : State) (k : Nat) (g : Graph) (r : FrameRun) : State :=
  let rests (q : FrameRun) : Bool := q.other.map (·.1) == some r.number
  let heirs := (g.inFlight.filter rests).map (·.number)
  let s := s.modGraph k (fun g => { g with inFlight := mapIf rests (fun q => s.atStage k g (q.rebase g.set r.other)) g.inFlight })
  let s := match r.other with
    | some o => heirs.foldl (fun s n => s.modBuffer k o.2 (fun b => b.hold (.graph k n))) s
    | none => s
  if g.reference.map (·.1) = some r.number then
    let s := match r.other with
      | some o => s.modBuffer k o.2 (fun b => b.hold (.reference k))
      | none => s
    (s.modBuffer k r.buffer (fun b => b.drop (.reference k))).modGraph k (fun g => { g with reference := r.other })
  else s

/-- A frame that has entered is skipped: it never becomes the reference, and the skip does not change it (R250). -/
def State.skipEntered (s : State) (k number reason : Nat) : State :=
  match s.graph k with
  | none => s
  | some g =>
    match g.frame number with
    | none => s
    | some r =>
      let s := if g.set.stereo then s else s.unchain k g r
      (s.skipped k reason number).leaveGraph k number

/-- Flow runs of a handle in flight (R172, R254). -/
def State.flowRuns (s : State) (h : Nat) : Nat :=
  s.vision.graphs.foldl (fun a g =>
    if g.2.set.flow && g.2.set.flowImage == h then a + (g.2.inFlight.filter (fun r => r.stage == 2)).length else a)
    (s.runsOf h).length

/-- Delivered pair frames that are still held, with their buffers (R243). -/
def State.pairFrames (s : State) (p : Nat) : List (Nat × Frame) :=
  match s.stream p with
  | none => []
  | some x => (List.range x.buffers.length).filterMap (fun b =>
      match x.buffers[b]? with
      | some (Buffer.frame f _) => some (b, f)
      | _ => none)

/-- Distance of two record times. -/
def timeGap (a b : Nat) : Nat := max a b - min a b

/-- The pair frame of an own frame: the nearest in CAPTURE_TIME within PAIR_TOL, of two equally near the earlier (R243). -/
def choosePair (tol capture : Nat) (l : List (Nat × Frame)) : Option (Nat × Frame) :=
  (l.filter (fun c => decide (timeGap c.2.capture capture ≤ tol * 1000))).foldl (fun best c =>
    match best with
    | none => some c
    | some b =>
      if timeGap c.2.capture capture < timeGap b.2.capture capture ||
          (timeGap c.2.capture capture = timeGap b.2.capture capture && decide (c.2.capture < b.2.capture)) then some c
      else some b) none

/-- A pair frame given to an own frame: it is held for it. -/
def State.givePair (s : State) (k p number : Nat) (c : Nat × Frame) : State :=
  (s.modGraph k (fun g => g.modFrame number (fun r => { r with other := some (c.2.number, c.1) }))).modBuffer p c.1
    (fun b => b.hold (.graph k number))

/-- The choice of R243 made for every waiting own frame of a graph for which a later pair frame has been delivered. -/
def State.choosePairs (s : State) (k : Nat) : State :=
  match s.graph k with
  | none => s
  | some g =>
    match g.set.pair with
    | none => s
    | some p =>
      if !g.set.stereo then s
      else
        (g.inFlight.filter (fun r => r.stage == 2 && r.other.isNone)).foldl (fun s r =>
          match s.frameIn k r.buffer with
          | none => s
          | some f =>
            let l := s.pairFrames p
            if l.any (fun c => decide (f.capture + g.set.pairTol * 1000 < c.2.capture)) then
              match choosePair g.set.pairTol f.capture l with
              | some c => s.givePair k p r.number c
              | none => s
            else s) s

/-- A frame enters a running graph (R249 step 1, R250): its reference, whether it is a restart, its first stage. -/
def State.enterGraph (s : State) (k : Nat) (g : Graph) (b : Nat) (f : Frame) : State :=
  let temporal := g.set.flow && !g.set.stereo
  let ref := match g.reference with
    | some r => if !g.restart && decide (f.number ≤ r.1 + 4) && (s.frameIn k r.2).isSome then some r else none
    | none => none
  let restart := temporal && ref.isNone
  let run : FrameRun := {
    number := f.number, buffer := b, restart := restart, deliveredAt := s.now
    stage := g.set.next (if restart then 2 else 1)
    other := if temporal then ref else none }
  let g' := { g with
    inFlight := g.inFlight ++ [s.atStage k g run], lastEntered := some f.number, restart := if temporal then false else g.restart
    reference := if temporal then some (f.number, b) else none
    bandSramFrames := if f.bandSram then satAdd 32 g.bandSramFrames 1 else g.bandSramFrames }
  let s := (s.setGraph k g').modBuffer k b (fun x => x.hold (.graph k f.number))
  let s := if temporal then
      let s := match ref with
        | some r => s.modBuffer k r.2 (fun x => x.hold (.graph k f.number))
        | none => s
      (s.dropHolder k (.reference k)).modBuffer k b (fun x => x.hold (.reference k))
    else s
  s.choosePairs k

/-- The pair frames that waiting own frames of a graph would choose as things stand (R243). -/
def State.pairsWanted (s : State) (k : Nat) (g : Graph) (p : Nat) : List Nat :=
  (g.inFlight.filter (fun r => r.stage == 2 && r.other.isNone)).filterMap (fun r =>
    match s.frameIn k r.buffer with
    | none => none
    | some f => (choosePair g.set.pairTol f.capture (s.pairFrames p)).map (·.1))

/-- The oldest pair frame that a graph alone holds to choose from, with a newer one there, and which no waiting own frame would
choose: released where its stream has no free buffer left for the next frame, so that the frames near an own frame stay as long
as there is room (R190, R196, R243; DESIGN CHOICE, log 172). -/
def State.releasePair (s : State) (k p : Nat) : State :=
  match s.stream p, s.graph k with
  | some x, some g =>
    if x.freeBuffer.isSome then s
    else
      let held := (s.pairFrames p).filter (fun c => match x.buffers[c.1]? with
        | some (Buffer.frame _ hs) => hs.contains (Holder.pair k) && hs.all (fun h => match h with
            | Holder.pair _ => true
            | _ => false)
        | _ => false)
      let wanted := s.pairsWanted k g p
      match (sortBy (fun a b => decide (a.2.number < b.2.number)) held).find? (fun c =>
          !wanted.contains c.1 && held.any (fun d => decide (c.2.number < d.2.number))) with
      | some c => s.modBuffer p c.1 (fun b => b.drop (.pair k))
      | none => s
  | _, _ => s

/-- A delivered frame offered to its stream's graph (R249, R250, R254, R255). -/
def State.offerFrame (s : State) (k b : Nat) (f : Frame) : State :=
  match s.graph k with
  | none => s
  | some g =>
    if g.state ≠ .running || s.reference.state ≠ .normal then s
    else if g.set.depth ≤ g.inFlight.length || (g.set.flow && decide (16 ≤ s.flowRuns g.set.flowImage)) then
      s.skipped k 0 f.number
    else if decide (0 < f.linesMissing) && !g.set.runIncomplete then s.skipped k 1 f.number
    else s.enterGraph k g b f

/-- A frame delivered (R190, R243, R249): graphs that pair with its stream hold it to choose from and make their choices; its
own graph takes or skips it; a buffer that no consumer holds returns at once. -/
def State.deliverFrame (s : State) (k b : Nat) (f : Frame) : State :=
  let pairs := (s.vision.graphs.filter (fun g => g.2.set.pair == some k && g.2.state == .running)).map (·.1)
  let s := s.modBuffer k b (fun _ => .frame f (pairs.map Holder.pair))
  let s := pairs.foldl (fun s g => s.choosePairs g) s
  let s := s.offerFrame k b f
  let s := s.modBuffer k b (fun x => match x with
    | .frame _ [] => .free
    | x => x)
  pairs.foldl (fun s g => s.releasePair g k) s

/-- PAIR_WAIT_TIMEOUT: two frame periods of the pair stream have passed since the own frame's delivery: the choice is made
among the pair frames held, or the frame is skipped (R243, R250). -/
def execPairWaitTimeout (stream number : Nat) (s : State) : Answer :=
  .next <|
    match s.graph stream with
    | none => s
    | some g =>
      match g.frame number, g.set.pair with
      | some r, some p =>
        match s.stream p, s.frameIn stream r.buffer with
        | some px, some f =>
          if !g.set.stereo || r.stage ≠ 2 || r.other.isSome || decide (s.now < r.deliveredAt + px.desc.twoPeriods) then s
          else
            match choosePair g.set.pairTol f.capture (s.pairFrames p) with
            | some c => s.givePair stream p number c
            | none => s.skipEntered stream number 2
        | _, _ => s
      | _, _ => s

/-- FRAME_END: a frame whose stages have all ended leaves its graph (R249 step 6, R253). -/
def execFrameEnd (stream number : Nat) (s : State) : Answer :=
  .next <|
    match s.graph stream with
    | none => s
    | some g =>
      match g.frame number with
      | none => s
      | some r =>
        if r.stage ≠ 6 then s
        else
          let z := match s.stream stream with
            | some x => s.planeSize x.desc
            | none => (0, 0)
          (s.setGraph stream { g with
            framesRun := g.framesRun + 1, run := satAdd 32 g.run 1, lastFrame := number % 2 ^ 32
            levelsBuilt := (levelSizes g.set.levels z.1 z.2).length }).leaveGraph stream number

/-! ## Rectification tables (R229, R230) -/

/-- A table as the data buffer of LOAD_REMAP gives it (R230). -/
def remapFrom (b : Bytes) : Remap :=
  let g := fldB b 12 1
  let nx := fldB b 14 2
  let ny := fldB b 16 2
  let r : Remap := {
    srcW := fldB b 4 2, srcH := fldB b 6 2, outW := fldB b 8 2, outH := fldB b 10 2, g := g
    nodes := (List.range (nx * ny)).map (fun i =>
      if fldB b (64 + 8 * i) 4 = 0x80000000 then none
      else some (toInt 32 (fldB b (64 + 8 * i) 4), toInt 32 (fldB b (68 + 8 * i) 4))) }
  { r with band := bandOf r.needs }

/-- Whether the header of a table holds values of R230. -/
def remapHeaderOk (b : Bytes) (len : Nat) : Bool :=
  let size (o : Nat) : Bool := decide (16 ≤ fldB b o 2) && decide (fldB b o 2 ≤ 8192)
  let g := fldB b 12 1
  decide (64 ≤ len) && fldB b 0 4 = 0x5A524D50 && size 4 && size 6 && size 8 && size 10 && decide (3 ≤ g) && decide (g ≤ 6) &&
    fldB b 13 1 = 0 && fldB b 14 2 = (fldB b 8 2 - 1) / 2 ^ g + 2 && fldB b 16 2 = (fldB b 10 2 - 1) / 2 ^ g + 2 &&
    allZero ((b.drop 18).take 46) && len = 64 + 8 * fldB b 14 2 * fldB b 16 2

/-- Bytes as KiB, rounded up. -/
def kib (n : Nat) : Nat := (n + 1023) / 1024

/-- LOAD_REMAP (0x0705) (R229 to R232). -/
def execLoadRemap (job : Nat) (buf : BufRead) (s : State) : Answer :=
  .next <| s.beginRead job 0x0705 buf fun j b s =>
    let t := fld j.slip 32 4
    if t = 0 || !paramsClear j.slip [(32, 4)] then s.finish j.num (refusal stMalformed)
    else if (amGet s.accession.remaps t).isSome then s.finish j.num (refusal stNotPermitted)
    else if 256 ≤ s.accession.remaps.length then s.finish j.num (refusal stNoResource)
    else if !remapHeaderOk b (dataLenOf j.slip) then s.finish j.num (refusal stMalformed)
    else
      let r := remapFrom b
      if 1024 < r.band then s.finish j.num (refusal stTooLarge)
      else if frameStoreBytes < s.frameStoreUsed + r.bytes then s.finish j.num (refusal stNoResource)
      else
        ({ s with accession := { s.accession with remaps := amSet s.accession.remaps t r } } : State).finish j.num
          (endWith [] 0 (r.band + kib r.ringBytes * 2 ^ 32))

/-- DROP_REMAP (0x0706) (R229). -/
def execDropRemap (job : Nat) (s : State) : Answer :=
  .next <| s.begin job 0x0706 fun j s =>
    let t := fld j.slip 32 4
    if t = 0 || !paramsClear j.slip [(32, 4)] then s.finish j.num (refusal stMalformed)
    else if (amGet s.accession.remaps t).isNone || s.accession.streams.any (fun e => e.2.desc.remap == t) then
      s.finish j.num (refusal stNotPermitted)
    else ({ s with accession := { s.accession with remaps := amDel s.accession.remaps t } } : State).finish j.num (endWith [])

/-! ## Administration of graphs (R245 to R248, R253) -/

/-- PARAMS of DEFINE_GRAPH (R247). -/
def graphSetOf (j : Slip) : GraphSet :=
  let st := fld j 37 1
  { pair := if fld j 34 2 = 0xFFFF then none else some (fld j 34 2), levels := fld j 36 1
    flow := st.testBit 0, stereo := st.testBit 1, features := st.testBit 2, fusion := st.testBit 3, keyframes := st.testBit 4
    loop := st.testBit 5, lrCheck := (fld j 38 1).testBit 0, runIncomplete := (fld j 38 1).testBit 1, depth := fld j 39 1
    flowImage := fld j 40 2, textureMin := fld j 42 2, lrTol := fld j 44 2, keyMaxGap := fld j 46 2, keyMotion := fld j 48 4
    validMin := fld j 52 1, pairTol := fld j 54 2, eventQueue := fld j 56 4 }

/-- Whether the fields of a DEFINE_GRAPH lie in range (R247). -/
def State.graphFieldsOk (s : State) (j : Slip) : Bool :=
  let g := graphSetOf j
  decide (1 ≤ g.levels) && decide (g.levels ≤ 6) && decide (fld j 37 1 < 64) && decide (fld j 38 1 < 4) &&
    decide (1 ≤ g.depth) && decide (g.depth ≤ 4) && decide (1 ≤ g.lrTol) && decide (g.lrTol ≤ 1024) && decide (1 ≤ g.keyMaxGap) &&
    decide (1 ≤ g.keyMotion) && decide (g.validMin ≤ 100) && fld j 53 1 = 0 && decide (1 ≤ g.pairTol) &&
    s.eventQueueOk g.eventQueue && fld j 60 4 = 0

/-- Whether the stages of a graph go together (R247). -/
def GraphSet.stagesOk (g : GraphSet) : Bool :=
  !(g.stereo && (!g.flow || g.pair.isNone)) && !(g.pair.isSome && !g.stereo) &&
    !(g.keyframes && (!(g.flow && g.features) || g.stereo)) && !(g.fusion && !g.features) && !(g.loop && !g.keyframes)

/-- The content of a flow image: a loaded upkeep-class image of one flow stage, two inputs and one output on Stack edges
(R245). -/
def State.flowImage (s : State) (h : Nat) : Option Bytes :=
  match s.image h with
  | none => none
  | some x =>
    let c := x.content
    if x.state = .loaded && !x.serving && imgStages c = 1 && (stageEnt c 0).kind = 3 && (inputEdges c).length = 2 &&
        (outputEdges c).length = 1 && (edgeEnts c).all (fun e => e.medium == 1) then some c else none

/-- Whether the slots of a flow image hold a stream's pyramid and field (R245). -/
def flowFits (c : Bytes) (g : GraphSet) (w h : Nat) : Bool :=
  (inputEdges c).all (fun e => decide (pyramidBytes g.levels w h ≤ e.slotBytes)) &&
    (outputEdges c).all (fun e => decide (fieldBytes w h ≤ e.slotBytes))

/-- Why the pair stream of a graph does not serve: another station, another size, too few buffers (R247). -/
def State.pairBad (s : State) (k : Nat) (x : Stream) (g : GraphSet) : Bool :=
  match g.pair with
  | none => false
  | some p =>
    match s.stream p with
    | none => true
    | some y => y.desc.kind ≠ 0 || y.closing.isSome || stationOf p ≠ stationOf k || s.planeSize y.desc ≠ s.planeSize x.desc ||
        decide (y.desc.buffers < g.depth + 2)

/-- DEFINE_GRAPH (0x0701): the conditions of R247 in their order. -/
def execDefineGraph (job : Nat) (s : State) : Answer :=
  .next <| s.begin job 0x0701 fun j s =>
    let k := fld j.slip 32 2
    let g := graphSetOf j.slip
    match s.stream k with
    | none => s.finish j.num (refusal stNotPermitted)
    | some x =>
      let z := s.planeSize x.desc
      let image := s.flowImage g.flowImage
      s.check j.num (firstFailure [
        (x.desc.kind ≠ 0 || x.closing.isSome || (s.graph k).isSome, refusal stNotPermitted),
        (image.isNone, refusal stNotPermitted),
        (s.pairBad k x g || decide (x.desc.buffers < g.depth + 2), refusal stNotPermitted),
        (!s.graphFieldsOk j.slip || !g.stagesOk, refusal stMalformed),
        (g.flow && !(match image with | some c => flowFits c g z.1 z.2 | none => true), refusal stTooLarge)])
        (fun s => (s.setGraph k { set := g }).finish j.num (endWith []))

/-- START_GRAPH (0x0702) (R246, R248, R251). -/
def execStartGraph (job : Nat) (s : State) : Answer :=
  .next <| s.begin job 0x0702 fun j s =>
    let k := fld j.slip 32 2
    match s.graph k, s.stream k with
    | some g, some x =>
      let z := s.planeSize x.desc
      let n := graphBytes g.set z.1 z.2
      s.check j.num (firstFailure [
        (!paramsClear j.slip [(32, 2)], refusal stMalformed),
        (g.state ≠ .defined || x.closing.isSome, refusal stNotPermitted),
        (decide (frameStoreBytes < s.frameStoreUsed + n), refusal stNoResource)])
        (fun s => (s.setGraph k { g with
          state := .running, restart := true, reference := none, lastEntered := none, framesRun := 0, msum := 0, gap := 0 }).finish
            j.num (endWith [] 0 (kib n)))
    | _, _ => s.finish j.num (refusal (if paramsClear j.slip [(32, 2)] then stNotPermitted else stMalformed))

/-- STOP_GRAPH (0x0703): answered once the last frame in flight has ended (R246, R248). -/
def execStopGraph (job : Nat) (s : State) : Answer :=
  .next <| s.begin job 0x0703 fun j s =>
    let k := fld j.slip 32 2
    match s.graph k with
    | none => s.finish j.num (refusal (if paramsClear j.slip [(32, 2)] then stNotPermitted else stMalformed))
    | some g =>
      if !paramsClear j.slip [(32, 2)] then s.finish j.num (refusal stMalformed)
      else if g.state ≠ .running then s.finish j.num (refusal stNotPermitted)
      else (s.setGraph k { g with state := .stopping, stopJob := some j.num }).endGraphStop k

/-- STATE of a graph (R253). -/
def GraphState.code : GraphState → Nat
  | .defined => 1
  | .running => 2
  | .stopping => 3

/-- The report of a graph (R253). -/
def Graph.report (g : Graph) : Bytes :=
  packB 64 [(0, 1, g.state.code), (1, 1, g.levelsBuilt), (4, 4, g.run), (8, 4, g.busy), (12, 4, g.incomplete), (16, 4, g.noPair),
    (20, 4, g.fault), (24, 4, g.keyframes), (28, 4, g.bandForced), (32, 4, g.bandSramFrames), (36, 4, g.lastFrame),
    (40, 8, g.msum), (48, 4, sat 32 g.gap)]

/-- QUERY_GRAPH (0x0704) (R253). -/
def execQueryGraph (job : Nat) (s : State) : Answer :=
  .next <| s.begin job 0x0704 fun j s =>
    match s.graph (fld j.slip 32 2) with
    | none => s.finish j.num (refusal (if paramsClear j.slip [(32, 2)] then stNotPermitted else stMalformed))
    | some g =>
      if !paramsClear j.slip [(32, 2)] then s.finish j.num (refusal stMalformed)
      else if dataLenOf j.slip < 64 then s.finish j.num (refusalNotStarted stTooLarge)
      else s.finish j.num (endWith [] 0 0 [(0, g.report)])

/-- UNDEFINE_GRAPH (0x0707) (R246, R248). -/
def execUndefineGraph (job : Nat) (s : State) : Answer :=
  .next <| s.begin job 0x0707 fun j s =>
    let k := fld j.slip 32 2
    match s.graph k with
    | none => s.finish j.num (refusal (if paramsClear j.slip [(32, 2)] then stNotPermitted else stMalformed))
    | some g =>
      if !paramsClear j.slip [(32, 2)] then s.finish j.num (refusal stMalformed)
      else if g.state ≠ .defined then s.finish j.num (refusal stNotPermitted)
      else ({ s with vision := { s.vision with graphs := amDel s.vision.graphs k } } : State).finish j.num (endWith [])

end Sys2Proof.Machine
end

