-- ==== Sys2Proof/Machine/Accession.lean ====
section
/-! DEFINITION. The accession stations: opening and closing streams, video, sample and point packets, frames and sets,
their timeouts and reports (R177 to R202, R227, R233 to R235). -/
namespace Sys2Proof.Machine

/-! ## Opening (R177 to R182) -/

/-- A stream descriptor (R182). -/
def streamDescOf (b : Bytes) : StreamDesc :=
  { kind := fldB b 0 1, port := fldB b 1 1, udpPort := fldB b 2 2, timing := fldB b 4 1, flags := fldB b 5 1 % 8
    source := fldBE b 8 16, matchId := fldB b 24 4, latency := fldB b 28 4, rate := fldB b 32 4, payloadType := fldB b 36 1
    sampling := fldB b 37 1, depth := fldB b 38 1, cfa := fldB b 39 1, width := fldB b 40 2, height := fldB b 42 2
    buffers := fldB b 44 1, channels := fldB b 45 1, preset := fldB b 46 1, format := fldB b 47 1, capacity := fldB b 48 4
    eventQueue := fldB b 52 4, remap := fldB b 56 4 }

/-- Bytes and pixels of a pgroup (R187). -/
def pgroup (sampling depth : Nat) : Nat × Nat :=
  if sampling = 3 then (if depth = 8 then (4, 2) else if depth = 10 then (5, 2) else (6, 2))
  else if depth = 8 then (1, 1) else if depth = 10 then (5, 4) else (3, 2)

/-- Whether a number lies in a range. -/
def inRange (lo hi n : Nat) : Bool := decide (lo ≤ n) && decide (n ≤ hi)

/-- The fields of a video descriptor (R182, R229). -/
def State.videoDescOk (s : State) (d : StreamDesc) : Bool :=
  inRange 1000 240000 d.rate && inRange 96 127 d.payloadType && inRange 1 3 d.sampling && [8, 10, 12].contains d.depth &&
    (if d.sampling = 2 then decide (d.cfa ≤ 3) && d.height % 2 = 0 else d.cfa = 0) && inRange 16 8192 d.width &&
    d.width % (pgroup d.sampling d.depth).2 = 0 && inRange 16 8192 d.height && inRange 2 8 d.buffers &&
    d.channels = 0 && d.preset = 0 && d.format = 0 && d.capacity = 0 &&
    (d.remap = 0 || (match s.remapOf d with
      | some r => r.srcW = d.width && r.srcH = d.height
      | none => false))

/-- Whether no field of video alone is set. -/
def StreamDesc.noVideo (d : StreamDesc) : Bool :=
  d.payloadType = 0 && d.sampling = 0 && d.depth = 0 && d.cfa = 0 && d.width = 0 && d.height = 0 && d.remap = 0

/-- Whether a PRESET names a chain (R203). -/
def State.presetOk (s : State) (p : Nat) : Bool :=
  decide (p ≤ 4) || (inRange 0x10 0x1F p && (amGet s.accession.chains (p - 16)).isSome)

/-- The fields of a sample descriptor (R182, R203). -/
def State.sampleDescOk (s : State) (d : StreamDesc) : Bool :=
  d.noVideo && d.buffers = 0 && inRange 1 12800 d.rate && inRange 1 8 d.channels && decide (d.format ≤ 3) &&
    s.presetOk d.preset && inRange 10 20 d.capacity &&
    (d.preset = 0 || (d.format ≠ 3 && [1600, 3200, 6400, 12800].contains d.rate))

/-- The fields of a point descriptor (R182). -/
def StreamDesc.pointOk (d : StreamDesc) : Bool :=
  d.noVideo && inRange 1000 240000 d.rate && inRange 2 8 d.buffers && d.channels = 0 && d.preset = 0 && d.format = 0 &&
    inRange 1 1048576 d.capacity

/-- Whether a descriptor holds values of R182. -/
def State.streamDescOk (s : State) (b : Bytes) : Bool :=
  let d := streamDescOf b
  decide (d.kind ≤ 2) && (decide (d.port ≤ 127) || d.port = 0xFF) && decide (1 ≤ d.udpPort) && decide (d.timing ≤ 1) &&
    decide (d.latency ≤ 100000000) && s.eventQueueOk d.eventQueue &&
    (if d.kind = 0 then s.videoDescOk d else if d.kind = 1 then s.sampleDescOk d else d.pointOk)

/-- Declared pixel rate times 1,000 (R178). -/
def StreamDesc.pixelRate (d : StreamDesc) : Nat := d.width * d.height * d.rate

/-- Whether two descriptors take the same packets by R180. -/
def StreamDesc.same (a b : StreamDesc) : Bool :=
  a.kind = b.kind && a.port = b.port && a.udpPort = b.udpPort && a.flags / 2 = b.flags / 2 && a.source = b.source &&
    a.matchId = b.matchId

/-- Whether a station and the device have room for a further stream of a kind (R177, R178). -/
def State.streamRoom (s : State) (k : Nat) (d : StreamDesc) : Bool :=
  let here := s.stationStreams (stationOf k)
  let count (l : List (Nat × Stream)) : Nat := (l.filter (fun e => e.2.desc.kind == d.kind)).length
  if d.kind = 0 then
    decide (count s.accession.streams < 128) && decide (count here < 16) &&
      decide (here.foldl (fun a e => a + e.2.desc.pixelRate) d.pixelRate ≤ 1300000000 * 1000)
  else if d.kind = 1 then
    decide (here.foldl (fun a e => a + e.2.desc.channels) d.channels ≤ 1024)
  else decide (count here < 32)

/-- A stream as it opens (R190, R205, R215, R221); which Stack vaults it gets is the Curator's choice, and two free values (R25). -/
def State.freshStream (s : State) (d : StreamDesc) : Stream :=
  let taps := match presetShape d.preset with
    | some (_, _, l) => presetTaps l
    | none => (match amGet s.accession.chains (d.preset - 16) with | some c => c.taps | none => [])
  let x : Stream := {
    desc := d, openedAt := s.now, taps := taps, buffers := List.replicate d.buffers .free
    vault := s.freeVault 0, bandVault := s.freeVault 1 }
  let ch : Channel := match s.chainOf x with
    | some c => ({} : Channel).restarted c
    | none => {}
  { x with channels := List.replicate d.channels ch }

/-- OPEN_STREAM (0x0820) (R177 to R182, R203, R229, R234). -/
def execOpenStream (job : Nat) (buf : BufRead) (s : State) : Answer :=
  .next <| s.beginRead job 0x0820 buf fun j b s =>
    let k := fld j.slip 32 2
    let d := streamDescOf b
    let n := s.streamBytes d
    s.check j.num (firstFailure [
      (!paramsClear j.slip [(32, 2)] || decide (1023 < k) || dataLenOf j.slip ≠ 64, refusal stMalformed),
      ((s.stream k).isSome, refusal stNotPermitted),
      (!s.streamDescOk b, refusal stMalformed),
      (d.udpPort = 319 || d.udpPort = 320 || s.accession.streams.any (fun e => e.2.desc.same d), refusal stNotPermitted),
      (!s.streamRoom k d || decide (frameStoreBytes < s.frameStoreUsed + n), refusal stNoResource)])
      (fun s => (s.setStream k (s.freshStream d)).draw.draw.finish j.num (endWith [] 0 (kib n)))

/-- A graph of a stream that closes, or whose pair does, takes no new frame (R248). -/
def State.stopGraphOf (s : State) (k : Nat) : State :=
  (s.vision.graphs.filter (fun g => (g.1 == k || g.2.set.pair == some k) && g.2.state == .running)).foldl
    (fun s g => (s.modGraph g.1 (fun g => { g with state := .stopping, streamClosed := true })).endGraphStop g.1) s

/-- The unit under assembly of a stream discarded: its buffer returns (R181, R201, R202). -/
def Stream.discardUnit (x : Stream) : Stream :=
  { x with frame := none, set := none, buffers := x.buffers.map (fun b => match b with | .filling => .free | b => b) }

/-- CLOSE_STREAM (0x0821): answered once the last consumer has released its buffer (R181). -/
def execCloseStream (job : Nat) (s : State) : Answer :=
  .next <| s.begin job 0x0821 fun j s =>
    let k := fld j.slip 32 2
    if !paramsClear j.slip [(32, 2)] || decide (1023 < k) then s.finish j.num (refusal stMalformed)
    else
      match s.stream k with
      | none => s.finish j.num (refusal stNotPermitted)
      | some x =>
        if x.closing.isSome then s.finish j.num (refusal stNotPermitted)
        else ((s.setStream k { x.discardUnit with closing := some j.num }).stopGraphOf k).endClose k

/-- The report of a stream (R198). -/
def Stream.report (x : Stream) : Bytes :=
  packB 64 [(0, 8, x.packets), (8, 8, x.units), (16, 4, x.incomplete), (20, 4, x.busy), (24, 4, x.late), (28, 4, x.lost),
    (32, 4, x.violations), (36, 4, x.degraded), (40, 8, x.lastArrival), (48, 1, x.lastReason)]

/-- QUERY_STREAM (0x0822) (R181, R198). -/
def execQueryStream (job : Nat) (s : State) : Answer :=
  .next <| s.begin job 0x0822 fun j s =>
    let k := fld j.slip 32 2
    if !paramsClear j.slip [(32, 2)] || decide (1023 < k) then s.finish j.num (refusal stMalformed)
    else
      match s.stream k with
      | none => s.finish j.num (refusal stNotPermitted)
      | some x =>
        if dataLenOf j.slip < 64 then s.finish j.num (refusalNotStarted stTooLarge)
        else s.finish j.num (endWith [] 0 0 [(0, x.report)])

/-! ## Packets (R183, R199, R201) -/

/-- A packet counted for its stream; the first after silence writes STREAM_RESUMED (R198, R199). -/
def State.countPacket (s : State) (k : Nat) (x : Stream) (t : Nat) : State :=
  let quiet := (t - max x.lastArrival x.openedAt) / 1000000
  let s := s.setStream k { x with packets := satAdd 64 x.packets 1, lastArrival := t, silent := false }
  if x.silent then s.streamEvent k { code := 0x0823, subject := k, value := sat 32 quiet } else s

/-- The first frame that waits for the stations at a local logical port, if the stream that takes it is of a kind: counted,
and handled unless the device is in reference service or it is an IP fragment (R200, R201). One that no stream takes any
more, or whose station does not work, is dropped (R548). -/
def State.takePacket (s : State) (l kind : Nat) (k : Nat → Nat → Parsed → Bytes → State → State) : State :=
  match (s.netPort l).stations with
  | [] => s
  | a :: rest =>
    let p := parseFrame a.frame
    let data := p.data a.frame
    let popped := s.modPort l (fun x => { x with stations := rest })
    match s.takerOf a.port p data with
    | none => popped
    | some n =>
      match s.stream n with
      | none => popped
      | some x =>
        if x.desc.kind ≠ kind then s
        else if !s.unitWorks 0x0010 (stationOf n) then popped
        else
          let s := popped.countPacket n x a.time
          if s.reference.state ≠ .normal then s.modStream n (fun x => { x with degraded := satAdd 32 x.degraded 1 })
          else if p.fragment then s.streamViolation n 0x13 p.srcAddr
          else k n a.time p data s

/-! ## Video (R184, R187 to R190) -/

/-- `rtp_capture` of R184, in u64 (R18): the capture time and k. -/
def rtpCapture (a rtp : Nat) : Nat × Nat :=
  let A := (a / 100000) * 9 + ((a % 100000) * 9) / 100000
  let k := (A + 2 ^ 32 - rtp % 2 ^ 32) % 2 ^ 32
  let T := subTime A k
  (((T / 9) * 100000 + ((T % 9) * 100000) / 9) % 2 ^ 64, k)

/-- A row of a video packet (RFC 4175): length, field bit, line, offset, and where its data begins. -/
structure VideoRow where
  length : Nat
  field : Bool
  line : Nat
  offset : Nat
  data : Nat
  deriving DecidableEq, Repr

/-- Row headers from an offset on, until one without continuation; none where they run past the payload. -/
def rowHeaders (b : Bytes) : Nat → Nat → Option (List VideoRow × Nat)
  | 0, _ => none
  | n + 1, o =>
    if b.length < o + 6 then none
    else
      let r : VideoRow := {
        length := fldBE b o 2, field := (fldBE b (o + 2) 2).testBit 15, line := fldBE b (o + 2) 2 % 32768
        offset := fldBE b (o + 4) 2 % 32768, data := 0 }
      if (fldBE b (o + 4) 2).testBit 15 then (rowHeaders b n (o + 6)).map (fun p => (r :: p.1, p.2))
      else some ([r], o + 6)

/-- Rows with the places of their data. -/
def placeRows : Nat → List VideoRow → List VideoRow
  | _, [] => []
  | o, r :: l => { r with data := o } :: placeRows (o + r.length) l

/-- An RTP packet read (RFC 3550, RFC 4175; R187). -/
structure Rtp where
  version : Nat
  marker : Bool
  payloadType : Nat
  seq : Nat
  timestamp : Nat
  ssrc : Nat
  /-- rows, or none where headers or lengths run past the payload -/
  rows : Option (List VideoRow)
  deriving DecidableEq, Repr

/-- Payload bytes of an RTP packet: CSRC entries and a header extension skipped, padding taken off. -/
def rtpBody (b : Bytes) : Nat × Nat :=
  let b0 := fldB b 0 1
  let o := 12 + 4 * (b0 % 16)
  let o := if b0.testBit 4 then o + 4 + 4 * fldBE b (o + 2) 2 else o
  let pad := if b0.testBit 5 then (b.getLastD 0).toNat else 0
  (o, b.length - pad)

/-- An RTP packet of a video stream. -/
def rtpOf (b : Bytes) : Rtp :=
  let z := rtpBody b
  let body := b.take z.2
  let rows := match rowHeaders body (body.length / 6 + 1) (z.1 + 2) with
    | none => none
    | some (rs, o) =>
      let rs := placeRows o rs
      if rs.all (fun r => decide (r.data + r.length ≤ body.length)) then some rs else none
  { version := fldB b 0 1 / 64, marker := (fldB b 1 1).testBit 7, payloadType := fldB b 1 1 % 128
    seq := fldBE b 2 2 + fldBE body z.1 2 * 65536, timestamp := fldBE b 4 4, ssrc := fldBE b 8 4
    rows := if z.2 < z.1 + 2 then none else rows }

/-- Samples of `depth` bits packed most significant bit first (R187). -/
def unpackBits (depth : Nat) (b : Bytes) : List Nat :=
  let v := unbe b
  let n := 8 * b.length / depth
  (List.range n).map (fun i => (v >>> (8 * b.length - (i + 1) * depth)) % 2 ^ depth)

/-- The luma-bearing samples of a row's data, scaled to 12 bits: all of them, or the Y samples of YCbCr-4:2:2 (R187, R227). -/
def rowSamples (d : StreamDesc) (b : Bytes) : List Nat :=
  let l := unpackBits d.depth b
  (if d.sampling = 3 then (List.range (l.length / 2)).map (fun i => natAt l (2 * i + 1)) else l).map (scale12 d.depth)

/-- Pixels that a row carries. -/
def rowPixels (d : StreamDesc) (r : VideoRow) : Nat := r.length / (pgroup d.sampling d.depth).1 * (pgroup d.sampling d.depth).2

/-- The reason for which a packet is dropped before its frame is looked at, in the order of R200's table. -/
def videoFault (d : StreamDesc) (r : Rtp) : Option Nat :=
  let g := pgroup d.sampling d.depth
  if r.version ≠ 2 then some 0x01
  else if r.payloadType ≠ d.payloadType then some 0x02
  else
    match r.rows with
    | none => some 0x07
    | some rows =>
      if rows.any (·.field) then some 0x04
      else if rows.any (fun x => decide (d.height ≤ x.line) || decide (d.width < x.offset + rowPixels d x)) then some 0x05
      else if rows.any (fun x => x.length % g.1 ≠ 0 || x.offset % g.2 ≠ 0) then some 0x06
      else none

/-- A row placed in a frame: the frame, and whether a pixel had been received before (R188, R200). -/
def Frame.place (f : Frame) (d : StreamDesc) (b : Bytes) (r : VideoRow) : Frame × Bool :=
  let new := rowSamples d ((b.drop r.data).take r.length)
  let old := (f.line r.line).getD (List.replicate d.width missing)
  let line := (List.range d.width).map (fun x =>
    if r.offset ≤ x && x < r.offset + new.length then natAt new (x - r.offset) else natAt old x)
  ({ f with lines := amSet f.lines r.line line, top := max f.top r.line },
   (List.range new.length).any (fun i => natAt old (r.offset + i) ≠ missing))

/-- Extended sequence numbers missing between the lowest and the highest of a frame, taken about the first (R190). -/
def seqsLost : List Nat → Nat
  | [] => 0
  | a :: l =>
    let rel := (a :: l).map (fun q => toInt 32 ((q + 2 ^ 32 - a) % 2 ^ 32))
    let lo := rel.foldl min 0
    let hi := rel.foldl max 0
    (hi - lo).toNat + 1 - rel.eraseDups.length

/-- Whether an RTP timestamp or SET belongs to a unit already closed (R189, R195; log 20). -/
def Stream.isClosed (x : Stream) (t : Nat) : Bool :=
  match x.lastClosed with
  | none => false
  | some c => decide (toInt 32 ((t + 2 ^ 32 - c) % 2 ^ 32) ≤ 0)

/-- The newest closed unit after one closes. -/
def Stream.closedAt (x : Stream) (t : Nat) : Option Nat := if x.isClosed t then x.lastClosed else some t

/-- The 64-byte frame descriptor of a delivered frame (R190). -/
def Frame.descriptor (f : Frame) (k : Nat) : Bytes :=
  packB 64 [(0, 8, f.capture), (8, 8, f.arrival), (16, 8, f.closed), (24, 2, k), (26, 2, f.linesMissing), (28, 4, f.number),
    (32, 4, f.rtp), (36, 4, f.ssrc), (40, 4, f.lost),
    (44, 2, flag (f.linesMissing ≠ 0) + 2 * flag f.implausible + 4 * flag f.sourceChanged), (46, 2, f.buffer.getD 0)]

/-- The 64-byte set descriptor of a delivered set (R195). -/
def PointSet.descriptor (p : PointSet) (k : Nat) : Bytes :=
  packB 64 [(0, 8, p.capture), (8, 8, p.arrival), (16, 8, p.closed), (24, 2, k), (26, 2, p.missing), (28, 4, p.number),
    (32, 4, p.set), (36, 4, p.sourceId),
    (44, 2, flag (p.missing ≠ 0) + 2 * flag p.implausible + 8 * flag p.overflow), (46, 2, p.buffer.getD 0)]

/-- Rows forced count in the graph's report (R233, R253). -/
def State.countForced (s : State) (k n : Nat) : State :=
  if n = 0 then s else s.modGraph k (fun g => { g with bandForced := satAdd 32 g.bandForced n })

/-- A frame closes: its plane is completed, and it is delivered or dropped (R189, R196, R233). -/
def State.closeFrame (s : State) (k : Nat) : State :=
  match s.stream k with
  | none => s
  | some x =>
    match x.frame with
    | none => s
    | some f =>
      let miss := ((List.range x.desc.height).filter (fun y => !f.whole y)).length
      let lost := seqsLost f.seqs
      let f := { closePlane (s.remapOf x.desc) x.desc f with linesMissing := miss, lost := lost, closed := s.now }
      let x := { x with
        frame := none, closedUnits := x.closedUnits + 1, lastClosed := x.closedAt f.rtp, lost := satAdd 32 x.lost lost
        incomplete := if f.buffer.isSome && decide (0 < miss) then satAdd 32 x.incomplete 1 else x.incomplete }
      match f.buffer with
      | none => s.setStream k x
      | some b =>
        if 0 < miss then
          let s := (s.setStream k x).streamViolation k 0x0A 0
          if x.desc.flags.testBit 0 then
            (s.modBuffer k b (fun _ => .free)).streamEvent k { code := 0x0821, subject := k, detail := 1, value := f.number % 2 ^ 32 }
          else (s.modStream k (fun x => { x with units := satAdd 64 x.units 1 })).deliverFrame k b f
        else (s.setStream k { x with units := satAdd 64 x.units 1 }).deliverFrame k b f

/-- Bytes of the SRAM pool that a stream's fall-back band takes (R235). -/
def StreamDesc.poolBytes (d : StreamDesc) : Nat := sramBandRows d.width * planePitch d.width

/-- Whether the station's pool of 256 KiB has room for a further fall-back band (R235). -/
def State.poolRoom (s : State) (k : Nat) (d : StreamDesc) : Bool :=
  decide ((s.stationStreams (stationOf k)).foldl (fun a e =>
    if e.2.sramBand && e.1 ≠ k then a + e.2.desc.poolBytes else a) d.poolBytes ≤ 262144)

/-- BAND_FALLBACK on the stream's graph (R252). -/
def State.bandEvent (s : State) (k detail number : Nat) : State :=
  s.graphEvent k { code := 0x0703, subject := k, detail := detail, value := number % 2 ^ 32 }

/-- A stream's band as a frame opens: back to the ring once a fresh one has been granted, or into the pool once it has
room (R235). -/
def State.openBand (s : State) (k : Nat) (x : Stream) : State :=
  if x.ringGranted && (x.sramBand || x.poolWait) then
    (s.setStream k { x with sramBand := false, poolWait := false, ringGranted := false }).bandEvent k 1 x.closedUnits
  else if x.poolWait && s.poolRoom k x.desc then
    (s.setStream k { x with sramBand := true, poolWait := false }).bandEvent k 0 x.closedUnits
  else s

/-- A frame opens at its first packet: its buffer, its capture time; with no free buffer, or no band, it is dropped whole
(R184, R186, R189, R190, R196, R235). -/
def State.openFrame (s : State) (k : Nat) (t : Nat) (r : Rtp) (source : Nat) : State :=
  match s.stream k with
  | none => s
  | some x0 =>
    let s := s.openBand k x0
    let x := (s.stream k).getD x0
    let cap := if x.desc.timing = 1 then rtpCapture t r.timestamp else (subTime t x.desc.latency, 0)
    let bad := decide (180000 < cap.2)
    let buffer := if x.poolWait then none else x.freeBuffer
    let f : Frame := {
      buffer := buffer, number := x.closedUnits, rtp := r.timestamp, ssrc := r.ssrc, arrival := t, capture := cap.1
      implausible := bad, sourceChanged := x.sourceChanged, bandSram := x.sramBand }
    let y := { x with frame := some f, sourceChanged := false }
    let s := match buffer with
      | some b => s.setStream k { y with buffers := setAt y.buffers b .filling }
      | none => (s.setStream k { y with busy := satAdd 32 y.busy 1 }).streamEvent k
          { code := 0x0821, subject := k, detail := 0, value := x.closedUnits % 2 ^ 32 }
    if bad then s.streamViolation k 0x12 source else s

/-- The rows of a packet taken into the open frame, forcing and producing output rows (R188, R233). -/
def State.fillFrame (s : State) (k t : Nat) (r : Rtp) (b : Bytes) (source : Nat) : State :=
  match s.stream k with
  | none => s
  | some x =>
    match x.frame with
    | none => s
    | some f =>
      let f := { f with seqs := r.seq :: f.seqs, marker := if r.marker && f.marker.isNone then some t else f.marker }
      let remap := s.remapOf x.desc
      let step (a : Frame × Bool × Nat) (row : VideoRow) : Frame × Bool × Nat :=
        let g := match remap with
          | some m => produceForced m x.desc row.line a.1
          | none => a.1
        let p := g.place x.desc b row
        let h := match remap with
          | some m => produceReady m x.desc p.1
          | none => p.1
        (h, a.2.1 || p.2, a.2.2 + (g.rows.length - a.1.rows.length))
      let z := (r.rows.getD []).foldl step (f, false, 0)
      let s := (s.setStream k { x with frame := some z.1 }).countForced k (if f.buffer.isSome then z.2.2 else 0)
      if z.2.1 then s.streamViolation k 0x09 source else s

/-- A change of SSRC on a stream without MATCH_ID: the open frame closes, and the next one carries SOURCE_CHANGED (R200). -/
def State.checkSsrc (s : State) (k : Nat) (r : Rtp) (source : Nat) : State :=
  match s.stream k with
  | none => s
  | some x =>
    match x.ssrc with
    | none => s.setStream k { x with ssrc := some r.ssrc }
    | some q =>
      if q = r.ssrc || x.desc.flags.testBit 2 then s
      else
        (((s.closeFrame k).modStream k (fun x => { x with ssrc := some r.ssrc, sourceChanged := true, lastClosed := none }))
          ).streamViolation k 0x03 source

/-- A packet that comes too late (R189, R192). -/
def State.latePacket (s : State) (k reason source : Nat) : State :=
  (s.modStream k (fun x => { x with late := satAdd 32 x.late 1 })).streamViolation k reason source

/-- A video packet of its stream (R187 to R189). -/
def State.videoIn (s : State) (k t : Nat) (p : Parsed) (b : Bytes) : State :=
  match s.stream k with
  | none => s
  | some x =>
    let r := rtpOf b
    match videoFault x.desc r with
    | some reason => s.streamViolation k reason p.srcAddr
    | none =>
      let s := s.checkSsrc k r p.srcAddr
      let x := (s.stream k).getD x
      let open_ := x.frame.map (·.rtp) = some r.timestamp
      if open_ then s.fillFrame k t r b p.srcAddr
      else if x.isClosed r.timestamp then s.latePacket k 0x08 p.srcAddr
      else ((s.closeFrame k).openFrame k t r p.srcAddr).fillFrame k t r b p.srcAddr

/-- VIDEO_PACKET: the first frame that waits for the stations at a local logical port is a packet of a video stream. -/
def execVideoPacket (port : Nat) (s : State) : Answer :=
  .next (s.takePacket port 0 (fun k t p b s => s.videoIn k t p b))

/-- FRAME_MARKER_GRACE: 50 µs have passed since the marker packet of the open frame (R189). -/
def execFrameMarkerGrace (stream : Nat) (s : State) : Answer :=
  .next <|
    match (s.stream stream).bind (·.frame) with
    | none => s
    | some f =>
      match f.marker with
      | none => s
      | some t => if s.now < t + 50000 then s else s.closeFrame stream

/-- FRAME_PERIOD_TIMEOUT: two frame periods have passed since the open frame's arrival time (R189). -/
def execFramePeriodTimeout (stream : Nat) (s : State) : Answer :=
  .next <|
    match s.stream stream with
    | none => s
    | some x =>
      match x.frame with
      | none => s
      | some f => if s.now < f.arrival + x.desc.twoPeriods then s else s.closeFrame stream

/-! ## Samples (R184, R191, R192) -/

/-- Bytes of a sample by SAMPLE_FORMAT (R191). -/
def sampleBytes (format : Nat) : Nat := natAt [2, 3, 4, 4] format

/-- The reason for which a sample packet is dropped before its index is looked at (R191, R200). -/
def sampleFault (d : StreamDesc) (b : Bytes) : Option Nat :=
  let c := fldB b 24 2
  let n := fldB b 26 2
  if b.length < 32 || 8992 < b.length then some 0x0D
  else if fldB b 0 2 ≠ 0x5A53 || fldB b 2 1 ≠ 1 || fldB b 3 1 ≠ 1 || decide (4 ≤ fldB b 29 1) || fldB b 30 2 ≠ 0 then some 0x0B
  else if c ≠ d.channels || fldB b 28 1 ≠ d.format then some 0x0C
  else if n = 0 || 1024 < n || b.length ≠ 32 + c * n * sampleBytes d.format then some 0x0D
  else if d.timing = 1 && fldB b 16 8 = 0 then some 0x0F
  else none

/-- Record time of sample `i` of a packet of `n`, counted from its first; samples of a gap have `i` below 0 (R184, R192). -/
def sampleTime (d : StreamDesc) (arrival sensor n : Nat) (i : Int) : Nat :=
  let step (m : Int) : Int := (m * 10 ^ 9).tdiv d.rate
  if d.timing = 1 then ((sensor : Int) + step i).toNat % 2 ^ 64
  else subTime (subTime arrival d.latency) (step ((n : Int) - 1 - i)).toNat

/-- The samples of a packet. -/
def samplesOf (d : StreamDesc) (b : Bytes) (arrival : Nat) (implausible : Bool) : List SampleIn :=
  let w := sampleBytes d.format
  let n := fldB b 26 2
  (List.range n).map (fun i =>
    let raw (c : Nat) : Nat := fldB b (32 + (i * d.channels + c) * w) w
    { time := sampleTime d arrival (fldB b 16 8) n i, implausible := implausible
      ints := (List.range d.channels).map (fun c => toInt (8 * w) (raw c))
      floats := (List.range d.channels).map (fun c => BitVec.ofNat 32 (raw c)) })

/-- The samples repeated into a gap of `g` (R192). -/
def gapSamples (x : Stream) (b : Bytes) (arrival g : Nat) (implausible : Bool) : List SampleIn :=
  (List.range g).map (fun (j : Nat) =>
    { time := sampleTime x.desc arrival (fldB b 16 8) (fldB b 26 2) ((j : Int) - g), implausible := implausible
      ints := x.channels.map (·.last), floats := x.channels.map (·.lastF32) })

/-- A sample packet of its stream (R184, R186, R192). -/
def State.sampleIn' (s : State) (k t : Nat) (p : Parsed) (b : Bytes) : State :=
  match s.stream k with
  | none => s
  | some x =>
    match sampleFault x.desc b with
    | some reason => s.streamViolation k reason p.srcAddr
    | none =>
      let first := fldB b 8 8
      let resync := (fldB b 29 1).testBit 1
      let sensor := fldB b 16 8
      let bad := x.desc.timing = 1 && (decide (sensor + 2000000000 < t) || decide (t < sensor))
      let late : Bool := match x.expected with
        | some e => decide (first < e) && !resync
        | none => false
      if late then s.latePacket k 0x0E p.srcAddr
      else
        let s := if bad then s.streamViolation k 0x12 p.srcAddr else s
        let s := s.modStream k (fun x => { x with
          expected := some (first + fldB b 26 2), overrange := x.overrange || (fldB b 29 1).testBit 0 })
        let flags (g r : Bool) (s : State) : State := s.modStream k (fun x => { x with gap := x.gap || g, resync := x.resync || r })
        let own := samplesOf x.desc b t bad
        match x.expected with
        | none => ((flags false true s).restartChains k false).samplesIn k own
        | some e =>
          if resync then ((flags false true s).restartChains k true).samplesIn k own
          else if first = e then s.samplesIn k own
          else if first - e ≤ 16 then (flags true false s).samplesIn k (gapSamples x b t (first - e) bad ++ own)
          else ((flags true true s).restartChains k true).samplesIn k own

/-- SAMPLE_PACKET: the first frame that waits for the stations at a local logical port is a packet of a sample stream. -/
def execSamplePacket (port : Nat) (s : State) : Answer :=
  .next (s.takePacket port 1 (fun k t p b s => s.sampleIn' k t p b))

/-! ## Point sets (R194, R195) -/

/-- Bytes of a point by POINT_FORMAT (R194). -/
def pointBytes (format : Nat) : Nat := if format = 0 then 8 else 16

/-- The reason for which a point packet is dropped before its set is looked at (R194, R200). -/
def pointFault (d : StreamDesc) (b : Bytes) : Option Nat :=
  if b.length < 32 || 8992 < b.length then some 0x0D
  else if fldB b 0 2 ≠ 0x5A53 || fldB b 2 1 ≠ 1 || fldB b 3 1 ≠ 2 || !allZero ((b.drop 27).take 5) || 1 < fldB b 26 1 then some 0x0B
  else if fldB b 24 2 = 0 || b.length ≠ 32 + fldB b 24 2 * pointBytes (fldB b 26 1) then some 0x0D
  else if d.timing = 1 && fldB b 8 8 = 0 then some 0x0F
  else if fldB b 22 2 = 0 || 4096 < fldB b 22 2 || fldB b 22 2 ≤ fldB b 20 2 then some 0x10
  else none

/-- Points of a part. -/
def PointPart.points (p : PointPart) : Nat := p.data.length / pointBytes p.format

/-- Parts in their order, a part received again put in place of the first (R195). -/
def insertPart (a : PointPart) : List PointPart → List PointPart
  | [] => [a]
  | b :: l => if a.part < b.part then a :: b :: l else if a.part = b.part then a :: l else b :: insertPart a l

/-- The parts of a set that have arrived, those dropped as beyond CAPACITY with them (R195). -/
def PointSet.arrived (p : PointSet) : List Nat := (p.got.map (·.part) ++ p.dropped).eraseDups

/-- A set closes: delivered or dropped (R195, R196). The buffer of a delivered set is held while the Concordance unit is to
take it. -/
def State.closeSet (s : State) (k : Nat) : State :=
  match s.stream k with
  | none => s
  | some x =>
    match x.set with
    | none => s
    | some p =>
      let miss := p.parts - p.arrived.length
      let p := { p with missing := miss, closed := s.now }
      let x := { x with
        set := none, closedUnits := x.closedUnits + 1, lastClosed := x.closedAt p.set
        incomplete := if p.buffer.isSome && decide (0 < miss) then satAdd 32 x.incomplete 1 else x.incomplete }
      match p.buffer with
      | none => s.setStream k x
      | some b =>
        let deliver (s : State) : State :=
          let s := s.modStream k (fun x => { x with units := satAdd 64 x.units 1 })
          let n := s.concord.reached.length
          let s := s.handOver 1 { stream := k, number := p.number, instant := p.capture, implausible := p.implausible
                                  data := .set (p.got.map (fun q => (q.format, q.data))) }
          s.modBuffer k b (fun _ => if n < s.concord.reached.length then .set p [.fusion] else .free)
        if 0 < miss then
          let s := (s.setStream k x).streamViolation k 0x0A 0
          if x.desc.flags.testBit 0 then
            (s.modBuffer k b (fun _ => .free)).streamEvent k { code := 0x0821, subject := k, detail := 1, value := p.number % 2 ^ 32 }
          else deliver s
        else deliver (s.setStream k x)

/-- A set opens at its first part (R184, R195, R196). -/
def State.openSet (s : State) (k t : Nat) (b : Bytes) : State :=
  match s.stream k with
  | none => s
  | some x =>
    let p : PointSet := {
      buffer := x.freeBuffer, number := x.closedUnits, set := fldB b 16 4, parts := fldB b 22 2, sourceId := fldB b 4 4
      arrival := t, capture := if x.desc.timing = 1 then fldB b 8 8 else subTime t x.desc.latency, implausible := false }
    let y := { x with set := some p }
    match x.freeBuffer with
    | some i => s.setStream k { y with buffers := setAt y.buffers i .filling }
    | none => (s.setStream k { y with busy := satAdd 32 y.busy 1 }).streamEvent k
        { code := 0x0821, subject := k, detail := 0, value := x.closedUnits % 2 ^ 32 }

/-- A part taken into the open set, which closes once all its parts have arrived (R195, R200). -/
def State.fillSet (s : State) (k : Nat) (b : Bytes) (source : Nat) : State :=
  match s.stream k with
  | none => s
  | some x =>
    match x.set with
    | none => s
    | some p =>
      let part : PointPart := { part := fldB b 20 2, format := fldB b 26 1, data := b.drop 32 }
      let others := (p.got.filter (fun q => q.part ≠ part.part)).foldl (fun a q => a + q.points) 0
      if fldB b 22 2 ≠ p.parts then s.streamViolation k 0x10 source
      else
        let beyond := decide (x.desc.capacity < others + part.points)
        let q : PointSet :=
          if beyond then { p with overflow := true, dropped := p.dropped ++ [part.part] }
          else { p with got := insertPart part p.got }
        let again := p.got.any (fun r => r.part == part.part)
        let s := s.setStream k { x with set := some q }
        let s := if beyond then s.streamViolation k 0x11 source
          else if again then s.streamViolation k 0x09 source else s
        if q.arrived.length = q.parts then s.closeSet k else s

/-- A point packet of its stream (R194, R195): a part of a later set closes the open one. -/
def State.pointIn (s : State) (k t : Nat) (p : Parsed) (b : Bytes) : State :=
  match s.stream k with
  | none => s
  | some x =>
    match pointFault x.desc b with
    | some reason => s.streamViolation k reason p.srcAddr
    | none =>
      let n := fldB b 16 4
      match x.set with
      | some q =>
        if q.set = n then s.fillSet k b p.srcAddr
        else if x.isClosed n || decide (toInt 32 ((n + 2 ^ 32 - q.set) % 2 ^ 32) ≤ 0) then s.latePacket k 0x08 p.srcAddr
        else ((s.closeSet k).openSet k t b).fillSet k b p.srcAddr
      | none =>
        if x.isClosed n then s.latePacket k 0x08 p.srcAddr else (s.openSet k t b).fillSet k b p.srcAddr

/-- POINT_PACKET: the first frame that waits for the stations at a local logical port is a packet of a point stream. -/
def execPointPacket (port : Nat) (s : State) : Answer :=
  .next (s.takePacket port 2 (fun k t p b s => s.pointIn k t p b))

/-- POINT_SET_TIMEOUT: two set periods have passed since the open set's arrival time (R195). -/
def execPointSetTimeout (stream : Nat) (s : State) : Answer :=
  .next <|
    match s.stream stream with
    | none => s
    | some x =>
      match x.set with
      | none => s
      | some p => if s.now < p.arrival + x.desc.twoPeriods then s else s.closeSet stream

/-! ## Release and silence -/

/-- FRAME_BUFFER_RELEASE: the Concordance unit has taken a set and releases its buffer (R190, R195). Graphs release the
buffers they hold as their frames end. -/
def execFrameBufferRelease (stream buffer : Nat) (s : State) : Answer :=
  .next <|
    match (s.stream stream).bind (fun x => x.buffers[buffer]?) with
    | some (.set p _) =>
      if s.concord.reached.any (fun u => u.stream == stream && u.number == p.number) then s
      else (s.modBuffer stream buffer (fun b => b.drop .fusion)).endClose stream
    | _ => s

/-- STREAM_SILENT: no packet has arrived for the silence period (R199). -/
def execStreamSilent (stream : Nat) (s : State) : Answer :=
  .next <|
    match s.stream stream with
    | none => s
    | some x =>
      if x.silent || x.closing.isSome || decide (s.now < max x.lastArrival x.openedAt + x.desc.silence) then s
      else (s.setStream stream { x with silent := true }).streamEvent stream { code := 0x0822, subject := stream }

end Sys2Proof.Machine
end

