-- ==== Sys2Proof/Machine/Bell.lean ====
section
/-! DEFINITION. The Bell: raises, arbitration, the Bell ports of the librarian cores, the storm guard, MSI-X delivery,
and the librarian cores' watchdogs (R493 to R510, R583, R584). -/
namespace Sys2Proof.Machine

/-! ## Arbitration (R498, R500, R503) -/

/-- The effective threshold of a core (R500); none while the innermost entry is in exit and nothing signals the core. -/
def BellCore.effective (c : BellCore) : Option Nat :=
  match c.stack with
  | [] => some c.threshold
  | e :: _ =>
    if e.exit then none
    else if e.entry then some (max c.threshold e.priority)
    else some c.threshold

/-- Core `n` of the Bell. -/
def Bell.core (b : Bell) (n : Nat) : BellCore := b.cores.getD n {}

/-- A core changed. -/
def Bell.modCore (b : Bell) (n : Nat) (f : BellCore → BellCore) : Bell := { b with cores := modAt b.cores n f }

/-- Whether a priority passes at a target (R498, R499). -/
def Bell.passes (b : Bell) (p : Nat) : BellTarget → Bool
  | .vector _ => p ≠ 0
  | .core n => match (b.core n).effective with
    | none => false
    | some t => decide (t < p)

/-- Whether a target sleeps (R503). -/
def Bell.sleeps (b : Bell) : BellTarget → Bool
  | .vector _ => !b.vectorsAwake
  | .core n => (b.core n).sleeping

/-- Where a source is delivered now: its target, or FALLBACK once it has moved there (R503). -/
def BellSource.place (x : BellSource) : BellTarget := if x.moved then .core x.fallback else x.target

/-- The moves of one arbitration: a source with WAKE 0 that is deliverable at a sleeping target goes to FALLBACK, which
is woken if it sleeps, and counts in BELL_FALLBACK (R503). -/
def Bell.settle (b : Bell) : Bell :=
  b.sources.foldl (fun b e =>
    let x := e.2
    if x.pending && !x.moved && !x.wake && b.sleeps x.target && b.passes x.priority x.target then
      let b := b.setSource e.1 { x with moved := true }
      let b := b.modCore x.fallback (fun c => { c with sleeping := false })
      { b with fallbacks := satAdd 32 b.fallbacks 1 }
    else b) b

/-- Sources pending and deliverable at a target that meets `p`, with their priorities. -/
def Bell.candidates (b : Bell) (p : BellTarget → Bool) : List (Nat × Nat) :=
  (b.sources.filter (fun e => e.2.pending && p e.2.place && e.2.priority ≠ 0 && b.passes e.2.priority e.2.place)).map
    (fun e => (e.1, e.2.priority))

/-- The source of highest priority, and among equal priorities the lowest number (R498). -/
def pickHighest : List (Nat × Nat) → Option (Nat × Nat)
  | [] => none
  | a :: l =>
    match pickHighest l with
    | none => some a
    | some b => if b.2 > a.2 then some b else some a

/-- The source a core would claim (R498). -/
def Bell.pickCore (b : Bell) (n : Nat) : Option (Nat × Nat) := pickHighest (b.candidates (fun t => t = .core n))

/-- The Bell changed. -/
def State.modBell (s : State) (f : Bell → Bell) : State := { s with desk := { s.desk with bell := f s.desk.bell } }

/-! ## Raises (R493 to R496) -/

/-- The unit and firmware sources that a raise message may name (R493, R494). -/
def raisable (n : Nat) : Bool :=
  (1 ≤ n && n ≤ 6) || (16 ≤ n && n ≤ 25) || (32 ≤ n && n ≤ 38) || (40 ≤ n && n ≤ 43) || (64 ≤ n && n ≤ 81) ||
    (96 ≤ n && n ≤ 174) || (512 ≤ n && n ≤ 1023)

/-- RAISE_MESSAGE: a unit's or firmware's raise message (R493, R494, R505). -/
def execRaiseMessage (source : Nat) (s : State) : Answer :=
  .next (if raisable source then s.tell [.raise source] else s)

/-- A raise word (R496, R115). -/
def State.raiseWord (s : State) (word : Nat) : State :=
  let n := bitsOf word 11 0
  if bitsOf word 31 12 = 0 && decide (1024 ≤ n) && decide (n ≤ 2047) then s.tell [.raise n]
  else (s.modBell (fun b => { b with raiseBad := satAdd 32 b.raiseBad 1 })).tell [mistake 0x0018 0x12]

/-- BELL_RAISE: a host write of the raise word (R496, R115). -/
def execBellRaise (word : BitVec 32) (s : State) : Answer :=
  .next (s.pcieAccess (.bellRaise word) (fun s => s.raiseWord word.toNat))

/-! ## The storm guard (R505, R506) -/

/-- A stormed source released (R505): pending once if a message was dropped; its next window opens with its next
message. -/
def State.releaseSource (s : State) (n how : Nat) : State :=
  let x := s.desk.bell.source n
  if !x.stormed then s
  else
    (s.modBell (fun b => b.setSource n { x with
      stormed := false, dropped := 0, pending := decide (0 < x.dropped), pendingAt := s.now, openAt := none, count := 0
      releasedAt := some s.now })).event 2
      { code := 0x0861, subject := n, detail := how, value := sat 32 x.dropped }

/-- A source's window has lasted STORM_WINDOW_US (R505). -/
def BellSource.windowOver (x : BellSource) (now : Nat) : Bool :=
  match x.openAt with
  | none => false
  | some t => decide (t + x.windowUs * 1000 ≤ now)

/-- STORM_WINDOW_END: a source's window ends, STORM_WINDOW_US after it opened (R505). -/
def execStormWindowEnd (source : Nat) (s : State) : Answer :=
  .next <|
    let x := s.desk.bell.source source
    if x.windowOver s.now then s.modBell (fun b => b.setSource source { x with openAt := none, count := 0 }) else s

/-- STORM_HOLD_EXPIRY: STORM_HOLD_MS after storming, where it is not 0 (R505). -/
def execStormHoldExpiry (source : Nat) (s : State) : Answer :=
  .next <|
    let x := s.desk.bell.source source
    if x.holdMs ≠ 0 && decide (x.stormedAt + x.holdMs * 1000000 ≤ s.now) then s.releaseSource source 0 else s

/-- A write of a BELL_STORMED word: each source of a bit set is released; the host clears only bits of sources 1,024 to 4,095
(R505, R583). -/
def State.clearStormed (s : State) (firmware : Bool) (word value : Nat) : State :=
  (maskList 32 value).foldl (fun s i =>
    let n := 32 * word + i
    if n < 4096 && (firmware || decide (1024 ≤ n)) then s.releaseSource n 1 else s) s

/-- BELL_STORMED_CLEAR: a write of BELL_STORMED word `word`, from the host or from firmware (R505, R583). -/
def execBellStormedClear (firmware : Bool) (word : Nat) (value : BitVec 32) (s : State) : Answer :=
  .next <|
    if firmware then s.clearStormed true word value.toNat
    else s.pcieAccess (.bellStormedClear firmware word value) (fun s => s.clearStormed false word value.toNat)

/-- One halving of an effective limit: never below a quarter of the set value nor below BELL_STORM_FLOOR; 0 stands for
no guard (R506). -/
def halved (x : BellSource) (floor : Nat) : Nat :=
  if x.stormLimit = 0 then 0 else min x.effLimit (max (x.effLimit / 2) (max (x.stormLimit / 4) floor))

/-- One doubling back towards the set value (R506). -/
def doubled (x : BellSource) : Nat := if x.stormLimit = 0 then 0 else min x.stormLimit (2 * x.effLimit)

/-- Whether BELL_STORM_FLOOR holds a source's limit above a quarter of its set value (R506). -/
def floorHolds (x : BellSource) (floor : Nat) : Bool := x.stormLimit ≠ 0 && decide (max (x.effLimit / 2) (x.stormLimit / 4) < floor)

/-- The number under which a target's adaptation is kept (R506). -/
def BellTarget.code : BellTarget → Nat
  | .core n => n
  | .vector v => 8 + v

/-- A target's oldest deliverable source has waited more than 1 ms (R506). -/
def Bell.overdue (b : Bell) (t : BellTarget) (now : Nat) : Bool :=
  (b.candidates (fun p => p = t)).any (fun e => decide ((b.source e.1).pendingAt + 1000000 < now))

/-- The effective limits of sources changed (R506). -/
def Bell.mapLimits (b : Bell) (ns : List Nat) (f : BellSource → Nat) : Bell :=
  ns.foldl (fun b n => b.setSource n { b.source n with effLimit := f (b.source n) }) b

/-- The sources that share a target (R506). -/
def Bell.sharing (b : Bell) (t : BellTarget) : List Nat :=
  (List.range 4096).filter (fun n => n ≠ 0 && (b.source n).target = t)

/-- BELL_STORM_FLOOR holds back the limits of some lowered source (R506). -/
def Bell.heldBack (b : Bell) : Bool :=
  b.sources.any (fun e => e.2.effLimit ≠ e.2.stormLimit && floorHolds e.2 b.stormFloor)

/-- STORM_LIMIT_ADAPT: firmware looks at a target: where its oldest deliverable source has waited more than 1 ms it halves the
limits of the sources that share it; else it doubles them back after each 1 s (R506). -/
def execStormLimitAdapt (core : Bool) (number : Nat) (s : State) : Answer :=
  .next <|
    let t : BellTarget := if core then .core number else .vector number
    let b := s.desk.bell
    let ns := b.sharing t
    if b.overdue t s.now then
      let s := s.modBell (fun b => { b.mapLimits ns (halved · b.stormFloor) with adaptAt := amSet b.adaptAt t.code s.now })
      if ns.any (fun n => floorHolds (b.source n) b.stormFloor) then s.pinBound 0x12 else s
    else
      match amGet b.adaptAt t.code with
      | none => s
      | some since =>
        if s.now < since + 1000000000 then s
        else
          let c := b.mapLimits ns doubled
          let left := ns.any (fun n => (c.source n).effLimit ≠ (c.source n).stormLimit)
          let s := s.modBell (fun _ => { c with adaptAt := if left then amSet b.adaptAt t.code s.now else amDel b.adaptAt t.code })
          if s.desk.bell.heldBack then s else s.unpinBound 0x12

/-! ## MSI-X (R499, R503, R112) -/

/-- The table entry of a vector (R588). -/
def Bell.vectorEntry (b : Bell) (v : Nat) : MsixEntry := amGetD b.msix v {}

/-- A table entry replaced. -/
def Bell.setVector (b : Bell) (v : Nat) (x : MsixEntry) : Bell :=
  { b with msix := if x = {} then amDel b.msix v else amSet b.msix v x }

/-- The vector of a target, if it is one. -/
def BellTarget.vector? : BellTarget → Option Nat
  | .vector v => some v
  | .core _ => none

/-- Whether a target is a vector whose message may still be handed over: one not waiting for its mask (R112, R499). -/
def Bell.sendable (b : Bell) (t : BellTarget) : Bool :=
  match t.vector? with
  | none => false
  | some v => !((b.vectorEntry v).masked && (b.vectorEntry v).pending)

/-- MSIX_DELIVERY: the next deliverable vector source in the order of R498 is sent, or, masked, sets its pending bit
and stays pending (R112, R499). At a sleeping vector target PME is signalled and the source stays pending (R503). -/
def execMsixDelivery (s : State) : Answer :=
  .next <|
    let s := s.modBell Bell.settle
    let b := s.desk.bell
    match pickHighest (b.candidates b.sendable) with
    | none => s
    | some (n, _) =>
      match (b.source n).place.vector? with
      | none => s
      | some v =>
        if !b.vectorsAwake then s.emit [.pme]
        else
          let e := b.vectorEntry v
          if e.masked then s.modBell (fun b => b.setVector v { e with pending := true })
          else
            (s.modBell (fun b => b.setSource n { b.source n with pending := false, moved := false })).emit
              [.msix v e.addr e.data]

/-- A vector unmasked: a message that waited is sent and its sources stop being pending (R112). -/
def State.unmaskVector (s : State) (vector : Nat) : State :=
  if 2048 ≤ vector then s else
  let e := s.desk.bell.vectorEntry vector
  let s := s.modBell (fun b => b.setVector vector { e with masked := false, pending := false })
  if e.pending then
    let mine := s.desk.bell.sources.filter (fun x => x.2.pending && x.2.priority ≠ 0 && x.2.place = .vector vector)
    (s.modBell (fun b => mine.foldl (fun b x => b.setSource x.1 { x.2 with pending := false }) b)).emit
      [.msix vector e.addr e.data]
  else s

/-- MSIX_UNMASK: the host unmasks a vector (R112). -/
def execMsixUnmask (vector : Nat) (s : State) : Answer :=
  .next (s.pcieAccess (.msixUnmask vector) (fun s => s.unmaskVector vector))

/-- Every vector source that is pending sends its message, highest priority first (R498, R503). -/
def sendAll : Nat → State → State
  | 0, s => s
  | k + 1, s =>
    let b := s.desk.bell
    match pickHighest (b.candidates b.sendable) with
    | none => s
    | some (n, _) =>
      match (b.source n).place.vector? with
      | none => s
      | some v =>
        let e := b.vectorEntry v
        if e.masked then sendAll k (s.modBell (fun b => b.setVector v { e with pending := true }))
        else
          sendAll k ((s.modBell (fun b => b.setSource n { b.source n with pending := false })).emit [.msix v e.addr e.data])

/-- FUNCTION_BACK_IN_D0: the function is in D0 with MSI-X enabled; sources that stayed pending at the sleeping vector
target send their messages (R503). -/
def execFunctionBackInD0 (s : State) : Answer :=
  .next <|
    let s := { s.modBell (fun b => { b with vectorsAwake := true }) with ports := { s.ports with dState := 0 } }
    sendAll s.desk.bell.sources.length s

/-! ## The Bell port (R500 to R502) -/

/-- A claim at a core (R501): the source claimed, or 0. A core whose stack holds 15 entries claims nothing. -/
def Bell.claim (b : Bell) (now n : Nat) : Bell × Nat :=
  let b := b.settle
  if 15 ≤ (b.core n).stack.length then (b, 0)
  else
    match b.pickCore n with
    | none => (b, 0)
    | some (src, p) =>
      let b := b.setSource src { b.source src with pending := false, moved := false }
      (b.modCore n (fun c => { c with stack :=
        { source := src, priority := p, saved := c.threshold, entry := true, exit := false, since := now } :: c.stack }), src)

/-- CLAIM: a read of the Bell port (R501). -/
def execClaim (core : Nat) (s : State) : Answer :=
  .next <|
    if 8 ≤ core then s else
    let r := s.desk.bell.claim s.now core
    let b := if r.2 = 0 then { r.1 with spurious := satAdd 32 r.1.spurious 1 } else r.1
    (s.modBell (fun _ => b)).emit [.bellPort core r.2]

/-- THRESHOLD set, and the innermost entry flag cleared (R501). -/
def BellCore.write (c : BellCore) (v : Nat) : BellCore :=
  { c with
    threshold := v % 16
    stack := match c.stack with
      | [] => []
      | e :: l => { e with entry := false } :: l }

/-- THRESHOLD_WRITE: a THRESHOLD write with EXIT clear (R501). -/
def execThresholdWrite (core value : Nat) (s : State) : Answer :=
  .next (if 8 ≤ core then s else s.modBell (fun b => b.modCore core (fun c => c.write value)))

/-- THRESHOLD_EXIT: a THRESHOLD write with EXIT set (R501): the saved value is restored and the exit flag set; with an
empty stack it is as with EXIT clear. -/
def execThresholdExit (core value : Nat) (s : State) : Answer :=
  .next <|
    if 8 ≤ core then s else
    s.modBell (fun b => b.modCore core (fun c =>
      match c.stack with
      | [] => c.write value
      | e :: l => { c with threshold := e.saved, stack := { e with exit := true } :: l }))

/-- COMPLETE: the innermost source is popped and the next one claimed; any other is counted and recorded (R501). -/
def execComplete (core source : Nat) (s : State) : Answer :=
  .next <|
    if 8 ≤ core then s else
    match (s.desk.bell.core core).stack with
    | e :: l =>
      if e.source = source then
        let r := (s.desk.bell.modCore core (fun c => { c with stack := l })).claim s.now core
        (s.modBell (fun _ => r.1)).emit [.bellPort core r.2]
      else
        ((s.modBell (fun b => { b with badComplete := satAdd 32 b.badComplete 1 })).tell
          [.errata { cls := 0, unit := 0x0018, inst := core, detail1 := source }]).emit [.bellPort core 0]
    | [] =>
      ((s.modBell (fun b => { b with badComplete := satAdd 32 b.badComplete 1 })).tell
        [.errata { cls := 0, unit := 0x0018, inst := core, detail1 := source }]).emit [.bellPort core 0]

/-- CORE_WAKE: a sleeping core is woken to take a source deliverable there; in minimal mode cores 1 to 7 stand still (R503,
R530). -/
def execCoreWake (core : Nat) (s : State) : Answer :=
  .next <|
    let s := s.modBell Bell.settle
    let b := s.desk.bell
    if s.boot.gen ≠ .minimal && (b.core core).sleeping && (b.pickCore core).isSome then
      s.modBell (fun b => b.modCore core (fun c => { c with sleeping := false }))
    else s

/-- IN_SERVICE_TIMEOUT: a source has stayed on a core's stack for more than 10 ms, which is recorded once (R510). -/
def execInServiceTimeout (core source : Nat) (s : State) : Answer :=
  .next <|
    let late (e : InService) : Bool := e.source == source && !e.told && decide (e.since + 10000000 < s.now)
    if (s.desk.bell.core core).stack.any late then
      (s.modBell (fun b => b.modCore core (fun c => { c with stack := mapIf late (fun e => { e with told := true }) c.stack }))).tell
        [.errata { cls := 0, unit := 0x0019, inst := core, detail1 := source }]
    else s

/-! ## Source records (R584) -/

/-- Word 0 of a source record (R584). -/
def sourceWord0 (x : BellSource) : Nat :=
  x.priority + flag x.wake * 2 ^ 4 + x.fallback * 2 ^ 5 +
    (match x.target with | .core n => n * 2 ^ 8 | .vector v => v * 2 ^ 8 + 2 ^ 20) + flag x.pending * 2 ^ 24

/-- Whether a write of a word of the record of source `n` is dropped: an RSV bit set, or a value out of range (R577,
R584). -/
def recordWriteBad (n word v : Nat) : Bool :=
  match word with
  | 0 => bitsOf v 23 21 ≠ 0 || bitsOf v 31 25 ≠ 0 ||
      (decide (n < 2048) && (if v.testBit 20 then decide (2047 < bitsOf v 19 8) else decide (7 < bitsOf v 19 8)))
  | 1 => decide (60000 < bitsOf v 31 16)
  | 2 => bitsOf v 31 20 ≠ 0 || bitsOf v 19 0 = 0 || decide (1000000 < bitsOf v 19 0)
  | _ => true

/-- A source with a word of its record written (R584). A vector source's TARGET is fixed. -/
def sourceWritten (now n word v : Nat) (x : BellSource) : BellSource :=
  match word with
  | 0 =>
    let t : BellTarget := if 2048 ≤ n then x.target
      else if v.testBit 20 then .vector (bitsOf v 19 8) else .core (bitsOf v 19 8)
    { x with priority := bitsOf v 3 0, wake := v.testBit 4, fallback := bitsOf v 7 5, target := t }
  | 1 => { x with stormLimit := bitsOf v 15 0, effLimit := bitsOf v 15 0, holdMs := bitsOf v 31 16 }
  | 2 =>
    let w := bitsOf v 19 0
    let lapsed := ({ x with windowUs := w } : BellSource).windowOver now
    { x with windowUs := w, openAt := if lapsed then none else x.openAt, count := if lapsed then 0 else x.count }
  | _ => x

/-- A register write dropped under R577: counted, and recorded as a host mistake of reason 0x11. -/
def State.dropWrite (s : State) : State :=
  ({ s with boot := { s.boot with badWrites := satAdd 32 s.boot.badWrites 1 } } : State).tell [mistake 0x0022 0x11]

/-- A write of a word of a source record (R580, R584). -/
def State.writeSource (s : State) (source word value : Nat) : State :=
  if source < 1024 || 4096 ≤ source || recordWriteBad source word value then s.dropWrite
  else s.modBell (fun b => b.setSource source (sourceWritten s.now source word value (b.source source)))

/-- BELL_SOURCE_RECORD_WRITE: a write of word 0 to 3 of the record of a host or vector source (R580, R584). -/
def execBellSourceRecordWrite (source word : Nat) (value : BitVec 32) (s : State) : Answer :=
  .next (s.pcieAccess (.bellSourceRecordWrite source word value) (fun s => s.writeSource source word value.toNat))

end Sys2Proof.Machine
end

