-- ==== Sys2Proof/Machine/StageOps.lean ====
section
/-! DEFINITION. What the operations of a stage step compute in a carrel's SRAM (R47 to R62, R118 to R121, R126, R147, R163). -/
namespace Sys2Proof.Machine

/-- What a step's operations act with: the carrel, the slot bound to it, its image, the run's seed offset, the events so far, and
whether an access outside the grant has been met (R126, R150). -/
structure StepCtx where
  carrel : Nat
  bound : Bound
  image : Bytes
  /-- where the image's Stack ranges begin in the scratch region -/
  base : Nat
  seedOffset : BitVec 64
  events : Events := {}
  fault : Bool := false
  deriving DecidableEq, Repr

/-! ## Elements -/

/-- Bits of an element of a format; a block-8 mantissa has eight. -/
def fmtBits : OpFmt → Nat
  | .int4 => 4
  | .int8 => 8
  | .int32 => 32
  | .e4m3 => 8
  | .e5m2 => 8
  | .bf16 => 16
  | .f16 => 16
  | .f32 => 32
  | .f64 => 64
  | .block8 => 8

/-- Element `i` of a byte run as raw bits (R42). -/
def rawElem (fmt : OpFmt) (b : Bytes) (i : Nat) : Nat :=
  match fmt with
  | .int4 => ((b.getD (i / 2) 0).toNat >>> (4 * (i % 2))) % 16
  | f => fldB b (i * (fmtBits f / 8)) (fmtBits f / 8)

/-- The value of raw bits. -/
def rawValue (fmt : OpFmt) (v : Nat) : FP :=
  match fmtFloat fmt with
  | some f => f.decode v
  | none =>
    let i := toInt (fmtBits fmt) v
    .fin (decide (i < 0)) i.natAbs 0

/-- The integer value of raw bits of an integer format. -/
def rawInt (fmt : OpFmt) (v : Nat) : Int := toInt (fmtBits fmt) v

/-- Elements as bytes, in order (R42). -/
def elemBytes (fmt : OpFmt) (l : List Nat) : Bytes :=
  match fmt with
  | .int4 => (List.range ((l.length + 1) / 2)).map (fun j => BitVec.ofNat 8 (natAt l (2 * j) % 16 + natAt l (2 * j + 1) % 16 * 16))
  | f => l.flatMap (fun v => le (fmtBits f / 8) v)

/-- Bytes that `n` elements take. -/
def elemsLen (fmt : OpFmt) (n : Nat) : Nat := (n * fmtBits fmt + 7) / 8

/-- A tensor read: rows of `cols` elements each, as raw bits, with each element's poison mark and, of a block-8 tensor, the
block exponents by row (R48, R77). -/
structure Loaded where
  rows : List (List Nat)
  marks : List (List Bool)
  exps : List (List Nat) := []
  deriving DecidableEq, Repr

/-- Element `i`'s mark among the marks of bytes. -/
def elemMark (fmt : OpFmt) (marks : List Bool) (i : Nat) : Bool :=
  ((marks.drop (i * fmtBits fmt / 8)).take ((fmtBits fmt + 7) / 8)).any id

/-- `rows` rows of `cols` elements of a tensor read from SRAM (R42, R48). -/
def State.loadTensor (s : State) (c : Nat) (t : Tensor) (rows cols : Nat) : Loaded × State :=
  match t.fmt with
  | .block8 =>
    let blocks := (cols + 31) / 32
    let d := s.readMarked c t.addr (rows * blocks * 32)
    let e := d.2.readMarked c t.exps (rows * blocks)
    let all := blocks * 32
    ({ rows := (List.range rows).map (fun r => (List.range all).map (fun i => rawElem .block8 d.1.1 (r * all + i)))
       marks := (List.range rows).map (fun r => (List.range all).map (fun i =>
         d.1.2.getD (r * all + i) false || e.1.2.getD (r * blocks + i / 32) false))
       exps := (List.range rows).map (fun r => (List.range blocks).map (fun i => (e.1.1.getD (r * blocks + i) 0).toNat)) }, e.2)
  | f =>
    let d := s.readMarked c t.addr (elemsLen f (rows * cols))
    ({ rows := (List.range rows).map (fun r => (List.range cols).map (fun i => rawElem f d.1.1 (r * cols + i)))
       marks := (List.range rows).map (fun r => (List.range cols).map (fun i => elemMark f d.1.2 (r * cols + i))) }, d.2)

/-- The blocks of a row (R47). -/
def rowBlocks (row exps : List Nat) : List Block8 :=
  (List.range exps.length).map (fun j =>
    { e := natAt exps j, m := (List.range 32).map (fun i => toInt 8 (natAt row (32 * j + i))) })

/-! ## Storing results -/

/-- The linear index in the whole output tensor of element `i` of row `r`, of rows of `cols` elements (R55). -/
def spanIndex (p : Span) (cols r i : Nat) : Nat := p.base + r * (if p.pitch = 0 then cols else p.pitch) + i

/-- The site of an operation, or the rounding to nearest with the defaults of R52 where it names none. -/
def opSite (ctx : StepCtx) (site : Option Nat) (fmt : OpFmt) : Site :=
  match site with
  | some n => siteEnt ctx.image n
  | none => { number := 0, seed := 0, target := fmt, mode := 0, saturate := 0xFF }

/-- Rows of values narrowed at a site (R50 to R55). -/
def narrowRows (ctx : StepCtx) (site : Option Nat) (fmt : OpFmt) (place : Span) (cols : Nat) (rows : List (List FP)) :
    List Nat × Events :=
  let z := opSite ctx site fmt
  let r := (List.range rows.length).flatMap (fun r =>
    let row := rows.getD r []
    (List.range row.length).map (fun i => z.narrow ctx.seedOffset (spanIndex place cols r i) (row.getD i .nan)))
  (r.map (·.1), r.foldl (fun a e => a.add e.2) {})

/-- Rows of values packed into blocks of 32 along the row at a site, each value first an fp32 one (R48 to R50, R52): mantissa
bytes, exponent bytes, events. -/
def packRows (ctx : StepCtx) (site : Option Nat) (place : Span) (cols : Nat) (rows : List (List FP)) : Bytes × Bytes × Events :=
  let z := opSite ctx site .block8
  let blocks := (cols + 31) / 32
  let out := (List.range rows.length).flatMap (fun r => (List.range blocks).map (fun j =>
    packB8 (fun i => z.round ctx.seedOffset (spanIndex place cols r (32 * j + i)))
      ((((rows.getD r []).drop (32 * j)).take 32).map roundF32)))
  (out.flatMap (fun b => b.1.m.map (fun m => BitVec.ofInt 8 m)), out.map (fun b => BitVec.ofNat 8 b.1.e),
   out.foldl (fun a b => a.add b.2) {})

/-- The marks of the bytes that elements are stored in; two int4 elements share a byte. -/
def byteMarks (fmt : OpFmt) (marks : List Bool) : List Bool :=
  match fmt with
  | .int4 => (List.range ((marks.length + 1) / 2)).map (fun j => marks.getD (2 * j) false || marks.getD (2 * j + 1) false)
  | f => marks.flatMap (fun m => List.replicate (fmtBits f / 8) m)

/-- The marks of the blocks of rows: a block with a poisoned value is poisoned. -/
def blockMarks (cols : Nat) (marks : List (List Bool)) : List Bool :=
  marks.flatMap (fun r => (List.range ((cols + 31) / 32)).map (fun j => ((r.drop (32 * j)).take 32).any id))

/-- Rows of values stored as a tensor: a poisoned operand carries its poison into the results that it touches (R77, R150). -/
def State.storeTensor (s : State) (ctx : StepCtx) (t : Tensor) (site : Option Nat) (place : Span) (cols : Nat)
    (rows : List (List FP)) (marks : List (List Bool)) : State × StepCtx :=
  match t.fmt with
  | .block8 =>
    let p := packRows ctx site place cols rows
    let m := blockMarks cols marks
    ((s.writeMarked ctx.carrel t.addr p.1 (m.flatMap (fun b => List.replicate 32 b))).writeMarked ctx.carrel t.exps p.2.1 m,
     { ctx with events := ctx.events.add p.2.2 })
  | f =>
    let p := narrowRows ctx site f place cols rows
    (s.writeMarked ctx.carrel t.addr (elemBytes f p.1) (byteMarks f marks.flatten), { ctx with events := ctx.events.add p.2 })

/-! ## The array (R58 to R60, R118) -/

/-- How a pair of operands is reduced (R58); none for a pair that the array does not take. -/
inductive Reduction where
  | integer | chunked | block | chained
  deriving DecidableEq, Repr

/-- Whether a format is one of fp8 (R58). -/
def isFp8 (f : OpFmt) : Bool := f = .e4m3 || f = .e5m2

/-- The table of R58. -/
def reductionOf (a b : OpFmt) : Option Reduction :=
  if (a = .int8 && b = .int8) || (a = .int4 && b = .int4) || (a = .int4 && b = .int8) then some .integer
  else if (isFp8 a && isFp8 b) || (a = .bf16 && b = .bf16) || (a = .f16 && b = .f16) then some .chunked
  else if a = .block8 && b = .block8 then some .block
  else if a = .f32 && b = .f32 then some .chained
  else none

/-- The format of the accumulator (R58). -/
def Reduction.acc : Reduction → OpFmt
  | .integer => .int32
  | _ => .f32

/-- One output element: its value and its events (R59, R60). -/
def arrayElem (red : Reduction) (fa fb : OpFmt) (bias : Nat) (ra rb ea eb : List Nat) : FP × Events :=
  let acc := rawValue red.acc bias
  let given (r : FP) (nanIn : Bool) : FP × Events := (r, { nanProduced := flag (r.isNan && !nanIn) })
  match red with
  | .integer =>
    let r := reduceInt (rawInt .int32 bias) (ra.map (rawInt fa)) (rb.map (rawInt fb))
    (.fin (decide (r.1 < 0)) r.1.natAbs 0, { accWrap := flag r.2 })
  | .block =>
    let p := (rowBlocks ra ea).zip (rowBlocks rb eb)
    given (reduceBlock acc p) (acc.isNan || p.any (fun q => q.1.e == 0xFF || q.2.e == 0xFF))
  | .chunked =>
    let p := (ra.map (rawValue fa)).zip (rb.map (rawValue fb))
    given (reduceChunked ((p.length + 31) / 32) acc p) (acc.isNan || p.any (fun q => q.1.isNan || q.2.isNan))
  | .chained =>
    let p := (ra.map (rawValue fa)).zip (rb.map (rawValue fb))
    given (reduceChained acc p) (acc.isNan || p.any (fun q => q.1.isNan || q.2.isNan))

/-- An array operation (R58 to R60, R118). The manual says only that the output stage adds the bias that the stage supplies: it is
one accumulator value for each output column (DESIGN CHOICE, log 159). -/
def State.runArray (s : State) (ctx : StepCtx) (a b : Tensor) (m n k : Nat) (bias site : Option Nat) (out : Tensor) (place : Span) :
    State × StepCtx :=
  match reductionOf a.fmt b.fmt with
  | none => (s, ctx)
  | some red =>
    let la := s.loadTensor ctx.carrel a m k
    let lb := la.2.loadTensor ctx.carrel b n k
    let lz := match bias with
      | some addr => lb.2.loadTensor ctx.carrel { fmt := red.acc, addr := addr } 1 n
      | none => ({ rows := [List.replicate n 0], marks := [] }, lb.2)
    let elems := (List.range m).map (fun i => (List.range n).map (fun j =>
      arrayElem red a.fmt b.fmt (natAt (lz.1.rows.getD 0 []) j) (la.1.rows.getD i []) (lb.1.rows.getD j [])
        (la.1.exps.getD i []) (lb.1.exps.getD j [])))
    let bad (l : Loaded) (i : Nat) : Bool := (l.marks.getD i []).any id
    let marks := (List.range m).map (fun i => (List.range n).map (fun j =>
      bad la.1 i || bad lb.1 j || (lz.1.marks.getD 0 []).getD j false))
    let ev := elems.flatten.foldl (fun e x => e.add x.2) ctx.events
    lz.2.storeTensor { ctx with events := ev } out site place n (elems.map (fun r => r.map (·.1))) marks

/-! ## The vector unit and the solver lanes (R61, R62) -/

/-- The value 1. -/
def fpOne : FP := .fin false 1 0

/-- 1 or 0 as a value. -/
def fpFlag (b : Bool) : FP := .fin false (flag b) 0

/-- The value of a function before its one rounding (R61); a comparison gives 1 where it holds and 0 elsewhere, and select takes
its second operand where the first is not zero and the third otherwise (R119; log 146). -/
def vecValue (fn : VecFn) (x y z : FP) : Elementary :=
  match fn with
  | .add => .value (x.add y)
  | .sub => .value (x.add y.neg)
  | .mul => .value (x.mul y)
  | .fma => .value ((x.mul y).add z)
  | .div => .value (x.div y)
  | .recip => .value (fpOne.div x)
  | .sqrt => .value x.sqrt
  | .rsqrt => .value x.rsqrt
  | .lt => .value (fpFlag (x.lt y))
  | .le => .value (fpFlag (x.lt y || x.eq y))
  | .eq => .value (fpFlag (x.eq y))
  | .select => .value (if x.eq (.fin false 0 0) then z else y)
  | f => elementaryOf f x y

/-- How many operands a function has. -/
def vecArity : VecFn → Nat
  | .fma | .select => 3
  | .add | .sub | .mul | .div | .atan2 | .lt | .le | .eq => 2
  | _ => 1

/-- Whether an operand of a function is a NaN. -/
def vecNanIn (fn : VecFn) (x y z : FP) : Bool :=
  x.isNan || (decide (2 ≤ vecArity fn) && y.isNan) || (decide (3 ≤ vecArity fn) && z.isNan)

/-- One vector result: its bits in the result format and its events, the exact value rounded once at the site (R51 to R53, R61). -/
def vectorElem (ctx : StepCtx) (fn : VecFn) (src dst : OpFmt) (site : Option Nat) (index x y z : Nat) : Nat × Events :=
  let vx := rawValue src x
  let vy := rawValue src y
  let vz := rawValue src z
  (vecValue fn vx vy vz).round (fun v =>
    let r := (opSite ctx site dst).narrow ctx.seedOffset index v
    (r.1, r.2.add { nanProduced := flag (v.isNan && !vecNanIn fn vx vy vz) }))

/-- A vector operation: only the operands that its function has are read (R61, R119). -/
def State.runVector (s : State) (ctx : StepCtx) (fn : VecFn) (count : Nat) (x y z : Tensor) (site : Option Nat)
    (out : Tensor) (place : Span) : State × StepCtx :=
  let read (s : State) (k : Nat) (t : Tensor) : Loaded × State :=
    if k ≤ vecArity fn then s.loadTensor ctx.carrel t 1 count else ({ rows := [], marks := [] }, s)
  let lx := read s 1 x
  let ly := read lx.2 2 y
  let lz := read ly.2 3 z
  let el (l : Loaded) (i : Nat) : Nat := natAt (l.rows.getD 0 []) i
  let mk (l : Loaded) (i : Nat) : Bool := (l.marks.getD 0 []).getD i false
  let r := (List.range count).map (fun i =>
    vectorElem ctx fn x.fmt out.fmt site (spanIndex place count 0 i) (el lx.1 i) (el ly.1 i) (el lz.1 i))
  (lz.2.writeMarked ctx.carrel out.addr (elemBytes out.fmt (r.map (·.1)))
    (byteMarks out.fmt ((List.range count).map (fun i => mk lx.1 i || mk ly.1 i || mk lz.1 i))),
   { ctx with events := r.foldl (fun e q => e.add q.2) ctx.events })

/-- A conversion (R49 to R54). -/
def State.runConvert (s : State) (ctx : StepCtx) (count : Nat) (x : Tensor) (site : Option Nat) (out : Tensor) (place : Span) :
    State × StepCtx :=
  let l := s.loadTensor ctx.carrel x 1 count
  let vals : List FP := match x.fmt with
    | .block8 => ((rowBlocks (l.1.rows.getD 0 []) (l.1.exps.getD 0 [])).flatMap unpackB8).map
        (fun v => fmtF32.decode v.toNat)
    | f => (l.1.rows.getD 0 []).map (rawValue f)
  l.2.storeTensor ctx out site place count [vals.take count] (l.1.marks.map (·.take count))

/-- The parts of a sum across slots added in increasing slot order: exactly with a wrap for integers, rounded at each addition for
floats (R19, R59, R147). -/
def slotSum (fmt : OpFmt) : List Nat → Nat
  | [] => 0
  | v :: l =>
    match fmtFloat fmt with
    | some f => l.foldl (fun a b => f.addB a b) v
    | none => ofInt (fmtBits fmt) (l.foldl (fun a b => a + rawInt fmt b) (rawInt fmt v))

/-- A reduction across slots (R147): element by element, the parts in increasing slot order. -/
def State.runAcross (s : State) (ctx : StepCtx) (count : Nat) (fmt : OpFmt) (parts : List Nat) (out : Nat) : State × StepCtx :=
  let r := parts.foldl (fun (r : List Loaded × State) addr =>
    let l := r.2.loadTensor ctx.carrel { fmt := fmt, addr := addr } 1 count
    (r.1 ++ [l.1], l.2)) ([], s)
  let vals := (List.range count).map (fun i => slotSum fmt (r.1.map (fun l => natAt (l.rows.getD 0 []) i)))
  let marks := (List.range count).map (fun i => r.1.any (fun l => (l.marks.getD 0 []).getD i false))
  (r.2.writeMarked ctx.carrel out (elemBytes fmt vals) (byteMarks fmt marks), ctx)

/-- Functions of the solver lanes, each rounded to nearest in fp64 (R62); none for a function that they do not have. -/
def laneValue (fn : VecFn) (x y z : FP) : Option FP :=
  match fn with
  | .add => some (x.add y)
  | .sub => some (x.add y.neg)
  | .mul => some (x.mul y)
  | .fma => some ((x.mul y).add z)
  | .div => some (x.div y)
  | .sqrt => some x.sqrt
  | _ => none

/-- A solver-lane operation in fp64 (R62, R120). -/
def State.runLane (s : State) (ctx : StepCtx) (fn : VecFn) (count x y z out : Nat) : State × StepCtx :=
  if (laneValue fn fpOne fpOne fpOne).isNone then (s, ctx)
  else
    let read (s : State) (k addr : Nat) : Loaded × State :=
      if k ≤ vecArity fn then s.loadTensor ctx.carrel { fmt := .f64, addr := addr } 1 count else ({ rows := [], marks := [] }, s)
    let lx := read s 1 x
    let ly := read lx.2 2 y
    let lz := read ly.2 3 z
    let el (l : Loaded) (i : Nat) : FP := fmtF64.decode (natAt (l.rows.getD 0 []) i)
    let mk (l : Loaded) (i : Nat) : Bool := (l.marks.getD 0 []).getD i false
    let vals := (List.range count).map (fun i => (laneValue fn (el lx.1 i) (el ly.1 i) (el lz.1 i)).getD .nan)
    (lz.2.writeMarked ctx.carrel out (vals.flatMap (fun v => le 8 (fmtF64.encode .rne false v).bits))
      (byteMarks .f64 ((List.range count).map (fun i => mk lx.1 i || mk ly.1 i || mk lz.1 i))), ctx)

/-! ## The flow datapath (R121, R236 to R244) -/

/-- The levels of a pyramid as it stands in SRAM: rows of two-byte samples at the pitch of R226, each plane padded to 64 bytes
(R236, R245). -/
def sramLevels (levels w h : Nat) (data : Bytes) : List Level :=
  ((levelSizes levels w h).foldl (fun (r : List Level × Nat) q =>
    let pitch := up64 (2 * q.1)
    let rows := (List.range q.2).map (fun y => (List.range q.1).map (fun x => fldB data (r.2 + y * pitch + 2 * x) 2))
    (r.1 ++ [{ w := q.1, h := q.2, p := rows }], r.2 + up64 (pitch * q.2))) ([], 0)).1

/-- Bytes of a pyramid in that form. -/
def sramLevelBytes (levels w h : Nat) : Nat :=
  (levelSizes levels w h).foldl (fun a q => a + up64 (up64 (2 * q.1) * q.2)) 0

/-- The flow datapath's field of two pyramids in SRAM, written there in rows of 4-byte elements (R121, R238 to R244). -/
def State.runFlow (s : State) (ctx : StepCtx) (w : FlowWork) : State × StepCtx :=
  let n := sramLevelBytes w.levels w.width w.height
  let a := s.readMarked ctx.carrel w.one n
  let b := a.2.readMarked ctx.carrel w.two n
  let f := flowField w.stereo w.lr w.textureMin w.lrTol (sramLevels w.levels w.width w.height a.1.1)
    (sramLevels w.levels w.width w.height b.1.1)
  let bad := a.1.2.any id || b.1.2.any id
  let pitch := up64 (4 * w.width)
  let rows := f.flatMap (fun r => takePad pitch (r.flatMap (fun e => le 2 e.pair.1 ++ le 2 e.pair.2)))
  (b.2.writeMarked ctx.carrel w.out rows (List.replicate rows.length bad), ctx)

/-! ## The Stack from a stage (R126, R146, R150, R163) -/

/-- Where a granted Stack range stands: its place in the scratch region and its length; none where the image grants no such range to
the slot. -/
def State.rangeOf (s : State) (ctx : StepCtx) : StackRange → Option (Nat × Nat)
  | .grant =>
    let e := stageEnt ctx.image ctx.bound.stage
    if e.grant = 0 then none else some (ctx.base + grantStart ctx.image ctx.bound.stage ctx.bound.slot, e.grant)
  | .input port slot =>
    match (s.carrel ctx.carrel).ins[port]? with
    | none => none
    | some p =>
      let e := edgeEnt ctx.image p.edge
      if e.medium = 1 && decide (slot < e.slots) then
        some (ctx.base + edgeStart ctx.image p.edge + slot * e.slotBytes, e.slotBytes)
      else none
  | .output port slot =>
    match (s.carrel ctx.carrel).outs[port]? with
    | none => none
    | some p =>
      let e := edgeEnt ctx.image p.edge
      if e.medium = 1 && decide (slot < e.slots) then
        some (ctx.base + edgeStart ctx.image p.edge + slot * e.slotBytes, e.slotBytes)
      else none

/-- An access outside the grant is not performed and halts the stage (R126, R150). -/
def StepCtx.outside (ctx : StepCtx) : StepCtx := { ctx with fault := true }

/-- Bytes of a granted range read into SRAM with their poison (R77, R126, R146). -/
def State.runStackLoad (s : State) (ctx : StepCtx) (r : StackRange) (offset bytes addr : Nat) : State × StepCtx :=
  match s.rangeOf ctx r with
  | none => (s, ctx.outside)
  | some q =>
    if q.2 < offset + bytes then (s, ctx.outside)
    else
      let d := s.readScratch (q.1 + offset) bytes
      (d.2.writeMarked ctx.carrel addr d.1.1 d.1.2, ctx)

/-- SRAM bytes written into a granted range with their poison; a range that the slot only consumes is read, not written (R126). -/
def State.runStackStore (s : State) (ctx : StepCtx) (r : StackRange) (offset addr bytes : Nat) : State × StepCtx :=
  let mayWrite : Bool := match r with | .input _ _ => false | _ => true
  match s.rangeOf ctx r with
  | none => (s, ctx.outside)
  | some q =>
    if !mayWrite || decide (q.2 < offset + bytes) then (s, ctx.outside)
    else
      let d := s.readMarked ctx.carrel addr bytes
      ((d.2.writeScratch (q.1 + offset) d.1.1 d.1.2).1, ctx)

/-- The spilled bytes of a slot in section-table order, as they stream through its window (R162, R163). -/
def spilledContent (b : Bytes) (stage slot : Nat) : Bytes :=
  let kept := residentSections b stage slot
  ((slotSections b stage slot).filter (fun x => !kept.contains x)).flatMap (sectionBytes b)

/-- Spilled bytes read from the Stack vault of the bay into the stream window (R163). -/
def State.runStream (s : State) (ctx : StepCtx) (offset bytes addr : Nat) : State × StepCtx :=
  let d := ((spilledContent ctx.image ctx.bound.stage ctx.bound.slot).drop offset).take bytes
  (s.writeBytes ctx.carrel addr d, ctx)

/-! ## Operations -/

/-- Whether a site target is narrower than a format: fewer bits to an element, or int32 from a float of 32 bits or more (R50, R52,
R159; log 153). -/
def narrowerThan (src target : OpFmt) : Bool :=
  decide (fmtBits target < fmtBits src) || (target = .int32 && (src = .f32 || src = .f64))

/-- Whether an operation's site is one that the image can have: in the stage's own run of the site table, of the output's format,
and narrower than the source where there is one (R155, R158, R159). -/
def siteFits (ctx : StepCtx) (src : Option OpFmt) (site : Option Nat) (out : Tensor) : Bool :=
  match site with
  | none => true
  | some n =>
    let e := stageEnt ctx.image ctx.bound.stage
    decide (e.firstSite ≤ n) && decide (n < e.firstSite + e.sites) && (siteEnt ctx.image n).target = out.fmt &&
      (match src with | some f => narrowerThan f out.fmt | none => true)

/-- Whether the sites of an operation are ones that its image can have. -/
def opFits (ctx : StepCtx) : StepOp → Bool
  | .array a b _ _ _ _ site out _ => siteFits ctx ((reductionOf a.fmt b.fmt).map (·.acc)) site out
  | .vector _ _ _ _ _ site out _ => siteFits ctx none site out
  | .convert _ x site out _ => siteFits ctx (some x.fmt) site out
  | _ => true

/-- Whether a stage of a kind has the resource of an operation (R121, R156). -/
def kindAllows (kind : Nat) : StepOp → Bool
  | .array .. => kind ≠ 3
  | .lane .. => kind = 4
  | .flow _ => kind = 3
  | _ => true

/-- One operation of a step. -/
def State.runOp (s : State) (kind : Nat) (ctx : StepCtx) (o : StepOp) : State × StepCtx :=
  if !kindAllows kind o || !opFits ctx o then (s, ctx)
  else
    match o with
    | .array a b m n k bias site out place => s.runArray ctx a b m n k bias site out place
    | .vector fn count x y z site out place => s.runVector ctx fn count x y z site out place
    | .convert count x site out place => s.runConvert ctx count x site out place
    | .acrossSlots count fmt parts out => s.runAcross ctx count fmt parts out
    | .lane fn count x y z out => s.runLane ctx fn count x y z out
    | .flow w => s.runFlow ctx w
    | .stackLoad r offset bytes addr => s.runStackLoad ctx r offset bytes addr
    | .stackStore r offset addr bytes => s.runStackStore ctx r offset addr bytes
    | .stream offset bytes addr => s.runStream ctx offset bytes addr
    | .store out data => (s.writeBytes ctx.carrel out data, ctx)

/-- The operations of a step in order, up to one that meets a fault. -/
def State.runOps (s : State) (kind : Nat) (ctx : StepCtx) : List StepOp → State × StepCtx
  | [] => (s, ctx)
  | o :: l =>
    if ctx.fault then (s, ctx)
    else
      let r := s.runOp kind ctx o
      r.1.runOps kind r.2 l

end Sys2Proof.Machine
end

