-- ==== Sys2Proof/Machine/Carrels.lean ====
section
/-! DEFINITION. Carrels in operation: power states, steps, write-backs (R76, R116 to R152). -/
namespace Sys2Proof.Machine

/-! ## Write-back and refresh (R76, R141) -/

/-- The corrected word written over the one read; nothing where the stored word is no longer a correctable one. -/
def Store.writeBack (m : Store) (w : Nat) : Store :=
  match decideWord (m.word w) with
  | .oneByte p v => m.putWord w (fixWord (m.word w) p v)
  | _ => m

/-- WORD_WRITE_BACK: a corrected word written back unless a write has reached it first (R76, R125). -/
def execWordWriteBack (place : WordPlace) (s : State) : Answer :=
  .next <|
    match place with
    | .sram c w =>
      if (s.carrel c).writeBack.contains w then
        s.modCarrel c (fun x => { x with sram := x.sram.writeBack w, writeBack := x.writeBack.filter (· ≠ w) })
      else s
    | .stack w =>
      if s.fabric.stack.writeBack.contains w then
        s.modStack (fun m => { m with store := m.store.writeBack w, writeBack := m.writeBack.filter (· ≠ w) })
      else s

/-- STACK_REFRESH: a vault's refresh takes its place among requests; it changes nothing that is held (R141). -/
def execStackRefresh (_vault : Nat) (s : State) : Answer := .next s

/-! ## Steps (R144, R148, R163, R174) -/

/-- Every input of a carrel's stage holds a token (R148). -/
def Carrel.ready (x : Carrel) : Bool := !x.ins.isEmpty && x.ins.all (fun p => !p.held.isEmpty)

/-- A step counted in its image's stage and in its run (R163, R170, R174). -/
def State.countStep (s : State) (b : Bound) (run : Option Nat) (ev : Events) : State :=
  let streamed := match s.image b.handle with
    | some i => spilledBytes i.content b.stage b.slot
    | none => 0
  let s := s.modImage b.handle (fun i =>
    { i with counters := modAt i.counters b.stage (fun e => e.add ev), steps := modAt i.steps b.stage (fun n => satAdd 32 n 1) })
  match run with
  | none => s
  | some n =>
    let count (r : Run) : Run := { r with steps := r.steps + 1, events := r.events.add ev, streamed := r.streamed + streamed }
    { s with images := { s.images with
        runs := mapIf (fun r => r.job == n && r.handle == b.handle) count s.images.runs } }

/-- The seed offset of a run, 0 without one (R55, R169). -/
def State.seedOf (s : State) (run : Option Nat) : Nat :=
  match run with
  | none => 0
  | some n => match s.images.runs.find? (fun r => r.job == n) with
    | some r => r.seedOffset
    | none => 0

/-- The run whose step a carrel performs: that of its first tokens (R148, R172). -/
def Carrel.run (x : Carrel) : Option Nat :=
  x.ins.findSome? (fun p => match p.held with | t :: _ => t.run | [] => none)

/-- Whether new steps of a run may start: it is in flight and its deadline has not passed (R173). -/
def State.liveRun (s : State) (n : Nat) : Bool := s.running n && s.images.runs.any (fun r => r.job == n && !r.expired)

/-- Whether a token belongs to a run of which no new step starts. -/
def State.deadToken (s : State) (t : Token) : Bool :=
  match t.run with
  | none => false
  | some n => !s.liveRun n

/-- The credit of a hand-over slot as the consumer `b` returns it for an input port (R144). -/
def State.creditOf (s : State) (b : Bound) (p : InPort) (slot : Nat) : Option CreditMsg :=
  match s.image b.handle with
  | none => none
  | some i =>
    let e := edgeEnt i.content p.edge
    if e.from_ = 0xFF then some { to_ := .input b.handle p.edge b.slot, slot := slot }
    else
      (i.placed.find? (fun q => q.1 == e.from_ && q.2.1 == p.src)).map (fun q =>
        { to_ := .carrel q.2.2 ((s.carrel q.2.2).outs.findIdx (fun o => o.edge == p.edge && o.dst == b.slot)), slot := slot })

/-- Credits sent on their way back on the response channel: within the array, or over the link that the token came by (R134, R144,
R149; log 14). -/
def State.returnCredits (s : State) (b : Bound) (l : List (InPort × Token)) : State :=
  let near := l.filterMap (fun q => if q.2.far.isSome then none else s.creditOf b q.1 q.2.slot)
  let s : State := { s with fabric := { s.fabric with credits := s.fabric.credits ++ near } }
  l.foldl (fun s q => match q.2.far with
    | none => s
    | some f => s.control f.member 0x76 [f.carrel, f.port, q.2.slot]) s

/-- Tokens of ended runs dropped from a carrel's inputs, their slots' credits returned; a running step keeps its own. After that the
next step starts where every input holds a token (R127, R144, R148, R173). -/
def State.settleInputs (s : State) (c : Nat) : State :=
  let x := s.carrel c
  match x.bound with
  | none => s
  | some b =>
    let kept (p : InPort) : List Token := if x.state = .running then p.held.take 1 else []
    let rest (p : InPort) : List Token := if x.state = .running then p.held.drop 1 else p.held
    let dropped := x.ins.flatMap (fun p => ((rest p).filter s.deadToken).map (fun t => (p, t)))
    let left (p : InPort) : InPort := { p with held := kept p ++ (rest p).filter (fun t => !s.deadToken t) }
    let y : Carrel := { x with ins := x.ins.map left }
    let st : CarrelState := if y.state = .ready && y.ready then .running else y.state
    let y : Carrel := { y with state := st }
    (s.setCarrel c y).returnCredits b dropped

/-- A carrel at the end of a step: one token of each input used up (R127, R148). -/
def Carrel.stepEnded (x : Carrel) (cycles : Nat) : Carrel :=
  { x with
    ins := x.ins.map (fun p => { p with held := p.held.drop 1 })
    busy := (x.busy + cycles) % 2 ^ 64
    state := .ready }

/-! ## Power states (R127 to R130, R151) -/

/-- Whether a job holds the stage bound to a carrel (R33, R129): its image is held, a token waits, or a message or a credit of its
is on the mesh. -/
def State.heldByJob (s : State) (c : Nat) : Bool :=
  let x := s.carrel c
  match x.bound with
  | none => false
  | some b => s.imageHeld b.handle || x.ins.any (fun p => !p.held.isEmpty) ||
      s.fabric.mesh.any (fun m => m.src == c || m.dst == c) ||
      s.fabric.credits.any (fun m => match m.to_ with | .carrel k _ => k == c | .input _ _ _ => false)

/-- A slot no longer placed in a carrel. -/
def State.unplace (s : State) (x : Carrel) : State :=
  match x.bound with
  | none => s
  | some b => s.modImage b.handle (fun i =>
      { i with placed := i.placed.filter (fun e => !(e.1 == b.stage && e.2.1 == b.slot)) })

/-- The clock of a carrel's quadrant runs (R513). -/
def State.clockOf (s : State) (c : Nat) : Bool := (s.power.quadrants.getD (quadrantOf c) {}).clockOn

/-- CARREL_WAKE: off to idle with every SRAM word zero, or retention to ready, and on to running where every input has come;
the quadrant's clock has been started before (R127 to R130, R148, R513). -/
def execCarrelWake (carrel : Nat) (s : State) : Answer :=
  .next <|
    if 256 ≤ carrel || !s.clockOf carrel then s
    else
      let x := s.carrel carrel
      match x.state with
      | .off => s.setCarrel carrel (x.cleared .idle)
      | .retention => (s.setCarrel carrel { x with state := .ready }).settleInputs carrel
      | _ => s

/-- CARREL_GATE: ready to retention, or idle to off; never while a job holds the stage (R127, R129). -/
def execCarrelGate (carrel : Nat) (s : State) : Answer :=
  .next <|
    let x := s.carrel carrel
    match x.state with
    | .ready => if s.heldByJob carrel then s else s.setCarrel carrel { x with state := .retention }
    | .idle => s.setCarrel carrel (x.cleared .off)
    | _ => s

/-- STAGE_UNBIND: ready to idle with SRAM cleared; never while a job holds the stage (R127 to R129). -/
def execStageUnbind (carrel : Nat) (s : State) : Answer :=
  .next <|
    let x := s.carrel carrel
    if x.state = .ready && !s.heldByJob carrel then (s.unplace x).setCarrel carrel (x.cleared .idle) else s

/-- CARREL_RELEASE: firmware has tested a halted carrel's SRAM; `testPass` is the outcome (R127, R151). -/
def execCarrelRelease (carrel : Nat) (testPass : Bool) (s : State) : Answer :=
  .next <|
    let x := s.carrel carrel
    if x.state ≠ .halted then s
    else (s.unplace x).setCarrel carrel (x.cleared (if testPass && !x.worn then .idle else .retired))

/-- CARREL_RETIRE: any state but retired goes to retired; the carrel is left unpowered (R127, R151). -/
def execCarrelRetire (carrel : Nat) (s : State) : Answer :=
  .next <|
    if 256 ≤ carrel then s
    else
      let x := s.carrel carrel
      if x.state = .retired then s else (s.unplace x).setCarrel carrel (x.cleared .retired)

end Sys2Proof.Machine
end

