-- ==== Sys2Proof/Machine/Solver.lean ====
section
/-! DEFINITION. The arithmetic of the Collator: helper functions, cameras, residuals, kernels (R365 to R370). -/
namespace Sys2Proof.Machine

/-! ## Helper functions (R366) -/

/-- A power of two in fp64. -/
def f64pow2 (e : Int) : F64 := f64ofDyadic 1 e

/-- A finite fold of `fma`: the sum of products in the order given, from zero (R365). -/
def fmaSum (l : List (F64 × F64)) : F64 := l.foldl (fun a p => f64fma p.1 p.2 a) 0

/-- n! -/
def factorial : Nat → Nat
  | 0 => 1
  | n + 1 => (n + 1) * factorial n

/-- (-1)^k -/
def altSign (k : Nat) : Int := if k % 2 = 0 then 1 else -1

/-- CC[k], CS[k], CA[k] and CL[k] (R366). -/
def coefCC (k : Nat) : F64 := f64ofRat (altSign k) (factorial (2 * k))
def coefCS (k : Nat) : F64 := f64ofRat (altSign k) (2 * factorial (2 * k + 1))
def coefCA (k : Nat) : F64 := f64ofRat (altSign k) (2 * k + 1)
def coefCL (k : Nat) : F64 := f64ofRat 1 (2 * k + 1)

/-- Horner's rule by `fma`: coefficients n - 1 down to 0 after the start value (R366). -/
def hornerFrom (c : Nat → F64) (x : F64) : Nat → F64 → F64
  | 0, a => a
  | n + 1, a => hornerFrom c x n (f64fma a x (c n))

/-- PI, PI_2 and LN2 as the nearest fp64 values (R366). -/
def f64Pi : F64 := 0x400921FB54442D18#64
def f64Pi2 : F64 := 0x3FF921FB54442D18#64
def f64Ln2 : F64 := 0x3FE62E42FEFA39EF#64

/-- x² + y² + z², left to right. -/
def sumSq (p : Vec3) : F64 := f64add (f64add (f64mul p.x p.x) (f64mul p.y p.y)) (f64mul p.z p.z)

/-- `qexp` (R366). -/
def qexp (p : Vec3) : Quat :=
  let t2 := sumSq p
  let half := f64pow2 (-1)
  if f64lt t2 (f64pow2 (-40)) then
    Quat.canon { w := f64one, x := f64mul half p.x, y := f64mul half p.y, z := f64mul half p.z }
  else
    let h := f64mul (f64pow2 (-2)) t2
    let c := hornerFrom coefCC h 11 (coefCC 11)
    let s := hornerFrom coefCS h 11 (coefCS 11)
    Quat.canon { w := c, x := f64mul s p.x, y := f64mul s p.y, z := f64mul s p.z }

/-- `atanr` (R366). -/
def atanr (t : F64) : F64 :=
  let halve (t : F64) : F64 := f64div t (f64add f64one (f64sqrt (f64fma t t f64one)))
  let t := halve (halve t)
  f64mul (f64ofInt 4) (f64mul t (hornerFrom coefCA (f64mul t t) 13 (coefCA 13)))

/-- `atan2p` for b not below zero (R366). -/
def atan2pos (a b : F64) : F64 :=
  if f64eq a 0 then 0
  else if f64le a b then atanr (f64div a b) else f64sub f64Pi2 (atanr (f64div b a))

/-- `atan2p` (R366). -/
def atan2p (a b : F64) : F64 := if f64lt b 0 then f64sub f64Pi (atan2pos a (f64neg b)) else atan2pos a b

/-- `qlog` of a canonical quaternion (R366). -/
def qlog (q : Quat) : Vec3 :=
  let s := f64sqrt (sumSq { x := q.x, y := q.y, z := q.z })
  let f := if f64lt s (f64pow2 (-20)) then f64div (f64ofInt 2) q.w
    else f64div (f64mul (f64ofInt 2) (atan2p s q.w)) s
  { x := f64mul f q.x, y := f64mul f q.y, z := f64mul f q.z }

/-- `exponent` of a value of at least 1 (R366). -/
def f64exponent (x : F64) : Int :=
  match fmtF64.decode x.toNat with
  | .fin _ m e => (Nat.log2 m : Int) + e
  | _ => 0

/-- `ln1` (R366). -/
def ln1 (x : F64) : F64 :=
  let e := f64exponent x
  let m := f64mul x (f64pow2 (-e))
  let z := f64div (f64sub m f64one) (f64add m f64one)
  let a := hornerFrom coefCL (f64mul z z) 16 (coefCL 16)
  f64fma (f64ofInt e) f64Ln2 (f64mul (f64ofInt 2) (f64mul z a))

/-- Entry of a matrix, 0 outside. -/
def Mat.at_ (m : Mat) (i j : Nat) : F64 := (m.getD i []).getD j 0

/-- A matrix of r rows and c columns by its entries. -/
def matOf (r c : Nat) (f : Nat → Nat → F64) : Mat := (List.range r).map (fun i => (List.range c).map (fun j => f i j))

/-- A matrix product, the inner index of n terms increasing, by `fma` from zero (R365). -/
def matMul (n r c : Nat) (a b : Mat) : Mat :=
  matOf r c (fun i j => fmaSum ((List.range n).map (fun k => (a.at_ i k, b.at_ k j))))

/-- A matrix transposed. -/
def matT (r c : Nat) (a : Mat) : Mat := matOf c r (fun i j => a.at_ j i)

/-- A matrix sum. -/
def matAdd (r c : Nat) (a b : Mat) : Mat := matOf r c (fun i j => f64add (a.at_ i j) (b.at_ i j))

/-- A symmetric matrix from the upper triangle of another. -/
def matMirror (n : Nat) (a : Mat) : Mat := matOf n n (fun i j => if i ≤ j then a.at_ i j else a.at_ j i)

/-- The value of pivot j of `chol`, before it is judged: a fold over the rows above (R366). -/
def pivotOf (us : Mat) (d : F64) (j : Nat) : F64 :=
  (List.range j).foldl (fun d k => f64fma (f64neg (us.at_ k j)) (us.at_ k j) d) d

/-- Row j of the factor beyond its pivot u (R366). -/
def factorRow (a us : Mat) (n j : Nat) (u : F64) : List F64 :=
  (List.range n).map (fun i =>
    if i < j then 0
    else if i = j then u
    else f64div ((List.range j).foldl (fun x k => f64fma (f64neg (us.at_ k j)) (us.at_ k i) x) (a.at_ j i)) u)

/-- `chol` (R366): none where a diagonal is not positive. -/
def chol (n : Nat) (a : Mat) : Option Mat :=
  (List.range n).foldl (fun acc j => acc.bind (fun us =>
    let d := pivotOf us (a.at_ j j) j
    if f64lt 0 d then some (us ++ [factorRow a us n j (f64sqrt d)]) else none)) (some [])

/-- Forward substitution with Uᵀ (R366). -/
def forwardSub (u : Mat) (b : List F64) (n : Nat) : List F64 :=
  (List.range n).foldl (fun z i =>
    z ++ [f64div ((List.range i).foldl (fun a k => f64fma (f64neg (u.at_ k i)) (z.getD k 0) a) (b.getD i 0)) (u.at_ i i)]) []

/-- Back substitution with U (R366): the list holds x from i + 1 on. -/
def backSub (u : Mat) (z : List F64) (n : Nat) : List F64 :=
  (List.range n).reverse.foldl (fun x i =>
    f64div ((List.range (n - (i + 1))).foldl
      (fun a k => f64fma (f64neg (u.at_ i (i + 1 + k))) (x.getD k 0) a) (z.getD i 0)) (u.at_ i i) :: x) []

/-- `chol_solve` (R366). -/
def cholSolve (n : Nat) (u : Mat) (b : List F64) : List F64 := backSub u (forwardSub u b n) n

/-- Vector elements i to i + 2 as a Vec3. -/
def vecAt (l : List F64) (i : Nat) : Vec3 := { x := l.getD i 0, y := l.getD (i + 1) 0, z := l.getD (i + 2) 0 }

/-! ## Cameras (R367) -/

/-- A pixel position and its 2 × 3 Jacobian. -/
structure Projected where
  u : F64
  v : F64
  ju : Vec3
  jv : Vec3

/-- The image-plane point (a, b) and its partial derivatives as a pixel position with its Jacobian. -/
def Camera.pixel (c : Camera) (a b : F64) (da db : Vec3) : Projected :=
  let p (i : Nat) : F64 := c.params.getD i 0
  { u := f64fma (p 0) a (p 2), v := f64fma (p 1) b (p 3), ju := da.scale (p 0), jv := db.scale (p 1) }

/-- `project` (R367): none for a point that the model cannot see. -/
def Camera.project (c : Camera) (p : Vec3) : Option Projected :=
  let k (i : Nat) : F64 := c.params.getD i 0
  let X := p.x
  let Y := p.y
  let Z := p.z
  let m := f64mul
  let r2 := f64add (m X X) (m Y Y)
  let r := f64sqrt r2
  if c.model = 0 || (c.model = 1 && f64lt r (m (f64pow2 (-30)) (f64abs Z))) then
    if f64le Z (f64pow2 (-20)) then none
    else
      let iz := f64div f64one Z
      let a := m X iz
      let b := m Y iz
      some (c.pixel a b { x := iz, y := 0, z := m (f64neg a) iz } { x := 0, y := iz, z := m (f64neg b) iz })
  else if c.model = 1 then
    let n2 := f64add r2 (m Z Z)
    let th := atan2p r Z
    if f64lt 0x3FFBECDE5DA115A9#64 th then none
    else
      let t2 := m th th
      let poly := f64fma (f64fma (f64fma (f64fma (k 7) t2 (k 6)) t2 (k 5)) t2 (k 4)) t2 f64one
      let dpoly := f64fma (f64fma (f64fma (f64fma (m (f64ofInt 9) (k 7)) t2 (m (f64ofInt 7) (k 6))) t2
        (m (f64ofInt 5) (k 5))) t2 (m (f64ofInt 3) (k 4))) t2 f64one
      let s := f64div (m th poly) r
      let sr := f64div (f64sub (m dpoly (f64div Z n2)) s) r
      let sz := f64div (m dpoly (f64div (f64neg r) n2)) r
      some (c.pixel (m s X) (m s Y)
        { x := f64add s (m (m X sr) (f64div X r)), y := m (m X sr) (f64div Y r), z := m X sz }
        { x := m (m Y sr) (f64div X r), y := f64add s (m (m Y sr) (f64div Y r)), z := m Y sz })
  else
    let d := f64sqrt (f64add r2 (m Z Z))
    let den := f64fma (k 4) d Z
    if f64le den (m (f64pow2 (-20)) d) then none
    else
      let i := f64div f64one den
      let q := f64div (k 4) d
      let a := m X i
      let b := m Y i
      let one_ (x : F64) : F64 := m i (f64sub f64one x)
      let neg_ (x : F64) : F64 := m (f64neg i) x
      some (c.pixel a b
        { x := one_ (m (m a q) X), y := neg_ (m (m a q) Y), z := neg_ (m a (f64fma q Z f64one)) }
        { x := neg_ (m (m b q) X), y := one_ (m (m b q) Y), z := neg_ (m b (f64fma q Z f64one)) })

/-! ## Parameter blocks (R365) -/

/-- Degrees of freedom of a block. -/
def BlockVal.dof : BlockVal → Nat
  | .pose _ => 6
  | .position _ => 3
  | .landmark _ => 3
  | .velocity _ => 3

/-- Whether a free block of the type belongs to the reduced system. -/
def BlockVal.reduced : BlockVal → Bool
  | .landmark _ => false
  | _ => true

/-- A block updated by a step. -/
def BlockVal.step (b : BlockVal) (d : List F64) : BlockVal :=
  match b with
  | .pose p => .pose { t := p.t.add (vecAt d 0), q := ((qexp (vecAt d 3)).mul p.q).canon }
  | .position p => .position { p with t := p.t.add (vecAt d 0) }
  | .landmark x => .landmark (x.add (vecAt d 0))
  | .velocity v => .velocity (v.add (vecAt d 0))

/-- The pose of a block. -/
def BlockVal.asPose : BlockVal → Pose
  | .pose p => p
  | .position p => p
  | _ => { t := Vec3.zero, q := Quat.one }

/-- The three values of a landmark or velocity block. -/
def BlockVal.asVec : BlockVal → Vec3
  | .pose p => p.t
  | .position p => p.t
  | .landmark x => x
  | .velocity v => v

/-! ## Residuals (R368, R369) -/

/-- Dimensions of a residual. -/
def Residual.dims (r : Residual) (x : List BlockVal) : Nat :=
  if r.kind = 1 then 2
  else if r.kind = 2 || r.kind = 3 then 6
  else if r.kind = 4 then (x.getD (r.blocks.getD 0 0) (.landmark Vec3.zero)).dof
  else if r.kind = 5 then 1
  else 9

/-- The blocks that a residual names by position A to D. -/
def Residual.block (r : Residual) (x : List BlockVal) (i : Nat) : BlockVal :=
  x.getD (r.blocks.getD i 0) (.landmark Vec3.zero)

/-- |x|: the root of the sum of squares by `fma` from zero (R368). -/
def normFma (a : Vec3) : F64 := f64sqrt (a.dot a)

/-- A residual's values at an iterate; none where it is invalid there (R368). -/
def Residual.value (r : Residual) (p : Problem) (x : List BlockVal) : Option (List F64) :=
  let a := (r.block x 0).asPose
  let b := (r.block x 1).asPose
  let M (i : Nat) : F64 := r.m.getD i 0
  if r.kind = 1 then
    match (p.cameras.getD r.camera { model := 0, width := 0, height := 0, params := [] }).project
        (mulMV (transpose3 a.q.rows) ((r.block x 1).asVec.sub a.t)) with
    | none => none
    | some w => some [f64sub w.u (M 0), f64sub w.v (M 1)]
  else if r.kind = 2 || r.kind = 3 then
    let t := (mulMV (transpose3 a.q.rows) (b.t.sub a.t)).sub (vecAt r.m 0)
    let q := qlog ((((qexp (vecAt r.m 3)).conj.mul a.q.conj).mul b.q).canon)
    some (t.list ++ q.list)
  else if r.kind = 4 then
    match r.block x 0 with
    | .pose a => some ((a.t.sub (vecAt r.m 0)).list ++ (qlog ((a.q.mul (qexp (vecAt r.m 3)).conj).canon)).list)
    | v => some (v.asVec.sub (vecAt r.m 0)).list
  else if r.kind = 5 then
    let n := normFma (a.t.sub (vecAt r.m 0))
    if f64lt n (f64pow2 (-20)) then none else some [f64sub n (M 3)]
  else
    let vi := (r.block x 2).asVec
    let vj := (r.block x 3).asVec
    let dq := (({ w := M 0, x := M 1, y := M 2, z := M 3 } : Quat)).canon
    let h := f64mul (f64mul (f64pow2 (-1)) r.dt) r.dt
    let g : Vec3 := { x := f64neg 0, y := f64neg 0, z := p.gravity }
    let fm (k : F64) (s y : Vec3) : Vec3 :=
      { x := f64fma (f64neg s.x) k y.x, y := f64fma (f64neg s.y) k y.y, z := f64fma (f64neg s.z) k y.z }
    let gm (k : F64) (y : Vec3) : Vec3 :=
      { x := f64fma g.x k y.x, y := f64fma g.y k y.y, z := f64fma g.z k y.z }
    let e := gm h (fm r.dt vi (b.t.sub a.t))
    let f := gm r.dt (vj.sub vi)
    let Rt := transpose3 a.q.rows
    some (((mulMV Rt e).sub (vecAt r.m 7)).list ++
      (qlog (((dq.conj.mul a.q.conj).mul b.q).canon)).list ++ ((mulMV Rt f).sub (vecAt r.m 4)).list)

/-- Rows of [e]×, with [e]×·d = e × d (R369). -/
def crossRows (e : Vec3) : Mat3 :=
  ({ x := 0, y := f64neg e.z, z := e.y }, { x := e.z, y := 0, z := f64neg e.x }, { x := f64neg e.y, y := e.x, z := 0 })

/-- A row times a 3 × 3 matrix: the product's inner index increasing. -/
def rowMul (a : Vec3) (m : Mat3) : Vec3 :=
  let t := transpose3 m
  { x := a.dot t.1, y := a.dot t.2.1, z := a.dot t.2.2 }

/-- The free blocks that a residual names, in block order, each once. -/
def Residual.freeBlocks (r : Residual) (p : Problem) : List Nat :=
  let n := if r.kind = 6 then 4 else if r.kind ≤ 3 then 2 else 1
  let bs := (r.blocks.take n).eraseDups
  (sortBy (fun a b => decide (a < b)) bs).filter (fun b => match p.blocks[b]? with | some x => !x.fixed | none => false)

/-- A central-difference column set of block `b` (R369): dof columns, each a list over the residual's rows. -/
def Residual.differences (r : Residual) (p : Problem) (x : List BlockVal) (b : Nat) : List (List F64) :=
  let v := x.getD b (.landmark Vec3.zero)
  (List.range v.dof).map (fun c =>
    let h := if c < 3 then f64pow2 (-16) else f64pow2 (-20)
    let at_ (d : F64) : List F64 :=
      (r.value p (setAt x b (v.step ((List.range v.dof).map (fun i => if i = c then d else 0))))).getD []
    ((at_ h).zip (at_ (f64neg h))).map (fun y => f64div (f64sub y.1 y.2) (f64mul (f64ofInt 2) h)))

/-- The columns of block `b` in a residual's Jacobian, each a list over the residual's rows (R369). -/
def Residual.columns (r : Residual) (p : Problem) (x : List BlockVal) (b : Nat) : List (List F64) :=
  let a := (r.block x 0).asPose
  if r.kind = 1 then
    let X := (r.block x 1).asVec
    let e := X.sub a.t
    let Rt := transpose3 a.q.rows
    match (p.cameras.getD r.camera { model := 0, width := 0, height := 0, params := [] }).project (mulMV Rt e) with
    | none => []
    | some w =>
      let au := rowMul w.ju Rt
      let av := rowMul w.jv Rt
      let cols (u v : Vec3) : List (List F64) := (u.list.zip v.list).map (fun y => [y.1, y.2])
      if b = r.blocks.getD 0 0 then
        cols (au.scale (f64neg f64one)) (av.scale (f64neg f64one)) ++
          cols (rowMul au (crossRows e)) (rowMul av (crossRows e))
      else cols au av
  else if r.kind = 5 then
    let d := a.t.sub (vecAt r.m 0)
    let n := normFma d
    [[f64div d.x n], [f64div d.y n], [f64div d.z n]] ++ (if (r.block x 0).dof = 6 then [[0], [0], [0]] else [])
  else if r.kind = 4 && (r.block x 0).dof = 3 then
    [[f64one, 0, 0], [0, f64one, 0], [0, 0, f64one]]
  else r.differences p x b

/-! ## Kernels (R370) -/

/-- The weight and the cost term of a squared whitened norm (R370). -/
def kernelOf (kernel : Nat) (k s : F64) : F64 × F64 :=
  let k2 := f64mul k k
  let two := f64ofInt 2
  if kernel = 1 then
    if f64le s k2 then (f64one, s)
    else (f64div k (f64sqrt s), f64sub (f64mul (f64mul two k) (f64sqrt s)) k2)
  else if kernel = 2 then
    let u := f64div s k2
    let o := f64add f64one u
    (f64div f64one o, f64mul k2 (ln1 o))
  else if kernel = 3 then
    let u := f64div s k2
    let third := f64div k2 (f64ofInt 3)
    if f64lt u f64one then
      let v := f64sub f64one u
      (f64mul v v, f64mul third (f64sub f64one (f64mul (f64mul v v) v)))
    else (0, third)
  else (f64one, s)

end Sys2Proof.Machine
end

