-- ==== Sys2Proof/Machine/Assemble.lean ====
section
/-! DEFINITION. The large and the small path's iteration: assembly, elimination, factorisation, refinement, the
Levenberg–Marquardt rule, covariances (R371 to R378). -/
namespace Sys2Proof.Machine

/-! ## The layout of a problem (R365, R373) -/

/-- Where the blocks of a problem stand: free blocks with their first column and degrees of freedom, the reduced blocks
with their first reduced index, the free landmarks, the reduced blocks linked to each landmark, the blocks present. -/
structure Lay where
  /-- block, first column, degrees of freedom -/
  free : List (Nat × Nat × Nat)
  cols : Nat
  /-- block, first column, first reduced index, degrees of freedom -/
  red : List (Nat × Nat × Nat × Nat)
  n : Nat
  /-- landmark block, its first column, positions in `red` of the blocks linked to it -/
  marks : List (Nat × Nat × List Nat)
  /-- pairs of positions in `red`, the first not after the second (R373) -/
  present : List (Nat × Nat)

/-- The free blocks of a problem with their columns in block order. -/
def Problem.freeCols (p : Problem) : List (Nat × Nat × Nat) × Nat :=
  ((List.range p.blocks.length).zip p.blocks).foldl (fun a e =>
    if e.2.fixed then a else (a.1 ++ [(e.1, a.2, e.2.value.dof)], a.2 + e.2.value.dof)) ([], 0)

/-- The fill of R373: for each block K in order, the pairs that it brings about. -/
def fillIn (m : Nat) (start : List (Nat × Nat)) : List (Nat × Nat) :=
  (List.range m).foldl (fun pr k =>
    union pr (pairsOf ((List.range m).filter (fun i => decide (k < i) && pr.contains (k, i))))) start

/-- The layout of a problem. -/
def Problem.lay (p : Problem) : Lay :=
  let fc := p.freeCols
  let value (b : Nat) : BlockVal := (p.blocks.getD b { fixed := true, value := .landmark Vec3.zero }).value
  let red := (fc.1.filter (fun e => (value e.1).reduced)).foldl
    (fun (a : List (Nat × Nat × Nat × Nat) × Nat) e => (a.1 ++ [(e.1, e.2.1, a.2, e.2.2)], a.2 + e.2.2)) ([], 0)
  let posOf (b : Nat) : Option Nat := (red.1.map (·.1)).findIdx? (· == b)
  let named := p.residuals.map (fun r => r.freeBlocks p)
  let marks := (fc.1.filter (fun e => !(value e.1).reduced)).map (fun e =>
    (e.1, e.2.1, sortBy (fun a b => decide (a < b))
      ((named.filter (fun bs => bs.contains e.1)).foldl (fun l bs => union l (bs.filterMap posOf)) [])))
  let rising (l : List Nat) : List Nat := sortBy (fun a b => decide (a < b)) l
  let direct := named.foldl (fun pr bs => union pr (pairsOf (rising (bs.filterMap posOf)))) []
  let linked := marks.foldl (fun pr m => union pr (pairsOf m.2.2)) direct
  { free := fc.1, cols := fc.2, red := red.1, n := red.2, marks := marks, present := fillIn red.1.length linked }

/-- Position in `red` of the block that holds a reduced index. -/
def Lay.blockOf (l : Lay) (i : Nat) : Nat := (l.red.findIdx? (fun e => decide (e.2.2.1 ≤ i) && decide (i < e.2.2.1 + e.2.2.2))).getD 0

/-- The column of a reduced index. -/
def Lay.colOf (l : Lay) (i : Nat) : Nat :=
  match l.red[l.blockOf i]? with
  | none => 0
  | some e => e.2.1 + (i - e.2.2.1)

/-- Whether the scalar (i, j), i not after j, of the reduced system is structural (R373). -/
def Lay.structural (l : Lay) (i j : Nat) : Bool := l.present.contains (l.blockOf i, l.blockOf j)

/-- FACTOR_ENTRIES: structural scalars of U (R373, R385). -/
def Lay.entries (l : Lay) : Nat :=
  l.present.foldl (fun a e =>
    let d (k : Nat) : Nat := match l.red[k]? with | some x => x.2.2.2 | none => 0
    a + (if e.1 = e.2 then d e.1 * (d e.1 + 1) / 2 else d e.1 * d e.2)) 0

/-! ## Assembly (R371) -/

/-- A valid residual at an iterate, whitened: its columns with their values by row, its values, its weight. -/
structure LinRes where
  cols : List (Nat × List F64)
  rw : List F64
  w : F64

/-- The squared whitened norm s of a residual's values and the values whitened. -/
def whiten (r : Residual) (v : List F64) : List F64 := ((List.range v.length).zip v).map (fun e => f64div e.2 (r.sigma.getD e.1 0))

/-- s, w and ρ of a residual at an iterate; none where it is invalid. -/
def Residual.weigh (r : Residual) (p : Problem) (x : List BlockVal) : Option (F64 × F64 × F64) :=
  match r.value p x with
  | none => none
  | some v =>
    let rw := whiten r v
    let s := fmaSum (rw.map (fun y => (y, y)))
    some (s, kernelOf r.kernel r.scale s)

/-- The cost at an iterate (R371). -/
def Problem.cost (p : Problem) (x : List BlockVal) : F64 :=
  p.residuals.foldl (fun F r =>
    match r.weigh p x with
    | none => F
    | some e => f64add F (f64mul (f64pow2 (-1)) e.2.2)) 0

/-- A residual linearised at an iterate. -/
def Residual.linear (r : Residual) (p : Problem) (l : Lay) (x : List BlockVal) : Option LinRes :=
  match r.value p x, r.weigh p x with
  | some v, some e =>
    some {
      cols := (r.freeBlocks p).flatMap (fun b =>
        let c0 := match l.free.find? (fun f => f.1 == b) with | some f => f.2.1 | none => 0
        let cs := r.columns p x b
        ((List.range cs.length).zip cs).map (fun c => (c0 + c.1, whiten r c.2)))
      rw := whiten r v, w := e.2.1 }
  | _, _ => none

/-- Entries of H by column pair (p, q), p not after q, at key p · cols + q. -/
abbrev Entries := List (Nat × F64)

/-- One residual added to H and g (R371). -/
def addLinear (cols : Nat) (a : Entries × Entries) (r : LinRes) : Entries × Entries :=
  let rows := List.range r.rw.length
  let pair (h : Entries) (p q : Nat × List F64) : Entries :=
    let k := p.1 * cols + q.1
    amSet h k (rows.foldl (fun s i => f64fma (f64mul r.w (p.2.getD i 0)) (q.2.getD i 0) s) (amGetD h k 0))
  let h := (pairsOf (List.range r.cols.length)).foldl (fun h e => pair h (r.cols.getD e.1 (0, [])) (r.cols.getD e.2 (0, []))) a.1
  let g := r.cols.foldl (fun g p =>
    amSet g p.1 (rows.foldl (fun s i => f64fma (f64mul r.w (p.2.getD i 0)) (r.rw.getD i 0) s) (amGetD g p.1 0))) a.2
  (h, g)

/-- H, with its damping, and g at an iterate (R371). -/
def Problem.normal (p : Problem) (l : Lay) (x : List BlockVal) (lam : F64) : Entries × Entries :=
  let a := (p.residuals.filterMap (fun r => r.linear p l x)).foldl (addLinear l.cols) ([], [])
  ((List.range l.cols).foldl (fun h c =>
    let k := c * l.cols + c
    let v := amGetD h k 0
    amSet h k (f64fma lam (f64max v (f64pow2 (-30))) v)) a.1, a.2)

/-! ## Elimination (R372) -/

/-- A 3 × 3 factor with the pivot rule, and how many pivots were raised (R372). -/
def chol3 (tau rho : F64) (v : Mat) : Mat × Nat :=
  let vmax := f64max (f64max (v.at_ 0 0) (v.at_ 1 1)) (v.at_ 2 2)
  (List.range 3).foldl (fun (a : Mat × Nat) j =>
    let d := pivotOf a.1 (v.at_ j j) j
    let low := f64lt d (f64mul tau vmax)
    let d := if low then f64add (f64max d 0) (f64mul rho vmax) else d
    (a.1 ++ [factorRow v a.1 3 j (f64sqrt d)], a.2 + flag low)) ([], 0)

/-- An eliminated landmark: its block, its factor, g_l, the rows of W_l and of Y by reduced index. -/
structure Eliminated where
  block : Nat
  factor : Mat
  g : List F64
  w : List (Nat × List F64)
  y : List (Nat × List F64)

/-- The reduced system: S by rows (upper triangle), b, the landmarks eliminated, landmark pivots raised. -/
structure Reduced where
  s : Mat
  b : List F64
  marks : List Eliminated
  raised : Nat

/-- A landmark eliminated (R372). -/
def eliminateOne (l : Lay) (tau rho : F64) (h : Nat → Nat → F64) (g : Nat → F64) (m : Nat × Nat × List Nat) : Eliminated × Nat :=
  let c := m.2.1
  let f := chol3 tau rho (matOf 3 3 (fun i j => h (c + i) (c + j)))
  let w := m.2.2.flatMap (fun b =>
    match l.red[b]? with
    | none => []
    | some e => (List.range e.2.2.2).map (fun i => (e.2.2.1 + i, (List.range 3).map (fun k => h (e.2.1 + i) (c + k)))))
  ({ block := m.1, factor := f.1, g := (List.range 3).map (fun k => g (c + k)), w := w
     y := w.map (fun e => (e.1, cholSolve 3 f.1 e.2)) }, f.2)

/-- S, b and the landmarks of an iterate with damping λ (R371, R372). -/
def Problem.reduce (p : Problem) (l : Lay) (x : List BlockVal) (lam tau rho : F64) : Reduced :=
  let hg := p.normal l x lam
  let h (a b : Nat) : F64 := amGetD hg.1 (min a b * l.cols + max a b) 0
  let g (a : Nat) : F64 := amGetD hg.2 a 0
  let ms := l.marks.map (eliminateOne l tau rho h g)
  { s := matOf l.n l.n (fun i j =>
      if j < i then 0
      else ms.foldl (fun s m =>
        match amGet m.1.w i, amGet m.1.y j with
        | some w, some y => (List.range 3).foldl (fun s k => f64fma (f64neg (w.getD k 0)) (y.getD k 0) s) s
        | _, _ => s) (h (l.colOf i) (l.colOf j)))
    b := (List.range l.n).map (fun i => ms.foldl (fun s m =>
        match amGet m.1.w i with
        | some w =>
          let y := cholSolve 3 m.1.factor m.1.g
          (List.range 3).foldl (fun s k => f64fma (w.getD k 0) (y.getD k 0) s) s
        | none => s) (f64neg (g (l.colOf i))))
    marks := ms.map (·.1), raised := ms.foldl (fun a m => a + m.2) 0 }

/-! ## Factorisation and refinement (R374, R375) -/

def f32neg (x : F32) : F32 := x ^^^ 0x80000000#32

/-- Entry of an fp32 matrix. -/
def at32 (m : List (List F32)) (i j : Nat) : F32 := (m.getD i []).getD j 0

/-- A completed factorisation: U, E, reduced indices raised, whether a pivot was exactly zero. -/
structure Factored where
  u : List (List F32) := []
  e : List F64 := []
  raised : List Nat := []
  zero : Bool := false

/-- One row of the fp32 factor; none where a value is not finite (R374). -/
def factorStep (l : Lay) (s : Mat) (smax tau rho : F64) (a : Factored) (j : Nat) : Option Factored :=
  let ks := (List.range j).filter (fun k => l.structural k j)
  let d := ks.foldl (fun d k => f32fma (f32neg (at32 a.u k j)) (at32 a.u k j) d) (f64ToF32 (s.at_ j j))
  if !f32finite d then none
  else
    let low := f64lt (f32ToF64 d) (f64mul tau smax)
    let dn := if low then f64ToF32 (f64add (f64max (f32ToF64 d) 0) (f64mul rho smax)) else d
    let u := f32sqrt dn
    let row := (List.range l.n).map (fun i =>
      if i < j then 0
      else if i = j then u
      else if !l.structural j i then 0
      else f32div ((ks.filter (fun k => l.structural k i)).foldl
        (fun x k => f32fma (f32neg (at32 a.u k j)) (at32 a.u k i) x) (f64ToF32 (s.at_ j i))) u)
    if !f32finite dn || row.any (fun v => !f32finite v) then none
    else
      some {
        u := a.u ++ [row]
        e := a.e ++ [if low then f64sub (f32ToF64 dn) (f32ToF64 d) else 0]
        raised := if low then a.raised ++ [j] else a.raised
        zero := a.zero || (low && f64eq (f32ToF64 d) 0) }

/-- The fp32 factor of S (R374). -/
def factorise (l : Lay) (s : Mat) (tau rho : F64) : Option Factored :=
  let smax := match (List.range l.n).map (fun j => s.at_ j j) with
    | [] => 0
    | a :: ds => ds.foldl f64max a
  (List.range l.n).foldl (fun acc j => acc.bind (fun a => factorStep l s smax tau rho a j)) (some {})

/-- `solve32` (R375). -/
def solve32 (l : Lay) (u : List (List F32)) (b : List F32) : List F32 :=
  let z := (List.range l.n).foldl (fun z i =>
    z ++ [f32div (((List.range i).filter (fun k => l.structural k i)).foldl
      (fun a k => f32fma (f32neg (at32 u k i)) (z.getD k 0) a) (b.getD i 0)) (at32 u i i)]) []
  (List.range l.n).reverse.foldl (fun x i =>
    f32div (((List.range (l.n - (i + 1))).filter (fun k => l.structural i (i + 1 + k))).foldl
      (fun a k => f32fma (f32neg (at32 u i (i + 1 + k))) (x.getD k 0) a) (z.getD i 0)) (at32 u i i) :: x) []

/-- The largest magnitude of a vector. -/
def maxAbs (l : List F64) : F64 := l.foldl (fun a x => f64max a (f64abs x)) 0

/-- One pass of the refinement (R375): the next x, and whether it stops. -/
def refineStep (l : Lay) (s : Mat) (f : Factored) (b x : List F64) : List F64 × Bool :=
  let r := (List.range l.n).map (fun p =>
    let a := (List.range l.n).foldl (fun a q =>
      if l.structural (min p q) (max p q) then f64fma (f64neg (s.at_ (min p q) (max p q))) (x.getD q 0) a else a) (b.getD p 0)
    f64fma (f64neg (f.e.getD p 0)) (x.getD p 0) a)
  let c := (solve32 l f.u (r.map f64ToF32)).map f32ToF64
  ((x.zip c).map (fun y => f64add y.1 y.2), f64le (maxAbs c) (f64mul (f64pow2 (-44)) (maxAbs x)))

/-- Refinement passes until the stop test; whether it ended without it (R375). -/
def refineLoop (l : Lay) (s : Mat) (f : Factored) (b : List F64) : Nat → List F64 → List F64 × Bool
  | 0, x => (x, true)
  | n + 1, x =>
    let r := refineStep l s f b x
    if r.2 then (r.1, false) else refineLoop l s f b n r.1

/-- The solution of (S + E)·x = b, refined, and REFINE_LIMIT (R375). -/
def refine (l : Lay) (s : Mat) (f : Factored) (passes : Nat) (b : List F64) : List F64 × Bool :=
  refineLoop l s f b passes ((solve32 l f.u (b.map f64ToF32)).map f32ToF64)

/-- δ of an eliminated landmark (R375). -/
def backMark (m : Eliminated) (dc : List F64) : List F64 :=
  (cholSolve 3 m.factor ((List.range 3).map (fun k =>
    f64add (m.g.getD k 0) (fmaSum (m.w.map (fun e => (e.2.getD k 0, dc.getD e.1 0))))))).map f64neg

/-- The step of every free block, by block (R375). -/
def stepOf (l : Lay) (r : Reduced) (dc : List F64) : List (Nat × List F64) :=
  l.red.map (fun e => (e.1, (List.range e.2.2.2).map (fun i => dc.getD (e.2.2.1 + i) 0))) ++
    r.marks.map (fun m => (m.block, backMark m dc))

/-! ## The iteration (R376) -/

/-- The outcome of one pass: whether the step holds, the candidate, its cost, the step's elements; what the factorisation
counted. -/
structure Pass where
  next : Option (List BlockVal × F64 × List F64)
  factored : Option (Factored × Nat)
  refineLimit : Bool

/-- Assembly, factorisation and evaluation of one iteration at x with damping λ (R371 to R376). -/
def Problem.pass (p : Problem) (l : Lay) (q : SolveParams) (x : List BlockVal) (lam : F64) : Pass :=
  let tau := f64pow2 (-(q.tau : Int))
  let rho := f64pow2 (-(q.rho : Int))
  let r := p.reduce l x lam tau rho
  match factorise l r.s tau rho with
  | none => { next := none, factored := none, refineLimit := false }
  | some f =>
    let d := refine l r.s f q.refineMax r.b
    let st := stepOf l r d.1
    let all := st.flatMap (·.2)
    let nx := st.foldl (fun x e => modAt x e.1 (fun b => b.step e.2)) x
    let c := p.cost nx
    { next := if all.all f64finite && f64finite c then some (nx, c, all) else none
      factored := some (f, r.raised), refineLimit := d.2 }

/-- What a completed factorisation adds to the counts (R374, R376). -/
def Progress.count (g : Progress) (f : Option (Factored × Nat)) (limit : Bool) : Progress :=
  match f with
  | none => g
  | some (f, marks) =>
    { g with
      pivots := g.pivots + f.raised.length, landmarkPivots := g.landmarkPivots + marks
      firstPivot := if g.firstPivot.isNone then f.raised.head? else g.firstPivot
      zeroPivot := g.zeroPivot || f.zero, refineLimit := g.refineLimit || limit }

/-- The start of a solve (R376). -/
def Problem.start (p : Problem) (q : SolveParams) : Progress :=
  let x := p.blocks.map (·.value)
  let F := p.cost x
  { x := x, f := F, f0 := F, lam := q.lambda0, ended := if f64eq F 0 then some .ok else none }

/-- One iteration taken (R376): the step accepted, rejected or failed, and the end it may bring. -/
def Problem.iterate (p : Problem) (l : Lay) (q : SolveParams) (g : Progress) : Progress :=
  if g.ended.isSome then g
  else if q.maxIterations ≤ g.it then { g with ended := some .iterLimit }
  else
    let r := p.pass l q g.x g.lam
    let g := { g.count r.factored r.refineLimit with it := g.it + 1 }
    let g := match r.next with
      | none =>
        if 4 < g.fails + 1 then { g with fails := g.fails + 1, ended := some .diverged }
        else { g with fails := g.fails + 1, retries := g.retries + 1, lam := f64mul g.lam (f64ofInt 10) }
      | some (nx, c, d) =>
        let g := { g with fails := 0 }
        if f64lt c g.f then
          let conv := f64le (f64sub g.f c) (f64mul q.tolCost g.f) || f64le (maxAbs d) q.tolStep
          { g with
            x := nx, f := c, acc := g.acc + 1, lam := f64max (f64div g.lam (f64ofInt 10)) (f64pow2 (-40))
            ended := if conv then some .ok else none }
        else
          let lam := f64mul g.lam (f64ofInt 10)
          { g with lam := lam, ended := if f64lt (f64pow2 40) lam then some .stalled else none }
    if g.ended.isNone && decide (q.maxIterations ≤ g.it) then { g with ended := some .iterLimit } else g

/-- A solve run to its end; the fuel is MAX_ITERATIONS. -/
def Problem.run (p : Problem) (l : Lay) (q : SolveParams) : Nat → Progress → Progress
  | 0, g => g
  | n + 1, g => if g.ended.isSome then g else Problem.run p l q n (p.iterate l q g)

/-! ## Covariances (R378) -/

/-- The covariance of each free pose or position block at an iterate: its upper triangle, row by row; none where the
factorisation or a solve fails. With it, what the factorisation counts. -/
def Problem.covariances (p : Problem) (l : Lay) (q : SolveParams) (x : List BlockVal) :
    Option (List (Nat × List F64) × Factored × Nat × Bool × Reduced) :=
  let tau := f64pow2 (-(q.tau : Int))
  let rho := f64pow2 (-(q.rho : Int))
  let r := p.reduce l x 0 tau rho
  match factorise l r.s tau rho with
  | none => none
  | some f =>
    let isPose (b : Nat) : Bool := match x[b]? with
      | some (.pose _) => true
      | some (.position _) => true
      | _ => false
    let unit (k : Nat) : List F64 := (List.range l.n).map (fun i => if i = k then f64one else 0)
    let cs := (l.red.filter (fun e => isPose e.1)).map (fun e =>
      let cols := (List.range e.2.2.2).map (fun j => refine l r.s f q.refineMax (unit (e.2.2.1 + j)))
      (e.1, (List.range e.2.2.2).flatMap (fun i => (List.range (e.2.2.2 - i)).map (fun k =>
        ((cols.getD (i + k) ([], false)).1).getD (e.2.2.1 + i) 0)), cols.any (·.2)))
    if cs.all (fun c => c.2.1.all f64finite) then some (cs.map (fun c => (c.1, c.2.1)), f, r.raised, cs.any (·.2.2), r)
    else none

end Sys2Proof.Machine
end

