-- ==== Sys2Proof/Machine/Flash.lean ====
section
/-! DEFINITION. The shelf engines' channels: LUNs, blocks, page programs, violations, the addenda log (R403 to R409, R433 to
R437). -/
namespace Sys2Proof.Machine

/-- The Catalogue changed. -/
def State.modCat (s : State) (f : Catalogue → Catalogue) : State := { s with catalogue := f s.catalogue }

/-- A shelf engine. -/
def State.engine (s : State) (e : Nat) : Engine := s.catalogue.engines.getD e {}

/-- A shelf engine changed. -/
def State.modEngine (s : State) (e : Nat) (f : Engine → Engine) : State :=
  s.modCat (fun c => { c with engines := modAt c.engines e f })

/-! ## Blocks (R433, R436) -/

/-- LUNs that take data: in service and not left unused. -/
def Engine.live (e : Engine) : List Lun := e.luns.filter (fun l => l.inService && !l.unused)

/-- Blocks of a channel: those of its used LUNs, in order, numbered from 0. -/
def Engine.total (e : Engine) : Nat := (e.luns.filter (fun l => !l.unused)).foldl (fun a l => a + l.blocks) 0

/-- The LUN that holds a channel-local block, and the block's number within it. -/
def lunOfBlock : List Lun → Nat → Option (Lun × Nat)
  | [], _ => none
  | l :: ls, b => if l.unused then lunOfBlock ls b else if b < l.blocks then some (l, b) else lunOfBlock ls (b - l.blocks)

/-- The channel-local number of the first block of a LUN. -/
def firstBlock : List Lun → Nat → Nat → Nat
  | [], _, _ => 0
  | l :: ls, ce, n => if l.ce = ce && l.lun = n then 0 else (if l.unused then 0 else l.blocks) + firstBlock ls ce n

/-- A block's record. -/
def Engine.block (e : Engine) (b : Nat) : FlashBlock := amGetD e.blocks b {}

/-- A block's record changed. -/
def Engine.modBlock (e : Engine) (b : Nat) (f : FlashBlock → FlashBlock) : Engine :=
  { e with blocks := amSet e.blocks b (f (e.block b)) }

/-- Whether a block may be erased and written: free, not retired, on a LUN in service. -/
def Engine.free (e : Engine) (b : Nat) : Bool :=
  !(e.block b).used && !(e.block b).retired &&
    (match lunOfBlock e.luns b with | some l => l.1.inService | none => false)

/-- The free block of least erase count, the lowest number among equals (R436). -/
def Engine.leastWorn (e : Engine) : Option Nat :=
  (List.range e.total).foldl (fun best b =>
    if !e.free b then best
    else match best with
      | none => some b
      | some a => if (e.block b).erases < (e.block a).erases then some b else best) none

/-- Spare share of a channel in per cent: blocks neither in use nor retired (R427, R436). -/
def Engine.spare (e : Engine) : Nat :=
  if e.total = 0 then 0
  else ((List.range e.total).filter (fun b => e.free b)).length * 100 / e.total

/-- The NAND row address of a page of a channel-local block: its block within its LUN, then its page. -/
def Engine.row (e : Engine) (b page : Nat) : Nat :=
  match lunOfBlock e.luns b with
  | none => 0
  | some l => l.2 * l.1.pages + page

/-- The number of the LUN of a block on its channel: 8 · chip enable + LUN. -/
def Engine.lunNo (e : Engine) (b : Nat) : Nat :=
  match lunOfBlock e.luns b with
  | none => 0
  | some l => 8 * l.1.ce + l.1.lun

/-- Pages of a block. -/
def Engine.pages (e : Engine) (b : Nat) : Nat :=
  match lunOfBlock e.luns b with
  | none => 0
  | some l => l.1.pages

/-- A free block erased for writing (R436); none where the channel has none. -/
def State.takeBlock (s : State) (e : Nat) : Option (Nat × State) :=
  match (s.engine e).leastWorn with
  | none => none
  | some b =>
    let x := s.engine e
    some (b, (s.modEngine e (fun x => x.modBlock b (fun k => { k with erases := k.erases + 1, used := true }))).emit
      [.flash e (x.lunNo b) 2 (x.row b 0) []])

/-- A page of data as NAND carries it: each 32-byte word followed by its three check bytes (R72, R403). -/
def nandWords (d : Bytes) : Bytes :=
  (List.range ((d.length + 31) / 32)).flatMap (fun i =>
    let w := takePad 32 ((d.drop (32 * i)).take 32)
    w ++ (encodeWord w).take 3)

/-- A page programmed. -/
def State.program (s : State) (e b page : Nat) (d : Bytes) : State :=
  let x := s.engine e
  s.emit [.flash e (x.lunNo b) 1 (x.row b page) d]

/-- A page appended to the block that an engine fills with pages of the log, the map and the metadata: the block taken. -/
def State.appendPage (s : State) (e : Nat) (d : Bytes) : Option (Nat × State) :=
  let x := s.engine e
  match x.filling with
  | some (b, p) =>
    if p < x.pages b then some (b, (s.program e b p d).modEngine e (fun x => { x with filling := some (b, p + 1) }))
    else
      match s.takeBlock e with
      | none => none
      | some (b, s) => some (b, (s.program e b 0 d).modEngine e (fun x => { x with filling := some (b, 1) }))
  | none =>
    match s.takeBlock e with
    | none => none
    | some (b, s) => some (b, (s.program e b 0 d).modEngine e (fun x => { x with filling := some (b, 1) }))

/-- Engines that can be written: with NAND in service, and themselves in service. -/
def State.writable (s : State) : List Nat :=
  (List.range 64).filter (fun e => !(s.engine e).live.isEmpty && !s.unitDown 0x0011 e)

/-! ## The write rate (R425, R430, R436) -/

/-- Nanoseconds that bytes of NAND take at WRITE_MIB_S (R425). -/
def State.writeNs (s : State) (bytes : Nat) : Nat := bytes * 1000000000 / (s.catalogue.writeMib * 2 ^ 20)

/-- Whether WRITE_MIB_S lets bytes whose writing began at a record time be written by now, after what was written before (R425). -/
def State.mayWrite (s : State) (since bytes : Nat) : Bool := decide (max since s.catalogue.writeFree + s.writeNs bytes ≤ s.now)

/-- Bytes written within WRITE_MIB_S; the bound no longer holds the loop back (R425, R436). -/
def State.written (s : State) (since bytes : Nat) : State :=
  (s.modCat (fun c => { c with writeFree := max since c.writeFree + s.writeNs bytes })).unpinBound 0x10

/-! ## Spare and retirement (R427, R428, R436) -/

/-- The channels whose spare has fallen below SPARE_PCT (R436). -/
def State.lowSpare (s : State) : List Nat :=
  (List.range 64).filter (fun e => (s.engine e).total ≠ 0 && decide ((s.engine e).spare < s.catalogue.sparePct))

/-- BOUND_CONFLICT 0x08 stands while a channel's spare lies below SPARE_PCT (R436, R359). -/
def State.judgeSpare (s : State) : State :=
  match s.lowSpare with
  | [] => s.clearConflict 0x08
  | e :: _ => s.openConflict 0x08 e

/-- A block retired: 0 program, 1 erase, 2 read (R428, R435, R437). -/
def State.retireBlock (s : State) (e b detail : Nat) : State :=
  if ((s.engine e).block b).retired then s
  else
    let row := (s.engine e).row b 0
    (((s.modEngine e (fun x => { x.modBlock b (fun k => { k with retired := true, used := false }) with
        retired := satAdd 32 x.retired 1
        filling := match x.filling with | some (a, p) => if a = b then none else some (a, p) | none => none })).modCat
      (fun c => { c with blocksRetired := satAdd 32 c.blocksRetired 1 })).event s.catalogue.eventQueue
        { code := 0x0506, subject := e, detail := detail, value := row }).judgeSpare

/-- A flash violation counted and, first of its reason on its LUN in a reporting window, reported (R437, R613). -/
def State.shelfViolation (s : State) (e reason ce lun row : Nat) : State :=
  let v := ce * 256 + lun
  (s.modEngine e (fun x => { x with violations := satAdd 32 x.violations 1 })).report
    { family := 0x0505, subject := e * 65536 + v, reason := reason }
    (fun _ => [.event s.catalogue.eventQueue { code := 0x0505, subject := e, detail := reason, value := v },
      .errata { cls := 0, unit := 0x0011, inst := e, code := reason, flags := 4, location := row }])

/-! ## The addenda log (R409) -/

/-- A log record as 256 bytes: an entry as R407 lays it out, or the kind 1 (delete) or 2 (reservation) in byte 24's place
with its identifier; the manual gives the log no layout. -/
def LogRec.bytes : LogRec → Bytes
  | .entry a =>
    let link (l : List Nat) : Bytes :=
      (List.range 16).flatMap (fun i => le 4 (l[i]?.elim 0xFFFFFFFF (fun p => p % 2 ^ 32)))
    le 8 a.id ++ le 8 a.attr ++ le 8 a.pos ++ le 1 a.coll ++ zeros 7 ++ takePad 64 a.code ++ link a.forward ++ link a.back ++ zeros 32
  | .delete i => le 8 i ++ zeros 23 ++ le 1 1 ++ zeros 224
  | .reserve i => le 8 i ++ zeros 23 ++ le 1 2 ++ zeros 224

/-- The records not yet on a page written as one page, on the writable engines in turn (R409). -/
def State.writeLog (s : State) : State :=
  let c := s.catalogue
  if c.logOpen.isEmpty then s
  else
    let es := s.writable
    match es[c.logCount % max es.length 1]? with
    | none => s
    | some e =>
      match s.appendPage e (nandWords (c.logOpen.flatMap (·.bytes))) with
      | none => s
      | some (b, s) => s.modCat (fun c => { c with
          logPages := c.logPages ++ [{ engine := e, block := b, recs := c.logOpen }], logOpen := [], logCount := c.logCount + 1 })

/-- A record appended to the log; a page is written when 57 fill one (R409). -/
def State.logAppend (s : State) (r : LogRec) : State :=
  let s := s.modCat (fun c => { c with
    logOpen := c.logOpen ++ [r], logged := c.logged + 1, logSince := if c.logOpen.isEmpty then s.now else c.logSince })
  if 57 ≤ s.catalogue.logOpen.length then s.writeLog else s

/-- Deletes of other members whose records are on NAND answered (R409, R423). -/
def State.answerAsked (s : State) : State :=
  let c := s.catalogue
  (c.durableAsked.filter (fun d => decide (d.1 ≤ c.logSafe))).foldl (fun s d => s.control d.2.1 0x51 [d.2.2, 0])
    (s.modCat (fun c => { c with durableAsked := c.durableAsked.filter (fun d => !decide (d.1 ≤ c.logSafe)) }))

/-- Jobs and other members' deletes whose records are on NAND end (R409). -/
def State.endDurable (s : State) : State :=
  let s := s.answerAsked
  let c := s.catalogue
  (c.durable.filter (fun d => decide (d.2.1 ≤ c.logSafe))).foldl (fun s d => s.finish d.1 d.2.2)
    (s.modCat (fun c => { c with durable := c.durable.filter (fun d => !decide (d.2.1 ≤ c.logSafe)) }))

/-- ADDENDA_LOG_FLUSH: 10 ms after the oldest record not yet written the log writes a page (R409). -/
def execAddendaLogFlush (s : State) : Answer :=
  .next <|
    if s.catalogue.logOpen.isEmpty || decide (s.now < s.catalogue.logSince + 10000000) then s else s.writeLog

/-! ## Pages that end (R435 to R437) -/

/-- Nodes of the current generation in a page of a segment (R405). -/
def Generation.nodesIn (g : Generation) (seg page : Nat) : List Nat :=
  (g.nodes.filter (fun e => (e.1 % 2 ^ 34) / 65536 == seg && e.1 % 65536 / 6 == page)).map (·.1)

/-- The segment that a block of an engine holds, and the block's place in its list. -/
def Generation.segmentOf (g : Generation) (e b : Nat) : Option (Nat × Nat) :=
  g.segments.findSome? (fun x =>
    if g.engines.getD (x.1 / 4096) 0 = e then (x.2.findIdx? (· == b)).map (fun i => (x.1, i)) else none)

/-- Nodes that become unreadable (R412, R428, R435). -/
def State.unreadNodes (s : State) (shard : Nat) (ids : List Nat) : State :=
  let new := ids.filter (fun i => !s.catalogue.unreadable.contains i)
  if new.isEmpty then s
  else
    (s.modCat (fun c => { c with unreadable := c.unreadable ++ new, readFailed := satAdd 32 c.readFailed new.length })).event
      s.catalogue.eventQueue { code := 0x0504, subject := shard, value := new.length }

/-- A LUN changed. -/
def Engine.modLun (x : Engine) (ce lun : Nat) (f : Lun → Lun) : Engine :=
  { x with luns := mapIf (fun l => l.ce == ce && l.lun == lun) f x.luns }

/-- NAND_READ_END: the read of page `page` of channel-local block `block` has ended after `retries` retry levels; `failed` lists the
places, 0 to 5, of the page's nodes that neither LDPC nor the word code gave, `trailer` says that its page trailer matches (R405,
R435, R437). The read leaves those under way, and with it the nodes that were read ahead and that no walk has expanded are
discarded (R417). -/
def execNandReadEnd (engine block page retries : Nat) (failed : List Nat) (trailer : Bool) (s : State) : Answer :=
  .next <|
    let x := s.engine engine
    match lunOfBlock x.luns block with
    | none => s
    | some (l, _) =>
      let s := s.modEngine engine (fun x => { x.modLun l.ce l.lun (fun l => { l with retrying := false }) with
        reads := x.reads.filter (fun r => r.block ≠ block || r.page ≠ page) })
      let row := x.row block page
      let s := if 4 < retries then s.modEngine engine (fun x => x.modBlock block (fun k => { k with worn := true })) else s
      let s := if failed.isEmpty then s
        else (s.shelfViolation engine 0x07 l.ce l.lun row).tell
          [.errata { cls := 2, unit := 0x0011, inst := engine, code := 0x07, location := row }]
      let s := if failed.isEmpty && !trailer then s.shelfViolation engine 0x09 l.ce l.lun row else s
      if failed.isEmpty && trailer then s
      else
        match s.catalogue.current.segmentOf engine block with
        | none => s
        | some (seg, i) => s.unreadNodes (seg / 4096)
            ((s.catalogue.current.nodesIn seg (i * l.pages + page)).filter (fun n => !trailer || failed.contains (n % 65536 % 6)))

/-- A segment's block replaced by a fresh one, on which its write is redone (R437). -/
def State.redoSegment (s : State) (e b : Nat) : State :=
  match s.catalogue.current.segmentOf e b with
  | none => s
  | some (seg, _) =>
    match s.takeBlock e with
    | none => s
    | some (n, s) => s.modCat (fun c => { c with current := { c.current with
        segments := mapIf (fun x => x.1 == seg) (fun x => (x.1, x.2.map (fun k => if k = b then n else k))) c.current.segments } })

/-- A page of the log on its way to a block: taken off the list (R409). -/
def State.takeLogPage (s : State) (e b : Nat) : Option (LogPage × State) :=
  match s.catalogue.logPages.find? (fun p => p.engine == e && p.block == b) with
  | none => none
  | some p => some (p, s.modCat (fun c => { c with logPages := c.logPages.erase p }))

/-- NAND_PROGRAM_END: the program of a page of a block has ended; FAIL retires the block and redoes the write elsewhere
(R409, R428, R437). -/
def execNandProgramEnd (engine block : Nat) (ok : Bool) (s : State) : Answer :=
  .next <|
    let x := s.engine engine
    match lunOfBlock x.luns block with
    | none => s
    | some (l, _) =>
      let s := s.modEngine engine (fun x => x.modLun l.ce l.lun (fun l => { l with retrying := false }))
      if ok then
        match s.takeLogPage engine block with
        | none => s
        | some (p, s) => (s.modCat (fun c => { c with
            logNand := c.logNand ++ p.recs, logSafe := c.logSafe + p.recs.length })).endDurable
      else
        let s := (s.shelfViolation engine 0x05 l.ce l.lun (x.row block 0)).retireBlock engine block 0
        match s.takeLogPage engine block with
        | some (p, s) => (s.modCat (fun c => { c with logOpen := p.recs ++ c.logOpen })).writeLog
        | none => s.redoSegment engine block

/-- NAND_ERASE_END: the erase of a block has ended; FAIL retires it (R428, R436, R437). -/
def execNandEraseEnd (engine block : Nat) (ok : Bool) (s : State) : Answer :=
  .next <|
    let x := s.engine engine
    match lunOfBlock x.luns block with
    | none => s
    | some (l, _) =>
      let s := s.modEngine engine (fun x => x.modLun l.ce l.lun (fun l => { l with retrying := false }))
      if ok then s
      else ((s.shelfViolation engine 0x06 l.ce l.lun (x.row block 0)).retireBlock engine block 1).redoSegment engine block

/-- A LUN taken out of service: the nodes that it held become unreadable (R437). -/
def State.lunOut (s : State) (e ce lun : Nat) : State :=
  let x := s.engine e
  let first := firstBlock x.luns ce lun
  match x.luns.find? (fun l => l.ce == ce && l.lun == lun) with
  | none => s
  | some l =>
    let s := s.modEngine e (fun x => { x.modLun ce lun (fun l => { l with inService := false, retrying := false }) with
      reads := x.reads.filter (fun r => r.block < first || first + l.blocks ≤ r.block) })
    let g := s.catalogue.current
    (g.segments.filter (fun y => g.engines.getD (y.1 / 4096) 0 == e)).foldl (fun s y =>
      s.unreadNodes (y.1 / 4096) (((List.range y.2.length).zip y.2).flatMap (fun b =>
        if first ≤ b.2 && b.2 < first + l.blocks then
          (List.range l.pages).flatMap (fun p => g.nodesIn y.1 (b.1 * l.pages + p))
        else []))) s

/-- NAND_BUSY_TIMEOUT: a LUN stays busy beyond its limit : it is reset and the operation tried once more; a second time
takes it out of service (R437). -/
def execNandBusyTimeout (engine ce lun : Nat) (s : State) : Answer :=
  .next <|
    match (s.engine engine).luns.find? (fun l => l.ce == ce && l.lun == lun) with
    | none => s
    | some l =>
      if !l.inService || l.unused then s
      else
        let s := s.shelfViolation engine 0x04 ce lun 0
        if l.retrying then s.lunOut engine ce lun
        else (s.modEngine engine (fun x => x.modLun ce lun (fun l => { l with retrying := true }))).emit
          [.flash engine (8 * ce + lun) 3 0 []]

/-! ## Deletes (R399, R410) -/

/-- Whether a vector is deleted at a delete count: its bit is set, or a pending pair names it (R410). -/
def Catalogue.deletedAt (c : Catalogue) (id x : Nat) : Bool :=
  c.tombstones.contains (id % 2 ^ 34) || c.pendingDeletes.any (fun d => d.1 == id && decide (d.2 ≤ x))

/-- Whether a member's own identifier was ever assigned (R397, R398). -/
def Catalogue.assigned (c : Catalogue) (id : Nat) : Bool :=
  let l := id % 2 ^ 37
  l ≠ 0 && decide (l < c.nextId) && !c.skipped.any (fun r => decide (r.1 ≤ l) && decide (l ≤ r.2))

/-- Whether a vector stands in the current generation or the addenda. -/
def Catalogue.holdsVector (c : Catalogue) (id : Nat) : Bool :=
  (amGet c.current.nodes id).isSome || c.addenda.any (fun a => a.id == id)

/-- A vector of this member that is not deleted. -/
def Catalogue.liveVector (c : Catalogue) (id : Nat) : Bool :=
  c.assigned id && c.holdsVector id && !c.deletedAt id c.deletes

/-- One delete entered: the next delete count, the pending list, the log (R409, R410). -/
def State.enterDelete (s : State) (id : Nat) : State :=
  (s.modCat (fun c => { c with deletes := c.deletes + 1, pendingDeletes := c.pendingDeletes ++ [(id, c.deletes + 1)] })).logAppend
    (.delete id)

/-- In reference service the delete count stands as it stood at entry (R439). -/
def State.deletesStand (s : State) : Bool := s.reference.state == .active || s.reference.state == .exiting

/-- Identifiers of a DELETE taken until the pending list is full or reference service holds the delete count; what is left waits
(R410, R423, R439). -/
def takeDeletes : Nat → WaitingDelete → State → WaitingDelete × State
  | 0, d, s => (d, s)
  | n + 1, d, s =>
    match d.ids with
    | [] => (d, s)
    | i :: is =>
      if i / 2 ^ 37 ≠ s.position then
        if s.present.contains (i / 2 ^ 37) then
          takeDeletes n { d with ids := is, remote := d.remote ++ [i] } (s.control (i / 2 ^ 37) 0x50 [i, flag d.durable])
        else takeDeletes n { d with ids := is } s
      else if s.catalogue.liveVector i then
        if decide (65536 ≤ s.catalogue.pendingDeletes.length) || s.deletesStand then (d, s)
        else takeDeletes n { d with ids := is, fresh := d.fresh + 1 } (s.enterDelete i)
      else if s.catalogue.assigned i then takeDeletes n { d with ids := is, already := d.already + 1 } s
      else takeDeletes n { d with ids := is, never := d.never + 1 } s

/-- Deletes of the device itself (R399). -/
def State.deleteVectors (s : State) (ids : List Nat) : State :=
  let r := takeDeletes ids.length { job := none, ids := ids, fresh := 0, already := 0, never := 0 } s
  if r.1.ids.isEmpty then r.2 else r.2.modCat (fun c => { c with deleteWaiting := c.deleteWaiting ++ [r.1] })

end Sys2Proof.Machine
end

