-- ==== Sys2Proof/Machine/MapRec.lean ====
section
/-! DEFINITION. Map records, pages, editions, draft cuts (R326 to R334, R341, R342, R346). -/
namespace Sys2Proof.Machine

/-! ## Sheets (R326) -/

/-- The sheet of a plan position; none outside the range of sheet coordinates (R326). -/
def sheetOf (x y : Int) : Option Nat :=
  let sx := x.fdiv 32768
  let sy := y.fdiv 32768
  if -32768 ≤ sx && sx < 32768 && -32768 ≤ sy && sy < 32768 then
    some ((sy + 32768).toNat * 65536 + (sx + 32768).toNat)
  else none

/-- Sheet coordinates of a sheet number. -/
def sheetX (n : Nat) : Int := (n % 65536 : Nat) - 32768
def sheetY (n : Nat) : Int := (n / 65536 : Nat) - 32768

/-! ## Records (R329 to R332) -/

/-- A field of 5 bytes of map identifier. -/
def idAt (b : Bytes) (o : Nat) : Nat := fldB b o 5

/-- FROM, TO and KIND of an edge as its key, which orders edges as (FROM, TO, KIND) does (R332). -/
def edgeKey (b : Bytes) : Nat := (idAt b 4 * 2 ^ 40 + idAt b 9) * 256 + fldB b 0 1

/-- The plan position of a keyframe in map units (R328). -/
def keyframeUnits (b : Bytes) : Option (Int × Int) :=
  match mapUnits (poseAt b 8).t.x, mapUnits (poseAt b 8).t.y with
  | some x, some y => some (x, y)
  | _, _ => none

/-- Whether a record has RETIRED set (R330 to R332). -/
def MapTable.retired (t : MapTable) (b : Bytes) : Bool :=
  match t with
  | .landmark => (fldB b 22 1).testBit 0
  | .keyframe => (fldB b 185 1).testBit 0
  | .edge => (fldB b 1 1).testBit 0

/-- The camera of a keyframe (R331). -/
def cameraOf (b : Bytes) : Camera :=
  { model := fldB b 184 1, width := fldB b 186 2, height := fldB b 188 2
    params := (List.range 8).map (fun i => BitVec.ofNat 64 (fldB b (192 + 8 * i) 8)) }

/-- fp32 and fp64 values in a byte run. -/
def f32At (b : Bytes) (o : Nat) : F32 := BitVec.ofNat 32 (fldB b o 4)
def f64At (b : Bytes) (o : Nat) : F64 := BitVec.ofNat 64 (fldB b o 8)

/-- The first values of a list of fp32 fields are finite and, for those marked, above 0. -/
def f32sOk (b : Bytes) (o n : Nat) (positive : Bool) : Bool :=
  (List.range n).all (fun i => f32finite (f32At b (o + 4 * i)) && (!positive || f32lt 0 (f32At b (o + 4 * i))))

/-- A covariance of n parameters as R68 stores it: finite, no diagonal entry negative. -/
def covOk (b : Bytes) (o n : Nat) : Bool :=
  f32sOk b o (n * (n + 1) / 2) false &&
    (List.range n).all (fun i => !f32lt (f32At b (o + 4 * covIndex n i i)) 0)

/-- Camera parameters of a model: finite, and zero beyond those of the model (R298). -/
def paramsOk (model : Nat) (params : List F64) : Bool :=
  let used := if model = 0 then 4 else if model = 1 then 8 else 5
  decide (model ≤ 2) && params.all f64finite && (params.drop used).all (fun v => f64eq v 0)

/-- A camera's fields in range (R298). -/
def cameraOk (model width height : Nat) (params : List F64) : Bool :=
  decide (16 ≤ width) && decide (width ≤ 8192) && decide (16 ≤ height) && decide (height ≤ 8192) && paramsOk model params

/-- Dimensions of an edge's measurement and of its sigma (R332, R368). -/
def edgeDims (kind : Nat) : Nat × Nat :=
  if kind = 1 then (2, 2) else if kind = 5 then (4, 1) else (6, 6)

/-- The fields of a landmark record in range (R330). -/
def landmarkOk (b : Bytes) : Bool :=
  decide (fldB b 0 8 < 2 ^ 40) && decide (fldB b 22 1 < 4) &&
    (let p := mapPosAt b 8; (sheetOf p.x p.y).isSome)

/-- The fields of a keyframe record in range (R331, R67). -/
def keyframeOk (b : Bytes) : Bool :=
  decide (fldB b 0 8 < 2 ^ 40) && (poseAt b 8).ok && decide (fldB b 168 8 < 2 ^ 40) && decide (fldB b 185 1 < 8) &&
    paramsOk (fldB b 184 1) (cameraOf b).params &&
    (match keyframeUnits b with | some p => (sheetOf p.1 p.2).isSome | none => false)

/-- The fields of an edge record in range (R332). -/
def edgeRecOk (b : Bytes) : Bool :=
  let k := fldB b 0 1
  let d := edgeDims k
  decide (1 ≤ k) && decide (k ≤ 5) && decide (fldB b 1 1 < 2) && decide (fldB b 2 1 ≤ 3) &&
    idAt b 4 ≠ 0 && (if k ≤ 3 then idAt b 9 ≠ 0 else idAt b 9 = 0) &&
    (fldB b 2 1 = 0 || (let x := f16ToF32 (fldB b 14 2); f32finite x && f32lt 0 x)) &&
    f32sOk b 16 d.1 false && f32sOk b 40 d.2 true

/-- A keyframe record as the device keeps and returns it: its quaternion canonical, its reserved bytes zero (R13, R66, R67). -/
def canonKeyframe (b : Bytes) : Bytes :=
  let p := poseAt b 8
  b.take 8 ++ ({ p with q := p.q.canon } : Pose).bytes ++ (b.take 190).drop 64 ++ zeros 2 ++ b.drop 192

/-- An edge record as the device keeps and returns it: its reserved byte zero (R13, R332). -/
def canonEdge (b : Bytes) : Bytes := b.take 3 ++ zeros 1 ++ b.drop 4

/-! ## Pages and editions (R333, R334) -/

/-- Records of a page of a table, and pages of a table's region (R25, R333). -/
def MapTable.perPage : MapTable → Nat
  | .keyframe => 16
  | _ => 64

def MapTable.pages : MapTable → Nat
  | .landmark => 2097152
  | .keyframe => 262144
  | .edge => 1048576

/-- The pages of a sheet. -/
def Edition.pages (e : Edition) (sheet : Nat) : List Page := amGetD e.sheets sheet []

/-- The sheet and the bytes of a record. -/
def Edition.find (e : Edition) (t : MapTable) (key : Nat) : Option (Nat × Bytes) :=
  e.sheets.findSome? (fun s => s.2.findSome? (fun p => if p.table = t then (amGet p.recs key).map (fun b => (s.1, b)) else none))

/-- The records of a table in a sheet, by rising key. -/
def Edition.inSheet (e : Edition) (t : MapTable) (sheet : Nat) : List (Nat × Bytes) :=
  (e.pages sheet).foldl (fun m p => if p.table = t then p.recs.foldl (fun m r => amSet m r.1 r.2) m else m) []

/-- A page changed: in place where it was made since page number `start`, otherwise as a copy (R333). -/
def changePage (start next : Nat) (p : Page) (f : List (Nat × Bytes) → List (Nat × Bytes)) : Page × Nat :=
  if start ≤ p.id then ({ p with recs := f p.recs }, next) else ({ p with id := next, recs := f p.recs }, next + 1)

/-- The first page that meets a condition changed; none where no page does. -/
def changeFirst (start next : Nat) (cond : Page → Bool) (f : List (Nat × Bytes) → List (Nat × Bytes)) :
    List Page → Option (List Page × Nat)
  | [] => none
  | p :: ps =>
    if cond p then
      let r := changePage start next p f
      some (r.1 :: ps, r.2)
    else (changeFirst start next cond f ps).map (fun r => (p :: r.1, r.2))

/-- A record put into the pages of a sheet: in the place of one of its key, else in the first page with room, else in a
new page. -/
def putPage (start next : Nat) (t : MapTable) (key : Nat) (d : Bytes) (ps : List Page) : List Page × Nat :=
  match changeFirst start next (fun p => p.table == t && (amGet p.recs key).isSome) (fun r => amSet r key d) ps with
  | some r => r
  | none =>
    match changeFirst start next (fun p => p.table == t && decide (p.recs.length < t.perPage)) (fun r => amSet r key d) ps with
    | some r => r
    | none => (ps ++ [{ id := next, table := t, recs := [(key, d)] }], next + 1)

/-- A record taken out of the pages of a sheet; a page left with none is dropped. -/
def dropRec (start next : Nat) (t : MapTable) (key : Nat) (ps : List Page) : List Page × Nat :=
  match changeFirst start next (fun p => p.table == t && (amGet p.recs key).isSome) (fun r => amDel r key) ps with
  | some r => (r.1.filter (fun p => !p.recs.isEmpty), r.2)
  | none => (ps, next)

/-- An edition under change: the next page number, and the sheets touched. -/
structure Work where
  ed : Edition
  next : Nat
  touched : List Nat := []
  deriving DecidableEq, Repr

/-- A record put in a sheet, and taken out of the sheet that held it before (R328). -/
def Work.put (start : Nat) (w : Work) (t : MapTable) (key sheet : Nat) (d : Bytes) : Work :=
  let old := (w.ed.find t key).map (·.1)
  let w := match old with
    | some o =>
      if o = sheet then w
      else
        let r := dropRec start w.next t key (w.ed.pages o)
        { w with ed := { w.ed with sheets := amSet w.ed.sheets o r.1 }, next := r.2
                 touched := if w.touched.contains o then w.touched else w.touched ++ [o] }
    | none => w
  let r := putPage start w.next t key d (w.ed.pages sheet)
  { ed := { w.ed with sheets := amSet w.ed.sheets sheet r.1 }, next := r.2
    touched := if w.touched.contains sheet then w.touched else w.touched ++ [sheet] }

/-- The sheet of a record that an edit writes (R328). -/
def Edition.sheetFor (e : Edition) (m : MapWrite) : Option Nat :=
  match m.table with
  | .landmark => let p := mapPosAt m.data 8; sheetOf p.x p.y
  | .keyframe => (keyframeUnits m.data).bind (fun p => sheetOf p.1 p.2)
  | .edge => (e.find .keyframe (idAt m.data 4)).map (·.1)

/-- One record of an edit written; a keyframe that changes sheet takes its edges along (R328). -/
def Work.write (start : Nat) (w : Work) (m : MapWrite) : Work :=
  match w.ed.sheetFor m with
  | none => w
  | some sheet =>
    let old := (w.ed.find m.table m.key).map (·.1)
    let w := w.put start m.table m.key sheet m.data
    match m.table, old with
    | .keyframe, some o =>
      if o = sheet then w
      else ((w.ed.inSheet .edge o).filter (fun r => idAt r.2 4 == m.key)).foldl (fun w r => w.put start .edge r.1 sheet r.2) w
    | _, _ => w

/-- What an edit writes: its records, then the edges that its keyframes carry along (R328). -/
def Edit.content (e : Edit) : List MapWrite := e.writes ++ e.carried

/-- The number of an edit's state, and what it wrote in a state: it has a new state with every revision (R339). -/
def Edit.revision (e : Edit) : Nat := e.past.length
def Edit.contentAt (e : Edit) (rev : Nat) : Option (List MapWrite) := if rev = e.revision then some e.content else e.past[rev]?

/-- The records of an edit applied to an edition (R333). -/
def Edition.apply (start next : Nat) (e : Edition) (ws : List MapWrite) : Work :=
  ws.foldl (fun w m => w.write start m) { ed := e, next := next }

/-! ## Edits, chains, sets, cuts (R340 to R342) -/

/-- An edit. -/
def State.edit (s : State) (n : Nat) : Option Edit := amGet s.map.edits n

/-- The map changed. -/
def State.modMap (s : State) (f : MapSt → MapSt) : State := { s with map := f s.map }

/-- An edit changed. -/
def State.modEdit (s : State) (n : Nat) (f : Edit → Edit) : State :=
  match s.edit n with
  | none => s
  | some e => s.modMap (fun m => { m with edits := amSet m.edits n (f e) })

/-- Whether an edit is pencilled: in the draft, and neither inked nor withdrawn (R339, R342). -/
def Edit.inDraft (e : Edit) : Bool := e.state = .pencilled || e.state = .inking

/-- An edit's chain: its dependency, that edit's dependency, and so on (R340). -/
def editChain (es : List (Nat × Edit)) : Nat → Nat → List Nat
  | 0, _ => []
  | k + 1, n =>
    match amGet es n with
    | none => []
    | some e => if e.depends = 0 then [] else e.depends :: editChain es k e.depends

/-- The chain of an edit (R340). -/
def State.chain (s : State) (n : Nat) : List Nat := editChain s.map.edits s.map.edits.length n

/-- Edits in the order of R341: each after those it depends on, the lowest number first among those free to go. -/
def orderSet (es : List (Nat × Edit)) : Nat → List Nat → List Nat
  | 0, _ => []
  | k + 1, set =>
    let free := set.filter (fun n => !set.contains ((amGet es n).elim 0 (·.depends)))
    match free with
    | [] => []
    | a :: l =>
      let m := minOf a (a :: l)
      m :: orderSet es k (set.filter (· ≠ m))

/-- A set of edits in order. -/
def State.ordered (s : State) (set : List Nat) : List Nat := orderSet s.map.edits set.length set

/-- The inking set of an edit: itself, the pencilled edits of its chain, and the AUTO edits whose chain is inked or in the
set (R341). -/
def State.inkingSet (s : State) (heads : List Nat) : List Nat :=
  let pencilled (n : Nat) : Bool := (s.edit n).elim false (·.inDraft)
  let own := (heads ++ heads.flatMap s.chain).eraseDups.filter pencilled
  let autos := (s.map.edits.filter (fun e => e.2.verdict == 1 && e.2.inDraft)).map (·.1)
  autos.foldl (fun set _ =>
    autos.foldl (fun set a =>
      if set.contains a || (s.chain a).any (fun c => pencilled c && !set.contains c) then set else set ++ [a]) set) own

/-- A held edition (R335). -/
def State.edition (s : State) (n : Nat) : Option Edition := s.map.editions.find? (fun e => e.number == n)

/-- The last inked edition. -/
def State.lastInked (s : State) : Edition := (s.edition s.map.lastInked).getD { number := s.map.lastInked }

/-- The pages of a sheet in an edition as its holder elsewhere answers for them (R35, R38; log 26). -/
def pagesElsewhere (edition sheet : Nat) : List Page :=
  [(MapTable.landmark, 0), (.keyframe, 1), (.edge, 2)].map (fun t =>
    { id := 0, table := t.1, recs := Config.sheetElsewhere edition sheet t.2 })

/-- An edition over the whole room: the sheets whose pages stand here, and the others as their holders answer for them (R35). -/
def State.roomEdition (s : State) (n : Nat) : Edition :=
  let e := (s.edition n).getD { number := n }
  { e with sheets := s.map.flash.sheets.foldl (fun l h =>
      if h.2 = s.position || (amGet l h.1).isSome then l else amSet l h.1 (pagesElsewhere n h.1)) e.sheets }

/-- What the edits of a cut write as it stands now, in the order of R341. A reader fixes this with its cut (R29, R342). -/
def State.cutWrites (s : State) (cut : List Nat) : List MapWrite :=
  (s.ordered cut).flatMap (fun n => (s.edit n).elim [] Edit.content)

/-- An edition over the whole room with writes over it, as a reader sees it that has fixed both (R29, R342). -/
def State.seen (s : State) (edition : Nat) (ws : List MapWrite) : Edition := ((s.roomEdition edition).apply 0 0 ws).ed

/-- An edition with a set of edits over it, as a reader sees a cut that it fixes now (R341, R342). -/
def State.view (s : State) (edition : Nat) (cut : List Nat) : Edition := s.seen edition (s.cutWrites cut)

/-- The draft cut as it stands here: every pencilled edit whose notice has come and which has not been withdrawn (R342). -/
def State.draftCut (s : State) : List Nat := (s.map.edits.filter (fun e => e.2.inDraft)).map (·.1)

/-- Pencilled edits that this member has issued (R338, R591). -/
def State.ownPencilled (s : State) : Nat :=
  (s.map.edits.filter (fun e => e.2.inDraft && bitsOf e.1 58 56 == s.position)).length

/-! ## Sheets and holders (R327, R360) -/

/-- The holder of a sheet that exists. -/
def State.holder (s : State) (sheet : Nat) : Option Nat := amGet s.map.flash.sheets sheet

/-- A sheet is missing in an edition: its holder has left, or could not restore its version there
(R38, R364, R546). -/
def State.sheetMissingIn (s : State) (edition sheet : Nat) : Bool :=
  s.map.missing.contains sheet || (match s.holder sheet with | some h => !s.present.contains h | none => false) ||
    s.map.lost.contains (edition, sheet)

/-- A sheet is missing in the last inked edition. -/
def State.sheetMissing (s : State) (sheet : Nat) : Bool := s.sheetMissingIn s.map.lastInked sheet

/-- Sheets that a member holds. -/
def State.heldBy (s : State) (m : Nat) : List Nat := (s.map.flash.sheets.filter (fun e => e.2 == m)).map (·.1)

/-- MAX_SHEETS of a member as this member knows it (R357). -/
def State.maxSheets (s : State) (m : Nat) : Nat :=
  if m = s.position then s.curator.policy.maxSheets else amGetD s.map.memberMax m 16384

/-- The holder of a new sheet: its pin, the pencilling member, or the member with the fewest sheets (R327, R360). -/
def State.newHolder (s : State) (sheet : Nat) : Option Nat :=
  let room (m : Nat) : Bool := decide ((s.heldBy m).length < s.maxSheets m)
  match amGet s.curator.pins sheet with
  | some m => if s.present.contains m && decide ((s.heldBy m).length < 16384) then some m else if room s.position then some s.position else pick room
  | none => if room s.position then some s.position else pick room
where
  /-- the member below its MAX_SHEETS with the fewest sheets, the lower position first -/
  pick (room : Nat → Bool) : Option Nat :=
    (s.present.filter room).foldl (fun best m => match best with
      | none => some m
      | some b => if (s.heldBy m).length < (s.heldBy b).length then some m else some b) none

/-- Pages of a table in use on this member: by the held editions in its sheets, and by pencilled edits (R333). -/
def State.pagesUsed (s : State) (t : MapTable) : Nat :=
  let inEditions := s.map.editions.flatMap (fun e => e.sheets.flatMap (·.2))
  let inEdits := (s.map.edits.filter (fun e => e.2.inDraft)).flatMap (fun e => e.2.pages)
  (((inEditions ++ inEdits).filter (fun p => p.table == t)).map (·.id)).eraseDups.length

/-- Free pages of this member (R353). -/
def State.pagesFree (s : State) : Nat :=
  [MapTable.landmark, .keyframe, .edge].foldl (fun a t => a + (t.pages - s.pagesUsed t)) 0

/-- Whether this member has a free page of each table (R333, R359). -/
def State.anyPage (s : State) : Bool :=
  [MapTable.landmark, .keyframe, .edge].all (fun t => decide (s.pagesUsed t < t.pages))

/-- Whether a list of new pages fits the free pages of each table. -/
def State.pagesFit (s : State) (ps : List Page) : Bool :=
  [MapTable.landmark, .keyframe, .edge].all (fun t =>
    decide (s.pagesUsed t + (ps.filter (fun p => p.table == t)).length ≤ t.pages))

/-! ## Re-basing (R346) -/

/-- The re-base table of an edit: for each sheet its anchor, if it has one (R346). -/
def rebaseTable (base : Edition) (ws : List MapWrite) : List Anchor :=
  let moved := ws.filterMap (fun m =>
    match m.table, base.find .keyframe m.key with
    | .keyframe, some (sheet, old) =>
      if MapTable.keyframe.retired m.data || (old.drop 8).take 56 = (m.data.drop 8).take 56 then none
      else some (m.key, ({ sheet := sheet, base := poseAt old 8, edit := poseAt m.data 8 } : Anchor))
    | _, _ => none)
  let sorted := sortBy (fun a b => decide (a.1 < b.1)) moved
  sorted.foldl (fun l a => if l.any (fun x => x.sheet == a.2.sheet) then l else l ++ [a.2]) []

end Sys2Proof.Machine
end

