-- ==== Sys2Proof/Machine/Edits.lean ====
section
/-! DEFINITION. Edits: pencilling, inking, withdrawal, editions held, map reads and reports (R334 to R355). -/
namespace Sys2Proof.Machine

/-! ## Events and holds (R335, R355) -/

/-- A map event for this member's MAP_EVENT_QUEUE and, for an edit of a host that was pencilled here, for its own queue
(R355). -/
def State.mapEvent (s : State) (edit : Option Nat) (e : EventIn) : State :=
  let q := s.curator.policy.mapEventQueue
  let s := s.event q e
  match edit.bind (fun n => (s.edit n).map (fun x => (n, x))) with
  | none => s
  | some (n, x) =>
    if x.eventQueue = 0 || x.eventQueue = q || bitsOf n 58 56 ≠ s.position then s else s.event x.eventQueue e

/-- A map event about several edits: for this member's MAP_EVENT_QUEUE, and once for each queue of the host edits among them that were
pencilled here (R355). -/
def State.mapEventAll (s : State) (edits : List Nat) (e : EventIn) : State :=
  let q := s.curator.policy.mapEventQueue
  let qs := ((edits.filter (fun n => bitsOf n 58 56 == s.position)).filterMap s.edit).map (·.eventQueue)
  (qs.filter (fun k => k ≠ 0 && k ≠ q)).eraseDups.foldl (fun s k => s.event k e) (s.event q e)

/-- Editions that this member holds for itself (R335): the last inked one, RETAIN_EDITIONS below it, those that a hold, a pin whose
setting took effect while its edition was held, or a reader in flight names. -/
def State.ownEditions (s : State) : List Nat :=
  let m := s.map
  let below := (sortBy (fun a b => decide (b < a)) ((m.editions.map (·.number)).filter (fun n => decide (n < m.lastInked)))).take
    s.curator.policy.retainEditions
  let pins := s.sessions.open_.filterMap (fun e => if e.2.desc.read = 2 && e.2.pinHeld then some e.2.desc.pin else none)
  m.lastInked :: below ++ m.holds ++ m.fixed.map (·.2) ++ pins

/-- What this member holds editions for has changed: it tells the others which it releases, and which of those it holds after all,
and drops each edition that neither it nor any other member holds any more (R335; log 178). -/
def State.dropEditions (s : State) : State :=
  let own := s.ownEditions
  let give := ((s.map.editions.map (·.number)).filter (fun n => !own.contains n && !s.map.released.contains n)).eraseDups
  let back := s.map.released.filter own.contains
  let s := s.modMap (fun m => { m with released := m.released.filter (fun n => !own.contains n) ++ give })
  let s := if give.isEmpty then s else s.controlAll 0x39 give
  let s := if back.isEmpty then s else s.controlAll 0x38 back
  let kept (n : Nat) : Bool := own.contains n || s.map.otherHolds.any (fun h => h.2 == n)
  s.modMap (fun m => { m with
    editions := m.editions.filter (fun e => kept e.number), lost := m.lost.filter (fun e => kept e.1)
    released := m.released.filter kept })

/-- The pages of a sheet taken out of every edition here. -/
def MapSt.dropSheet (m : MapSt) (k : Nat) : MapSt :=
  { m with editions := m.editions.map (fun (e : Edition) => { e with sheets := amDel e.sheets k }) }

/-- Old copies whose readers have ended: another member's is reported to it, and one here is freed once no reader of the room is left
on it (R33; log 14). -/
def State.settleCopies (s : State) : State :=
  let done := s.map.oldCopies.filter (fun c => c.readers.isEmpty)
  let s := (done.filter (fun c => c.holder ≠ s.position)).foldl (fun s c => s.control c.holder 0x78 [c.sheet]) s
  let free := done.filter (fun c => c.holder = s.position && c.members.isEmpty)
  let s := s.modMap (fun m => { m with oldCopies := m.oldCopies.filter (fun c =>
    !(c.readers.isEmpty && (c.holder ≠ s.position || c.members.isEmpty))) })
  free.foldl (fun s c =>
    if s.holder c.sheet = some s.position || s.map.oldCopies.any (fun o => o.sheet == c.sheet && o.holder == s.position) then s
    else s.modMap (fun m => m.dropSheet c.sheet)) s

/-- A reader in flight fixes an edition, under a key of its own (R335). -/
def State.fixEdition (s : State) (key n : Nat) : State :=
  (s.modMap (fun m => { m with fixed := m.fixed ++ [(key, n)] })).dropEditions

/-- A reader in flight has ended: its edition, and the old copies it may have read (R33, R335). -/
def State.freeEdition (s : State) (key : Nat) : State :=
  ((s.modMap (fun m => { m with
    fixed := m.fixed.filter (fun f => f.1 ≠ key)
    oldCopies := m.oldCopies.map (fun (c : OldCopy) => { c with readers := c.readers.filter (· ≠ key) }) })).settleCopies).dropEditions

/-! ## Pencilling (R329, R338 to R340, R349) -/

/-- A batch of R349 read: landmarks, keyframes, edges. -/
structure Batch where
  landmarks : List Bytes
  keyframes : List Bytes
  edges : List Bytes
  base : Nat
  deriving DecidableEq, Repr

/-- The records of a batch whose size agrees with its counts (R349). -/
def batchOf (len : Nat) (b : Bytes) : Option Batch :=
  let l := fldB b 4 4
  let k := fldB b 8 4
  let e := fldB b 12 4
  if len < 64 || fldB b 0 4 ≠ 0x5A454454 || !allZero ((b.drop 24).take 40) || len ≠ 64 + 64 * l + 256 * k + 64 * e then none
  else
    let cut (o n i : Nat) : Bytes := (b.drop (o + n * i)).take n
    some {
      landmarks := (List.range l).map (cut 64 64)
      keyframes := (List.range k).map (cut (64 + 64 * l) 256)
      edges := (List.range e).map (cut (64 + 64 * l + 256 * k) 64)
      base := fldB b 16 8 }

/-- The first provisional identifier (R329). -/
def provisional : Nat := 0xFFFF000000

/-- Identifiers of the records of a table, new ones taking the serials after `next` (R329). -/
def assignIds (pos : Nat) : Nat → List Bytes → List Nat × Nat
  | next, [] => ([], next)
  | next, b :: l =>
    if fldB b 0 8 = 0 then
      let r := assignIds pos (next + 1) l
      ((pos * 2 ^ 37 + next) :: r.1, r.2)
    else
      let r := assignIds pos next l
      (fldB b 0 8 :: r.1, r.2)

/-- An identifier of an edge, a provisional one taken from the records of its table; none for one that names no record. -/
def resolveId (ids : List Nat) (v : Nat) : Option Nat := if v < provisional then some v else ids[v - provisional]?

/-- A record with its identifier in bytes 0 to 7. -/
def withId (b : Bytes) (id : Nat) : Bytes := le 8 id ++ b.drop 8

/-- An edge with its identifiers. -/
def withEnds (b : Bytes) (a c : Nat) : Bytes := b.take 4 ++ le 5 a ++ le 5 c ++ b.drop 14

/-- Whether a view or a list of new records holds a record. -/
def namesRecord (v : Edition) (t : MapTable) (ids : List Nat) (id : Nat) : Bool := ids.contains id || (v.find t id).isSome

/-- The writes of a batch in `view` with serials after `next`, and the next serial; none where a record is bad or names no
record (R349). A replacement may name a record of `known`: a later edition, or another pencilled edit. -/
def Batch.writes (b : Batch) (pos next : Nat) (view : Edition) (known : MapTable → Nat → Bool) : Option (List MapWrite × Nat) :=
  let l := assignIds pos next b.landmarks
  let k := assignIds pos l.2 b.keyframes
  let replaced (t : MapTable) (r : Bytes) : Bool := fldB r 0 8 = 0 || known t (fldB r 0 8)
  let edges := b.edges.map (fun e =>
    let kind := fldB e 0 1
    match resolveId k.1 (idAt e 4),
        (if kind = 1 then resolveId l.1 (idAt e 9) else if kind ≤ 3 then resolveId k.1 (idAt e 9) else some 0) with
    | some a, some c =>
      if namesRecord view .keyframe k.1 a && (decide (3 < kind) || namesRecord view (if kind = 1 then .landmark else .keyframe)
          (if kind = 1 then l.1 else k.1) c) then some (withEnds e a c) else none
    | _, _ => none)
  if b.landmarks.all landmarkOk && b.keyframes.all keyframeOk && b.edges.all edgeRecOk &&
      b.landmarks.all (replaced .landmark) && b.keyframes.all (replaced .keyframe) && edges.all (·.isSome) then
    some ((b.landmarks.zip l.1).map (fun r => ({ table := .landmark, key := r.2, data := withId r.1 r.2 } : MapWrite)) ++
      (b.keyframes.zip k.1).map (fun r => ({ table := .keyframe, key := r.2, data := canonKeyframe (withId r.1 r.2) } : MapWrite)) ++
      (edges.filterMap id).map (fun e => ({ table := .edge, key := edgeKey e, data := canonEdge e } : MapWrite)), k.2)
  else none

/-- Every record of a batch in range, whatever it names (R330 to R332). -/
def Batch.formOk (b : Batch) : Bool := b.landmarks.all landmarkOk && b.keyframes.all keyframeOk && b.edges.all edgeRecOk

/-- The records of a batch as its buffer holds them after the pencilling: as the host gave them, with the identifiers assigned
(R349). -/
def Batch.written (b : Batch) (ws : List MapWrite) : Bytes :=
  ((b.landmarks ++ b.keyframes ++ b.edges).zip ws).flatMap (fun r => match r.2.table with
    | .edge => withEnds r.1 (idAt r.2.data 4) (idAt r.2.data 9)
    | _ => withId r.1 r.2.key)

/-- The pencilled edits that write a record. -/
def State.writersOf (s : State) (m : MapWrite) : List Nat :=
  (s.map.edits.filter (fun e => e.2.inDraft && e.2.writes.any (fun w => w.table == m.table && w.key == m.key))).map (·.1)

/-- Whether a record was inked after an edition (R340). -/
def State.inkedAfter (s : State) (base : Nat) (m : MapWrite) : Bool :=
  s.map.edits.any (fun e => e.2.state = .inked && decide (base < e.2.inkedIn) &&
    e.2.writes.any (fun w => w.table == m.table && w.key == m.key)) ||
  (base ≠ s.map.lastInked &&
    (match ((s.roomEdition s.map.lastInked).find m.table m.key), ((s.roomEdition base).find m.table m.key) with
      | some a, some b => a.2 ≠ b.2
      | some _, none => true
      | none, _ => false))

/-- The next edit number of this member; serials are reserved in blocks of 65,536 (R338). -/
def State.nextEdit (s : State) : Nat × State :=
  let n := s.map.lastSerial + 1
  (s.position * 2 ^ 56 + n, s.modMap (fun m => { m with
    lastSerial := n, flash := { m.flash with reserved := if m.flash.reserved < n then n + 65535 else m.flash.reserved } }))

/-- New sheets of an edit with their holders; none where one finds no holder (R327, R360). The Curator stands at MAX_SHEETS
where that bound alone sends a sheet elsewhere (R358). -/
def State.newSheets (s : State) : List Nat → Option State
  | [] => some s
  | k :: ks =>
    if (s.holder k).isSome then s.newSheets ks
    else if 65536 ≤ s.map.flash.sheets.length then none
    else
      match s.newHolder k with
      | none => none
      | some h =>
        let s := if h ≠ s.position && (amGet s.curator.pins k).isNone then s.pinBound 5 else s
        (s.modMap (fun m => { m with flash := { m.flash with sheets := amSet m.flash.sheets k h } })).newSheets ks

/-- The edges that the keyframes of a set of writes carry into another sheet, but those that it writes itself (R328). -/
def Edition.carriedBy (v : Edition) (ws : List MapWrite) : List MapWrite :=
  ws.flatMap (fun m =>
    match m.table, v.find .keyframe m.key with
    | .keyframe, some (o, _) =>
      if v.sheetFor m = some o then []
      else
        ((v.inSheet .edge o).filter (fun r =>
          idAt r.2 4 == m.key && !ws.any (fun w => w.table == .edge && w.key == r.1))).map
            (fun r => ({ table := .edge, key := r.1, data := r.2 } : MapWrite))
    | _, _ => [])

/-- A set of writes put over the draft of a chain: the sheets it touches and the pages it makes (R328, R333). -/
structure Trial where
  touched : List Nat
  carried : List MapWrite
  work : Work
  deriving DecidableEq, Repr

/-- A set of writes tried over the draft of a chain (R333). -/
def State.tryWrites (s : State) (chain : List Nat) (ws : List MapWrite) : Trial :=
  let v := s.view s.map.lastInked chain
  let w := v.apply s.map.nextPage s.map.nextPage ws
  { touched := w.touched, carried := v.carriedBy ws, work := w }

/-- The pages that a trial makes in the sheets held here (R333). -/
def State.trialPages (s : State) (t : Trial) : List Page :=
  (t.touched.filter (fun k => s.holder k = some s.position)).flatMap (fun k =>
    (t.work.ed.pages k).filter (fun p => decide (s.map.nextPage ≤ p.id)))

/-- A new edit takes the pages and the sheets of a trial: its new sheets get their holders first, so that the pages of one given to
another member are not taken here. The status that refuses it otherwise (R327, R328, R333, R354, R360). -/
def State.place (s : State) (t : Trial) : State × Except Nat (List Page) :=
  if decide (256 < t.touched.length) then (s, .error stTooLarge)
  else
    match s.newSheets t.touched with
    | none =>
      let new := t.touched.filter (fun k => (s.holder k).isNone)
      (if 65536 < s.map.flash.sheets.length + new.length then s else s.openConflict 0x06 (new.headD 0), .error stNoResource)
    | some s2 =>
      let ps := s2.trialPages t
      if s2.pagesFit ps then (s2.modMap (fun m => { m with nextPage := t.work.next }), .ok ps) else (s, .error stNoResource)

/-- An edit put into the draft: EDIT_PENCILLED, and its notice to the other members (R339, R355). -/
def State.addEdit (s : State) (n : Nat) (e : Edit) (nextId : Nat) : State :=
  let s := s.modMap (fun m => { m with edits := amSet m.edits n e, flash := { m.flash with lastId := nextId } })
  (s.mapEvent (some n) { code := 0x0301, detail := e.verdict, subject := n % 2 ^ 32, value := e.sheets.length, payload := n }).controlAll
    0x30 [n]

/-- The newest of a list of edits, the greater number among those of one time; 0 for none. -/
def State.newest (s : State) (l : List Nat) : Nat :=
  let time (n : Nat) : Nat := (s.edit n).elim 0 (·.pencilTime)
  l.foldl (fun a n => if time a < time n || (time a == time n && decide (a < n)) then n else a) 0

/-- A device edit (R338, R340): it depends on the newest pencilled edit that wrote a record it writes, or on one of
`after`. Its number, or the status for which it can not be pencilled (R354). -/
def State.deviceEdit (s : State) (verdict : Nat) (writes : List MapWrite) (nextId : Nat) (loop : Option LoopWork)
    (eventQueue : Nat) (job : Option Nat) (after : List Nat) : Except Nat Nat × State :=
  let dep := s.newest (writes.flatMap s.writersOf ++ after)
  let chain := if dep = 0 then [] else dep :: s.chain dep
  let t := s.tryWrites chain writes
  if t.touched.any s.sheetMissing && decide (t.touched.length ≤ 256) then (.error stNotPermitted, s)
  else if decide (4096 ≤ s.ownPencilled) then (.error stNoResource, s)
  else
    match s.place t with
    | (s, .error code) => (.error code, s)
    | (s, .ok ps) =>
      let r := s.nextEdit
      let e : Edit := {
        verdict := verdict, depends := dep, base := s.map.lastInked, eventQueue := eventQueue, writes := writes
        carried := t.carried, sheets := t.touched, pages := ps, pencilTime := s.now
        rebase := rebaseTable (s.roomEdition s.map.lastInked) writes, job := job, loop := loop }
      (.ok r.1, r.2.addEdit r.1 e nextId)

/-- Writes put over those of an edit: a record written again takes the place of what was written of it (R339). -/
def mergeWrites (old ws : List MapWrite) : List MapWrite :=
  ws.foldl (fun (l : List MapWrite) (m : MapWrite) =>
    if l.any (fun x => x.table == m.table && x.key == m.key) then
      mapIf (fun (x : MapWrite) => x.table == m.table && x.key == m.key) (fun _ => m) l
    else l ++ [m]) old

/-- An edit in its next state. -/
def Edit.revised (e : Edit) (writes carried : List MapWrite) (sheets : List Nat) (pages : List Page) (rebase : List Anchor) : Edit :=
  { e with
    past := e.past ++ [e.content], writes := writes, carried := carried, sheets := (e.sheets ++ sheets).eraseDups, pages := pages
    rebase := rebase }

/-- A SOLVE edit revised by its own solve: a new state of the same edit, of which the other members are told. Where the state finds no
page or no holder for a sheet, or touches more than 256 sheets, the status of R354 (R327, R328, R333, R339; log 176). -/
def State.reviseEdit (s : State) (n : Nat) (ws : List MapWrite) : State × Option Nat :=
  match s.edit n with
  | none => (s, none)
  | some e =>
    let writes := mergeWrites e.writes ws
    let t := (s.modEdit n (fun e => { e with pages := [] })).tryWrites (s.chain n) writes
    if decide (256 < (e.sheets ++ t.touched).eraseDups.length) then (s, some stTooLarge)
    else
      match (s.modEdit n (fun e => { e with pages := [] })).place t with
      | (s2, .error code) => (s2.modEdit n (fun x => { x with pages := e.pages }), some code)
      | (s2, .ok ps) =>
        let base := rebaseTable (s.roomEdition e.base) writes
        ((s2.modEdit n (fun x => x.revised writes t.carried t.touched ps base)).controlAll 0x30 [n], none)

/-- Whether a sheet is being moved from here (R33). -/
def State.sheetMoving (s : State) (k : Nat) : Bool := s.curator.moves.any (fun m => m.kind == .sheet && m.object == k)

/-- PENCIL_EDIT (0x0301): `buf` is what the read of the data buffer returns. A job that touches a sheet being moved waits until the
move completes (R33, R339, R340, R349, R350, R354). -/
def execPencilEdit (job : Nat) (buf : BufRead) (s : State) : Answer :=
  .next <| s.beginRead job 0x0301 buf fun j b s =>
    let depends := fld j.slip 32 8
    let verdict := fld j.slip 40 1
    let eq := fld j.slip 44 4
    let bad := refusal stMalformed
    match batchOf (dataLenOf j.slip) b with
    | none => s.finish j.num bad
    | some batch =>
      let base := if batch.base = 0 then s.map.lastInked else batch.base
      let depOk : Bool := depends = 0 || (s.edit depends).elim false (fun e => e.state = .pencilled)
      let chain := if depends = 0 || !depOk then [] else depends :: s.chain depends
      if decide (2 ≤ verdict) || fld j.slip 41 3 ≠ 0 || fld j.slip 48 16 ≠ 0 || !s.eventQueueOk eq || !batch.formOk then
        s.finish j.num bad
      else
        let view := s.view base chain
        let known (tb : MapTable) (id : Nat) : Bool :=
          (view.find tb id).isSome || ((s.roomEdition s.map.lastInked).find tb id).isSome ||
            !(s.writersOf { table := tb, key := id, data := [] }).isEmpty
        match batch.writes s.position (s.map.flash.lastId + 1) view known with
        | none => s.finish j.num (if (s.edition base).isSome then bad else refusal stStaleEdition)
        | some (ws, nextId) =>
          let t := s.tryWrites chain ws
          let overlap := ws.any (fun m => (s.writersOf m).any (fun n => !chain.contains n))
          let changed := ws.any (s.inkedAfter base)
          let early := firstFailure [
            (decide (256 < t.touched.length), refusal stTooLarge),
            ((s.edition base).isNone, refusal stStaleEdition),
            (!depOk, refusal stNotPermitted),
            (overlap || changed, refusal stNotPermitted (flag changed + 2 * flag overlap)),
            (t.touched.any s.sheetMissing, refusal stNotPermitted 8),
            (decide (4096 ≤ s.ownPencilled), refusal stNoResource)]
          match early with
          | some e => s.finish j.num e
          | none =>
            if t.touched.any s.sheetMoving then s.putBack j.num
            else
              match s.place t with
              | (s2, .error code) => s2.finish j.num (refusal code)
              | (s2, .ok ps) =>
                let r := s2.nextEdit
                let e : Edit := {
                  verdict := verdict, depends := depends, base := base, eventQueue := eq, writes := ws, carried := t.carried
                  sheets := t.touched, pages := ps, pencilTime := s.now, rebase := rebaseTable (s.roomEdition base) ws }
                (r.2.addEdit r.1 e (nextId - 1)).finish j.num (endWith [] 0
                  (r.1 + ws.length * 2 ^ 64 + t.touched.length * 2 ^ 96) [(64, batch.written ws)])

/-- An anchor as a notice gives it: the sheet, its base pose and its edit pose as R65 lays them out. -/
def anchorOf (a : Nat × Bytes × Bytes) : Anchor := { sheet := a.1, base := poseAt a.2.1 0, edit := poseAt a.2.2 0 }

/-- An edge that a keyframe carries along, as a write. -/
def edgeWrite (b : Bytes) : MapWrite := { table := .edge, key := edgeKey b, data := b }

/-- The records of a notice's batch as writes: their identifiers are assigned. -/
def Batch.assigned (t : Batch) : List MapWrite :=
  t.landmarks.map (fun r => { table := .landmark, key := fldB r 0 8, data := r }) ++
    t.keyframes.map (fun r => { table := .keyframe, key := fldB r 0 8, data := r }) ++ t.edges.map edgeWrite

/-- Holders of new sheets taken into the room sheet map (R327). -/
def State.learnHolders (s : State) (holders : List (Nat × Nat)) : State :=
  s.modMap (fun m => { m with flash := { m.flash with
    sheets := holders.foldl (fun l h => if (amGet l h.1).isSome then l else amSet l h.1 h.2) m.flash.sheets } })

/-- PENCIL_NOTICE: the notice of another member's edit arrives: its records as R349 lays a batch out, the edges that its keyframes
carry along, the sheets it touches, its re-base table and the holders of the sheets new with it; one of an edit that is pencilled
already brings its next state (R327, R328, R339, R342, R346, R355; log 14). -/
def execPencilNotice (edit verdict depends base : Nat) (restores : Option Nat) (batch : Bytes) (carried : List Bytes)
    (sheets : List Nat) (anchors : List (Nat × Bytes × Bytes)) (holders : List (Nat × Nat)) (s : State) : Answer :=
  .next <|
    match batchOf batch.length batch with
    | none => s
    | some t =>
      if bitsOf edit 58 56 = s.position then s
      else
        let ws := t.assigned
        let more := carried.map edgeWrite
        let table := anchors.map anchorOf
        match s.edit edit with
        | some e =>
          if e.state ≠ .pencilled then s
          else
            let s := (s.learnHolders holders).modEdit edit (fun e => { e with pages := [] })
            let w := s.tryWrites (s.chain edit) ws
            (s.modEdit edit (fun e => e.revised ws more sheets (s.trialPages w) table)).modMap
              (fun m => { m with nextPage := w.work.next })
        | none =>
          let s := s.learnHolders holders
          let w := s.tryWrites (if depends = 0 then [] else depends :: s.chain depends) ws
          let e : Edit := {
            verdict := verdict, depends := depends, base := base, eventQueue := 0, writes := ws, carried := more, sheets := sheets
            pages := s.trialPages w, pencilTime := s.now, rebase := table, restores := restores }
          (s.modMap (fun m => { m with edits := amSet m.edits edit e, nextPage := w.work.next })).mapEvent none
            { code := 0x0301, detail := verdict, subject := edit % 2 ^ 32, value := sheets.length, payload := edit }

/-! ## Withdrawal (R339, R345, R399) -/

/-- A withdrawn edit enters the pending revocation record of a session that consumed it (R345). -/
def Session.revoke (x : Session) (edit : Nat) : Session :=
  if x.pendingRevoked.length < 8 then { x with pendingRevoked := x.pendingRevoked ++ [edit] } else { x with overflow := true }

/-- The vectors of the keyframes that a device edit pencilled (R331, R399). -/
def Edit.vectors (e : Edit) : List Nat :=
  if e.verdict = 0 || e.eventQueue ≠ 0 || e.restores.isSome then []
  else
    e.writes.flatMap (fun m =>
      match m.table with
      | .keyframe =>
        (if fldB m.data 168 8 = 0 then [] else [fldB m.data 168 8]) ++
          (if fldB m.data 176 8 = 0 then [] else (List.range (fldB m.data 164 4)).map (fun i => fldB m.data 176 8 + i))
      | _ => [])

/-- An edit withdrawn on this member (R339, R345, R355, R399). -/
def State.withdrawHere (s : State) (n reason : Nat) : State :=
  match s.edit n with
  | none => s
  | some e =>
    if !e.inDraft then s
    else
      let cs := e.consumers.getD []
      let s := { s with sessions := { s.sessions with
        open_ := s.sessions.open_.map (fun (x : Nat × Session) => if cs.contains x.1 then (x.1, x.2.revoke n) else x) } }
      let s := (s.modEdit n (fun e => { e with
        state := .withdrawn, endTime := s.now, reason := reason, consumers := none, pages := [], job := none, loop := none })).mapEvent
          (some n) { code := 0x0303, detail := reason, subject := n % 2 ^ 32, value := cs.length, payload := n }
      let s := match e.job with
        | some k => if e.verdict = 2 then s else s.finish k (refusal stNotPermitted)
        | none => s
      if bitsOf n 58 56 = s.position then s.deleteVectors e.vectors else s

/-- A withdrawal made on this member and told to the others; the edits that depend on it follow for reason 2 (R339). -/
def State.withdraw (s : State) (n reason : Nat) : State :=
  let after := (s.map.edits.filter (fun e => e.2.state = .pencilled && (s.chain e.1).contains n)).map (·.1)
  let one (s : State) (n r : Nat) : State := (s.withdrawHere n r).controlAll 0x33 [n, r]
  after.foldl (fun s m => one s m 2) (one s n reason)

/-- WITHDRAWAL_NOTICE: another member's withdrawal arrives (R343, R345). -/
def execWithdrawalNotice (edit reason : Nat) (s : State) : Answer := .next (s.withdrawHere edit reason)

/-- WITHDRAW_EDIT (0x0303) (R339, R348, R354). -/
def execWithdrawEdit (job : Nat) (s : State) : Answer :=
  .next <| s.begin job 0x0303 fun j s =>
    let n := fld j.slip 32 8
    if fld j.slip 40 24 ≠ 0 || dataLenOf j.slip ≠ 0 then s.finish j.num (refusal stMalformed)
    else
      match s.edit n with
      | none => s.finish j.num (refusal stNotPermitted)
      | some e =>
        if e.state ≠ .pencilled then s.finish j.num (refusal stNotPermitted)
        else (s.withdraw n 0).finish j.num (endWith [] 0 ((e.consumers.getD []).length))

/-! ## Inking (R334, R336, R339, R341) -/

/-- Edits marked as inking. -/
def State.markInking (s : State) (set : List Nat) : State :=
  set.foldl (fun s n => s.modEdit n (fun e => if e.state = .pencilled then { e with state := .inking } else e)) s

/-- An inking asked of the clerk (R336). -/
def State.askInking (s : State) (set : List Nat) : State :=
  if s.isClerk then s.modMap (fun m => { m with inkWaiting := m.inkWaiting ++ [(s.position, set)] })
  else s.control s.clerk 0x31 set

/-- INK_EDIT (0x0302): the inking set is formed; the job ends at PUBLISH or at a withdrawal (R339, R341, R348, R354). -/
def execInkEdit (job : Nat) (s : State) : Answer :=
  .next <| s.begin job 0x0302 fun j s =>
    let n := fld j.slip 32 8
    if fld j.slip 40 24 ≠ 0 || dataLenOf j.slip ≠ 0 then s.finish j.num (refusal stMalformed)
    else
      match s.edit n with
      | none => s.finish j.num (refusal stNotPermitted)
      | some e =>
        if e.state ≠ .pencilled || e.verdict ≠ 0 then s.finish j.num (refusal stNotPermitted)
        else if e.sheets.any s.sheetMissing then s.finish j.num (refusal stNotPermitted 8)
        else
          let set := s.inkingSet [n]
          ((s.modEdit n (fun e => { e with job := some j.num })).markInking set).askInking set

/-- AUTO_INK_TIMEOUT: AUTO_INK_MS has passed since an AUTO edit was pencilled: the clerk inks every waiting AUTO edit in
one edition (R339). -/
def execAutoInkTimeout (s : State) : Answer :=
  .next <|
    let autos := s.map.edits.filter (fun e => e.2.verdict == 1 && e.2.state == .pencilled)
    if !s.isClerk || !autos.any (fun e => decide (e.2.pencilTime + s.curator.policy.autoInkMs * 1000000 ≤ s.now)) then s
    else
      let set := s.inkingSet (autos.map (·.1))
      (s.markInking set).askInking set

/-- Sheets that a set of edits touches. -/
def State.setSheets (s : State) (set : List Nat) : List Nat :=
  (set.flatMap (fun n => (s.edit n).elim [] (·.sheets))).eraseDups

/-- Whether an edit of a set touches a missing sheet; a restoring edit may touch its own (R339, R546). -/
def State.setMissing (s : State) (set : List Nat) : Bool :=
  set.any (fun n => (s.edit n).elim false (fun e => e.sheets.any (fun x => e.restores ≠ some x && s.sheetMissing x)))

/-- The clerk numbers the next inking that waits, tells every member the number, so that none is assigned again whichever member is
the clerk next, and sends the set to the holders (R334, R336; log 179). -/
def State.nextInking (s : State) : State :=
  match s.map.inking, s.map.inkWaiting with
  | none, (m, set) :: rest =>
    let set := if m = s.position then s.inkingSet set else set.filter (fun n => (s.edit n).elim false (·.inDraft))
    if set.isEmpty then s.modMap (fun p => { p with inkWaiting := rest })
    else
      let n := s.map.flash.highest + 1
      let holders := ((s.setSheets set).filterMap s.holder).eraseDups
      let s := (s.markInking set).modMap (fun p => { p with
        inkWaiting := rest, flash := { p.flash with highest := n }
        inking := some { number := n, member := m, edits := s.ordered set, waiting := holders } })
      (holders.filter (· ≠ s.position)).foldl (fun s h => s.control h 0x32 (n :: set)) (s.controlAll 0x3C [n])
  | _, _ => s

/-- INK_NUMBER_REQUEST: the clerk takes a request, of another member or one that waits here, and gives the next number
when no inking runs (R334, R336). -/
def execInkNumberRequest (request : Option (Nat × List Nat)) (s : State) : Answer :=
  .next <|
    if !s.isClerk then s
    else
      (match request with
        | none => s
        | some r => if r.1 = s.position then s else s.modMap (fun m => { m with inkWaiting := m.inkWaiting ++ [r] })).nextInking

/-- The number of an inking is dropped: its edits are withdrawn or return to pencilled, and those are inked again; every edit whose
chain includes a withdrawn one follows it for reason 2 (R339). -/
def State.dropInking (s : State) (k : Inking) : State :=
  let lost (n : Nat) : Bool := (s.edit n).elim false (fun e =>
    e.sheets.any (fun x => e.restores ≠ some x && (s.sheetMissing x || k.missing.contains x)))
  let gone := k.edits.filter (fun n => lost n || k.noPage.contains n)
  let after := (s.map.edits.filter (fun e =>
    e.2.inDraft && !gone.contains e.1 && (s.chain e.1).any gone.contains)).map (·.1)
  let rest := k.edits.filter (fun n => !gone.contains n && !after.contains n)
  let one (s : State) (n r : Nat) : State := (s.withdrawHere n r).controlAll 0x33 [n, r]
  let s := s.modMap (fun m => { m with inking := none, made := none, madeCarried := [] })
  let s := gone.foldl (fun s n => one s n (if lost n then 3 else 6)) s
  let s := after.foldl (fun s n => one s n 2) s
  let s := rest.foldl (fun s n => s.modEdit n (fun e => if e.state = .inking then { e with state := .pencilled } else e)) s
  let s := s.controlAll 0x35 (k.number :: rest)
  if rest.isEmpty then s else s.modMap (fun m => { m with inkWaiting := m.inkWaiting ++ [(k.member, rest)] })

/-- An acknowledgement taken; once every holder has answered the clerk publishes, or drops the number (R336, R339). -/
def State.inkAck (s : State) (member : Nat) (missing noPage : List Nat) : State :=
  match s.map.inking with
  | none => s
  | some k =>
    if !k.waiting.contains member then s
    else
      let k := { k with
        waiting := k.waiting.filter (· ≠ member), missing := k.missing ++ missing, noPage := k.noPage ++ noPage }
      if !k.waiting.isEmpty then s.modMap (fun m => { m with inking := some k })
      else if k.missing.isEmpty && k.noPage.isEmpty && !s.setMissing k.edits then
        (s.modMap (fun m => { m with inking := some { k with published := true } })).controlAll 0x34 (k.number :: k.edits)
      else s.dropInking k

/-- INKING_ACK: a holder's acknowledgement reaches the clerk, with the sheets it found missing and the edits for which it
found no free page (R336). -/
def execInkingAck (member : Nat) (missing noPage : List Nat) (s : State) : Answer :=
  .next <| if member = s.position then s else s.inkAck member missing noPage

/-- Edits of a set for which this member finds no free page, in the order in which they are applied (R333, R339). -/
def State.setPages (s : State) (set : List Nat) : List Nat :=
  let start := s.map.nextPage
  let r := set.foldl (fun (a : Edition × Nat × List Nat) n =>
    match s.edit n with
    | none => a
    | some e =>
      let w := a.1.apply start a.2.1 e.content
      let own := (w.touched.filter (fun k => s.holder k = some s.position)).flatMap (fun k => (w.ed.pages k).filter (fun p => decide (start ≤ p.id)))
      (w.ed, w.next, if s.pagesFit own then a.2.2 else a.2.2 ++ [n])) (s.lastInked, start, [])
  r.2.2

/-- INKING_SET: a holder makes its sheet versions for a numbered set and acknowledges; `carried` are the edges that keyframes of the
set bring here from sheets of other holders. A sheet that is missing, or a holder in reference service, stops it but where the set
only restores the sheet (R328, R333, R336, R364, R546; log 14). -/
def execInkingSet (number : Nat) (edits : List Nat) (carried : List Bytes) (s : State) : Answer :=
  .next <|
    let clerk := s.isClerk
    let known : Bool := match s.map.inking with
      | some k => k.number == number && k.waiting.contains s.position
      | none => false
    if clerk && !known then s
    else
      let set := if clerk then (s.map.inking.elim [] (·.edits)) else s.ordered edits
      let own := (s.setSheets set).filter (fun k => s.holder k = some s.position)
      let mends (k : Nat) : Bool := set.all (fun n => (s.edit n).elim true (fun e => !e.sheets.contains k || e.restores == some k))
      let missing := own.filter (fun k => (s.sheetMissing k || s.reference.state ≠ .normal) && !mends k)
      let noPage := s.setPages set
      let s := if missing.isEmpty && noPage.isEmpty then
          (s.markInking set).modMap (fun m => { m with made := some (number, set), madeCarried := carried.map edgeWrite })
        else s.markInking set
      if clerk then s.inkAck s.position missing noPage
      else (s.modMap (fun m => { m with flash := { m.flash with highest := max m.flash.highest number } })).control s.clerk 0x36
        (number :: flag (!missing.isEmpty) :: noPage)

/-- The edition that an ordered set makes of the last inked one: the versions of the sheets held here (R333 to R335, R341). -/
def State.madeEdition (s : State) (number : Nat) (set : List Nat) : Work :=
  let carried := match s.map.made with
    | some m => if m.1 = number then s.map.madeCarried else []
    | none => []
  let w := s.lastInked.apply s.map.nextPage s.map.nextPage (set.flatMap (fun n => (s.edit n).elim [] Edit.content) ++ carried)
  { w with ed := { number := number, sheets := w.ed.sheets.filter (fun e => s.holder e.1 = some s.position) } }

/-- An edition taken as the last inked one (R334 to R336, R339, R344, R355). -/
def State.takeEdition (s : State) (number : Nat) (set : List Nat) : State :=
  let set := s.ordered set
  let w := s.madeEdition number set
  let changed := s.setSheets set
  let mine := set.filter (fun n => bitsOf n 58 56 == s.position && (s.edit n).elim false (fun e => e.loop.isSome))
  let jobs := set.filterMap (fun n => (s.edit n).bind (fun e => if e.verdict = 2 then none else e.job))
  let s := set.foldl (fun s n => s.modEdit n (fun e => { e with
    state := .inked, inkedIn := number, endTime := s.now, consumers := none, pages := [], job := none, loop := none })) s
  let whole := set.filterMap (fun n => (s.edit n).bind (·.restores))
  let behind := (s.map.lost.filter (fun e => e.1 == s.map.lastInked)).map (·.2)
  let back := behind.filter whole.contains
  let s := s.modMap (fun m => { m with
    lost := m.lost ++ (behind.filter (fun k => !whole.contains k)).map (fun k => (number, k))
    editions := m.editions ++ [w.ed], lastInked := number, nextPage := w.next, inking := none, made := none, madeCarried := []
    otherHolds := m.otherHolds ++ s.others.map (fun o => (o, number))
    flash := { m.flash with highest := max m.flash.highest number }
    loopsInked := m.loopsInked + mine.length
    shelving := m.shelving ++ [{ edition := w.ed, waiting := (changed.filterMap s.holder).eraseDups, since := s.now }] })
  let s := s.mapEventAll set { code := 0x0302, detail := set.length, subject := number % 2 ^ 32, value := changed.length, payload := number }
  let s := back.foldl (fun s k => s.mapEvent none { code := 0x0306, subject := k, detail := 1, value := (s.holder k).getD 0 }) s
  (jobs.foldl (fun s k => s.finish k (endWith [] 0 number)) s).dropEditions

/-- PUBLISH: a member takes the new edition when PUBLISH reaches it (R336, R343, R348). -/
def execPublish (number : Nat) (edits : List Nat) (s : State) : Answer :=
  .next <|
    if number ≤ s.map.lastInked then s
    else
      match s.map.inking with
      | some k => if k.published && k.number = number then s.takeEdition number k.edits else s
      | none => if s.isClerk then s else s.takeEdition number edits

/-- Pages written to the map area of the flash, three to a NAND page and striped across the channels by page number (R337, R403). -/
def State.writePages (s : State) (ps : List Page) : State :=
  let page (p : Page) : Bytes := nandWords (takePad 4096 (p.recs.flatMap (·.2)))
  let groups := (List.range ((ps.length + 2) / 3)).map (fun i => (ps.drop (3 * i)).take 3)
  groups.foldl (fun s g =>
    let s2 := match s.appendPage (s.map.flash.written % 64) (g.flatMap page) with
      | none => s
      | some (_, t) => t
    s2.modMap (fun m => { m with flash := { m.flash with written := m.flash.written + 1 } })) s

/-- The pages of an edition's sheets here that this member's flash does not hold yet (R38, R337). -/
def State.unshelved (s : State) (ed : Edition) : List Page :=
  let old := s.map.flash.edition.sheets.flatMap (fun e => e.2.map (·.id))
  ed.sheets.flatMap (fun e => e.2.filter (fun p => !old.contains p.id))

/-- Those pages shelved. -/
def State.writeMap (s : State) (ed : Edition) : State := s.writePages (s.unshelved ed)

/-- Bytes of NAND that a list of map pages takes, three to a page (R403). -/
def mapBytes (ps : List Page) : Nat := (ps.length + 2) / 3 * 16384

/-- SHELVING_END: a holder has shelved its part of an edition; the edition is shelved once every holder has (R337, R355). This member's
own part does not end before WRITE_MIB_S lets its pages be written, and is pinned while it waits for that (R425, R436). -/
def execShelvingEnd (edition member : Nat) (s : State) : Answer :=
  .next <|
    match s.map.shelving.find? (fun x => x.edition.number == edition) with
    | none => s
    | some x =>
      if !x.waiting.contains member then s
      else if member = s.position && !s.mayWrite x.since (mapBytes (s.unshelved x.edition)) then s.pinBound 0x10
      else
        let s := if member = s.position then s.written x.since (mapBytes (s.unshelved x.edition)) else s
        let s := if member = s.position then (s.writeMap x.edition).controlAll 0x37 [edition] else s
        let left := x.waiting.filter (· ≠ member)
        if !left.isEmpty then
          s.modMap (fun m => { m with shelving := mapIf (fun y => y.edition.number == edition) (fun y => { y with waiting := left }) m.shelving })
        else
          (s.modMap (fun m => { m with
            shelving := m.shelving.filter (fun y => y.edition.number ≠ edition), lastShelved := max m.lastShelved edition
            flash := if m.flash.edition.number < edition then { m.flash with edition := x.edition } else m.flash })).mapEvent none
              { code := 0x0304, subject := edition % 2 ^ 32, payload := edition }

/-- Versions of a sheet that its holder could not restore: they stay missing, EDITIONS_LOST counts them, and SHEET_MISSING has DETAIL 1 where
the last inked edition reads the sheet again (R355, R546). -/
def State.versionsLost (s : State) (k : Nat) (gone : List Nat) : State :=
  let s := s.modMap (fun m => { m with lost := m.lost ++ (gone.filter (fun n => !m.lost.contains (n, k))).map (fun n => (n, k)) })
  let s := if gone.isEmpty then s
    else s.mapEvent none { code := 0x0305, value := gone.length, payload := minOf (gone.headD 0) gone }
  if s.map.lost.contains (s.map.lastInked, k) then s
  else s.mapEvent none { code := 0x0306, subject := k, detail := 1, value := (s.holder k).getD s.position }

/-- A holder tells that pages of its sheet were lost, and which versions it could not restore (R38, R355, R546; log 14). -/
def State.hearLost (s : State) (member k : Nat) (gone : List Nat) : State :=
  if s.holder k ≠ some member then s
  else (s.mapEvent none { code := 0x0306, subject := k, value := member }).versionsLost k gone

/-- 24 hours in ns (R338, R346). -/
def dayNs : Nat := 86400000000000

/-- EDIT_RECORD_EXPIRY: the record and re-base table of an ended edit are dropped after 24 h (R338, R346). -/
def execEditRecordExpiry (edit : Nat) (s : State) : Answer :=
  .next <|
    match s.edit edit with
    | none => s
    | some e => if e.inDraft || decide (s.now < e.endTime + dayNs) then s else s.modMap (fun m => { m with edits := amDel m.edits edit })

/-! ## Reports, holds, reads (R335, R348, R351 to R354) -/

/-- STATE of an edit as R353 numbers it. -/
def EditState.code : EditState → Nat
  | .pencilled => 1
  | .inking => 2
  | .inked => 3
  | .withdrawn => 4

/-- QUERY_EDIT (0x0304) (R353, R354). -/
def execQueryEdit (job : Nat) (s : State) : Answer :=
  .next <| s.begin job 0x0304 fun j s =>
    let n := fld j.slip 32 8
    if fld j.slip 40 24 ≠ 0 then s.finish j.num (refusal stMalformed)
    else if dataLenOf j.slip < 64 then s.finish j.num (refusalNotStarted stTooLarge)
    else
      match s.edit n with
      | none => s.finish j.num (refusal stNotPermitted)
      | some e =>
        s.finish j.num (endWith [] 0 0 [(0, packB 64 [(0, 8, n), (8, 8, e.inkedIn), (16, 8, e.depends), (24, 8, e.pencilTime),
          (32, 8, e.endTime), (40, 1, e.state.code), (41, 1, e.verdict), (42, 1, e.reason), (44, 4, e.sheets.length),
          (48, 4, e.writes.length), (52, 4, (e.consumers.getD []).length)])])

/-- HOLD_EDITION (0x0305) (R335, R354). -/
def execHoldEdition (job : Nat) (s : State) : Answer :=
  .next <| s.begin job 0x0305 fun j s =>
    let n := fld j.slip 32 8
    if fld j.slip 40 24 ≠ 0 || dataLenOf j.slip ≠ 0 then s.finish j.num (refusal stMalformed)
    else if (s.edition n).isNone then s.finish j.num (refusal stStaleEdition)
    else if 8 ≤ s.map.holds.length then s.finish j.num (refusal stNoResource)
    else ((s.modMap (fun m => { m with holds := m.holds ++ [n] })).dropEditions).finish j.num (endWith [])

/-- RELEASE_EDITION (0x0306) (R335, R354). -/
def execReleaseEdition (job : Nat) (s : State) : Answer :=
  .next <| s.begin job 0x0306 fun j s =>
    let n := fld j.slip 32 8
    if fld j.slip 40 24 ≠ 0 || dataLenOf j.slip ≠ 0 then s.finish j.num (refusal stMalformed)
    else if !s.map.holds.contains n then s.finish j.num (refusal stNotPermitted)
    else ((s.modMap (fun m => { m with holds := m.holds.erase n })).dropEditions).finish j.num (endWith [])

/-- READ_SHEET (0x0307): the header, the pencilled edits of the cut that touch the sheet, its records; those of a sheet held elsewhere
are what its holder answers (R35, R342, R347, R351, R352, R354; log 26). -/
def execReadSheet (job : Nat) (s : State) : Answer :=
  .next <| s.begin job 0x0307 fun j s =>
    let sheet := fld j.slip 32 4
    let read := fld j.slip 36 1
    let want := fld j.slip 40 8
    let edition := if read = 2 then want else s.map.lastInked
    if decide (2 < read) || fld j.slip 37 3 ≠ 0 || fld j.slip 48 16 ≠ 0 || (read ≠ 2 && want ≠ 0) then
      s.finish j.num (refusal stMalformed)
    else if dataLenOf j.slip < 64 then s.finish j.num (refusalNotStarted stTooLarge)
    else if (s.edition edition).isNone then s.finish j.num (refusal stStaleEdition)
    else if s.sheetMissingIn edition sheet then s.finish j.num (refusal stNotPermitted 8)
    else if s.sheetMoving sheet then s.putBack j.num
    else
      let cut := if read = 1 then s.draftCut else []
      let v := s.view edition cut
      let touching := sortBy (fun a b => decide (a < b)) (cut.filter (fun n => (s.edit n).elim false (fun e => e.sheets.contains sheet)))
      let lm := v.inSheet .landmark sheet
      let kf := v.inSheet .keyframe sheet
      let ed := v.inSheet .edge sheet
      let body := touching.flatMap (le 8) ++ (lm ++ kf ++ ed).flatMap (·.2)
      let need := 64 + body.length
      let fits := decide (need ≤ dataLenOf j.slip)
      let head := packB 64 [(0, 4, sheet), (4, 4, lm.length), (8, 4, kf.length), (12, 4, ed.length), (16, 8, edition),
        (24, 2, touching.length), (26, 1, (s.holder sheet).getD 0)]
      s.finish j.num (endWith [] (if fits then 0 else 4) (need + edition * 2 ^ 64) [(0, if fits then head ++ body else head)])

/-- QUERY_MAP (0x0308) (R353, R354). -/
def execQueryMap (job : Nat) (s : State) : Answer :=
  .next <| s.begin job 0x0308 fun j s =>
    if fld j.slip 32 32 ≠ 0 then s.finish j.num (refusal stMalformed)
    else if dataLenOf j.slip < 64 then s.finish j.num (refusalNotStarted stTooLarge)
    else
      let m := s.map
      s.finish j.num (endWith [] 0 0 [(0, packB 64 [(0, 8, m.lastInked), (8, 8, m.lastShelved), (16, 8, m.flash.highest),
        (40, 1, s.clerk), (41, 1, m.editions.length), (44, 4, m.flash.sheets.length), (48, 4, (s.heldBy s.position).length),
        (52, 4, (m.edits.filter (fun e => e.2.inDraft)).length), (56, 4, s.pagesFree),
        (60, 4, (m.flash.sheets.filter (fun e => s.sheetMissing e.1)).length)])])

end Sys2Proof.Machine
end

