-- ==== Sys2Proof/Machine/Matching.lean ====
section
/-! DEFINITION. The solver policy, the matching codebook, matching and the small-problem path (R387, R388, R391, R392). -/
namespace Sys2Proof.Machine

/-! ## The solver policy (R387) -/

/-- Integer fields of the policy: offset, size, default, least, greatest. -/
def policyNats : List (Nat × Nat × Nat × Nat × Nat) :=
  [(0, 1, 2, 1, 7), (1, 1, 8, 1, 255), (2, 2, 40, 12, 1024), (20, 2, 30, 1, 1000), (22, 2, 20, 1, 1000),
    (24, 4, 2000, 1, 60000), (40, 4, 20000, 1, 2 ^ 32 - 1), (44, 1, 80, 50, 100), (45, 1, 32, 8, 255), (46, 1, 10, 1, 30)]

/-- fp32 fields of the policy: offset, default. -/
def policyF32s : List (Nat × F32) :=
  [(4, 0x3E800000#32), (8, 0x40800000#32), (12, 0x41800000#32), (16, 0x40A00000#32), (28, 0x3FC00000#32),
    (32, 0x40000000#32), (36, 0x40BFB646#32)]

/-- An fp32 value is zero, of either sign. -/
def f32zero (v : F32) : Bool := v.toNat % 2 ^ 31 = 0

/-- The fields of a policy record in range (R387). -/
def solverPolicyOk (b : Bytes) : Bool :=
  policyNats.all (fun f => let v := fldB b f.1 f.2.1; v = 0 || (decide (f.2.2.2.1 ≤ v) && decide (v ≤ f.2.2.2.2))) &&
    policyF32s.all (fun f => let v := f32At b f.1; f32zero v || (f32finite v && f32lt 0 v)) && allZero (b.drop 47)

/-- An integer field of the policy in force; a zero field takes its default. -/
def MapSt.polNat (m : MapSt) (o : Nat) : Nat :=
  match policyNats.find? (fun f => f.1 == o) with
  | none => 0
  | some f => let v := fldB m.policy o f.2.1; if v = 0 then f.2.2.1 else v

/-- An fp32 field of the policy in force, widened. -/
def MapSt.polF (m : MapSt) (o : Nat) : F64 :=
  match policyF32s.find? (fun f => f.1 == o) with
  | none => 0
  | some f => let v := f32At m.policy o; f32ToF64 (if f32zero v then f.2 else v)

def MapSt.loopRadius (m : MapSt) : Nat := m.polNat 0
def MapSt.baEvery (m : MapSt) : Nat := m.polNat 1
def MapSt.loopMinInliers (m : MapSt) : Nat := m.polNat 2
def MapSt.baMove (m : MapSt) : F64 := m.polF 4
def MapSt.checkChi2 (m : MapSt) : F64 := m.polF 8
def MapSt.checkLoop (m : MapSt) : F64 := m.polF 12
def MapSt.checkMove (m : MapSt) : F64 := m.polF 16
def MapSt.pgIterations (m : MapSt) : Nat := m.polNat 20
def MapSt.baIterations (m : MapSt) : Nat := m.polNat 22
def MapSt.baDeadlineMs (m : MapSt) : Nat := m.polNat 24
def MapSt.pixelSigma (m : MapSt) : F64 := m.polF 28
def MapSt.huberScale (m : MapSt) : F64 := m.polF 32
def MapSt.inlierChi2 (m : MapSt) : F64 := m.polF 36
def MapSt.matchMax (m : MapSt) : Nat := m.polNat 40
def MapSt.ratioPct (m : MapSt) : Nat := m.polNat 44
def MapSt.windowPx (m : MapSt) : Nat := m.polNat 45
def MapSt.smallIterations (m : MapSt) : Nat := m.polNat 46

/-! ## The matching codebook (R388) -/

/-- The codebook in force. -/
def MapSt.book (m : MapSt) : Bytes := m.codebook.getD Config.matchingCodebook

/-- A byte as int8. -/
def int8 (b : Byte) : Int := b.toInt

/-- The table of a descriptor, by subspace and centroid (R388). -/
def matchTable (book desc : Bytes) : List (List Nat) :=
  (List.range 16).map (fun s => (List.range 256).map (fun c =>
    (List.range 8).foldl (fun a e =>
      let d := int8 (desc.getD (8 * s + e) 0) - int8 (book.getD (2048 * s + 8 * c + e) 0)
      a + (d * d).natAbs) 0))

/-- The product code of a descriptor (R388). -/
def productCode (table : List (List Nat)) : Bytes :=
  table.map (fun row =>
    BitVec.ofNat 8 (((List.range 256).zip row).foldl (fun (b : Nat × Nat) e => if e.2 < b.2 then e else b) (0, row.getD 0 0)).1)

/-- The distance of a descriptor to a landmark's code (R388). -/
def codeDistance (table : List (List Nat)) (code : Bytes) : Nat :=
  (List.range 16).foldl (fun a s => a + natAt (table.getD s []) (code.getD s 0).toNat) 0

/-! ## Camera poses (R391, R392) -/

/-- The camera pose of a body pose under BODY_FROM_CAMERA. -/
def cameraPose (body bc : Pose) : Pose := { t := body.t.add (body.q.rotate bc.t), q := (body.q.mul bc.q).canon }

/-- The body pose of a camera pose under BODY_FROM_CAMERA. -/
def bodyPose (cam bc : Pose) : Pose :=
  let q := (cam.q.mul bc.q.conj).canon
  { t := cam.t.sub (q.rotate bc.t), q := q }

/-! ## Matching (R391) -/

/-- A landmark considered: its identifier, position, code, and its projection where the image test applies. -/
structure Considered where
  id : Nat
  position : MapPos
  code : Bytes
  at_ : Option (F64 × F64)

/-- The landmark of a record. -/
def consider (b : Bytes) (at_ : Option (F64 × F64)) : Considered :=
  { id := fldB b 0 8, position := mapPosAt b 8, code := (b.drop 48).take 16, at_ := at_ }

/-- The projection of a landmark at a camera pose, where it is valid and lies in the image (R391). -/
def inImage (cam : Camera) (pose : Pose) (x : Vec3) : Option (F64 × F64) :=
  match cam.project (mulMV (transpose3 pose.q.rows) (x.sub pose.t)) with
  | none => none
  | some w =>
    let half := f64pow2 (-1)
    let within (v : F64) (n : Nat) : Bool := f64le (f64neg half) v && f64lt v (f64sub (f64ofInt n) half)
    if within w.u cam.width && within w.v cam.height then some (w.u, w.v) else none

/-- The exact square of the distance of a landmark from a point, in units of 2^-4296 m². -/
def nearSquare (x c : Vec3) : Nat :=
  let d := x.sub c
  exactSquare d.x + exactSquare d.y + exactSquare d.z

/-- The landmarks of a list of records that an image of a camera at a pose may show: at most 65,536, the nearest of more
(R391). -/
def considered (cam : Camera) (pose : Pose) (recs : List Bytes) : List Considered :=
  let all := (recs.filter (fun b => !MapTable.retired .landmark b)).filterMap (fun b =>
    (inImage cam pose (mapPosAt b 8).vec).map (fun p => consider b (some p)))
  if all.length ≤ 65536 then all
  else
    let key (a : Considered) : Nat := nearSquare a.position.vec pose.t
    sortBy (fun a b => decide (a.id < b.id))
      ((sortBy (fun a b => decide (key a < key b) || (key a == key b && decide (a.id < b.id))) all).take 65536)

/-- The landmarks joined by edges of kind 1 to a keyframe in a view, but those of sheets that are missing (R38, R391). -/
def joinedLandmarks (v : Edition) (missing : Nat → Bool) (kf : Nat) : List Considered :=
  match v.find .keyframe kf with
  | none => []
  | some (sheet, _) =>
    let es := (v.inSheet .edge sheet).filter (fun e =>
      fldB e.2 0 1 = 1 && idAt e.2 4 = kf && !MapTable.retired .edge e.2)
    ((sortBy (fun a b => decide (a < b)) (es.map (fun e => idAt e.2 9)).eraseDups).filterMap (fun i => v.find .landmark i)).filterMap
      (fun r => if MapTable.retired .landmark r.2 || missing r.1 then none else some (consider r.2 none))

/-- The candidates of a keypoint (R391). -/
def windowed (window : Nat) (k : Keypoint) (ls : List Considered) : List Considered :=
  let w := f64ofInt window
  let near (a b : F64) : Bool := f64le (f64abs (f64sub a b)) w
  ls.filter (fun l => match l.at_ with
    | none => true
    | some p => near p.1 (f32ToF64 k.u) && near p.2 (f32ToF64 k.v))

/-- The two nearest of a keypoint's candidates with their distances, the nearer first (R391). -/
def nearestTwo (m : MapSt) (k : Keypoint) (ls : List Considered) : List (Considered × Nat) :=
  let table := matchTable m.book k.desc
  let ds := (windowed m.windowPx k ls).map (fun l => (l, codeDistance table l.code))
  (sortBy (fun a b => decide (a.2 < b.2) || (a.2 == b.2 && decide (a.1.id < b.1.id))) ds).take 2

/-- What the matching of a list of keypoints with the landmarks considered offers: the two nearest of each keypoint's candidates. Those
of several members together decide as the candidates of one would (R36, R63, R391; log 180). -/
def offered (m : MapSt) (ks : List Keypoint) (ls : List Considered) : List Match :=
  ((List.range ks.length).zip ks).flatMap (fun e => (nearestTwo m e.2 ls).map (fun r =>
    ({ keypoint := e.1, u := e.2.u, v := e.2.v, landmark := r.1.id, position := r.1.position, dist := r.2 } : Match)))

/-- The best match of a keypoint among what is offered for it, where it is matched (R391). -/
def bestOffer (m : MapSt) (os : List Match) : Option Match :=
  match sortBy (fun a b => decide (a.dist < b.dist) || (a.dist == b.dist && decide (a.landmark < b.landmark))) os with
  | [] => none
  | [a] => if a.dist ≤ m.matchMax then some a else none
  | a :: b :: _ => if a.dist ≤ m.matchMax && decide (100 * a.dist < m.ratioPct * b.dist) then some a else none

/-- The correspondences of `n` keypoints in keypoint order; a landmark keeps its nearest match (R391). -/
def joinOffers (m : MapSt) (n : Nat) (os : List Match) : List Match :=
  let found := (List.range n).filterMap (fun k => bestOffer m (os.filter (fun o => o.keypoint == k)))
  found.filter (fun a => !found.any (fun b => b.landmark == a.landmark &&
    (decide (b.dist < a.dist) || (b.dist == a.dist && decide (b.keypoint < a.keypoint)))))

/-- The correspondences of a list of keypoints with the landmarks considered, in keypoint order (R391). -/
def correspond (m : MapSt) (ks : List Keypoint) (ls : List Considered) : List Match := joinOffers m ks.length (offered m ks ls)

/-! ## The small solve (R392) -/

/-- Parameters of a small-path solve (R392). -/
def MapSt.smallParams (m : MapSt) : SolveParams :=
  { maxIterations := m.smallIterations, refineMax := 4, covariance := true, residualOut := false, tau := 40, rho := 20
    lambda0 := f64dec 1 3, tolCost := f64dec 1 10, tolStep := f64dec 1 9 }

/-- The problem of a list of correspondences: one free pose block, the landmarks fixed (R392). -/
def poseProblem (m : MapSt) (cam : Camera) (start : Pose) (ms : List Match) : Problem :=
  { cameras := [cam]
    blocks := { fixed := false, value := .pose start } ::
      ms.map (fun x => { fixed := true, value := .landmark x.position.vec })
    residuals := ((List.range ms.length).zip ms).map (fun e =>
      { kind := 1, kernel := 1, camera := 0, scale := m.huberScale, blocks := [0, e.1 + 1]
        m := [f32ToF64 e.2.u, f32ToF64 e.2.v], sigma := [m.pixelSigma, m.pixelSigma], dt := 0 })
    gravity := 0 }

/-- How a small solve ended: its last iterate, the residuals that are inliers, and the covariance of its block from them
alone, its upper triangle row by row (R392); no result on divergence. -/
structure SmallResult where
  progress : Progress
  inliers : List Nat
  cov : Option (List F64)

/-- A small-path solve, its inliers those with s at most a bound (R392). -/
def smallSolve (p : Problem) (q : SolveParams) (bound : F64) : SmallResult :=
  let l := p.lay
  let g := p.run l q q.maxIterations (p.start q)
  let inl := ((List.range p.residuals.length).zip p.residuals).filterMap (fun e =>
    match e.2.weigh p g.x with
    | some w => if f64le w.1 bound then some e.1 else none
    | none => none)
  let only := { p with residuals := inl.filterMap (fun i => p.residuals[i]?) }
  match only.covariances only.lay q g.x with
  | some (c :: _, f, raised, limit, _) => { progress := g.count (some (f, raised)) limit, inliers := inl, cov := some c.2 }
  | _ => { progress := g, inliers := inl, cov := none }

/-- A count of R380 raised. -/
def State.bumpSolve (s : State) (k v : Nat) : State :=
  { s with collator := { s.collator with counts := modAt s.collator.counts k (fun n => satAdd 32 n v) } }

/-- What a solve's iterations add to the counts of R380, from one state of it to another. -/
def State.tallySolve (s : State) (a b : Progress) : State :=
  (((s.bumpSolve 4 (b.it - a.it)).bumpSolve 5 (b.retries - a.retries)).bumpSolve 6 (b.pivots - a.pivots)).bumpSolve 7
    (b.landmarkPivots - a.landmarkPivots)

/-- A small-path solve counted (R380). -/
def State.tallySmall (s : State) (p : Problem) (q : SolveParams) (g : Progress) : State :=
  let s := (s.tallySolve (p.start q) g).bumpSolve 8 1
  if g.ended = some .diverged then s.bumpSolve 9 1 else s

end Sys2Proof.Machine
end

