-- ==== Sys2Proof/Machine/Collator.lean ====
section
/-! DEFINITION. Solve jobs: their problems, their admission, iterations, ends and deadlines; map solves; the loop solve;
policy and codebook (R376 to R395). -/
namespace Sys2Proof.Machine

/-- The Collator changed. -/
def State.modCollator (s : State) (f : Collator → Collator) : State := { s with collator := f s.collator }

/-- `n` bytes that the manual leaves open, from values drawn after the `k`th. -/
def freeBytes (k : Nat) : Nat → Bytes
  | 0 => []
  | n + 1 => (Config.freeValue k).setWidth 8 :: freeBytes (k + 1) n

/-! ## Parameters and host problems (R381 to R384) -/

/-- A zero field takes its default. -/
def orDefault (v d : Nat) : Nat := if v = 0 then d else v

/-- PARAMS of SOLVE and SOLVE_MAP with defaults filled in; none for a field out of range (R381). -/
def solveParams (j : Slip) : Option SolveParams :=
  let it := orDefault (fld j 32 2) 50
  let rm := orDefault (fld j 34 1) 4
  let tau := orDefault (fld j 36 1) 40
  let rho := orDefault (fld j 37 1) 20
  let f (o : Nat) : F64 := BitVec.ofNat 64 (fld j o 8)
  let okF (v : F64) : Bool := f64eq v 0 || (f64finite v && f64lt 0 v)
  let def_ (v : F64) (k : Nat) : F64 := if f64eq v 0 then f64dec 1 k else v
  if decide (it ≤ 1000) && decide (rm ≤ 16) && decide (fld j 35 1 < 4) && decide (20 ≤ tau) && decide (tau ≤ 60) &&
      decide (8 ≤ rho) && decide (rho ≤ 40) && fld j 38 2 = 0 && okF (f 40) && okF (f 48) && okF (f 56) then
    some {
      maxIterations := it, refineMax := rm, covariance := (fld j 35 1).testBit 0, residualOut := (fld j 35 1).testBit 1
      tau := tau, rho := rho, lambda0 := def_ (f 40) 4, tolCost := def_ (f 48) 10, tolStep := def_ (f 56) 9 }
  else none

/-- The camera of a record of R383. -/
def hostCamera (b : Bytes) : Option Camera :=
  let ps : List F64 := (List.range 8).map (fun i => f64At b (8 + 8 * i))
  if fldB b 1 1 = 0 && fldB b 6 2 = 0 && allZero ((b.drop 72).take 56) && paramsOk (fldB b 0 1) ps then
    some { model := fldB b 0 1, width := fldB b 2 2, height := fldB b 4 2, params := ps }
  else none

/-- The block of a record of R383; a quaternion is canonical from here on (R67). -/
def hostBlock (b : Bytes) : Option Block :=
  let p := poseAt b 8
  let fixed := (fldB b 1 1).testBit 0
  if decide (1 < fldB b 1 1) || fldB b 2 6 ≠ 0 then none
  else if fldB b 0 1 = 0 then
    if p.ok then some { fixed := fixed, value := .pose { p with q := p.q.canon } } else none
  else if decide (2 < fldB b 0 1) || !allZero ((b.drop 32).take 32) ||
      !(f64finite p.t.x && f64finite p.t.y && f64finite p.t.z) then none
  else some { fixed := fixed, value := if fldB b 0 1 = 1 then .landmark p.t else .velocity p.t }

/-- TYPE of a block (R365). -/
def BlockVal.code : BlockVal → Nat
  | .pose _ => 0
  | .position _ => 0
  | .landmark _ => 1
  | .velocity _ => 2

/-- Types of the blocks A, B, C and D that a residual kind names; kind 4 takes a pose or a landmark as A (R368). -/
def kindTypes (kind : Nat) : List Nat :=
  if kind = 1 then [0, 1] else if kind ≤ 3 then [0, 0] else if kind ≤ 5 then [0] else [0, 0, 2, 2]

/-- Measurement values and standard deviations that a residual uses (R368). -/
def kindUses (kind aType : Nat) : Nat × Nat :=
  if kind = 1 then (2, 2)
  else if kind ≤ 3 then (6, 6)
  else if kind = 4 then (if aType = 0 then (6, 6) else (3, 3))
  else if kind = 5 then (4, 1)
  else (10, 9)

/-- A quaternion of four fp32 values, widened exactly (R368). -/
def quatAt32 (b : Bytes) (o : Nat) : Quat :=
  { w := f32ToF64 (f32At b o), x := f32ToF64 (f32At b (o + 4)), y := f32ToF64 (f32At b (o + 8)), z := f32ToF64 (f32At b (o + 12)) }

/-- The residual of a record of R384, its quaternion checked (R67), with the types of the problem's blocks and its count of cameras. -/
def hostResidual (types : List Nat) (cams : Nat) (b : Bytes) : Option Residual :=
  let kind := fldB b 0 1
  let kernel := fldB b 1 1
  let ids := (List.range 4).map (fun i => fldB b (8 + 4 * i) 4)
  let aType := types.getD (natAt ids 0) 9
  let want := if kind = 4 && aType = 1 then [1] else kindTypes kind
  let uses := kindUses kind aType
  let dt := f32At b 100
  let scale := f32At b 4
  let used := ids.take want.length
  if decide (kind = 0) || decide (6 < kind) || decide (3 < kernel) || !allZero ((b.drop 104).take 24) then none
  else if used.any (fun i => decide (types.length ≤ i)) || (ids.drop want.length).any (· ≠ 0) ||
      used.map (fun i => types.getD i 9) ≠ want then none
  else if !f32sOk b 24 uses.1 false || !f32sOk b 64 uses.2 true then none
  else if kernel ≠ 0 && !(f32finite scale && f32lt 0 scale) then none
  else if (if kind = 6 then !(f32finite dt && f32lt 0 dt) || !(quatAt32 b 24).ok else !f32zero dt) then none
  else if (if kind = 1 then decide (cams ≤ fldB b 2 2) else fldB b 2 2 ≠ 0) then none
  else
    some {
      kind := kind, kernel := kernel, camera := fldB b 2 2, scale := f32ToF64 scale, blocks := used
      m := (List.range 10).map (fun i => f32ToF64 (f32At b (24 + 4 * i)))
      sigma := (List.range 9).map (fun i => f32ToF64 (f32At b (64 + 4 * i))), dt := f32ToF64 dt }

/-- Records of `n` bytes at an offset. -/
def recordsAt (b : Bytes) (o n count : Nat) : List Bytes := (List.range count).map (fun i => (b.drop (o + n * i)).take n)

/-- Every element a value, or none. -/
def allSome {α : Type} (l : List (Option α)) : Option (List α) := if l.all (·.isSome) then some (l.filterMap id) else none

/-- Whether every free block stands in a residual that is valid at the start (R394). -/
def Problem.covered (p : Problem) : Bool :=
  let x := p.blocks.map (·.value)
  let named := (p.residuals.filter (fun r => (r.value p x).isSome)).flatMap (·.blocks)
  ((List.range p.blocks.length).zip p.blocks).all (fun e => e.2.fixed || named.contains e.1)

/-- Whether a problem stays within the limits of R394. -/
def Problem.fits (p : Problem) (l : Lay) : Bool :=
  let marks := (p.blocks.filter (fun b => b.value.code == 1)).length
  decide (l.red.length ≤ 16384) && decide (l.n ≤ 98304) && decide (marks ≤ 1048576) &&
    decide (p.residuals.length ≤ 16777216) && decide (l.entries ≤ 2 ^ 26)

/-- The default of GRAVITY (R382). -/
def gravityDefault : F64 := f64dec 980665 5

/-- The problem of a SOLVE's buffer, its block records and the offset of its output area, or the status that refuses it
(R382 to R384, R394). -/
def hostProblem (q : SolveParams) (len : Nat) (b : Bytes) : Except Nat (Problem × List Bytes × Nat) :=
  let nc := fldB b 4 2
  let nb := fldB b 8 4
  let nr := fldB b 12 4
  let g := f64At b 16
  let at1 := 64 + 128 * nc
  let at2 := at1 + 64 * nb
  let at3 := at2 + 128 * nr
  if len < 64 || fldB b 0 4 ≠ 0x5A434F4C || fldB b 6 2 ≠ 0 || !allZero ((b.drop 24).take 40) || decide (256 < nc) ||
      nb = 0 || nr = 0 || !f64finite g then .error stMalformed
  else if decide (1064960 < nb) || decide (16777216 < nr) then .error stTooLarge
  else if len < at3 + 64 then .error stMalformed
  else
    match allSome ((recordsAt b 64 128 nc).map hostCamera), allSome ((recordsAt b at1 64 nb).map hostBlock) with
    | some cams, some blocks =>
      let types := blocks.map (·.value.code)
      match allSome ((recordsAt b at2 128 nr).map (hostResidual types nc)) with
      | none => .error stMalformed
      | some rs =>
        let p : Problem := {
          cameras := cams, blocks := blocks, residuals := rs, gravity := if f64eq g 0 then gravityDefault else g }
        let poses := (blocks.filter (fun k => !k.fixed && k.value.code == 0)).length
        let need := at3 + 64 + 64 * nb + (if q.covariance then 96 * poses else 0) + (if q.residualOut then 8 * nr else 0)
        if len ≠ (need + 63) / 64 * 64 || !p.covered then .error stMalformed
        else if !p.fits p.lay then .error stTooLarge
        else .ok (p, recordsAt b at1 64 nb, at3)
    | _, _ => .error stMalformed

/-! ## The report and the results (R378, R384, R385) -/

/-- What a solve that ends has: its progress, its covariances by block, and the reduced system of the covariance stage. -/
structure Solved where
  g : Progress
  cov : List (Nat × List F64) := []
  reduced : Option Reduced := none

/-- Residuals invalid at an iterate (R385). -/
def Problem.invalid (p : Problem) (x : List BlockVal) : Nat := (p.residuals.filter (fun r => (r.value p x).isNone)).length

/-- Codes that apply to a solve (R376, R377, R104). -/
def Progress.codes (g : Progress) : List Nat :=
  (match g.ended with
    | some .diverged => [stNumericDiverged]
    | some .deadline => [stPartialDeadline]
    | _ => if g.late then [stPartialDeadline] else []) ++ (if g.pivots + g.landmarkPivots = 0 then [] else [stPivotRegularised])

/-- Detail flags of a solve (R385); `truncated` is bit 7. -/
def Progress.flags (g : Progress) (invalid : Nat) (truncated : Bool) : Nat :=
  flag g.midFactor + 2 * flag g.zeroPivot + 4 * flag (g.landmarkPivots ≠ 0) + 8 * flag (g.ended = some .iterLimit) +
    16 * flag g.refineLimit + 32 * flag (invalid ≠ 0) + 64 * flag (g.ended = some .stalled) + 128 * flag truncated

/-- RESULT of a solve (R385). -/
def Progress.result (g : Progress) : Nat :=
  g.it + g.acc * 2 ^ 16 + (g.firstPivot.getD 0xFFFFFFFF) * 2 ^ 32 + g.f.toNat * 2 ^ 64

/-- The report of a solve: 64 bytes, STATUS and DETAIL as the return slip has them (R385). -/
def solveReport (p : Problem) (l : Lay) (g : Progress) (e : Ending) : Bytes :=
  let inv := p.invalid g.x
  packB 64 [(0, 2, e.status), (2, 2, e.detail), (4, 2, g.it), (6, 2, g.acc), (8, 8, g.f0.toNat), (16, 8, g.f.toNat),
    (24, 8, g.lam.toNat), (32, 4, sat 32 g.pivots), (36, 4, sat 32 g.landmarkPivots), (40, 4, inv), (44, 4, l.n),
    (48, 4, sat 32 l.entries), (52, 4, g.firstPivot.getD 0xFFFFFFFF), (56, 2, sat 16 g.retries),
    (58, 1, flag g.covarianceMissing)]

/-- An fp64 value as the 4 bytes of its fp32 rounding. -/
def bytes32 (v : F64) : Bytes := le 4 (f64ToF32 v).toNat

/-- A covariance of `n` parameters as the device writes it: fp32, no diagonal entry negative (R68). DESIGN CHOICE (log 171): one that
the arithmetic leaves negative is written as zero. -/
def covBytes (n : Nat) (c : List F64) : Bytes :=
  let diag := (List.range n).map (fun i => covIndex n i i)
  ((List.range c.length).zip c).flatMap (fun e => bytes32 (if diag.contains e.1 && f64lt e.2 0 then 0 else e.2))

/-- A block record with a value. A fixed block stays as given (R384), but a pose whose quaternion is not canonical as given, which is
returned canonical (R66; DESIGN CHOICE, log 170). -/
def blockRecord (given : Bytes) (k : Block) (v : BlockVal) : Bytes :=
  if k.fixed then
    (match v with
      | .pose p => if (poseAt given 8).q.isCanon then given else given.take 8 ++ p.bytes
      | .position _ => given
      | .landmark _ => given
      | .velocity _ => given)
  else
    given.take 8 ++ (match v with
      | .pose p => p.bytes
      | .position p => p.bytes
      | .landmark x => x.list.flatMap (fun a => le 8 a.toNat) ++ zeros 32
      | .velocity x => x.list.flatMap (fun a => le 8 a.toNat) ++ zeros 32)

/-- The covariance records of the free pose blocks: those found, zero with COVARIANCE_MISSING, and bytes the manual leaves
open where the solve has not ended `OK` (R377, R378, R384). -/
def covarianceArea (fresh : Nat) (p : Problem) (r : Solved) : Bytes :=
  let poses := ((List.range p.blocks.length).zip p.blocks).filter (fun e => !e.2.fixed && e.2.value.code == 0)
  if r.g.covarianceMissing then zeros (96 * poses.length)
  else
    poses.flatMap (fun e => le 4 e.1 ++ zeros 8 ++ (match amGet r.cov e.1 with
      | some c => covBytes 6 c
      | none => freeBytes (fresh + 84 * e.1) 84))

/-- s and w of every residual at the returned iterate (R384). -/
def residualArea (p : Problem) (x : List BlockVal) : Bytes :=
  p.residuals.flatMap (fun r => match r.weigh p x with
    | some w => bytes32 w.1 ++ bytes32 w.2.1
    | none => List.replicate 8 0xFF)

/-- The output area of a SOLVE (R384). -/
def solveOutput (fresh : Nat) (x : LargeSolve) (l : Lay) (r : Solved) : Bytes :=
  let p := x.problem
  solveReport p l r.g (endWith r.g.codes (r.g.flags (p.invalid r.g.x) false)) ++
    ((x.given.zip (p.blocks.zip r.g.x)).flatMap (fun e => blockRecord e.1 e.2.1 e.2.2)) ++
    (if x.params.covariance then covarianceArea fresh p r else []) ++
    (if x.params.residualOut then residualArea p r.g.x else [])

/-! ## Map problems (R386) -/

/-- A sheet number list as the request gives it. -/
def requestSheets (b : Bytes) : List Nat := (List.range (fldB b 8 2)).map (fun i => fldB b (64 + 4 * i) 4)

/-- The residual of an edge, its blocks being given (R332, R368). -/
def edgeResidual (e : Bytes) (a : Nat) (b : Option Nat) : Residual :=
  { kind := fldB e 0 1, kernel := fldB e 2 1, camera := a, scale := f32ToF64 (f16ToF32 (fldB e 14 2))
    blocks := a :: b.toList
    m := (List.range 6).map (fun i => f32ToF64 (f32At e (16 + 4 * i)))
    sigma := (List.range 6).map (fun i => f32ToF64 (f32At e (40 + 4 * i))), dt := 0 }

/-- The pose of a keyframe record, canonical (R67). -/
def framePose (b : Bytes) : Pose := let p := poseAt b 8; { p with q := p.q.canon }

/-- Whether a record is marked FIXED (R330, R331). -/
def MapTable.fixed (t : MapTable) (b : Bytes) : Bool :=
  match t with
  | .landmark => (fldB b 22 1).testBit 1
  | .keyframe => (fldB b 185 1).testBit 1
  | .edge => false

/-- The problem of a list of sheets in a view, with the keyframes and landmarks it moves and its loop edges (R386). -/
def mapProblem (v : Edition) (sheets : List Nat) (adjust : Bool) :
    Problem × List (Nat × Bytes) × List (Nat × Bytes) × List (Nat × Nat) :=
  let kfs := sheets.foldl (fun m s => (v.inSheet .keyframe s).foldl (fun m r => amSet m r.1 r.2) m) []
  let live := kfs.filter (fun r => !MapTable.retired .keyframe r.2)
  let movable := live.filter (fun r => !MapTable.fixed .keyframe r.2)
  let eds := sheets.foldl (fun m s => (v.inSheet .edge s).foldl (fun m r => amSet m r.1 r.2) m) []
  let used := (eds.filter (fun e => !MapTable.retired .edge e.2 && (amGet movable (idAt e.2 4)).isSome &&
    (adjust || fldB e.2 0 1 ≠ 1))).filter (fun e =>
      let k := fldB e.2 0 1
      if k = 1 then (v.find .landmark (idAt e.2 9)).isSome
      else decide (3 < k) || (v.find .keyframe (idAt e.2 9)).isSome)
  let kind (e : Nat × Bytes) : Nat := fldB e.2 0 1
  let frames := ((used.filter (fun e => kind e = 2 || kind e = 3)).foldl (fun m e =>
    match v.find .keyframe (idAt e.2 9) with
    | some r => amSet m (idAt e.2 9) r.2
    | none => m) movable)
  let ownMarks := sheets.foldl (fun m s => (v.inSheet .landmark s).foldl (fun m r => amSet m r.1 r.2) m) []
  let marks := (used.filter (fun e => kind e = 1)).foldl (fun m e =>
    match v.find .landmark (idAt e.2 9) with
    | some r => amSet m (idAt e.2 9) r.2
    | none => m) []
  let markFree (r : Nat × Bytes) : Bool := (amGet ownMarks r.1).isSome && !MapTable.fixed .landmark r.2
  let anyFixed := decide (movable.length < frames.length) || marks.any (fun r => !markFree r) || used.any (fun e => kind e = 4)
  let gauge : Option Nat := if anyFixed then none else movable.head?.map (·.1)
  let frameFree (id : Nat) : Bool := (amGet movable id).isSome && gauge ≠ some id
  let order := frames.map (·.1)
  let kfBlock (id : Nat) : Nat := (order.findIdx? (· == id)).getD 0
  let lmBlock (id : Nat) : Nat := order.length + (((marks.map (·.1)).findIdx? (· == id)).getD 0)
  let edges := used.filter (fun e => frameFree (idAt e.2 4))
  let p : Problem := {
    cameras := frames.map (fun r => cameraOf r.2)
    blocks := frames.map (fun r => { fixed := !frameFree r.1, value := .pose (framePose r.2) }) ++
      marks.map (fun r => { fixed := !markFree r, value := .landmark (mapPosAt r.2 8).vec })
    residuals := edges.map (fun e =>
      edgeResidual e.2 (kfBlock (idAt e.2 4))
        (if kind e = 1 then some (lmBlock (idAt e.2 9)) else if kind e ≤ 3 then some (kfBlock (idAt e.2 9)) else none))
    gravity := gravityDefault }
  let moved := (frames.filter (fun r => frameFree r.1)).map (fun r => (kfBlock r.1, r.2))
  let movedMarks :=
    if adjust then (marks.filter markFree).map (fun r => (lmBlock r.1, r.2))
    else
      let ones := eds.filter (fun e => kind e = 1 && !MapTable.retired .edge e.2 && frameFree (idAt e.2 4))
      (ownMarks.filter (fun r => !MapTable.fixed .landmark r.2)).filterMap (fun r =>
        (ones.find? (fun e => idAt e.2 9 == r.1)).map (fun e => (kfBlock (idAt e.2 4), r.2)))
  let loops := (((List.range edges.length).zip edges).filter (fun e => kind e.2 = 3)).map (fun e => (e.1, e.2.1))
  (p, moved, movedMarks, loops)

/-- A keyframe record with a new pose and, where found, its covariance (R386). -/
def movedFrame (b : Bytes) (p : Pose) (cov : Option (List F64)) : Bytes :=
  b.take 8 ++ p.bytes ++ (match cov with | some c => covBytes 6 c | none => (b.drop 64).take 84) ++ b.drop 148

/-- A landmark record at a new position, rounded under R64, and, where found, with its covariance; a position outside the
range leaves the record as it is. -/
def movedMark (b : Bytes) (x : Vec3) (cov : Option (List F64)) : Bytes :=
  match toMapPos x.x x.y x.z with
  | none => b
  | some p =>
    if (sheetOf p.x p.y).isNone then b
    else b.take 8 ++ p.bytes ++ (b.drop 20).take 4 ++ (match cov with | some c => covBytes 3 c | none => (b.drop 24).take 24) ++
      b.drop 48

/-- A landmark moved rigidly with its reference keyframe (R386). -/
def carryMark (old new : Pose) (x : Vec3) : Vec3 :=
  let ot := transpose3 old.q.rows
  let n := new.q.rows
  let r : Mat3 := (rowMul n.1 ot, rowMul n.2.1 ot, rowMul n.2.2 ot)
  (mulMV r (x.sub old.t)).add new.t

/-- V_l⁻¹ of an eliminated landmark, its upper triangle (R386). -/
def markCovariance (r : Solved) (block : Nat) : Option (List F64) :=
  match r.reduced.bind (fun d => d.marks.find? (fun m => m.block == block)) with
  | none => none
  | some m =>
    let col (k : Nat) : List F64 := cholSolve 3 m.factor ((List.range 3).map (fun i => if i = k then f64one else 0))
    some ((List.range 3).flatMap (fun i => (List.range (3 - i)).map (fun k => (col (i + k)).getD i 0)))

/-- The records that a map solve leaves: the solved keyframes, then the landmarks, each by rising identifier (R386). -/
def solvedRecords (p : Problem) (m : MapSolve) (r : Solved) : List MapWrite :=
  let pose (i : Nat) : Pose := (r.g.x.getD i (.landmark Vec3.zero)).asPose
  m.frames.map (fun e => { table := .keyframe, key := fldB e.2 0 8, data := movedFrame e.2 (pose e.1) (amGet r.cov e.1) }) ++
    m.marks.map (fun e =>
      let x := (mapPosAt e.2 8).vec
      let d := if m.adjust then movedMark e.2 (r.g.x.getD e.1 (.landmark x)).asVec (markCovariance r e.1)
        else movedMark e.2 (carryMark ((p.blocks.getD e.1 { fixed := true, value := .landmark x }).value.asPose) (pose e.1) x) none
      { table := .landmark, key := fldB e.2 0 8, data := d })

/-- Those of them that differ from the records they were made from. -/
def movedRecords (p : Problem) (m : MapSolve) (r : Solved) : List MapWrite :=
  (solvedRecords p m r).filter (fun w => !(m.frames ++ m.marks).any (fun e => e.2 == w.data))

/-! ## The verdict (R389, R390) -/

/-- The greatest distance that keyframe translations of a list of writes have moved from an edition. -/
def movedFrom (base : Edition) (ws : List MapWrite) : F64 :=
  ws.foldl (fun a w =>
    match w.table, base.find .keyframe w.key with
    | .keyframe, some r => f64max a (normFma ((poseAt w.data 8).t.sub (poseAt r.2 8).t))
    | _, _ => a) 0

/-- The checks of R389 on an edit's solve: the base edition, the edit's writes. -/
def verdictPasses (m : MapSt) (p : Problem) (ms : MapSolve) (g : Progress) (base : Edition) (ws : List MapWrite) : Bool :=
  let e := endWith g.codes
  let dims := p.residuals.foldl (fun a r => if (r.value p g.x).isSome then a + r.dims g.x else a) 0
  (e.status = stOk || e.status = stPivotRegularised) && !g.zeroPivot &&
    f64le (f64div (f64mul (f64ofInt 2) g.f) (f64ofInt dims)) m.checkChi2 &&
    ms.loops.all (fun l =>
      !ws.any (fun w => w.table == .edge && w.key == l.2) ||
        (match (p.residuals[l.1]?).bind (fun r => r.weigh p g.x) with
          | some w => f64le w.1 m.checkLoop
          | none => false)) &&
    f64le (movedFrom base ws) m.checkMove

/-! ## Starting (R380, R386, R394) -/

/-- A large solve queued in start order, its working set placed in the scratch region; the status that refuses it where there is too
little (R394; log 68). -/
def State.queueSolve (s : State) (x : LargeSolve) : Except Nat State :=
  let n := (Config.solveScratch x.problem.blocks.length x.problem.residuals.length x.entries + 63) / 64 * 64
  match s.scratchRoom n with
  | none => .error stNoResource
  | some p => .ok (s.modCollator (fun c => { c with solves := c.solves ++ [{ x with scratch := (p, n) }] }))

/-- SOLVE (0x0401): `buf` is what the read of the data buffer returns (R381 to R384, R394). -/
def execSolve (job : Nat) (buf : BufRead) (s : State) : Answer :=
  .next <| s.beginRead job 0x0401 buf fun j b s =>
    match solveParams j.slip with
    | none => s.finish j.num (refusal stMalformed)
    | some q =>
      match hostProblem q (dataLenOf j.slip) b with
      | .error code => s.finish j.num (refusal code)
      | .ok (p, given, at_) =>
        match s.queueSolve {
            owner := .job j.num, problem := p, params := q, given := given, outAt := at_
            deadline := deadlineOf j.slip, entries := p.lay.entries } with
        | .error code => s.finish j.num (refusal code)
        | .ok s => s

/-- The key under which a solve fixes an edition. -/
def solveKey : SolveOwner → Nat
  | .job n => 3 * n
  | .loop e => 3 * e + 1

/-- A map solve's problem built and queued, with its edition fixed; the status that refuses it otherwise (R386, R394). -/
def State.queueMap (s : State) (owner : SolveOwner) (q : SolveParams) (edition : Nat) (cut sheets : List Nat) (adjust output : Bool)
    (eventQueue outAt deadline : Nat) : Except Nat State :=
  let r := mapProblem (s.view edition cut) sheets adjust
  let l := r.1.lay
  if !r.1.covered then .error stMalformed
  else if !r.1.fits l then .error stTooLarge
  else (s.fixEdition (solveKey owner) edition).queueSolve {
    owner := owner, problem := r.1, params := q, outAt := outAt, deadline := deadline, entries := l.entries
    map := some {
      edition := edition, cut := cut, adjust := adjust, sheets := sheets, frames := r.2.1, marks := r.2.2.1, loops := r.2.2.2
      output := output, eventQueue := eventQueue, policy := s.map.policy } }

/-- SOLVE_MAP (0x0402) (R386, R394). -/
def execSolveMap (job : Nat) (buf : BufRead) (s : State) : Answer :=
  .next <| s.beginRead job 0x0402 buf fun j b s =>
    let len := dataLenOf j.slip
    let read := fldB b 4 1
    let n := fldB b 8 2
    let want := fldB b 16 8
    let outAt := 64 + (4 * n + 63) / 64 * 64
    let edition := if read = 2 then want else s.map.lastInked
    match solveParams j.slip with
    | none => s.finish j.num (refusal stMalformed)
    | some q =>
      if decide (len < 64) || fldB b 0 4 ≠ 0x5A434D50 || decide (2 < read) || decide (1 < fldB b 5 1) || decide (1 < fldB b 6 1) ||
          fldB b 7 1 ≠ 0 || n = 0 || fldB b 10 2 ≠ 0 || !s.eventQueueOk (fldB b 12 4) || (read ≠ 2 && want ≠ 0) ||
          !allZero ((b.drop 24).take 40) then s.finish j.num (refusal stMalformed)
      else if 256 < n then s.finish j.num (refusal stTooLarge)
      else if decide (len < outAt + 128) || !allZero ((b.drop (64 + 4 * n)).take (outAt - 64 - 4 * n)) then
        s.finish j.num (refusal stMalformed)
      else if (s.edition edition).isNone then s.finish j.num (refusal stStaleEdition)
      else if (requestSheets b).any s.sheetMissing || (fldB b 6 1 = 1 && read = 2) then s.finish j.num (refusal stNotPermitted)
      else if (requestSheets b).any s.sheetMoving then s.putBack j.num
      else if fldB b 6 1 = 1 && decide (4096 ≤ s.ownPencilled) then s.finish j.num (refusal stNoResource)
      else
        match s.queueMap (.job j.num) q edition (if read = 1 then s.draftCut else []) (requestSheets b).eraseDups
            (fldB b 5 1 = 1) (fldB b 6 1 = 1) (fldB b 12 4) outAt (deadlineOf j.slip) with
        | .error code => s.finish j.num (refusal code)
        | .ok s => s

/-! ## Loop edits (R390) -/

/-- A loop edit's verdict fails: it is withdrawn for reason 1 (R389). -/
def State.loopFails (s : State) (n : Nat) : State := (s.bumpSolve 12 1).withdraw n 1

/-- A SOLVE edit's verdict passes: it is inked (R339). -/
def State.inkSolve (s : State) (n : Nat) : State :=
  let set := s.inkingSet [n]
  (s.markInking set).askInking set

/-- The loop solve of an edit put before the Collator: the pose graph (step 3) or the bundle adjustment (step 6). -/
def State.queueLoop (s : State) (n : Nat) (region : List Nat) (adjust : Bool) : State :=
  let q : SolveParams := {
    maxIterations := if adjust then s.map.baIterations else s.map.pgIterations, refineMax := 4, covariance := false
    residualOut := false, tau := 40, rho := 20, lambda0 := f64dec 1 4, tolCost := f64dec 1 10, tolStep := f64dec 1 9 }
  match s.queueMap (.loop n) q s.map.lastInked s.draftCut region adjust true 0 0 0 with
  | .error _ => s.loopFails n
  | .ok s => s.modEdit n (fun e => { e with loop := e.loop.map (fun w => { w with step := if adjust then 6 else 3 }) })

/-- Whether a loop edit still waits: a SOLVE edit pencilled before it touches its region (R390 step 2). -/
def State.loopWaits (s : State) (n : Nat) (region : List Nat) : Bool :=
  let time (k : Nat) : Nat := (s.edit k).elim 0 (·.pencilTime)
  s.map.edits.any (fun e => e.1 ≠ n && e.2.verdict == 2 && e.2.inDraft && e.2.sheets.any region.contains &&
    (decide (time e.1 < time n) || (time e.1 == time n && decide (e.1 < n))))

/-- LOOP_SOLVE_RELEASE: a loop edit that waits for no earlier SOLVE edit on its region starts its pose graph (R390). -/
def execLoopSolveRelease (edit : Nat) (s : State) : Answer :=
  .next <|
    match (s.edit edit).bind (·.loop) with
    | none => s
    | some w => if w.step ≠ 2 || s.reference.state ≠ .normal || s.loopWaits edit w.region then s else s.queueLoop edit w.region false

/-! ## Admission, iterations (R376, R394) -/

/-- A large solve changed. -/
def State.modSolve (s : State) (o : SolveOwner) (f : LargeSolve → LargeSolve) : State :=
  s.modCollator (fun c => { c with solves := mapIf (fun x => x.owner == o) f c.solves })

/-- A large solve by its owner. -/
def State.solveOf (s : State) (o : SolveOwner) : Option LargeSolve := s.collator.solves.find? (fun x => x.owner == o)

/-- A large solve leaves; its edition is free. -/
def State.dropSolve (s : State) (o : SolveOwner) : State :=
  (s.modCollator (fun c => { c with solves := c.solves.filter (fun x => x.owner ≠ o) })).freeEdition (solveKey o)

/-- How a discard ends a job (R86, R97, R105, R113): by Circulation where no unit has taken it; a run with its image's codes and
the events it had, a solve with the pivots it had raised. -/
def State.discardEnding (s : State) (j : Job) : Ending :=
  if !j.started then refusalByCirculation stDiscarded 0
  else
    match s.images.runs.find? (fun r => r.job == j.num), s.solveOf (.job j.num) with
    | some r, _ => discardedRun (s.image r.handle) r
    | none, some x => match x.progress with
      | some g => endWith (stDiscarded :: ({ g with ended := none } : Progress).codes)
          (({ g with ended := none } : Progress).flags (x.problem.invalid g.x) false)
      | none => refusal stDiscarded
    | none, none => refusal stDiscarded

/-- Jobs discarded, the runs among them leaving the pipelines (R86, R105, R113). -/
def State.discardWhere (s : State) (p : Job → Bool) : State :=
  let hit := s.discardable p
  let t := hit.foldl (fun t j => t.finish j.num (s.discardEnding j)) s
  { t with images := { t.images with runs := t.images.runs.filter (fun r => !hit.any (fun j => j.num == r.job)) } }

/-- Solves whose job has ended otherwise leave (R86, R113). -/
def State.sweepSolves (s : State) : State :=
  (s.collator.solves.filter (fun x => match x.owner with
    | .job n => !s.running n
    | .loop _ => false)).foldl (fun s x => s.dropSolve x.owner) s

/-- LARGE_SOLVE_ADMIT: the first solve that waits is admitted, two at most at once, once its upkeep carrels are free; one
whose deadline has passed ends unstarted (R95, R377, R394). -/
def execLargeSolveAdmit (s : State) : Answer :=
  .next <|
    let s := s.sweepSolves
    match s.collator.solves.find? (·.progress.isNone) with
    | none => s
    | some x =>
      if decide (2 ≤ (s.collator.solves.filter (·.progress.isSome)).length) || !s.unitWorks 0x0013 0 ||
          s.reference.state ≠ .normal || decide (s.freeCarrels false < solverCarrels x.entries) then s
      else if s.passed x.deadline then
        match x.owner with
        | .job n => (s.dropSolve x.owner).finish n (refusalNotStarted stPartialDeadline)
        | .loop _ => s
      else
        let dl := match x.owner, x.map with
          | .loop _, some m => if m.adjust then s.now + s.map.baDeadlineMs * 1000000 else 0
          | _, _ => x.deadline
        let s := match x.owner, x.map with
          | .loop _, some m => if m.adjust then (s.bumpSolve 13 1).modMap (fun m => { m with loopsInked := 0 }) else s
          | _, _ => s
        s.modSolve x.owner (fun y => { y with progress := some (y.problem.start y.params), deadline := dl })

/-- SOLVE_ITERATION_END: an iteration of an admitted solve ends, its step accepted, rejected or failed (R371 to R376). -/
def execSolveIterationEnd (solve : SolveOwner) (s : State) : Answer :=
  .next <|
    let s := s.sweepSolves
    match s.solveOf solve with
    | none => s
    | some x =>
      match x.progress with
      | none => s
      | some g =>
        let h := x.problem.iterate x.problem.lay x.params g
        (s.modSolve solve (fun y => { y with progress := some h })).tallySolve g h

/-! ## The end of a solve (R377, R378, R384 to R386, R389, R390) -/

/-- Whether a solve ended `OK`, STALLED and ITER_LIMIT among it (R376). -/
def SolveEnd.good : SolveEnd → Bool
  | .ok => true
  | .stalled => true
  | .iterLimit => true
  | _ => false

/-- The covariance stage of a solve that ended `OK` (R378). -/
def covarianceStage (x : LargeSolve) (g : Progress) : Solved :=
  if !x.params.covariance || !(g.ended.elim false (·.good)) then { g := g }
  else
    match x.problem.covariances x.problem.lay x.params g.x with
    | some (cs, f, raised, limit, r) => { g := g.count (some (f, raised)) limit, cov := cs, reduced := some r }
    | none => { g := { g with covarianceMissing := true } }

/-- The count of R380 that a solve's end raises. -/
def SolveEnd.count : SolveEnd → Nat
  | .deadline => 1
  | .diverged => 2
  | _ => 0

/-- A SOLVE ends (R384, R385). -/
def State.endHost (s : State) (n : Nat) (x : LargeSolve) (r : Solved) : State :=
  let l := x.problem.lay
  let out := solveOutput s.fresh x l r
  let e := endWith r.g.codes (r.g.flags (x.problem.invalid r.g.x) false) r.g.result [(x.outAt, out)]
  ({ s with fresh := s.fresh + 84 * (x.problem.blocks.length + 1) } : State).finish n e

/-- A SOLVE_MAP ends: the records to the buffer, or a SOLVE edit with its verdict, under the policy that the solve started with; where
the edit can not be pencilled the report is written all the same (R380, R385, R386, R389). -/
def State.endMap (s : State) (n : Nat) (x : LargeSolve) (m : MapSolve) (r : Solved) : State :=
  let l := x.problem.lay
  let ws := solvedRecords x.problem m r
  let len := match s.job n with | some j => dataLenOf j.slip - x.outAt | none => 0
  let body := ws.flatMap (·.data)
  let cut := !m.output && decide (len < 128 + body.length)
  let finish (s : State) (edit kf lm : Nat) : State :=
    s.finish n (endWith r.g.codes (r.g.flags (x.problem.invalid r.g.x) cut) r.g.result
      [(x.outAt, solveReport x.problem l r.g (endWith r.g.codes (r.g.flags (x.problem.invalid r.g.x) cut)) ++ le 8 edit ++ le 4 kf ++ le 4 lm ++ zeros 48 ++
        (if m.output || cut then [] else body))])
  if !m.output then finish s 0 m.frames.length m.marks.length
  else
    let moved := movedRecords x.problem m r
    let of_ (t : MapTable) : Nat := (moved.filter (fun w => w.table == t)).length
    match s.deviceEdit 2 moved s.map.flash.lastId none m.eventQueue none [] with
    | (.error code, s) =>
      let good := r.g.codes.filter (fun c => decide (c < 16))
      let e := endWith (if r.g.codes = good then code :: good else r.g.codes) (r.g.flags (x.problem.invalid r.g.x) false)
      s.finish n { e with output := [(x.outAt, solveReport x.problem l r.g e ++ zeros 8 ++ le 4 (of_ .keyframe) ++
        le 4 (of_ .landmark) ++ zeros 48)] }
    | (.ok e, s) =>
      let base := s.roomEdition ((s.edit e).elim s.map.lastInked (·.base))
      if verdictPasses { s.map with policy := m.policy } x.problem m r.g base moved then finish (s.inkSolve e) e (of_ .keyframe) (of_ .landmark)
      else finish (s.withdraw e 1) e (of_ .keyframe) (of_ .landmark)

/-- A loop edit's solve ends: the edit is revised, the checks made, the next step taken (R389, R390). -/
def State.endLoop (s : State) (n : Nat) (x : LargeSolve) (m : MapSolve) (r : Solved) : State :=
  match s.edit n with
  | none => s
  | some e =>
    if e.state ≠ .pencilled || e.loop.isNone then s
    else
      let moved := movedRecords x.problem m r
      match s.reviseEdit n moved with
      | (s, some code) => if code = stNoResource then (s.bumpSolve 12 1).withdraw n 6 else s.loopFails n
      | (s, none) =>
      let ws := (s.edit n).elim moved (·.writes)
      let base := s.roomEdition e.base
      let set := { s.map with policy := m.policy }
      if !verdictPasses set x.problem m r.g base ws then s.loopFails n
      else
        let due := f64lt set.baMove (movedFrom base ws) ||
          (set.baEvery ≠ 255 && decide (set.baEvery ≤ s.map.loopsInked + 1))
        if !m.adjust && due then s.queueLoop n m.sheets true
        else ((s.bumpSolve 11 1).inkSolve n)

/-- A large solve ends with what it has. -/
def State.endSolve (s : State) (x : LargeSolve) (r : Solved) : State :=
  let s := s.dropSolve x.owner
  let s := match r.g.ended with | some e => s.bumpSolve (if r.g.late then 1 else e.count) 1 | none => s
  match x.owner, x.map with
  | .job n, none => s.endHost n x r
  | .job n, some m => s.endMap n x m r
  | .loop n, some m => s.endLoop n x m r
  | .loop _, none => s

/-- SOLVE_END: an admitted solve whose iteration has ended runs its covariance stage and writes its results (R376, R378,
R384 to R386). -/
def execSolveEnd (solve : SolveOwner) (s : State) : Answer :=
  .next <|
    let s := s.sweepSolves
    match s.solveOf solve with
    | none => s
    | some x =>
      match x.progress with
      | none => s
      | some g =>
        if g.ended.isNone then s
        else
          let r := covarianceStage x g
          (s.tallySolve g r.g).endSolve x r

/-- SOLVE_DEADLINE: a solve's deadline passes in a phase: 0 the start of an iteration or its assembly, 1 factorisation,
refinement and back-substitution, 2 evaluation, 3 the covariance stage; one that waits for admission ends unstarted (R95, R377). -/
def execSolveDeadline (solve : SolveOwner) (phase : Nat) (s : State) : Answer :=
  .next <|
    let s := s.sweepSolves
    match s.solveOf solve with
    | none => s
    | some x =>
      match x.progress with
      | none =>
        (match x.owner with
          | .job n => if s.passed x.deadline then (s.dropSolve x.owner).finish n (refusalNotStarted stPartialDeadline) else s
          | .loop _ => s)
      | some g =>
        let cov := x.params.covariance
        if !s.passed x.deadline then s
        else if phase = 3 then
          if !cov || !(g.ended.elim false (·.good)) then s
          else s.endSolve x { g := { g with late := true, midFactor := true, covarianceMissing := true } }
        else if g.ended.isSome then s
        else if phase = 2 then
          let h := x.problem.iterate x.problem.lay x.params g
          let h := match h.ended with
            | some _ => { h with covarianceMissing := cov }
            | none => { h with ended := some .deadline, retries := g.retries }
          (s.tallySolve g h).endSolve x { g := h }
        else s.endSolve x { g := { g with ended := some .deadline, midFactor := phase = 1 } }

/-! ## Discarded solves (R395) -/

/-- A large solve discarded: a device loop solve is run once more from its start, a second discard withdraws its edit
(R395). A job's own ending is made where the fault is handled. -/
def State.discardSolve (s : State) (o : SolveOwner) : State :=
  if (s.solveOf o).isNone then s
  else
    let s := (s.dropSolve o).bumpSolve 3 1
    match o with
    | .job _ => s
    | .loop n =>
      match (s.edit n).bind (·.loop) with
      | none => s
      | some w =>
        if w.retried then s.loopFails n
        else s.modEdit n (fun e => { e with loop := some { w with retried := true, step := 2 } })

/-! ## Policy, codebook, counts (R380, R387, R388) -/

/-- A setting taken on this member: the solver policy, or the codebook. -/
def State.takeSetting (s : State) (book : Bool) (b : Bytes) : State :=
  if book then (s.bumpSolve 15 1).modMap (fun m => { m with codebook := some b })
  else (s.bumpSolve 14 1).modMap (fun m => { m with policy := b })

/-- A setting sent to a member: a codebook as BULK data of the Collator's, then a CONTROL message that names the issuing
member and its job, with the 64 bytes of a policy (R461; log 14). -/
def State.sendSetting (s : State) (dest code issuer job : Nat) (book : Bool) (b : Bytes) : State :=
  let s := if !book then s
    else (List.range 8).foldl (fun s i => s.sendLink {
      kind := 8, channel := 2, source := s.position, dest := dest, address := 0x13 * 2 ^ 32 + 4096 * i
      words := recordsAt b (4096 * i) 32 128 }) s
  s.control dest code ([issuer, job, flag book] ++ (if book then [] else [unle (b.take 32), unle (b.drop 32)]))

/-- The clerk accepts a setting: it takes it and sends it to every other member (R380). -/
def State.acceptSetting (s : State) (issuer job : Nat) (book : Bool) (b : Bytes) : State :=
  let s := s.takeSetting book b
  s.others.foldl (fun s m => s.sendSetting m 0x60 issuer job book b) s

/-- A member has taken the setting of a job; the job ends when every member has (R380). -/
def State.settingTaken (s : State) (job member : Nat) : State :=
  match amGet s.collator.settings job with
  | none => s
  | some w =>
    let w := w.filter (· ≠ member)
    if w.isEmpty then (s.modCollator (fun c => { c with settings := amDel c.settings job })).finish job (endWith [])
    else s.modCollator (fun c => { c with settings := amSet c.settings job w })

/-- A setting job that passed its checks (R380). -/
def State.startSetting (s : State) (job : Nat) (book : Bool) (b : Bytes) : State :=
  let s := s.modCollator (fun c => { c with settings := amSet c.settings job s.present })
  if s.isClerk then (s.acceptSetting s.position job book b).settingTaken job s.position
  else s.sendSetting s.clerk 0x61 s.position job book b

/-- SET_SOLVER (0x0403) (R380, R387, R394). -/
def execSetSolver (job : Nat) (buf : BufRead) (s : State) : Answer :=
  .next <| s.beginRead job 0x0403 buf fun j b s =>
    if dataLenOf j.slip ≠ 64 || fld j.slip 32 32 ≠ 0 || !solverPolicyOk b then s.finish j.num (refusal stMalformed)
    else s.startSetting j.num false b

/-- SET_CODEBOOK (0x0404) (R380, R388, R394). -/
def execSetCodebook (job : Nat) (buf : BufRead) (s : State) : Answer :=
  .next <| s.beginRead job 0x0404 buf fun j b s =>
    if dataLenOf j.slip ≠ 32768 || fld j.slip 32 32 ≠ 0 then s.finish j.num (refusal stMalformed)
    else s.startSetting j.num true b

/-- QUERY_COLLATOR (0x0405) (R380). -/
def execQueryCollator (job : Nat) (s : State) : Answer :=
  .next <| s.begin job 0x0405 fun j s =>
    if fld j.slip 32 32 ≠ 0 then s.finish j.num (refusal stMalformed)
    else if dataLenOf j.slip < 64 then s.finish j.num (refusalNotStarted stTooLarge)
    else s.finish j.num (endWith [] 0 0 [(0, s.collator.counts.flatMap (le 4))])

end Sys2Proof.Machine
end

