-- ==== Sys2Proof/Machine/Circulation.lean ====
section
/-! DEFINITION. Circulation: fetching and judging call slips, doorbells, the queue opcodes, return slips (R79 to R115,
R614). -/
namespace Sys2Proof.Machine


/-! ## Fetch order (R108) -/

/-- Call slips of a queue in flight (R85). -/
def Circ.inFlight (c : Circ) (q : Nat) : Nat := (c.jobs.filter (fun j => j.sq == q)).length

/-- Whether a place in flight is free for a queue: 4,096 in all, 64 of them for queue 0 alone, QUOTA for each (R108). -/
def Circ.room (c : Circ) (q : Nat) (x : Queue) : Bool :=
  decide (c.jobs.length < 4096) && decide (c.inFlight q < x.quota) &&
    (q = 0 || decide (c.jobs.length - c.inFlight 0 < 4032))

/-- Whether Circulation may read a slip of a queue now (R82, R86, R108). -/
def Circ.fetchable (c : Circ) (q : Nat) (x : Queue) : Bool :=
  x.kind = .submission && x.state = .active && x.head ≠ x.tail && hostResident q && c.room q x

/-- Round robin by queue number: the first candidate above the last served, or else the first (R108). -/
def roundRobin (last : Nat) (l : List Nat) : Option Nat :=
  match l.find? (fun q => decide (last < q)) with
  | some q => some q
  | none => l.head?

/-- The queue to fetch from: queue 0, then serving-class queues, then upkeep-class queues (R108). -/
def Circ.nextFetch (c : Circ) (onlyAdmin : Bool) : Option Nat :=
  let can := (c.queues.filter (fun e => c.fetchable e.1 e.2))
  if can.any (fun e => e.1 == 0) then some 0
  else if onlyAdmin then none
  else
    match roundRobin c.lastServing ((can.filter (fun e => e.2.serving)).map (·.1)) with
    | some q => some q
    | none => roundRobin c.lastUpkeep ((can.filter (fun e => !e.2.serving)).map (·.1))

/-! ## The checks of a call slip (R115) -/

/-- The opcodes that the chapters define (R101). -/
def knownOpcodes : List Nat :=
  [0x0101, 0x0102, 0x0103, 0x0104, 0x0105, 0x0110,
   0x0201, 0x0202, 0x0203, 0x0204, 0x0205, 0x0210,
   0x0301, 0x0302, 0x0303, 0x0304, 0x0305, 0x0306, 0x0307, 0x0308,
   0x0401, 0x0402, 0x0403, 0x0404, 0x0405,
   0x0501, 0x0502, 0x0503, 0x0504, 0x0505, 0x0506, 0x0507,
   0x0601, 0x0602, 0x0603, 0x0604, 0x0605, 0x0606, 0x0607, 0x0608, 0x0609, 0x0610,
   0x0701, 0x0702, 0x0703, 0x0704, 0x0705, 0x0706, 0x0707,
   0x0801, 0x0802, 0x0803, 0x0804, 0x0805,
   0x0820, 0x0821, 0x0822, 0x0824, 0x0825, 0x0826,
   0x0830, 0x0831, 0x0832, 0x0833,
   0x0840, 0x0841, 0x0842, 0x0843, 0x0844, 0x0845,
   0x0850, 0x0851, 0x0852, 0x0853, 0x0854, 0x0855, 0x0856,
   0x0870, 0x0871, 0x0872, 0x0878, 0x0879, 0x087A,
   0x0880, 0x0881, 0x0882, 0x0883, 0x0884, 0x0890, 0x0891]

/-- Opcodes refused in reference service (R175, R201, R255, R289, R325, R364, R395, R439); runs of upkeep-class images
are refused beside them. -/
def stoppedOpcodes : List Nat :=
  [0x0101, 0x0820, 0x0701, 0x0702, 0x0705, 0x0601, 0x0602, 0x0604, 0x0201, 0x0301, 0x0302, 0x0305, 0x0830, 0x0831,
   0x0401, 0x0402, 0x0403, 0x0404, 0x0502, 0x0503, 0x0504, 0x0505, 0x0507]

/-- Opcodes that queue 0 accepts in minimal mode (R531). -/
def minimalOpcodes : List Nat :=
  [0x0878, 0x0879, 0x087A, 0x0871, 0x0872, 0x0854, 0x0855, 0x0856, 0x0853, 0x0890]

/-- Whether a call slip's work is stopped (R114). -/
def State.stops (s : State) (j : Slip) : Bool :=
  match s.boot.gen with
  | .minimal => !minimalOpcodes.contains (opcodeOf j)
  | _ => s.reference.state ≠ .normal &&
      (stoppedOpcodes.contains (opcodeOf j) || (opcodeOf j = 0x0110 && s.upkeepImage (fld j 32 2)))

/-- DATA_LEN within the 64 MiB of R94, or a receive queue's CREATE_QUEUE, which R103 bounds. -/
def dataLenOk (j : Slip) : Bool :=
  decide (dataLenOf j ≤ 64 * 1024 * 1024) || (opcodeOf j = 0x0801 && fld j 36 1 = 2)

/-- The first check of Circulation that a slip fails: its code, its reason and whether it is a host mistake (R115). DESIGN CHOICE (log
163): the two answers that R115's table gives no reason carry reason 0. -/
def State.judge (s : State) (sq : Nat) (j : Slip) : Option (Nat × Nat × Bool) :=
  if !knownOpcodes.contains (opcodeOf j) then some (stMalformed, 0x06, true)
  else if bitsOf (flagsOf j) 15 2 ≠ 0 || fld j 6 2 ≠ 0 || fld j 28 4 ≠ 0 then some (stMalformed, 0x07, true)
  else if dataAddrOf j % 64 ≠ 0 || (dataAddrOf j = 0 && dataLenOf j ≠ 0) then some (stMalformed, 0x08, true)
  else if !dataLenOk j then some (stTooLarge, 0x09, true)
  else if opcodeOf j / 256 = 0x08 && sq ≠ 0 then some (stNotPermitted, 0x0B, true)
  else if s.stops j then some (stRefusedDegraded, 0, false)
  else if s.passed (deadlineOf j) then some (stPartialDeadline, 0, false)
  else none

/-- The slip that follows the head of a queue taken (R82, R108). -/
def Circ.take (c : Circ) (q : Nat) (slip : Slip) (e : Option Ending) : Circ :=
  let x := c.queue q
  let j : Job := { num := c.read, sq := q, slot := x.head, gen := x.gen, slip := slip, ending := e,
                   held := fenceOf slip && e.isNone && c.jobs.any (fun i => i.sq == q) }
  let c := c.setQueue q { x with head := (x.head + 1) % x.slots }
  { c with jobs := c.jobs ++ [j], read := c.read + 1
           lastServing := if x.serving then q else c.lastServing
           lastUpkeep := if x.serving || q = 0 then c.lastUpkeep else q }

/-- CALL_SLIP_FETCH: `read` is what the slot read returns, none where it fails (R106, R108, R115, R86). -/
def execCallSlipFetch (read : Option Slip) (s : State) : Answer :=
  .next <|
    match (if s.power.sleep = .awake then s.desk.circ.nextFetch (s.boot.gen = .minimal) else none) with
    | none => s
    | some q =>
      match read with
      | none =>
        let x := s.desk.circ.queue q
        (s.modCirc (fun c => c.setQueue q { x with state := .halted })).tell
          (circMistake 0x05 q ++ [.event 2 { code := 0x0002, detail := 0x05, subject := q, value := x.head }])
      | some slip =>
        let slot := (s.desk.circ.queue q).head
        match s.judge q slip with
        | none => s.modCirc (fun c => c.take q slip none)
        | some (code, reason, logged) =>
          let s := s.modCirc (fun c => c.take q slip (some (refusalByCirculation code reason)))
          if logged then s.tell (circMistake reason 0 (slipPlace q slot)) else s

/-- FENCE_RELEASE: a fenced slip starts once no earlier slip of its queue is in flight (R107). -/
def execFenceRelease (job : Nat) (s : State) : Answer :=
  .next <|
    match s.job job with
    | none => s
    | some j =>
      if j.held && (s.desk.circ.earlier j).isEmpty then s.modCirc (fun c => c.modJob job (fun i => { i with held := false }))
      else s

/-- UNSTARTED_DEADLINE: the deadline of a slip not yet started has passed (R95). -/
def execUnstartedDeadline (job : Nat) (s : State) : Answer :=
  .next <|
    match s.job job with
    | none => s
    | some j =>
      if !j.started && s.passed (deadlineOf j.slip) then s.finish job (refusalByCirculation stPartialDeadline 0) else s

/-! ## Doorbells (R87 to R91) -/

/-- The answer to a doorbell (R88, R115). -/
inductive DoorbellAnswer where
  | accept (x : Queue)
  | stale
  | reject (reason : Nat)

/-- Whether INDEX moves a tail forward, or a head forward and not past the tail (R88). -/
def Queue.moves (x : Queue) (index : Nat) : Bool :=
  let n := x.slots
  let i := (index + n - x.head) % n
  if x.kind.deviceProduced then decide (i ≤ x.used) else decide (x.used ≤ i)

/-- The index of an accepted doorbell taken. A head that passes entries leaves only those at or beyond it counted in
UNSIGNALLED (R111). -/
def Queue.ring (x : Queue) (index : Nat) : Queue :=
  if x.kind.deviceProduced then
    let y := { x with head := index }
    { y with entryTimes := y.entryTimes.drop (y.entryTimes.length - y.used) }
  else { x with tail := index }

/-- A doorbell judged (R88): the conditions in order, the first that fails deciding. -/
def judgeDoorbell (q : Nat) (x : Queue) (v : Nat) : DoorbellAnswer :=
  if !hostResident q then .reject 0x01
  else match x.state with
  | .free => .reject 0x01
  | .halted => .reject 0x01
  | .draining => .stale
  | .active =>
    if bitsOf v 23 16 ≠ x.gen then .stale
    else if x.slots ≤ bitsOf v 15 0 then .reject 0x02
    else if bitsOf v 63 24 ≠ 0 then .reject 0x04
    else if !x.moves (bitsOf v 15 0) then .reject 0x03
    else .accept (x.ring (bitsOf v 15 0))

/-- DOORBELL_REJECTED and its Errata record (R99, R115). -/
def rejectDoorbell (q v reason : Nat) : List Notice :=
  circMistake reason q ++ [.event 2 { code := 0x0001, detail := reason, subject := q, value := v % 2 ^ 32 }]

/-- One doorbell rung (R88). -/
def State.ring (s : State) (q v : Nat) : State :=
  let x := s.desk.circ.queue q
  match judgeDoorbell q x v with
  | .accept y =>
    let s := s.modCirc (fun c => c.setQueue q y)
    if q = 0 then s.tell [.raise 172] else s
  | .stale => s.modCirc (fun c => c.setQueue q { x with stale := satAdd 32 x.stale 1 })
  | .reject r => s.tell (rejectDoorbell q v r)

/-- The doorbells a write touches, in increasing order of address: queue, whether the whole of it is covered, and the
bytes written in their places (R89). DESIGN CHOICE (log 164): in the VALUE that a partial write reports, the bytes it does not
write are zero. -/
def touched (offset : Nat) (data : Bytes) : List (Nat × Bool × Nat) :=
  if data.isEmpty then [] else
  (List.range ((offset + data.length - 1) / 8 + 1 - offset / 8)).map (fun k =>
    let q := offset / 8 + k
    let at8 (i : Nat) : Option Byte := if offset ≤ 8 * q + i then data[8 * q + i - offset]? else none
    (q, (List.range 8).all (fun i => (at8 i).isSome), unle ((List.range 8).map (fun i => (at8 i).getD 0))))

/-- A write into the doorbell window carried out (R89). -/
def State.doorbells (s : State) (offset : Nat) (data : Bytes) : State :=
  (touched offset data).foldl (fun s t => if t.2.1 then s.ring t.1 t.2.2 else s.tell (rejectDoorbell t.1 t.2.2 0x04)) s

/-- DOORBELL_WRITE: one PCIe write of `data` at an offset of the doorbell window (R87 to R89, R587). -/
def execDoorbellWrite (offset : Nat) (data : Bytes) (s : State) : Answer :=
  .next (s.pcieAccess (.doorbellWrite offset data) (fun s => s.doorbells offset data))

/-! ## Queue opcodes (R102, R103) -/

/-- Code of a kind (R79). -/
def kindOfCode : Nat → Option QKind
  | 0 => some .submission
  | 1 => some .ret
  | 2 => some .receive
  | 3 => some .transmit
  | 4 => some .event
  | _ => none

/-- The code of a kind (R79). -/
def QKind.code : QKind → Nat
  | .submission => 0
  | .ret => 1
  | .receive => 2
  | .transmit => 3
  | .event => 4

/-- The code of a state (R85). -/
def QState.code : QState → Nat
  | .free => 0
  | .active => 1
  | .halted => 2
  | .draining => 3

/-- What a read of a queue's doorbell returns: HEAD of a host-produced queue or TAIL of a device-produced one, GEN and STATE; zero for
a Stack-resident queue (R87, R90). It changes nothing. -/
def State.doorbell (s : State) (q : Nat) : Nat :=
  if !hostResident q then 0
  else
    let x := s.desk.circ.queue q
    (if x.kind.deviceProduced then x.tail else x.head) + x.gen * 2 ^ 16 + x.state.code * 2 ^ 24

/-- The value that a read of `n` bytes at an offset of the doorbell window returns (R87, R90, R587). -/
def State.doorbellBytes (s : State) (offset n : Nat) : Nat :=
  unle ((List.range n).map (fun i => BitVec.ofNat 8 (s.doorbell ((offset + i) / 8) / 2 ^ (8 * ((offset + i) % 8)))))

/-- The queue an opcode names: bits 19:0 of bytes 32 to 35 (R102). -/
def queueNamed (j : Slip) : Nat := bitsOf (fld j 32 4) 19 0

/-- VECTOR, COAL_COUNT and COAL_TIME within their ranges, and no COAL_COUNT above 1 with a COAL_TIME of 0 (R103, R111). -/
def coalescingOk (j : Slip) : Bool :=
  (decide (fld j 38 2 ≤ 2047) || fld j 38 2 = noVector) && decide (fld j 54 2 ≤ 1000) &&
    !(decide (1 < fld j 56 1) && fld j 54 2 = 0)

/-- Whether every field of a CREATE_QUEUE holds a value of R103. -/
def createFieldsOk (c : Circ) (j : Slip) : Bool :=
  let kind := fld j 36 1
  let n := 2 ^ fld j 37 1
  let partner := fld j 48 4
  let p := c.queue (bitsOf partner 19 0)
  bitsOf (fld j 32 4) 31 20 = 0 && decide (kind ≤ 4) && decide (4 ≤ fld j 37 1) && decide (fld j 37 1 ≤ 16) &&
    fld j 40 8 % 4096 = 0 && coalescingOk j && decide (fld j 52 2 ≤ 4096) && fld j 58 6 = 0 &&
    (if kind = 0 then bitsOf partner 31 20 = 0 && hostResident partner && p.kind = .ret && p.state = .active
      else partner = 0) &&
    (if kind = 0 then decide (fld j 57 1 ≤ 1) else fld j 57 1 = 0) &&
    (if kind = 2 then dataLenOf j = n * 2048 && dataAddrOf j ≠ 0 else dataAddrOf j = 0 && dataLenOf j = 0)

/-- A queue that no queue opcode may name: 0, 1, 2 or Stack-resident (R102). -/
def fixedOrStack (q : Nat) : Bool := decide (q < 3) || !hostResident q

/-- A refusal of a queue opcode with its Errata record (R115). -/
def State.refuseQueue (s : State) (j : Job) (code reason : Nat) : State :=
  (s.tell (circMistake reason (queueNamed j.slip) (slipPlace j.sq j.slot))).finish j.num (refusalByCirculation code reason)

/-- The context of a queue as CREATE_QUEUE makes it (R86, R103). -/
def createdQueue (x : Queue) (j : Slip) (kind : QKind) : Queue :=
  { x with
    ringAddr := fld j 40 8, bufAddr := if kind = .receive then dataAddrOf j else 0, kind := kind, log2 := fld j 37 1
    gen := nextGen x.gen, state := .active, head := 0, tail := 0
    partner := if kind = .submission then fld j 48 4 else 0
    vector := fld j 38 2, coalCount := fld j 56 1, serving := fld j 57 1 = 1, coalTime := fld j 54 2
    quota := if fld j 52 2 = 0 then 4096 else fld j 52 2, phase := true, entryTimes := [], binding := 0
    drain := .none, lost := 0 }

/-- CREATE_QUEUE (0x0801): a free host-resident queue made active (R86, R102, R103, R115). -/
def execCreateQueue (job : Nat) (s : State) : Answer :=
  .next <| s.begin job 0x0801 fun j s =>
    let q := queueNamed j.slip
    let x := s.desk.circ.queue q
    if !createFieldsOk s.desk.circ j.slip then s.refuseQueue j stMalformed 0x0C
    else if x.state ≠ .free then s.refuseQueue j stNotPermitted 0x0D
    else if fixedOrStack q then s.refuseQueue j stNotPermitted 0x0E
    else
      match kindOfCode (fld j.slip 36 1) with
      | none => s.refuseQueue j stMalformed 0x0C
      | some k =>
        let y := createdQueue x j.slip k
        (s.modCirc (fun c => c.setQueue q y)).finish j.num (endWith [] 0 y.gen)

/-- Whether a queue that is not free names a return queue as PARTNER (R102). -/
def Circ.isPartner (c : Circ) (q : Nat) : Bool :=
  c.queues.any (fun e => e.2.kind = .submission && e.2.state ≠ .free && e.2.partner == q && e.1 ≠ 0)

/-- DESTROY_QUEUE (0x0802): the queue's work is discarded and it drains towards free (R86, R102, R614). -/
def execDestroyQueue (job : Nat) (s : State) : Answer :=
  .next <| s.begin job 0x0802 fun j s =>
    let q := queueNamed j.slip
    let x := s.desk.circ.queue q
    if fixedOrStack q then s.refuseQueue j stNotPermitted 0x0E
    else if x.kind = .ret && s.desk.circ.isPartner q then s.refuseQueue j stNotPermitted 0x0F
    else if x.state = .free || x.state = .draining then s.refuseQueue j stNotPermitted 0x10
    else (s.modCirc (fun c => c.setQueue q (drainQueue x (.destroy j.num)))).discardWhere (fun i => i.sq == q)

/-- RESET_QUEUE (0x0803): the queue's work is discarded and it drains towards an emptied active queue (R86, R102, R614). -/
def execResetQueue (job : Nat) (s : State) : Answer :=
  .next <| s.begin job 0x0803 fun j s =>
    let q := queueNamed j.slip
    let x := s.desk.circ.queue q
    if fixedOrStack q then s.refuseQueue j stNotPermitted 0x0E
    else if x.state = .free || x.state = .draining then s.refuseQueue j stNotPermitted 0x10
    else (s.modCirc (fun c => c.setQueue q (drainQueue x (.reset j.num)))).discardWhere (fun i => i.sq == q)

/-- Bytes 16 to 31 of a queue context (R85). -/
def contextHigh (x : Queue) : Nat :=
  (pack 128 [(0, 1, x.kind.code), (1, 1, x.log2), (2, 1, x.gen), (3, 1, x.state.code), (4, 2, x.head), (6, 2, x.tail),
    (8, 4, x.partner), (12, 2, x.vector), (14, 1, x.coalCount), (15, 1, flag x.serving)]).toNat

/-- QUERY_QUEUE (0x0804): bytes 16 to 31 of the context, in any state of the queue (R85, R102). -/
def execQueryQueue (job : Nat) (s : State) : Answer :=
  .next <| s.begin job 0x0804 fun j s =>
    let q := queueNamed j.slip
    if fixedOrStack q then s.refuseQueue j stNotPermitted 0x0E
    else s.finish j.num (endWith [] 0 (contextHigh (s.desk.circ.queue q)))

/-- A queue's settings changed: where they make a message due, it is sent (R111). -/
def State.recoalesce (s : State) (q : Nat) (x : Queue) : State :=
  if x.state = .active && x.kind.deviceProduced && hostResident q && messageDue x false then
    (s.modCirc (fun c => c.setQueue q { x with entryTimes := [] })).tell [.raise (2048 + x.vector)]
  else s.modCirc (fun c => c.setQueue q x)

/-- SET_COALESCING (0x0805): VECTOR, COAL_COUNT and COAL_TIME set at once (R102, R103, R111). -/
def execSetCoalescing (job : Nat) (s : State) : Answer :=
  .next <| s.begin job 0x0805 fun j s =>
    let q := queueNamed j.slip
    let x := s.desk.circ.queue q
    if !coalescingOk j.slip then s.refuseQueue j stMalformed 0x0C
    else if fixedOrStack q then s.refuseQueue j stNotPermitted 0x0E
    else if x.state = .free || x.state = .draining then s.refuseQueue j stNotPermitted 0x10
    else
      (s.recoalesce q { x with
        vector := fld j.slip 38 2, coalCount := fld j.slip 56 1, coalTime := fld j.slip 54 2 }).finish j.num (endWith [])

/-- Whether the last discarded return slip of a draining queue has been written (R86). After a fault only discarded
jobs are waited for; otherwise every job of the queue, and by queue 1 every job of queue 0, whose slips are lost (R586, R614). -/
def Circ.drained (c : Circ) (q : Nat) (d : Drain) : Bool :=
  match d with
  | .fault => c.jobs.all (fun j => j.sq ≠ q || (match j.ending with | some e => e.status ≠ stDiscarded | none => true))
  | _ => c.jobs.all (fun j => j.sq ≠ q && !(q = 1 && j.sq = 0))

/-- QUEUE_DRAIN_END: the queue becomes active or free; a fixed queue that a fault has taken waits for the reset of R586 (R81, R86,
R586, R614). -/
def execQueueDrainEnd (q : Nat) (s : State) : Answer :=
  .next <|
    let x := s.desk.circ.queue q
    if x.state ≠ .draining || !s.desk.circ.drained q x.drain then s
    else
      match x.drain with
      | .reset n =>
        (s.modCirc (fun c => c.setQueue q { x with
          state := .active, drain := .none, head := 0, tail := 0, phase := true, entryTimes := [] })).finish n
          (endWith [] 0 x.gen)
      | .destroy n =>
        (s.modCirc (fun c => c.setQueue q { x with state := .free, drain := .none })).finish n (endWith [] 0 x.gen)
      | .fixed => s.modCirc (fun c => c.setQueue q { x with state := .free, drain := .none })
      | _ =>
        if q < 3 then s
        else if x.kind.deviceProduced then s.modCirc (fun c => c.setQueue q { x with state := .active, drain := .none })
        else s.modCirc (fun c => c.setQueue q { x with state := .active, drain := .none, head := 0, tail := 0 })

/-! ## Returns (R98, R109 to R111, R100) -/

/-- What becomes of a final return slip: written, waiting for its return queue, or lost with it (R110, R113, R614). -/
inductive ReturnPath where
  | write | wait | lost
  deriving DecidableEq, Repr

/-- The path of a return slip by the state of its return queue. -/
def Circ.path (c : Circ) (rq : Nat) : ReturnPath :=
  let r := c.queue rq
  match r.state with
  | .free => .lost
  | .halted => .lost
  | .draining => if r.drain = .fixed then .lost else .wait
  | .active => if r.kind ≠ .ret then .lost else if r.full || c.stalled rq then .wait else .write

/-- A job that has ended writes its output, then its return slip and any message (R94, R98, R109, R110). -/
def State.complete (s : State) (job : Nat) : State :=
  match s.job job with
  | none => s
  | some j =>
    match j.ending with
    | none => s
    | some e =>
      if j.waiting then s
      else
        let rq := s.desk.circ.returnOf j.sq
        let s := s.emit (outputWrites j e)
        match s.desk.circ.path rq with
        | .lost => (s.modCirc (fun c => c.leave j (e.status == stDiscarded))).endUnbindings
        | .wait => s.modCirc (fun c =>
            { c.modJob job (fun i => { i with waiting := true }) with
              waiting := c.waiting ++ [job], stalls := if c.stalled rq then c.stalls else amSet c.stalls rq s.now })
        | .write => (s.writeFinal j e rq).endUnbindings

/-- JOB_COMPLETE: a job that has ended is completed (R94, R98, R109, R110). -/
def execJobComplete (job : Nat) (s : State) : Answer := .next (s.complete job)

/-- The first job whose return slip waits for a return queue (R110). -/
def Circ.firstWaiting (c : Circ) (rq : Nat) : Option Job :=
  (c.waiting.filterMap c.job).find? (fun j => c.returnOf j.sq == rq)

/-- RETURN_STALL_RELEASE: the oldest waiting return slip of a queue written once a slot is free (R110). -/
def execReturnStallRelease (q : Nat) (s : State) : Answer :=
  .next <|
    let r := s.desk.circ.queue q
    if r.state ≠ .active || r.kind ≠ .ret || r.full then s
    else
      match s.desk.circ.firstWaiting q with
      | none => s
      | some j =>
        match j.ending with
        | none => s
        | some e => (s.writeFinal j e q).endUnbindings

/-- RETURN_STALLED_TIMER: a stall of a return queue has lasted 100 ms, or a further 100 ms (R99, R110). -/
def execReturnStalledTimer (q : Nat) (s : State) : Answer :=
  .next <|
    let c := s.desk.circ
    let since := amGetD c.stalls q 0
    if c.stalled q && decide (since + 100000000 ≤ s.now) then
      let waiting := c.waiting.filter (fun n => match c.job n with
        | none => false
        | some j => c.returnOf j.sq == q)
      (s.modCirc (fun c => { c with stalls := amSet c.stalls q (since + 100000000) })).event 2
        { code := 0x0004, subject := q, value := waiting.length }
    else s

/-- EVENTS_LOST: the host has freed a slot of an event queue that dropped events (R100). -/
def execEventsLost (q : Nat) (s : State) : Answer :=
  .next <|
    let x := s.desk.circ.queue q
    if x.state = .active && x.kind = .event then
      let r := writeLost s.now q x
      let d := { s.desk with circ := s.desk.circ.setQueue q r.1, out := s.desk.out ++ r.2.1 }
      ({ s with desk := d } : State).tell r.2.2
    else s

/-- COALESCE_TIMEOUT: the oldest entry counted in UNSIGNALLED is COAL_TIME old (R111). -/
def execCoalesceTimeout (q : Nat) (s : State) : Answer :=
  .next <|
    let x := s.desk.circ.queue q
    if x.state = .active && x.kind.deviceProduced && hostResident q && x.vector ≠ noVector && x.coalTime ≠ 0 &&
        x.entryTimes.head?.any (fun t => decide (t + x.coalTime * 1000 ≤ s.now)) then
      (s.modCirc (fun c => c.setQueue q { x with entryTimes := [] })).tell [.raise (2048 + x.vector)]
    else s

end Sys2Proof.Machine
end

