-- ==== Sys2Proof/Machine/Grid.lean ====
section
/-! DEFINITION. The Concordance grid: cells, items, the forming of cells, disagreement, track records (R256 to R281). -/
namespace Sys2Proof.Machine

/-- Cells along each axis (R256). -/
def gridCells : Nat := 2048

/-- Index of a map coordinate from an origin (R256). -/
def cellIndex (p origin : Int) : Int := ((p - origin) * 10).fdiv 1024

/-- The cell of a map position; none outside the grid (R256). -/
def GridSet.cell (g : GridSet) (p : MapPos) : Option (Nat × Nat) :=
  let i := cellIndex p.x g.originX
  let j := cellIndex p.y g.originY
  if 0 ≤ i && i < 2048 && 0 ≤ j && j < 2048 && g.zLow ≤ p.z && p.z < g.zHigh then some (i.toNat, j.toNat) else none

/-- fp8 E4M3 bits widened to fp32 (R49). -/
def widenE4M3 (v : Nat) : F32 := BitVec.ofNat 32 (fmtF32.encode .rne false (fmtE4M3.decode v)).bits

/-- An fp32 value narrowed to E4M3, RNE, saturating (R50 to R52). -/
def narrowE4M3 (x : F32) : Nat := (fmtE4M3.encode .rne true (fmtF32.decode x.toNat)).bits

/-! ## Items (R263 to R265) -/

/-- The feature vector of a source vector under a binding (R265). -/
def Binding.encode (b : Binding) (a : List F32) : List Nat :=
  (List.range 64).map (fun c =>
    let s := (List.range b.k).foldl (fun s k =>
      f32fma (f32ofInt ((b.encoding.getD (c * b.k + k) 0).toInt)) (a.getD k 0) s) 0
    narrowE4M3 (f32mul (b.scale.getD c 0) s))

/-- A row of H times [u, v, 1] (R263). -/
def homRow (h : List F32) (r : Nat) (u v : F32) : F32 :=
  f32fma (h.getD (3 * r + 2) 0) (f32ofInt 1) (f32fma (h.getD (3 * r + 1) 0) v (f32fma (h.getD (3 * r) 0) u 0))

/-- Where a keypoint stands: none for W at most 0; otherwise its map position, if there is one (R263). -/
def Binding.project (b : Binding) (g : GridSet) (k : Keypoint) : Option (Option MapPos) :=
  let w := homRow b.homography 2 k.u k.v
  if f32le w 0 then none
  else
    some (match mapUnits (f32ToF64 (f32div (homRow b.homography 0 k.u k.v) w)),
        mapUnits (f32ToF64 (f32div (homRow b.homography 1 k.u k.v) w)) with
      | some x, some y => some { x := x, y := y, z := g.zLow }
      | _, _ => none)

/-- A point of a point packet: its position in the sensor's frame (m), its intensity, NO_RETURN (R194). -/
structure Point where
  p : Vec3
  intensity : Nat
  noReturn : Bool
  deriving DecidableEq, Repr

/-- The points of a part (R194). -/
def pointsOf (format : Nat) (b : Bytes) : List Point :=
  if format = 0 then
    (List.range (b.length / 8)).map (fun i =>
      let m (o : Nat) : F64 := f64dec (toInt 16 (fldB b (8 * i + o) 2)) 3
      { p := { x := m 0, y := m 2, z := m 4 }, intensity := fldB b (8 * i + 6) 1, noReturn := (fldB b (8 * i + 7) 1).testBit 0 })
  else
    (List.range (b.length / 16)).map (fun i =>
      let m (o : Nat) : F64 := f32ToF64 (BitVec.ofNat 32 (fldB b (16 * i + o) 4))
      { p := { x := m 0, y := m 4, z := m 8 }, intensity := fldB b (16 * i + 12) 2, noReturn := false })

/-- A height above Z_LOW in metres as fp32. -/
def heightF32 (g : GridSet) (z : Int) : F32 :=
  BitVec.ofNat 32 (fmtF32.encode .rne false (.fin (decide (z < g.zLow)) (z - g.zLow).natAbs (-10))).bits

/-- The points that fell in one cell, as their sums (R264). -/
structure PointCell where
  i : Nat
  j : Nat
  count : Nat
  lo : F32
  hi : F32
  zSum : F32
  iSum : F32
  deriving DecidableEq, Repr

/-- A point added to the cells of its set, in point order. -/
def addPoint (i j : Nat) (h w : F32) : List PointCell → List PointCell
  | [] => [{ i := i, j := j, count := 1, lo := h, hi := h, zSum := f32add 0 h, iSum := f32add 0 w }]
  | c :: l =>
    if c.i = i && c.j = j then
      { c with count := c.count + 1, lo := if f32lt h c.lo then h else c.lo, hi := if f32lt c.hi h then h else c.hi
               zSum := f32add c.zSum h, iSum := f32add c.iSum w } :: l
    else c :: addPoint i j h w l

/-- The source vector of a point cell (R264). -/
def PointCell.vector (c : PointCell) : List F32 :=
  let n := f32ofInt c.count
  [n, c.lo, c.hi, f32div c.zSum n, f32div c.iSum n, 0, 0, f32ofInt 1]

/-- The items of a unit, and how many fell outside the grid (R263 to R265). -/
def Binding.items (b : Binding) (g : GridSet) : Handed → List GridItem × Nat
  | .frame ks =>
    let l := (List.range ks.length).filterMap (fun n => (ks[n]?).bind (fun k => (b.project g k).map (fun p => (n, k, p.bind g.cell))))
    (l.filterMap (fun e => e.2.2.map (fun c =>
        { i := c.1, j := c.2, index := e.1, f := b.encode (e.2.1.desc.map (fun d => f32ofInt d.toInt)) })),
     (l.filter (fun e => e.2.2.isNone)).length)
  | .set parts =>
    let ps := (parts.flatMap (fun p => pointsOf p.1 p.2)).filter (fun p => !p.noReturn)
    let placed := ps.map (fun p =>
      let v := b.pose.apply p.p
      match toMapPos v.x v.y v.z with
      | some m => (g.cell m).map (fun c => (c, heightF32 g m.z, f32ofInt p.intensity))
      | none => none)
    let cells := placed.foldl (fun l e => match e with
      | some (c, h, w) => addPoint c.1 c.2 h w l
      | none => l) []
    ((List.range cells.length).filterMap (fun n => (cells[n]?).map (fun c =>
        { i := c.i, j := c.j, index := n, f := b.encode c.vector })),
     (placed.filter (·.isNone)).length)
  | .sample vs =>
    match (toMapPos b.pose.t.x b.pose.t.y b.pose.t.z).bind g.cell with
    | some c => ([{ i := c.1, j := c.2, index := 0, f := b.encode (vs ++ List.replicate (8 - vs.length) 0) }], 0)
    | none => ([], 1)

/-! ## Cells (R258, R270, R276) -/

/-- An item of a cell with what its weight and flags need. -/
structure Placed where
  binding : Nat
  late : Bool
  age : Nat
  f : List Nat
  deriving DecidableEq, Repr

/-- Order of units in R270: binding, instant, number. -/
def unitBefore (a b : FusionUnit) : Bool :=
  decide (a.binding < b.binding) || (a.binding = b.binding && (decide (a.instant < b.instant) ||
    (a.instant = b.instant && decide (a.number < b.number))))

/-- Units in the order of R270: on-time units, then those folded in late (R274). -/
def orderUnits (l : List FusionUnit) : List FusionUnit :=
  sortBy unitBefore (l.filter (fun u => !u.late)) ++ sortBy unitBefore (l.filter (·.late))

/-- The items of ordered units by cell, cells by 2,048 j + i. -/
def gatherCells (l : List FusionUnit) : List (Nat × List Placed) :=
  l.foldl (fun m u => u.items.foldl (fun m x =>
    let k := 2048 * x.j + x.i
    amSet m k (amGetD m k [] ++ [{ binding := u.binding, late := u.late, age := u.age, f := x.f }])) m) []

/-- Weighted sums of items from a start (R270, R275). -/
def sumItems (weight : Nat → F32) (start : F32 × List F32) (l : List Placed) : F32 × List F32 :=
  l.foldl (fun a x =>
    let w := weight x.binding
    (f32add a.1 w, (List.range 64).map (fun c => f32fma w (widenE4M3 (natAt x.f c)) (a.2.getD c 0)))) start

/-- Feature channels from the sums (R270). -/
def featureOf (a : F32 × List F32) : List Nat :=
  (List.range 64).map (fun c => if f32lt 0 a.1 then narrowE4M3 (f32div (a.2.getD c 0) a.1) else 0)

/-- Evidence of each binding in a cell, by rising binding (R276). -/
def evidence (l : List Placed) : List (Nat × F32) :=
  let bs := sortBy (fun a b => decide (a < b)) (l.map (·.binding)).eraseDups
  bs.map (fun b =>
    let xs := l.filter (fun x => x.binding == b)
    (b, f32div (xs.foldl (fun s x => f32add s (widenE4M3 (natAt x.f 0))) 0) (f32ofInt xs.length)))

/-- The bindings of greatest and least evidence; among equals the lower number (R276). -/
def extremes (l : List (Nat × F32)) : Option ((Nat × F32) × (Nat × F32)) :=
  match l with
  | [] => none
  | a :: r => some (r.foldl (fun m x => if f32lt m.2 x.2 then x else m) a, r.foldl (fun m x => if f32lt x.2 m.2 then x else m) a)

/-- The pair named by a cell in disagreement: highest, lowest (R276). -/
def disagreement (gap : F32) (l : List Placed) : Option (Nat × Nat) :=
  match extremes (evidence l) with
  | none => none
  | some (h, w) => if f32lt gap (f32sub h.2 w.2) then some (h.1, w.1) else none

/-- A cell formed at a close (R258, R270). -/
def formCell (weight : Nat → F32) (gap : F32) (key : Nat) (l : List Placed) : Cell :=
  let s := sumItems weight (0, List.replicate 64 0) l
  let d := disagreement gap l
  { i := key % 2048, j := key / 2048, feature := featureOf s, weight := s.1, items := sat 16 l.length
    age := min 255 (l.foldl (fun a x => if x.late then max a (x.age / 10000000) else a) 0)
    flags := flag d.isSome + 2 * flag (l.any (·.late)) + 4 * flag (l.all (fun x => (weight x.binding) == 0))
    high := match d with | some p => p.1 | none => 0xFF
    low := match d with | some p => p.2 | none => 0xFF
    bindings := sat 8 (l.map (·.binding)).eraseDups.length }

/-- A retained cell with gathered items merged in; `had` is the items that the epoch's own units put there (R258, R275).
QUARANTINED_ONLY and BINDINGS are those of all its items. -/
def amendCell (weight : Nat → F32) (key : Nat) (old : Option Cell) (had l : List Placed) : Cell :=
  let c := old.getD { i := key % 2048, j := key / 2048, feature := List.replicate 64 0, weight := 0, items := 0, age := 0
                      flags := 4, high := 0xFF, low := 0xFF, bindings := 0 }
  let s := sumItems weight (c.weight, (List.range 64).map (fun k => f32mul c.weight (widenE4M3 (natAt c.feature k)))) l
  let idle := c.flags.testBit 2 && l.all (fun x => (weight x.binding) == 0)
  { c with feature := featureOf s, weight := s.1, items := sat 16 (c.items + l.length)
           flags := (c.flags ||| 20) - (if idle then 0 else 4)
           bindings := sat 8 ((had ++ l).map (·.binding)).eraseDups.length }

/-- The 80 bytes of a feature cell (R258). -/
def Cell.bytes (c : Cell) : Bytes :=
  c.feature.map (BitVec.ofNat 8) ++ packB 16 [(0, 4, c.weight.toNat), (4, 2, c.items), (6, 1, c.age), (7, 1, c.flags),
    (8, 1, c.high), (9, 1, c.low), (10, 1, c.bindings)]

/-! ## Tiles (R260, R271) -/

/-- Whether a position of a tile with its halo lies on the grid. -/
def onGrid (i j : Int) : Bool := decide (0 ≤ i) && decide (i < 2048) && decide (0 ≤ j) && decide (j < 2048)

/-- The 80 bytes at a grid position: the cell formed there, a cell without items as zeros, and beyond the grid zero features and a
record with only OUTSIDE set (R258, R260, R270). -/
def cellBytes (cells : List Cell) (i j : Int) : Bytes :=
  if onGrid i j then
    match cells.find? (fun c => (c.i : Int) == i && (c.j : Int) == j) with
    | some c => c.bytes
    | none => zeros 80
  else zeros 64 ++ packB 16 [(7, 1, 8)]

/-- The 64 bytes of the state cell at a grid position, from a state buffer by tile; zero beyond the grid and where nothing has been
written (R260, R271). -/
def stateBytes (buffer : List (Nat × Bytes)) (i j : Int) : Bytes :=
  if onGrid i j then
    let t := 16 * (j.toNat / 128) + i.toNat / 128
    takePad 64 ((amGetD buffer t []).drop (64 * (128 * (j.toNat % 128) + i.toNat % 128)))
  else zeros 64

/-- What stands at the 144 × 144 positions of a tile with its halo, row by row (R260, R271). -/
def tileBytes (t : Nat) (f : Int → Int → Bytes) : Bytes :=
  (List.range 144).flatMap (fun (y : Nat) => (List.range 144).flatMap (fun (x : Nat) =>
    f (128 * ((t % 16 : Nat) : Int) - 8 + x) (128 * ((t / 16 : Nat) : Int) - 8 + y)))

/-- A tile run of epoch `e`: the image over the tile's cells and its input state with SEED_OFFSET (e << 8) | t, and what it writes,
the output state cells and the partial track list (R271). -/
def tileRun (image : Bytes) (e : Nat) (cells : List Cell) (buffer : List (Nat × Bytes)) (t : Nat) : Bytes × Bytes :=
  let r := Config.fusionRun image ((256 * e + t) % 2 ^ 64) (tileBytes t (cellBytes cells)) (tileBytes t (stateBytes buffer))
  (takePad 1048576 r.1, takePad 65600 r.2)

/-- Tiles whose core or halo holds a cell (R260). -/
def tilesOf (i j : Nat) : List Nat :=
  (List.range 256).filter (fun t =>
    let tx := t % 16
    let ty := t / 16
    decide (128 * tx ≤ i + 8) && decide (i < 128 * tx + 136) && decide (128 * ty ≤ j + 8) && decide (j < 128 * ty + 136))

/-! ## Track lists (R272, R273, R280, R281) -/

/-- Whether a track record passes the checks of R272. -/
def trackOk (g : GridSet) (r : Bytes) : Bool :=
  let f (o : Nat) : F32 := BitVec.ofNat 32 (fldB r o 4)
  fldB r 0 4 ≠ 0 && decide (fldB r 7 1 < 4) && (g.cell (mapPosAt r 8)).isSome &&
    [20, 24, 28, 32, 36, 40, 44, 48].all (fun o => f32finite (f o)) && !f32lt (f 40) 0 && !f32lt (f 48) 0

/-- The records of a partial list (R271). -/
def partialTracks (b : Bytes) : List Bytes :=
  (List.range (min (fldB b 0 4) 1024)).map (fun n => takePad 64 (b.drop (64 + 64 * n)))

/-- A merge under way: tracks taken, newest first, and the counts of R272. -/
structure Merge where
  tracks : List Bytes := []
  invalid : Nat := 0
  duplicates : Nat := 0
  dropped : Bool := false
  deriving DecidableEq, Repr

/-- One record merged (R272). -/
def mergeTrack (g : GridSet) (m : Merge) (r : Bytes) : Merge :=
  if !trackOk g r then { m with invalid := m.invalid + 1 }
  else if m.tracks.any (fun t => fldB t 0 4 == fldB r 0 4) then { m with duplicates := m.duplicates + 1 }
  else if 16384 ≤ m.tracks.length then { m with dropped := true }
  else { m with tracks := r :: m.tracks }

/-- Partial lists merged in tile order (R272). -/
def mergeTracks (g : GridSet) (l : List Bytes) : Merge :=
  let m := (l.flatMap partialTracks).foldl (mergeTrack g) {}
  { m with tracks := m.tracks.reverse }

/-- The 16-byte entry of a unit in an input list (R273). -/
def FusionUnit.entry (u : FusionUnit) : Bytes :=
  packB 16 [(0, 2, u.binding), (2, 1, flag u.late), (4, 4, u.number), (8, 8, u.instant)]

end Sys2Proof.Machine
end

