-- ==== Sys2Proof/Machine/Concord.lean ====
section
/-! DEFINITION. The Concordance unit: bindings, epochs, closes, quarantine, amendments, track lists (R261 to R289). -/
namespace Sys2Proof.Machine

/-- The Concordance unit changed. -/
def State.modConcord (s : State) (f : Concord → Concord) : State := { s with concord := f s.concord }

/-- A binding changed, if it is in use. -/
def State.modBinding (s : State) (b : Nat) (f : Binding → Binding) : State :=
  match amGet s.concord.bindings b with
  | none => s
  | some x => s.modConcord (fun c => { c with bindings := amSet c.bindings b (f x) })

/-- An event of the Concordance unit with its TIME (R286). -/
def State.gridEventAt (s : State) (time : Nat) (e : EventIn) : State :=
  match s.concord.grid with
  | none => s
  | some g => { s with desk := s.desk.tell time [.event g.eventQueue e] }

/-- An event of the Concordance unit at a close (R286). -/
def State.gridEvent (s : State) (e : EventIn) : State := s.gridEventAt s.now e

/-- The epoch period P in ns (R267). -/
def GridSet.period (g : GridSet) : Nat := g.periodMs * 1000000

/-- The instant of an epoch (R267). -/
def Concord.instant (c : Concord) (g : GridSet) (e : Nat) : Nat := c.origin + e * g.period

/-- Milliseconds in ns. -/
def msNs (n : Nat) : Nat := n * 1000000

/-! ## The close of an epoch (R268, R270, R276 to R279) -/

/-- The reliability of a binding after a close (R278): it reached `n` cells, `g` of which are not in disagreement naming it. -/
def nextReliability (r : F32) (g n : Nat) : F32 :=
  f32fma (BitVec.ofNat 32 0x3C800000) (f32sub (f32div (f32ofInt g) (f32ofInt n)) r) r

/-- A cell at a close before its weights are known: its key, its items, the pair it names. -/
structure RawCell where
  key : Nat
  items : List Placed
  pair : Option (Nat × Nat)
  deriving DecidableEq, Repr

/-- Reliabilities updated at a close (R278). -/
def updateReliability (cells : List RawCell) (l : List (Nat × Binding)) : List (Nat × Binding) :=
  l.map (fun e =>
    let here := cells.filter (fun c => c.items.any (fun x => x.binding == e.1))
    let bad := here.filter (fun c => match c.pair with | some p => p.1 == e.1 || p.2 == e.1 | none => false)
    if here.isEmpty then e
    else (e.1, { e.2 with reliability := nextReliability e.2.reliability (here.length - bad.length) here.length }))

/-- The key of a pair (a, b) with a below b. -/
def pairKey (p : Nat × Nat) : Nat := 256 * min p.1 p.2 + max p.1 p.2

/-- Pairs in contradiction at a close, by rising key (R277). -/
def contradictions (contraCells : Nat) (cells : List RawCell) : List Nat :=
  let keys := sortBy (fun a b => decide (a < b)) (cells.filterMap (fun c => c.pair.map pairKey)).eraseDups
  keys.filter (fun k => decide (contraCells ≤ (cells.filter (fun c => c.pair.map pairKey == some k)).length))

/-- Runs after a close (R277). -/
def nextRuns (now : List Nat) (runs : List (Nat × Nat)) : List (Nat × Nat) := now.map (fun k => (k, amGetD runs k 0 + 1))

/-- Runs of a binding set to 0 (R279). -/
def dropRuns (b : Nat) (runs : List (Nat × Nat)) : List (Nat × Nat) := runs.filter (fun e => e.1 / 256 ≠ b && e.1 % 256 ≠ b)

/-- A binding put in quarantine (R277, R279). -/
def Binding.quarantine (x : Binding) : Binding :=
  { x with quarantined := true, closesQuarantined := 0, closesClean := 0, quarantines := satAdd 32 x.quarantines 1 }

/-- The events' two reliabilities (R286). -/
def twoR (a b : F32) : Nat := a.toNat + b.toNat * 2 ^ 32

/-- A pair whose run has reached PERSIST, or a further multiple of it, judged (R277). With neither of the two quarantined, a further
multiple is reached only where the run's first was left unresolved: a release sets runs to 0 (R279). -/
def State.judgePair (s : State) (persist key run : Nat) : State :=
  let a := key / 256
  let b := key % 256
  match amGet s.concord.bindings a, amGet s.concord.bindings b with
  | some x, some y =>
    if run % persist ≠ 0 || x.quarantined || y.quarantined then s
    else
      let aLow := f32lt x.reliability y.reliability
      let low := if aLow then a else b
      let other := if aLow then b else a
      let lx := if aLow then x else y
      let ox := if aLow then y else x
      if lx.noQuarantine || run ≠ persist then s.gridEvent { code := 0x0622, subject := a, value := b, payload := run }
      else (s.modBinding low Binding.quarantine).gridEvent
        { code := 0x0620, subject := low, detail := 0, value := other, payload := twoR lx.reliability ox.reliability }
  | _, _ => s

/-- A binding released: its pair runs return to 0 (R279, R286). -/
def State.releaseBinding (s : State) (b host : Nat) : State :=
  match amGet s.concord.bindings b with
  | none => s
  | some x =>
    if !x.quarantined then s
    else
      ((s.modBinding b (fun x => { x with quarantined := false })).modConcord (fun c => { c with runs := dropRuns b c.runs })).gridEvent
        { code := 0x0621, subject := b, detail := host, value := sat 32 x.closesQuarantined }

/-- Closes counted for a binding in quarantine; enough clean ones release it (R279). -/
def State.ageQuarantine (s : State) (releaseEpochs : Nat) (now : List Nat) (b : Nat) : State :=
  match amGet s.concord.bindings b with
  | none => s
  | some x =>
    if !x.quarantined then s
    else
      let clean := if now.any (fun k => k / 256 == b || k % 256 == b) then 0 else x.closesClean + 1
      let s := s.modBinding b (fun x => { x with closesClean := clean, closesQuarantined := x.closesQuarantined + 1 })
      if releaseEpochs ≠ 0 && releaseEpochs ≤ clean then s.releaseBinding b 0 else s

/-- A binding removed: its stream may now finish closing (R283). -/
def State.removeBinding (s : State) (b : Nat) : State :=
  match amGet s.concord.bindings b with
  | none => s
  | some x =>
    (s.modConcord (fun c => { c with
      bindings := amDel c.bindings b, runs := dropRuns b c.runs, held := c.held.filter (fun u => u.2.binding ≠ b)
      gathered := c.gathered.filter (fun u => u.binding ≠ b) })).endClose x.stream

/-- Host commands on quarantine that take effect at a close, after the automatic rules (R279). -/
def State.hostQuarantine (s : State) (a : AtClose) : State :=
  match a with
  | .quarantine n b =>
    (match amGet s.concord.bindings b with
      | none => s
      | some x =>
        if x.quarantined then s
        else (s.modBinding b Binding.quarantine).gridEvent
          { code := 0x0620, subject := b, detail := 1, value := 0xFFFFFFFF, payload := twoR x.reliability 0 }).finish n (endWith [])
  | .release n b => (s.releaseBinding b 1).finish n (endWith [])
  | .unbind _ _ => s

/-- Bindings that UNBIND_SENSOR removes at a close (R283). -/
def State.hostUnbind (s : State) (a : AtClose) : State :=
  match a with
  | .unbind n b => (s.removeBinding b).finish n (endWith [])
  | _ => s

/-- The automatic rules and the host's commands at a close (R277 to R279). -/
def State.closeRules (s : State) (g : GridSet) (cells : List RawCell) : State :=
  let s := s.modConcord (fun c => { c with bindings := updateReliability cells c.bindings })
  let now := contradictions g.contraCells cells
  let old := s.concord.bindings
  let s := s.modConcord (fun c => { c with runs := nextRuns now c.runs })
  let s := (old.filter (fun e => e.2.quarantined)).foldl (fun s e => s.ageQuarantine g.releaseEpochs now e.1) s
  let s := s.concord.runs.foldl (fun s r => s.judgePair g.persist r.1 r.2) s
  s.concord.atClose.foldl State.hostQuarantine s

/-- The weight of an item's binding under the quarantine state in force (R270). -/
def Concord.weight (c : Concord) (b : Nat) : F32 :=
  match amGet c.bindings b with
  | none => 0
  | some x => if x.quarantined then 0 else x.weight

/-- The open epoch closes (R268, R270, R275): `byLimit` under CLOSE_LIMIT_MS, `overrun` where the close was postponed. -/
def State.closeEpoch (s : State) (g : GridSet) (byLimit overrun : Bool) : State :=
  let c := s.concord
  let o := c.openEpoch
  let units := orderUnits ((c.held.filter (fun u => u.1 == o)).map (·.2) ++ c.folded)
  let raw := (gatherCells units).map (fun e =>
    ({ key := e.1, items := e.2, pair := disagreement g.disagreeGap e.2 } : RawCell))
  let s := s.closeRules g raw
  let c2 := s.concord
  let cells := raw.map (fun r => formCell c2.weight g.disagreeGap r.key r.items)
  let e : Epoch := {
    number := o, instant := c.instant g o, closeTime := s.now, overrun := overrun, byLimit := byLimit, restart := c.nextRestart
    inputs := units, cells := cells, lateFolded := c.folded.length
    disagree := (raw.filter (fun r => r.pair.isSome)).length
    quarantinedCount := (c2.bindings.filter (fun b => b.2.quarantined)).length }
  let s := s.modConcord (fun x => { x with
    openEpoch := o + 1, held := x.held.filter (fun u => u.1 ≠ o), folded := [], postponed := none, nextRestart := false
    computing := some e, closing := none, retained := x.last, last := none, amendUnits := x.gathered, gathered := []
    amendWeights := c2.bindings.map (fun b => (b.1, c2.weight b.1)), lastEpoch := o, lastClose := some s.now
    overruns := if overrun then satAdd 32 x.overruns 1 else x.overruns
    buffers := if e.restart then setAt x.buffers (o % 3) [] else x.buffers })
  let unbinds := s.concord.atClose
  let s := s.modConcord (fun x => { x with atClose := [] })
  unbinds.foldl State.hostUnbind s

/-- A close whose moment has come: it falls in this tick, or is postponed while an epoch computes or an amendment runs (R268). -/
def State.closeDue (s : State) (due : Nat) (byLimit : Bool) : State :=
  s.modConcord (fun c =>
    if c.closing.isSome then c
    else if c.computing.isSome || c.amending then { c with postponed := c.postponed.or (some (due, byLimit)) }
    else { c with closing := some (due, byLimit, false) })

/-- Whether every binding has made available a unit with an instant after the open epoch's (R268). -/
def Concord.allLater (c : Concord) (g : GridSet) : Bool :=
  c.bindings.all (fun b => match b.2.newest with | some t => decide (c.instant g c.openEpoch < t) | none => false)

/-- A COMPLETE epoch closes at the first moment that its rule allows (R268). -/
def State.tryComplete (s : State) : State :=
  match s.concord.grid with
  | none => s
  | some g =>
    let c := s.concord
    let due := c.instant g c.openEpoch + msNs g.closeDelayMs
    if g.complete && c.state = .running && decide (due ≤ s.now) && c.allLater g then s.closeDue s.now false
    else s

/-- A postponed close comes once nothing computes any more: it carries OVERRUN (R268). -/
def State.tryPostponed (s : State) : State :=
  let c := s.concord
  if c.computing.isSome || c.amending || c.closing.isSome || c.state ≠ .running then s
  else
    match c.postponed with
    | some (due, byLimit) => s.modConcord (fun c => { c with closing := some (due, byLimit, true) })
    | none => s.tryComplete

/-- EPOCH_CLOSE_TIMED: the close time of the open epoch has come (R268). -/
def execEpochCloseTimed (s : State) : Answer :=
  .next <|
    match s.concord.grid with
    | none => s
    | some g =>
      let c := s.concord
      let due := c.instant g c.openEpoch + msNs g.closeDelayMs
      if c.state ≠ .running || decide (s.now < due) then s
      else if g.complete then s.tryComplete
      else s.closeDue due false

/-- EPOCH_CLOSE_LIMIT: CLOSE_LIMIT_MS has passed for the open COMPLETE epoch (R268). -/
def execEpochCloseLimit (s : State) : Answer :=
  .next <|
    match s.concord.grid with
    | none => s
    | some g =>
      let c := s.concord
      let due := c.instant g c.openEpoch + msNs g.closeLimitMs
      if !g.complete || c.state ≠ .running || decide (s.now < due) then s
      else s.closeDue due true

/-! ## Units (R262, R267, R269, R274, R275) -/

/-- The epoch whose window holds an instant after T0 (R267). -/
def epochOf (origin period instant : Nat) : Nat := (instant - origin + period - 1) / period

/-- A unit dropped and counted in STALE. -/
def State.staleUnit (s : State) (b : Nat) : State := s.modBinding b (fun x => { x with stale := satAdd 32 x.stale 1 })

/-- The most recently closed epoch, if one has closed since START_FUSION (R275). -/
def Concord.newestClosed (c : Concord) : Option Nat := (c.computing.or c.last).map (·.number)

/-- A unit taken for the epoch of its instant (R269, R274, R275). -/
def State.takeUnit (s : State) (g : GridSet) (b : Nat) (x : Binding) (u : Reached) : State :=
  let c := s.concord
  let e := epochOf c.origin g.period u.instant
  let age := c.instant g c.openEpoch - u.instant
  let late := decide (e < c.openEpoch)
  if c.openEpoch + 1 < e then s.modBinding b (fun x => { x with future := satAdd 32 x.future 1 })
  else if late && decide (msNs g.maxAgeMs < age) then s.staleUnit b
  else
    let r := x.items g u.data
    let v : FusionUnit := { binding := b, number := u.number, instant := u.instant, items := r.1, late := late
                            age := if late then age else 0 }
    let amend := late && x.amend && c.newestClosed == some e
    (s.modBinding b (fun x => { x with
      units := satAdd 32 x.units 1, outOfGrid := satAdd 32 x.outOfGrid r.2
      late := if late then satAdd 32 x.late 1 else x.late
      amended := if amend then satAdd 32 x.amended 1 else x.amended })).modConcord (fun c => { c with
        held := if late then c.held else c.held ++ [(e, v)]
        folded := if late then c.folded ++ [v] else c.folded
        gathered := if amend then c.gathered ++ [v] else c.gathered })

/-- The first unit that has reached the Concordance unit is taken, dropped or folded in late (R262, R267, R269, R274). -/
def State.takeReached (s : State) : State :=
  match s.concord.reached with
  | [] => s
  | u :: rest =>
    let s := s.modConcord (fun c => { c with reached := rest })
    match s.concord.grid, s.boundTo u.stream with
    | some g, some (b, x) =>
      if s.concord.state ≠ .running then s
      else if u.implausible then s.staleUnit b
      else
        let newest := match x.newest with | some t => max t u.instant | none => u.instant
        let s := s.modBinding b (fun x => { x with newest := some newest })
        if u.instant ≤ s.concord.origin then s.staleUnit b else s.takeUnit g b x u
    | _, _ => s

/-- UNIT_AVAILABLE: the first unit that has reached the Concordance unit is taken; a COMPLETE epoch may close at it (R262, R267 to
R269, R274). -/
def execUnitAvailable (s : State) : Answer :=
  .next (if !s.unitWorks 0x0015 0 then s else s.takeReached.tryComplete)

/-- The close that falls in a Datestamp tick, made as the tick ends: every unit that has reached the Concordance unit in the tick is
on time; a postponed close writes EPOCH_OVERRUN (R268, R269, R286). -/
def State.settleClose (s : State) : State :=
  match s.concord.grid, s.concord.closing with
  | some g, some (due, byLimit, overrun) =>
    let s := s.concord.reached.foldl (fun s _ => s.takeReached) s
    let t := s.closeEpoch g byLimit overrun
    if overrun then t.gridEvent { code := 0x0623, subject := s.concord.openEpoch % 2 ^ 32, value := sat 32 ((s.now - due) / 1000) }
    else t
  | _, _ => s

/-! ## Track lists (R271 to R273, R275, R280, R288) -/

/-- A track list written: SEQ counts it, and the eight newest are retained (R280). -/
def State.writeList (s : State) (g : GridSet) (e : Epoch) (units : List FusionUnit) (m : Merge) (amendedTiles : Option Nat) : State :=
  let seq := (s.concord.seq + 1) % 2 ^ 32
  let flags := flag e.overrun + 2 * flag e.byLimit + 4 * flag e.restart + 8 * flag e.failed + 16 * flag m.dropped +
    32 * flag (g.image ≠ 0xF003)
  let inputs := units.flatMap FusionUnit.entry
  let header := packB 64 [(0, 8, e.number), (8, 8, e.instant), (16, 8, e.closeTime), (24, 8, s.now), (32, 4, seq),
      (36, 4, m.tracks.length), (40, 1, flag amendedTiles.isSome), (41, 1, flags), (42, 2, g.image), (44, 4, units.length),
      (48, 4, e.lateFolded), (52, 4, e.disagree), (56, 2, e.quarantinedCount), (58, 2, sat 16 m.invalid),
      (60, 2, sat 16 m.duplicates), (62, 2, amendedTiles.getD 0)] ++ digest inputs ++ zeros 32
  s.modConcord (fun c => { c with
    seq := seq
    lists := ({ seq := seq, amendment := amendedTiles.isSome, header := header, tracks := m.tracks } :: c.lists).take 8
    amendments := if amendedTiles.isSome then satAdd 32 c.amendments 1 else c.amendments })

/-- The READ_TRACKS calls that wait are answered as discarded (R285). -/
def State.discardReaders (s : State) : State :=
  (s.desk.circ.jobs.filter (fun j => opcodeOf j.slip == 0x0610 && !j.started && j.ending.isNone)).foldl
    (fun s j => s.finish j.num (refusalNotStarted stDiscarded)) s

/-- Stopping ends once nothing computes any more: FUSION_STOPPED with the close time of the last epoch given out, or the time of the
stop where none has closed (DESIGN CHOICE, log 173), the STOP_FUSION job, the readers that wait, and bindings
whose removal waited (R283, R285, R286). -/
def State.endStop (s : State) : State :=
  let c := s.concord
  if c.state ≠ .stopping || c.computing.isSome || c.amending then s
  else
    let s := s.modConcord (fun c => { c with state := .set, stopJob := none, byReference := false, retained := none, last := none
                                             gathered := [], amendUnits := []
                                             atClose := c.atClose.filter (fun a => match a with | .unbind _ _ => false | _ => true) })
    let s := s.gridEventAt (c.lastClose.getD s.now) { code := 0x0625, detail := flag c.byReference, value := c.lastEpoch % 2 ^ 32 }
    let s := match c.stopJob with
      | some n => s.finish n (endWith [] 0 c.lastEpoch)
      | none => s
    (c.atClose.foldl State.hostUnbind s).discardReaders

/-- An epoch's computation has ended: its amendment of the epoch before may start, a postponed close may follow, or fusion
may have stopped (R268, R275, R285). -/
def State.afterCompute (s : State) (e : Epoch) : State :=
  let c := s.concord
  let amend := !c.amendUnits.isEmpty && (match c.retained with | some r => !r.failed | none => false)
  let s := s.modConcord (fun c => { c with computing := none, last := some e, amending := amend, amendFailed := false
                                           lastComputeUs := sat 32 ((s.now - e.closeTime) / 1000) })
  s.tryPostponed.endStop

/-- The image that the grid names, as it stands in the table. -/
def State.gridImage (s : State) (g : GridSet) : Bytes := ((s.image g.image).map (·.content)).getD []

/-- EPOCH_COMPUTE_END: the tile runs of the computing epoch have ended. The image has run once per tile over the epoch's cells and
state buffer e mod 3, and its output states are in buffer (e + 1) mod 3. A failed first attempt is computed once more; after a
second the list is written with FAILED and the next epoch carries RESTART (R271, R272, R288). -/
def execEpochComputeEnd (s : State) : Answer :=
  .next <|
    match s.concord.computing, s.concord.grid with
    | some e, some g =>
      if e.failedTiles ≠ 0 && !e.retried then
        s.modConcord (fun c => { c with computing := some { e with failedTiles := 0, retried := true } })
      else if e.failedTiles ≠ 0 then
        let f := { e with failed := true }
        let s := s.modConcord (fun c => { c with
          nextRestart := true, failed := satAdd 32 c.failed 1, buffers := setAt c.buffers ((e.number + 1) % 3) [] })
        let s := s.writeList g f e.inputs {} none
        (s.gridEventAt e.closeTime { code := 0x0624, subject := e.number % 2 ^ 32, value := e.failedTiles }).afterCompute f
      else
        let runs := (List.range 256).map (tileRun (s.gridImage g) e.number e.cells (s.concord.buffers.getD (e.number % 3) []))
        let e := { e with partials := runs.map (·.2) }
        let s := s.modConcord (fun c => { c with
          buffers := setAt c.buffers ((e.number + 1) % 3) ((List.range 256).zip (runs.map (·.1))) })
        (s.writeList g e e.inputs (mergeTracks g e.partials) none).afterCompute e
    | _, _ => s

/-- The weight of an item of a gathered unit: that of its binding at the close that ended the gathering (R270, R275). -/
def Concord.amendWeight (c : Concord) (b : Nat) : F32 := amGetD c.amendWeights b 0

/-- The cells of the retained epoch that the gathered units change, with those merged in (R275). -/
def Concord.amendedCells (c : Concord) (e : Epoch) : List Cell :=
  let had := gatherCells e.inputs
  (gatherCells (orderUnits c.amendUnits)).map (fun p =>
    amendCell c.amendWeight p.1 (e.cells.find? (fun x => x.j * 2048 + x.i == p.1)) (amGetD had p.1 []) p.2)

/-- AMENDMENT_END: the tiles whose core or halo holds a changed cell have run again from state buffer e mod 3, with their states in
the amendment sink: the amended list is written, unless the amendment failed (R275, R288). -/
def execAmendmentEnd (s : State) : Answer :=
  .next <|
    let c := s.concord
    match c.retained, c.grid with
    | some e, some g =>
      if !c.amending then s
      else
        let changed := c.amendedCells e
        let cells := changed ++ e.cells.filter (fun x => !changed.any (fun y => x.i == y.i && x.j == y.j))
        let tiles := (changed.flatMap (fun x => tilesOf x.i x.j)).eraseDups
        let runs := tiles.map (fun t => (t, tileRun (s.gridImage g) e.number cells (c.buffers.getD (e.number % 3) []) t))
        let lists := (List.range 256).map (fun t => match amGet runs t with
          | some r => r.2
          | none => e.partials.getD t [])
        let s :=
          if c.amendFailed then s
          else
            (s.modConcord (fun c => { c with buffers := setAt c.buffers 3 (runs.map (fun r => (r.1, r.2.1))) })).writeList g e
              (e.inputs ++ orderUnits c.amendUnits) (mergeTracks g lists) (some tiles.length)
        (s.modConcord (fun c => { c with
          amending := false, amendFailed := false, amendUnits := [], amendWeights := [], retained := none })).tryPostponed.endStop
    | _, _ => s

/-! ## Opcodes (R282 to R287) -/

/-- The grid descriptor (R284). -/
def gridSetOf (b : Bytes) : GridSet :=
  { originX := toInt 32 (fldB b 0 4), originY := toInt 32 (fldB b 4 4), zLow := toInt 32 (fldB b 8 4), zHigh := toInt 32 (fldB b 12 4)
    periodMs := fldB b 16 2, closeDelayMs := fldB b 18 2, closeLimitMs := fldB b 20 2, complete := fldB b 22 1 = 1
    image := fldB b 24 2, maxAgeMs := fldB b 26 2, disagreeGap := BitVec.ofNat 32 (fldB b 28 4), contraCells := fldB b 32 2
    persist := fldB b 34 2, releaseEpochs := fldB b 36 2, eventQueue := fldB b 40 4 }

/-- Whether a grid descriptor holds values of R284. -/
def State.gridOk (s : State) (b : Bytes) : Bool :=
  let g := gridSetOf b
  decide (g.zLow < g.zHigh) && decide (50 ≤ g.periodMs) && decide (g.periodMs ≤ 1000) && decide (g.closeDelayMs ≤ g.periodMs) &&
    (if g.complete then decide (g.closeDelayMs ≤ g.closeLimitMs) && decide (g.closeLimitMs ≤ 10000) else true) &&
    decide (fldB b 22 1 ≤ 1) && fldB b 23 1 = 0 && decide (g.maxAgeMs ≤ 2550) && f32finite g.disagreeGap && f32lt 0 g.disagreeGap &&
    decide (1 ≤ g.contraCells) && decide (1 ≤ g.persist) && fldB b 38 2 = 0 && s.eventQueueOk g.eventQueue &&
    allZero ((b.drop 44).take 20)

/-- Whether an image has the interface of R271: upkeep-class, stateless, two inputs and two outputs on Stack edges of those
slot sizes. -/
def State.gridImageOk (s : State) (h : Nat) : Bool :=
  match s.image h with
  | none => false
  | some x =>
    let c := x.content
    x.state = .loaded && !x.serving && !imgStateful c && (inputEdges c ++ outputEdges c).all (fun e => e.medium == 1) &&
      (inputEdges c).map (·.slotBytes) = [1658880, 1327104] && (outputEdges c).map (·.slotBytes) = [1048576, 65600]

/-- SET_GRID (0x0601) (R283 to R285). -/
def execSetGrid (job : Nat) (buf : BufRead) (s : State) : Answer :=
  .next <| s.beginRead job 0x0601 buf fun j b s =>
    let g := gridSetOf b
    s.check j.num (firstFailure [
      (dataLenOf j.slip ≠ 64 || fld j.slip 32 32 ≠ 0 || !s.gridOk b, refusal stMalformed),
      (s.concord.state = .running || s.concord.state = .stopping, refusal stNotPermitted),
      (!s.gridImageOk g.image, refusal stNotPermitted)])
      (fun s => (s.modConcord (fun c => { c with
        grid := some g, state := .set, overruns := 0, amendments := 0, failed := 0 })).finish j.num (endWith []))

/-- START_FUSION (0x0602) (R267, R283, R285). -/
def execStartFusion (job : Nat) (s : State) : Answer :=
  .next <| s.begin job 0x0602 fun j s =>
    match s.concord.grid with
    | none => s.finish j.num (refusal (if fld j.slip 40 24 ≠ 0 then stMalformed else stNotPermitted))
    | some g =>
      let p := g.period
      let t0 := if fld j.slip 32 8 = 0 then (s.now / p + 1) * p else fld j.slip 32 8
      let first := max 1 ((s.now - t0 + p - 1) / p)
      if fld j.slip 40 24 ≠ 0 then s.finish j.num (refusal stMalformed)
      else if s.concord.state ≠ .set then s.finish j.num (refusal stNotPermitted)
      else
        (s.modConcord (fun c => { c with
          state := .running, origin := t0, openEpoch := first, held := [], folded := [], postponed := none, nextRestart := false
          computing := none, closing := none, last := none, retained := none, gathered := [], amendUnits := []
          amendWeights := [], amending := false, reached := [], buffers := [[], [], [], []], lastClose := none
          bindings := c.bindings.map (fun e => (e.1, { e.2 with newest := none })) })).finish j.num (endWith [] 0 first)

/-- Fusion begins to stop: the open epoch is discarded, after a close that falls in the same tick (R285, R289). -/
def State.stopFusion (s : State) (job : Option Nat) : State :=
  (s.settleClose.modConcord (fun c => { c with
    state := .stopping, held := [], folded := [], reached := [], postponed := none, stopJob := job, byReference := job.isNone })).endStop

/-- STOP_FUSION (0x0603): answered once the computing epoch has ended (R283, R285). -/
def execStopFusion (job : Nat) (s : State) : Answer :=
  .next <| s.begin job 0x0603 fun j s =>
    if fld j.slip 32 32 ≠ 0 then s.finish j.num (refusal stMalformed)
    else if s.concord.state ≠ .running then s.finish j.num (refusal stNotPermitted)
    else s.stopFusion (some j.num)

/-- A binding descriptor (R266). -/
def bindingOf (b : Bytes) : Binding :=
  let k := fldB b 3 1
  let f (o : Nat) : F32 := BitVec.ofNat 32 (fldB b o 4)
  let p := poseAt b 16
  { stream := fldB b 0 2, source := fldB b 2 1, k := k, amend := (fldB b 4 1).testBit 0, noQuarantine := (fldB b 4 1).testBit 1
    weight := f 8, pose := { p with q := p.q.canon }, homography := (List.range 9).map (fun i => f (72 + 4 * i))
    encoding := (b.drop 128).take (64 * k), scale := (List.range 64).map (fun i => f (128 + 64 * k + 4 * i)), reliability := f32ofInt 1 }

/-- Whether a binding descriptor holds values of R266. -/
def bindingOk (b : Bytes) (len : Nat) : Bool :=
  let x := bindingOf b
  let camera := x.source = 0
  decide (x.source ≤ 2) && x.k = (if camera then 128 else 8) && len = 384 + 64 * x.k && decide (fldB b 4 1 < 4) &&
    allZero ((b.drop 5).take 3) && f32finite x.weight && f32lt 0 x.weight && fldB b 12 4 = 0 && (poseAt b 16).ok &&
    (if camera then allZero ((b.drop 16).take 24) && allZero ((b.drop 48).take 24) && fldB b 40 8 = 0x3FF0000000000000 &&
        x.homography.all f32finite
      else allZero ((b.drop 72).take 36)) &&
    allZero ((b.drop 108).take 20) && x.scale.all f32finite

/-- Whether a binding's SOURCE matches its open stream (R261). -/
def State.sourceMatches (s : State) (x : Binding) : Bool :=
  match s.stream x.stream with
  | none => false
  | some y =>
    y.closing.isNone && y.desc.kind = natAt [0, 2, 1] x.source &&
      (x.source ≠ 0 || (match s.graph x.stream with | some g => g.set.fusion | none => false))

/-- BIND_SENSOR (0x0604) (R261, R266, R278, R283). -/
def execBindSensor (job : Nat) (buf : BufRead) (s : State) : Answer :=
  .next <| s.beginRead job 0x0604 buf fun j b s =>
    let n := fld j.slip 32 2
    let x := bindingOf b
    s.check j.num (firstFailure [
      (decide (255 < n) || fld j.slip 34 30 ≠ 0 || !bindingOk b (dataLenOf j.slip), refusal stMalformed),
      ((amGet s.concord.bindings n).isSome || (s.boundTo x.stream).isSome || !s.sourceMatches x, refusal stNotPermitted)])
      (fun s => (s.modConcord (fun c => { c with bindings := amSet c.bindings n x })).finish j.num (endWith []))

/-- The checks of a binding opcode, then what it does (R283). -/
def State.onBinding (s : State) (j : Job) (k : Nat → State → State) : State :=
  let n := fld j.slip 32 2
  s.check j.num (firstFailure [
    (decide (255 < n) || fld j.slip 34 30 ≠ 0, refusal stMalformed),
    ((amGet s.concord.bindings n).isNone, refusal stNotPermitted)]) (k n)

/-- UNBIND_SENSOR (0x0605): at the next close, or at once when not running (R283). -/
def execUnbindSensor (job : Nat) (s : State) : Answer :=
  .next <| s.begin job 0x0605 fun j s => s.onBinding j fun n s =>
    match s.concord.state with
    | .running => s.modConcord (fun c => { c with atClose := c.atClose ++ [.unbind j.num n] })
    | _ => (s.removeBinding n).finish j.num (endWith [])

/-- QUARANTINE_SENSOR (0x0606): at the next close (R279, R283). -/
def execQuarantineSensor (job : Nat) (s : State) : Answer :=
  .next <| s.begin job 0x0606 fun j s => s.onBinding j fun n s =>
    s.modConcord (fun c => { c with atClose := c.atClose ++ [.quarantine j.num n] })

/-- RELEASE_SENSOR (0x0607): at the next close (R279, R283). -/
def execReleaseSensor (job : Nat) (s : State) : Answer :=
  .next <| s.begin job 0x0607 fun j s => s.onBinding j fun n s =>
    s.modConcord (fun c => { c with atClose := c.atClose ++ [.release j.num n] })

/-- STATE of fusion (R287). -/
def FusionState.code : FusionState → Nat
  | .unset => 0
  | .set => 1
  | .running => 2
  | .stopping => 3

/-- The report of QUERY_FUSION (R287). -/
def Concord.report (c : Concord) : Bytes :=
  packB 64 [(0, 1, c.state.code), (1, 1, sat 8 c.bindings.length), (2, 2, (c.bindings.filter (fun b => b.2.quarantined)).length),
    (4, 4, c.seq), (8, 8, c.lastEpoch), (16, 4, c.overruns), (20, 4, c.amendments), (24, 4, c.failed), (28, 4, c.lastComputeUs)]

/-- QUERY_FUSION (0x0608) (R287, R615). -/
def execQueryFusion (job : Nat) (s : State) : Answer :=
  .next <| s.begin job 0x0608 fun j s =>
    if fld j.slip 32 32 ≠ 0 then s.finish j.num (refusal stMalformed)
    else if dataLenOf j.slip < 64 then s.finish j.num (refusalNotStarted stTooLarge)
    else s.finish j.num (endWith [] 0 0 [(0, s.concord.report)])

/-- A binding's record (R287). -/
def Binding.record (x : Binding) (n : Nat) : Bytes :=
  packB 48 [(0, 1, n), (1, 1, flag x.quarantined), (2, 2, x.stream), (4, 4, x.reliability.toNat), (8, 4, x.units), (12, 4, x.late),
    (16, 4, x.amended), (20, 4, x.stale), (24, 4, x.future), (28, 4, x.outOfGrid), (32, 4, x.quarantines)]

/-- QUERY_SENSORS (0x0609) (R283, R287). -/
def execQuerySensors (job : Nat) (s : State) : Answer :=
  .next <| s.begin job 0x0609 fun j s =>
    if fld j.slip 32 32 ≠ 0 then s.finish j.num (refusal stMalformed)
    else if dataLenOf j.slip < 48 * s.concord.bindings.length then s.finish j.num (refusalNotStarted stTooLarge)
    else s.finish j.num (endWith [] 0 0 [(0, s.concord.bindings.flatMap (fun e => e.2.record e.1))])

/-- Whether a list comes after a SEQ (R282). -/
def afterSeq (seq after : Nat) : Bool := decide (0 < toInt 32 ((seq + 2 ^ 32 - after % 2 ^ 32) % 2 ^ 32))

/-- The lowest retained list after a SEQ: lists stand newest first (R282). -/
def Concord.listAfter (c : Concord) (after : Nat) : Option TrackList := c.lists.reverse.find? (fun l => afterSeq l.seq after)

/-- READ_TRACKS (0x0610): not started until a retained list comes after AFTER_SEQ (R282). -/
def execReadTracks (job : Nat) (s : State) : Answer :=
  .next <|
    match s.job job with
    | none => s
    | some j =>
      let after := fld j.slip 32 4
      let bad := fld j.slip 36 28 ≠ 0
      let short := dataLenOf j.slip < 128
      match s.concord.listAfter after, bad || short with
      | none, false => s
      | l, _ => s.begin job 0x0610 fun j s =>
        if bad then s.finish j.num (refusal stMalformed)
        else if short then s.finish j.num (refusalNotStarted stTooLarge)
        else
          match l with
          | none => s
          | some l =>
            let n := min l.tracks.length ((dataLenOf j.slip - 128) / 64)
            let flags := flag (l.seq ≠ (after + 1) % 2 ^ 32) + 2 * flag (decide (n < l.tracks.length)) + 4 * flag l.amendment
            s.finish j.num (endWith [] flags (l.seq + n * 2 ^ 32) [(0, l.header ++ (l.tracks.take n).flatten)])

end Sys2Proof.Machine
end

