-- ==== Sys2Proof/Machine/Curator.lean ====
section
/-! DEFINITION. The Curator: bounds, conflicts, pins, moves (R319, R356 to R364). -/
namespace Sys2Proof.Machine

/-! ## The session budget (R319) -/

/-- C_s: the serving share less the 24 carrels of the serving copy of image 0xF001. -/
def State.servingSpare (s : State) : Nat := s.curator.policy.servingCarrels - 24

/-- U_max in 10^-3 units/s. -/
def State.uMax (s : State) : Nat := 1000 * min 400000 (6250 * s.servingSpare)

/-- Admitted units of the open sessions in 10^-3 units/s. -/
def State.admitted (s : State) : Nat := s.sessions.open_.foldl (fun a e => a + e.2.desc.rate * e.2.desc.units) 0

/-! ## Conflicts (R359) -/

/-- Stack vaults that may take movable objects: those of VAULT_MASK that are in service (R357, R548). -/
def State.vaults (s : State) : Nat :=
  ((maskList 64 s.curator.policy.vaultMask).filter (fun v => !s.unitOut 0x0002 v)).length

/-- A quadrant holds a serving stage (R519). -/
def State.servingQuadrant (s : State) (q : Nat) : Bool :=
  s.fabric.carrels.any (fun e => quadrantOf e.1 == q && (match e.2.bound with
    | some b => b.serving
    | none => false))

/-- A quadrant that holds a serving stage runs below P2 (R519, R522). -/
def State.servingBelow (s : State) : Bool :=
  (List.range 4).any (fun q =>
    let x := s.power.quadrants.getD q {}
    x.clockOn && decide (2 < x.point) && s.servingQuadrant q)

/-- The object of a conflict that stands now; none where it does not. -/
def State.conflictNow (s : State) (code : Nat) : Option Nat :=
  let p := s.curator.policy
  if code = 1 then (if s.uMax < s.admitted then some 0 else none)
  else if code = 2 then
    (s.curator.pins.find? (fun e => match s.holder e.1 with
      | none => false
      | some h => h ≠ e.2 && s.present.contains e.2 && (decide (s.maxSheets e.2 ≤ (s.heldBy e.2).length) ||
          (e.2 = s.position && !s.anyPage)))).map (·.1)
  else if code = 3 then (if p.servingCarrels < 25 then some 0xF001 else none)
  else if code = 4 then
    let n := s.vaults
    if [MapTable.landmark, .keyframe, .edge].any (fun t => decide (n * (t.pages / 64) < s.pagesUsed t)) ||
        decide (n * 1024 < s.sessions.open_.length) || decide (n * (frameStoreBytes / 64) < s.frameStoreUsed) then some 0
    else none
  else if code = 5 then
    (if s.servingBelow || (p.powerCapW ≠ 0 && decide (p.powerCapW < Config.sessionPower s.admitted)) then some 0 else none)
  else none

/-- A conflict opened or ended as the state stands. -/
def State.reviewConflict (s : State) (code : Nat) : State :=
  match s.conflictNow code with
  | some o => s.openConflict code o
  | none => s.clearConflict code

/-- Whether some member may take a new sheet (R359). -/
def State.sheetRoom (s : State) : Bool := s.present.any (fun m => decide ((s.heldBy m).length < s.maxSheets m))

/-- The conflicts reviewed; conflict 0x06 opens where an edit meets it. -/
def State.reviewBounds (s : State) : State :=
  let s := [1, 2, 3, 4, 5].foldl (fun s c => s.reviewConflict c) s
  let s := if (s.heldBy s.position).length < s.maxSheets s.position then s.unpinBound 5 else s
  let s := if s.sessions.open_.length < s.curator.policy.maxSessions then s.unpinBound 7 else s
  if s.sheetRoom then s.clearConflict 6 else s

/-! ## SET_POLICY (R357, R362) -/

/-- The policy record of R357. -/
def policyOf (b : Bytes) : Policy :=
  { servingCarrels := fldB b 0 2, powerCapW := fldB b 2 2, maxSheets := fldB b 4 2, moveMibS := fldB b 6 2
    maxSessions := fldB b 8 4, quadrantSleep := fldB b 12 4, vaultMask := fldB b 16 8, autoInkMs := fldB b 24 2
    retainEditions := fldB b 26 1, holderMoves := (fldB b 27 1).testBit 0, mapEventQueue := fldB b 28 4 }

/-- A policy as its 64-byte record (R357). -/
def Policy.record (p : Policy) : Bytes :=
  packB 64 [(0, 2, p.servingCarrels), (2, 2, p.powerCapW), (4, 2, p.maxSheets), (6, 2, p.moveMibS), (8, 4, p.maxSessions),
    (12, 4, p.quadrantSleep), (16, 8, p.vaultMask), (24, 2, p.autoInkMs), (26, 1, p.retainEditions),
    (27, 1, flag p.holderMoves), (28, 4, p.mapEventQueue)]

/-- Every field of a policy record in range (R357). -/
def State.policyOk (s : State) (b : Bytes) : Bool :=
  let p := policyOf b
  decide (p.servingCarrels ≤ 256) && (p.powerCapW = 0 || (decide (60 ≤ p.powerCapW) && decide (p.powerCapW ≤ 420))) &&
    decide (1 ≤ p.maxSheets) && decide (p.maxSheets ≤ 16384) && decide (p.moveMibS ≤ 10000) && decide (1 ≤ p.maxSessions) &&
    decide (p.maxSessions ≤ 65536) && decide (p.quadrantSleep ≤ 15) && decide (32 ≤ (maskList 64 p.vaultMask).length) && decide (10 ≤ p.autoInkMs) &&
    decide (p.autoInkMs ≤ 60000) && decide (p.retainEditions ≤ 15) && decide (fldB b 27 1 ≤ 1) &&
    s.eventQueueOk p.mapEventQueue && allZero ((b.drop 32).take 32)

/-- The room-wide fields of a policy taken on this member. -/
def State.takeRoomPolicy (s : State) (autoInk retain : Nat) (moves : Bool) : State :=
  (s.modCurator (fun c => { c with
    policy := { c.policy with autoInkMs := autoInk, retainEditions := retain, holderMoves := moves } })).dropEditions

/-- A member has taken the room-wide fields of a SET_POLICY; the job ends when every member has. -/
def State.policyTaken (s : State) (job member : Nat) : State :=
  match amGet s.curator.policyWaiting job with
  | none => s
  | some w =>
    let w := w.filter (· ≠ member)
    if w.isEmpty then (s.modCurator (fun c => { c with policyWaiting := amDel c.policyWaiting job })).finish job (endWith [])
    else s.modCurator (fun c => { c with policyWaiting := amSet c.policyWaiting job w })

/-- The clerk accepts the room-wide fields of a SET_POLICY of member `issuer` and sends them to every other member. -/
def State.acceptRoomPolicy (s : State) (issuer job autoInk retain : Nat) (moves : Bool) : State :=
  (s.takeRoomPolicy autoInk retain moves).controlAll 0x68 [issuer, job, autoInk, retain, flag moves]

/-- SET_POLICY (0x0830): `buf` is what the read of the data buffer returns (R357, R362, R364). -/
def execSetPolicy (job : Nat) (buf : BufRead) (s : State) : Answer :=
  .next <| s.beginRead job 0x0830 buf fun j b s =>
    if dataLenOf j.slip ≠ 64 || !paramsClear j.slip [] || !s.policyOk b then s.finish j.num (refusal stMalformed)
    else
      let p := policyOf b
      let s := (s.modCurator (fun c => { c with
        policy := { p with
          autoInkMs := c.policy.autoInkMs, retainEditions := c.policy.retainEditions, holderMoves := c.policy.holderMoves }
        policyWaiting := amSet c.policyWaiting j.num s.present })).controlAll 0x6F [p.maxSheets]
      let s := ([2, 3, 4, 6].foldl (fun s c => s.unpinBound c) s).reviewBounds
      if s.isClerk then
        (s.acceptRoomPolicy s.position j.num p.autoInkMs p.retainEditions p.holderMoves).policyTaken j.num s.position
      else s.control s.clerk 0x6A [j.num, p.autoInkMs, p.retainEditions, flag p.holderMoves]

/-! ## Pins (R360, R362) -/

/-- A pin set. -/
def State.setPin (s : State) (sheet member : Nat) : State :=
  (s.modCurator (fun c => { c with pins := amSet c.pins sheet member })).reviewBounds

/-- A pin removed; a conflict about it ends. -/
def State.dropPin (s : State) (sheet : Nat) : State :=
  let s := s.modCurator (fun c => { c with pins := amDel c.pins sheet })
  (if s.curator.conflicts.any (fun c => c.code == 7 && c.object == sheet) then s.clearConflict 7 else s).reviewBounds

/-- PIN_SHEET (0x0831): a pin that contradicts the sheet's pin is not applied (R359, R360, R362, R364). -/
def execPinSheet (job : Nat) (s : State) : Answer :=
  .next <| s.begin job 0x0831 fun j s =>
    let sheet := fld j.slip 32 4
    let m := fld j.slip 36 1
    if fld j.slip 37 27 ≠ 0 || dataLenOf j.slip ≠ 0 then s.finish j.num (refusal stMalformed)
    else if !s.net.members.testBit m then s.finish j.num (refusal stNotPermitted)
    else
      match amGet s.curator.pins sheet with
      | some old =>
        (if old = m then s else s.openConflict 7 sheet).finish j.num (endWith [])
      | none =>
        if 4096 ≤ s.curator.pins.length then s.finish j.num (refusal stNoResource)
        else ((s.setPin sheet m).controlAll 0x6B [sheet, m]).finish j.num (endWith [])

/-- UNPIN_SHEET (0x0832) (R362). -/
def execUnpinSheet (job : Nat) (s : State) : Answer :=
  .next <| s.begin job 0x0832 fun j s =>
    let sheet := fld j.slip 32 4
    if fld j.slip 36 28 ≠ 0 || dataLenOf j.slip ≠ 0 then s.finish j.num (refusal stMalformed)
    else ((s.dropPin sheet).controlAll 0x6C [sheet]).finish j.num (endWith [])

/-- QUERY_CURATOR (0x0833): the policy record, then the counts (R362, R615). -/
def execQueryCurator (job : Nat) (s : State) : Answer :=
  .next <| s.begin job 0x0833 fun j s =>
    if fld j.slip 32 32 ≠ 0 then s.finish j.num (refusal stMalformed)
    else if dataLenOf j.slip < 128 then s.finish j.num (refusalNotStarted stTooLarge)
    else
      let c := s.curator
      let counts := [c.sheetMoves, c.movedMib, c.stageMoves, c.contextMoves, c.pins.length, c.conflicts.length,
        c.pinned.length, c.policy.servingCarrels]
      s.finish j.num (endWith [] 0 0 [(0, c.policy.record ++ counts.flatMap (le 4) ++ zeros 32)])

/-! ## Places in the Stack (R25, R356) -/

/-- A free entry of the session-context region in a Stack vault (R25). -/
def State.contextFree (s : State) (v : Nat) : Option Nat :=
  ((List.range 1024).map (fun k => 1024 * v + k)).find? (fun e => s.sessions.open_.all (fun x => x.2.slot ≠ e))

/-- The entry that a new session's context takes: the Curator decides which vault, so the choice is a free value (R25). -/
def State.contextSlot (s : State) : Nat :=
  let l := s.vaultList
  let k := (Config.freeValue s.fresh).toNat % l.length
  ((l.drop k ++ l.take k ++ (List.range 64).filter (fun v => !s.unitOut 0x0002 v)).findSome? s.contextFree).getD 0

/-- The Stack address of a session's context (R25, R138). -/
def Session.address (x : Session) : Nat := Region.contexts.address (16384 * x.slot)

/-- A session's context moved to another entry (R356). -/
def State.setSlot (s : State) (i e : Nat) : State :=
  { s with sessions := { s.sessions with open_ := mapIf (fun (x : Nat × Session) => x.1 == i) (fun x => (x.1, { x.2 with slot := e })) s.sessions.open_ } }

/-! ## Moves (R33, R343, R356, R360) -/

/-- Whether a pencilled edit touches a sheet. -/
def State.sheetBusy (s : State) (sheet : Nat) : Bool :=
  s.map.edits.any (fun e => e.2.inDraft && e.2.sheets.contains sheet)

/-- Whether a reader at work here holds a sheet: a query in service that selected it, a map solve whose problem it is part of (R33). -/
def State.sheetRead (s : State) (sheet : Nat) : Bool :=
  s.sessions.open_.any (fun e => e.2.service.any (fun v => v.sheets.contains sheet)) ||
    s.collator.solves.any (fun x => x.map.any (fun m => m.sheets.contains sheet))

/-- Whether the Curator may move a sheet held here to a member: no job holds it, its bounds and pins allow it, every version of it
stands (R33, R343, R360, R364). -/
def State.mayMoveSheet (s : State) (sheet dest : Nat) : Bool :=
  s.holder sheet = some s.position && dest ≠ s.position && s.present.contains dest && !s.sheetBusy sheet && !s.sheetRead sheet &&
    !s.map.lost.any (fun l => l.2 == sheet) && s.reference.state = .normal && decide ((s.heldBy dest).length < s.maxSheets dest) &&
    (match amGet s.curator.pins sheet with | some m => m = dest | none => s.curator.policy.holderMoves) &&
    !s.curator.moves.any (fun m => m.object == sheet)

/-- Whole MiB of a byte count, rounded up. -/
def mibOf (n : Nat) : Nat := (n + 1048575) / 1048576

/-- A ready stage slot that no job holds moved from one carrel to an idle one, with its spilled bytes to that bay's Stack vault (R33,
R147, R163). -/
def State.moveStage (s : State) (src dst : Nat) : State :=
  let x := s.carrel src
  let y := s.carrel dst
  match x.bound with
  | none => s
  | some b =>
    if x.state ≠ .ready || s.heldByJob src || !s.spillFits b dst || y.state ≠ .idle || decide (256 ≤ dst) || src = dst then s
    else
      let s := (s.setCarrel dst { y with
        state := .ready, bound := x.bound, ins := x.ins, outs := x.outs, sram := x.sram, writeBack := x.writeBack, refused := x.refused }).setCarrel src
          (x.cleared .idle)
      (s.modImage b.handle (fun i => { i with
        placed := i.placed.map (fun e => if e.1 = b.stage && e.2.1 = b.slot then (e.1, e.2.1, dst) else e) })).modCurator
          (fun c => { c with stageMoves := satAdd 32 c.stageMoves 1 })

/-! ### The copy of a sheet (R33, R360; log 14) -/

/-- A table as a copy numbers it. -/
def MapTable.code : MapTable → Nat
  | .landmark => 0
  | .keyframe => 1
  | .edge => 2

/-- The table that a copy numbers so. -/
def tableOf (n : Nat) : MapTable := if n = 0 then .landmark else if n = 1 then .keyframe else .edge

/-- Bytes of a record of a table (R330 to R332). -/
def MapTable.recordBytes : MapTable → Nat
  | .keyframe => 256
  | _ => 64

/-- The key of a record of a table. -/
def MapTable.keyOf (t : MapTable) (b : Bytes) : Nat := match t with
  | .edge => edgeKey b
  | _ => fldB b 0 8

/-- The versions of a sheet that stand here: in each edition held, in those being shelved, and the shelved one (R335, R337). -/
def State.sheetVersions (s : State) (sheet : Nat) : List (Nat × List Page) :=
  let es := s.map.editions ++ s.map.shelving.map (·.edition) ++ [s.map.flash.edition]
  es.foldl (fun l e => match amGet e.sheets sheet with
    | some ps => if (amGet l e.number).isSome then l else amSet l e.number ps
    | none => l) []

/-- Pages, each once. -/
def distinctPages (ps : List Page) : List Page :=
  ps.foldl (fun l p => if l.any (fun q => q.id == p.id) then l else l ++ [p]) []

/-- The copy of a sheet as bytes: how many versions and how many pages; each version as its edition, its page count and its pages by
place; each page's table and record count; then, from the next multiple of 4 KiB on, the pages. -/
def copyBytes (vs : List (Nat × List Page)) : Bytes :=
  let ps := distinctPages (vs.flatMap (·.2))
  let at_ (p : Page) : Nat := (ps.findIdx? (fun q => q.id == p.id)).getD 0
  let head := le 4 vs.length ++ le 4 ps.length ++
    vs.flatMap (fun v => le 8 v.1 ++ le 4 v.2.length ++ v.2.flatMap (fun p => le 4 (at_ p))) ++
    ps.flatMap (fun p => le 2 p.table.code ++ le 2 p.recs.length)
  takePad ((head.length + 4095) / 4096 * 4096) head ++ ps.flatMap (fun p => takePad 4096 (p.recs.flatMap (·.2)))

/-- The versions in a copy's bytes from an offset on, each as its edition and the places of its pages; and the offset after them. -/
def copyVersions (b : Bytes) : Nat → Nat → List (Nat × List Nat) × Nat
  | 0, o => ([], o)
  | k + 1, o =>
    let n := fldB b (o + 8) 4
    let r := copyVersions b k (o + 12 + 4 * n)
    ((fldB b o 8, (List.range n).map (fun i => fldB b (o + 12 + 4 * i) 4)) :: r.1, r.2)

/-- The versions of a sheet read out of its copy, its pages numbered from `next` on. -/
def readCopy (next : Nat) (b : Bytes) : List (Nat × List Page) × Nat :=
  let np := fldB b 4 4
  let vs := copyVersions b (fldB b 0 4) 8
  let base := (vs.2 + 4 * np + 4095) / 4096 * 4096
  let page (i : Nat) : Page :=
    let t := tableOf (fldB b (vs.2 + 4 * i) 2)
    let n := fldB b (vs.2 + 4 * i + 2) 2
    { id := next + i, table := t
      recs := (List.range n).foldl (fun l k =>
        let r := (b.drop (base + 4096 * i + t.recordBytes * k)).take t.recordBytes
        amSet l (t.keyOf r) r) [] }
  (vs.1.map (fun v => (v.1, v.2.map page)), next + np)

/-- The copy of a sheet sent to a member: its Curator is asked to open a region of its scratch, and the copy follows as
writes to it (R33, R461; log 14). -/
def State.copySheet (s : State) (sheet dest : Nat) : State :=
  let b := copyBytes (s.sheetVersions sheet)
  let s := s.control dest 0x74 [sheet, b.length]
  (List.range (b.length / 4096)).foldl (fun s i =>
    let d := (b.drop (4096 * i)).take 4096
    s.request dest true {
      kind := 3, channel := 2, source := s.position, dest := dest, address := copyBase s.position + 4096 * i
      words := (List.range 128).map (fun w => (d.drop (32 * w)).take 32) }) s

/-- A sheet's move changed. -/
def State.modMove (s : State) (sheet : Nat) (f : Move → Move) : State :=
  s.modCurator (fun c => { c with moves := mapIf (fun (m : Move) => m.kind == .sheet && m.object == sheet) f c.moves })

/-- A sheet's move leaves. -/
def State.dropMove (s : State) (sheet : Nat) : State :=
  s.modCurator (fun c => { c with moves := c.moves.filter (fun m => !(m.kind == .sheet && m.object == sheet)) })

/-- The member that a sheet moves to has its copy: it is read out of the region, which closes. One with a poisoned word is not taken.
The source is told (R33, R546; log 14). -/
def State.takeCopy (s : State) (source sheet : Nat) : State :=
  match s.net.opened.find? (fun o => o.source == source) with
  | none => s.control source 0x79 [sheet, 0]
  | some o =>
    let r := s.readStackBytes o.base o.length
    let s := { r.2 with net := { r.2.net with opened := r.2.net.opened.filter (fun o => o.source ≠ source) } }
    if r.1.2.any id then s.control source 0x79 [sheet, 0]
    else
      let c := readCopy s.map.nextPage r.1.1
      let x : Arriving := { sheet := sheet, source := source, versions := c.1 }
      (s.modMap (fun m => { m with nextPage := c.2, arriving := m.arriving.filter (fun a => a.sheet ≠ sheet) ++ [x] })).control source
        0x79 [sheet, 1]

/-- CURATOR_MOVE_START: the Curator starts to move an object to `dest`: a sheet to a member; a session context or a
stream's buffers to a Stack vault, or a fresh band ring for it there; a stage slot from carrel to carrel; a shard only at
reshelving (R33, R235, R356, R358). -/
def execCuratorMoveStart (kind : MoveKind) (object dest : Nat) (s : State) : Answer :=
  .next <|
    let p := s.curator.policy
    if !s.unitWorks 0x0012 0 then s
    else
    match kind with
    | .sheet =>
      if !s.mayMoveSheet object dest then s
      else if p.moveMibS = 0 then s.pinBound 3
      else if Region.scratch.bytes < (copyBytes (s.sheetVersions object)).length then s
      else (s.modCurator (fun c => { c with moves := c.moves ++ [{
        kind := .sheet, object := object, dest := dest, copied := some s.map.lastInked }] })).copySheet object dest
    | .context =>
      match amGet s.sessions.open_ object with
      | none => s
      | some x =>
        if x.service.isSome || decide (64 ≤ dest) || s.unitOut 0x0002 dest then s
        else if !p.vaultMask.testBit dest then s.pinBound 4
        else
          match s.contextFree dest with
          | none => s
          | some e => (s.setSlot object e).modCurator (fun c => { c with contextMoves := satAdd 32 c.contextMoves 1 })
    | .shard => s
    | .buffer =>
      match s.stream object with
      | none => s
      | some x =>
        if (x.buffers.any (fun b => b ≠ .free) && !x.sramBand && !x.poolWait) || decide (64 ≤ dest) || s.unitOut 0x0002 dest then s
        else if x.sramBand || x.poolWait then
          if p.vaultMask.testBit dest then s.modStream object (fun x => { x with ringGranted := true, bandVault := dest })
          else s.pinBound 4
        else if p.moveMibS = 0 then s.pinBound 3
        else if !p.vaultMask.testBit dest then s.pinBound 4
        else (s.modStream object (fun x => { x with vault := dest })).modCurator (fun c => { c with
          movedMib := satAdd 32 c.movedMib (mibOf (s.streamBytes x.desc)) })
    | .stage => s.moveStage object dest

/-- A version of a sheet put into an edition for which there is one. -/
def Edition.withVersion (e : Edition) (sheet : Nat) (vs : List (Nat × List Page)) : Edition :=
  match amGet vs e.number with
  | some ps => { e with sheets := amSet e.sheets sheet ps }
  | none => e

/-- A sheet that has moved here takes its place in every edition, and its inked copy goes onto this member's own flash (R33, R38). -/
def State.settleArrival (s : State) (sheet source : Nat) : State :=
  match s.map.arriving.find? (fun a => a.sheet == sheet && a.source == source) with
  | none => s
  | some x =>
    let put (e : Edition) : Edition := e.withVersion sheet x.versions
    let s := s.writePages (amGetD x.versions s.map.flash.edition.number [])
    s.modMap (fun m => { m with
      arriving := m.arriving.filter (fun a => a.sheet ≠ sheet), editions := m.editions.map put
      shelving := m.shelving.map (fun (y : Shelving) => { y with edition := put y.edition })
      flash := { m.flash with edition := put m.flash.edition } })

/-- A sheet that has moved from here: its move ends and counts, and its copy leaves this member's flash (R33, R38, R362). -/
def State.settleDeparture (s : State) (sheet : Nat) : State :=
  let mib := mibOf (copyBytes (s.sheetVersions sheet)).length
  let moved := s.sheetMoving sheet
  let s := (s.dropMove sheet).modCurator (fun c => { c with
    sheetMoves := if moved then satAdd 32 c.sheetMoves 1 else c.sheetMoves
    movedMib := if moved then satAdd 32 c.movedMib mib else c.movedMib })
  s.modMap (fun m => { m with
    shelving := m.shelving.map (fun (y : Shelving) => { y with edition := { y.edition with sheets := amDel y.edition.sheets sheet } })
    flash := { m.flash with edition := { m.flash.edition with sheets := amDel m.flash.edition.sheets sheet } } })

/-- The holder of a sheet switched on this member; readers that started before finish on the old copy, which is freed when the last of
them ends (R33, R360, R363). -/
def State.switchHolder (s : State) (sheet dest : Nat) : State :=
  match s.holder sheet with
  | none => s
  | some old =>
    let early := (s.map.copiesLeft.filter (fun c => c.2 == sheet)).map (·.1)
    let x : OldCopy := {
      sheet := sheet, holder := old, readers := (s.map.fixed.map (·.1)).eraseDups
      members := if old = s.position then s.others.filter (fun m => !early.contains m) else [] }
    let s := if old = s.position then s.settleDeparture sheet else s
    let s := if dest = s.position then s.settleArrival sheet old else s
    let s := s.modMap (fun m => { m with
      flash := { m.flash with sheets := amSet m.flash.sheets sheet dest }, oldCopies := m.oldCopies ++ [x]
      copiesLeft := m.copiesLeft.filter (fun c => c.2 ≠ sheet) })
    (s.settleCopies.event s.curator.policy.mapEventQueue { code := 0x0833, subject := sheet, detail := dest, value := old }).reviewBounds

/-- The readers of a member that started before a sheet left here have ended (R33; log 14). -/
def State.copyLeft (s : State) (member sheet : Nat) : State :=
  if s.map.oldCopies.any (fun c => c.sheet == sheet && c.holder == s.position && c.members.contains member) then
    (s.modMap (fun m => { m with oldCopies := m.oldCopies.map (fun (c : OldCopy) =>
      if c.sheet = sheet && c.holder = s.position then { c with members := c.members.filter (· ≠ member) } else c) })).settleCopies
  else s.modMap (fun m => { m with copiesLeft := m.copiesLeft ++ [(member, sheet)] })

/-- The clerk switches a holder at every member in one step (R360). -/
def State.clerkSwitch (s : State) (sheet dest : Nat) : State := (s.switchHolder sheet dest).controlAll 0x6D [sheet, dest]

/-- The clerk is asked to switch a holder to a member that has a copy as of an edition: not while a pencilled edit touches the sheet, nor
once a later edition is inked; then the copy is made anew (R33, R336, R343, R360; log 14). -/
def State.clerkMaySwitch (s : State) (source sheet dest edition : Nat) : State :=
  if !s.isClerk then s
  else if s.sheetBusy sheet || edition ≠ s.map.lastInked || !s.present.contains dest then s.control source 0x7A [sheet]
  else s.clerkSwitch sheet dest

/-- A copy is to be made anew. -/
def State.copyAgain (s : State) (sheet : Nat) : State := s.modMove sheet (fun m => { m with copied := none, asked := false })

/-- The member that a sheet moves to has answered on its copy: good, the switch is asked of the clerk; else it is made anew. -/
def State.copyAnswered (s : State) (member sheet : Nat) (good : Bool) : State :=
  match s.curator.moves.find? (fun m => m.kind == .sheet && m.object == sheet && m.dest == member && m.asked) with
  | none => s
  | some m =>
    if !good || s.sheetBusy sheet || m.copied ≠ some s.map.lastInked then s.copyAgain sheet
    else if s.isClerk then s.clerkSwitch sheet member
    else s.control s.clerk 0x6E [sheet, member, s.map.lastInked]

/-- SHEET_MOVE_END: the copy of a sheet completes, and the clerk is to switch the holder once the member has it. While a pencilled edit
touches the sheet the move waits; a copy that an edition inked since has overtaken is made again; a move to a member that has left ends
(R33, R343, R360, R363). -/
def execSheetMoveEnd (sheet : Nat) (s : State) : Answer :=
  .next <|
    match s.curator.moves.find? (fun m => m.kind == .sheet && m.object == sheet) with
    | none => s
    | some m =>
      if !s.present.contains m.dest then s.dropMove sheet
      else if s.sheetBusy sheet || m.asked then s
      else if m.copied ≠ some s.map.lastInked then
        (s.modMove sheet (fun m => { m with copied := some s.map.lastInked })).copySheet sheet m.dest
      else (s.modMove sheet (fun m => { m with asked := true })).control m.dest 0x75 [sheet]

/-! ## BOUND_PINNED again (R358) -/

/-- BOUND_PINNED_REPEAT: another 60 s have passed with a loop at its bound. -/
def execBoundPinnedRepeat (code : Nat) (s : State) : Answer :=
  .next <|
    match s.curator.pinned.find? (fun p => p.code == code) with
    | none => s
    | some p =>
      if s.now < p.told + 60000000000 then s
      else
        (s.modCurator (fun c => { c with pinned := mapIf (fun q => q.code == code) (fun q => { q with told := s.now }) c.pinned })).event
          s.curator.policy.mapEventQueue
        { code := 0x0830, subject := s.position, detail := code, value := sat 32 (s.secondsSince p.since) }

end Sys2Proof.Machine
end

