-- ==== Sys2Proof/Machine/Datestamp.lean ====
section
/-! DEFINITION. The Datestamp unit: the counter, slew, state, pulse outputs and capture inputs (R468 to R491, R617). -/
namespace Sys2Proof.Machine

/-! ## The counter (R468 to R472) -/

/-- The unit changed. -/
def State.modStamp (s : State) (f : Stamp → Stamp) : State := { s with stamp := f s.stamp }

/-- N, the nominal increment (R469). -/
def nominalInc : Nat := 21474836480

/-- M of R471. -/
def slewM (ppb : Nat) : Nat := ppb * 5 * 2 ^ 32 / 1000000000

/-- INC - N as the pseudocode takes it (R472). -/
def trimOf (inc : BitVec 64) : Int := (inc - BitVec.ofNat 64 nominalInc).toInt

/-- hi and lo of R472. -/
def Stamp.hi (x : Stamp) : Int := (slewM x.timing.slewPpb : Int) - trimOf x.inc
def Stamp.lo (x : Stamp) : Int := -(slewM x.timing.slewPpb : Int) - trimOf x.inc

/-- The slew step s of the next tick (R472). -/
def Stamp.slew (x : Stamp) : Int := if x.hi < x.r then x.hi else if x.r < x.lo then x.lo else x.r

/-- The three fields after one update by INC + s (R469). -/
def Stamp.advance (x : Stamp) : Stamp :=
  let add := x.inc + BitVec.ofInt 64 x.slew
  let t := x.fraction.toNat + add.toNat % 2 ^ 32
  let n : BitVec 32 := x.nanos + BitVec.ofNat 32 (add.toNat / 2 ^ 32) + BitVec.ofNat 32 (t / 2 ^ 32)
  if 1000000000 ≤ n.toNat then
    { x with fraction := BitVec.ofNat 32 t, nanos := n - 1000000000#32, seconds := x.seconds + 1, r := x.r - x.slew }
  else { x with fraction := BitVec.ofNat 32 t, nanos := n, r := x.r - x.slew }

/-- The counter in units of 2^-32 ns (R468). -/
def Stamp.units (x : Stamp) : Nat := (x.seconds.toNat * 1000000000 + x.nanos.toNat) * 2 ^ 32 + x.fraction.toNat

/-- r stands at a limit (R472). -/
def Stamp.pinned (x : Stamp) : Bool := decide (x.hi < x.r) || decide (x.r < x.lo)

/-- The step of a HARD_SET in ns: exact in units of 2^-32 ns, to nearest, ties to even (R474). -/
def stepNs (d : Int) : Int :=
  let n := roundAt .rne d.natAbs 0 32
  if d < 0 then -(n : Int) else n

/-! ## State (R477) -/

/-- The code of a state (R490). -/
def TimeState.code : TimeState → Nat
  | .unset => 0
  | .free => 1
  | .locking => 2
  | .locked => 3
  | .holdover => 4

/-- A change of state, with TIME_STATE (R477, R491). -/
def State.setTimeState (s : State) (t : TimeState) : State :=
  let old := s.stamp.state
  if old = t then s
  else
    (s.modStamp (fun x => { x with state := t, near := 0, far := 0 })).event s.stamp.timing.eventQueue
      { code := 0x0850, subject := t.code, detail := old.code, value := s.stamp.timing.source }

/-- A time of day has reached the counter (R477, R617). -/
def State.timeOfDaySet (s : State) : State :=
  let s := s.modStamp (fun x => { x with todSet := true })
  if (s.stamp.state = .unset || s.stamp.state = .locking) && decide (s.stamp.timing.source ≤ 1) then s.setTimeState .free
  else if s.stamp.state = .unset then s.setTimeState .locking
  else s

/-! ## Pulse outputs after a step (R486) -/

/-- The target of a setting's first leading edge whose START + n × PERIOD lies at or after a value, in units of 2^-32 ns: START_FINE
steps beyond it (R485, R486). -/
def firstTarget (p : PulseSet) (from_ : Nat) : Nat :=
  p.fine +
    (if from_ ≤ p.start then p.start
     else if p.periodNs = 0 then p.start
     else p.start + ((from_ - p.start + p.periodNs * 2 ^ 32 - 1) / (p.periodNs * 2 ^ 32)) * (p.periodNs * 2 ^ 32))

/-- The first target of a periodic setting that lies after a counter value (R486). -/
def nextTarget (p : PulseSet) (c : Nat) : Nat := firstTarget p (c + 1 - p.fine)

/-- Output `o` after a HARD_SET: a periodic one takes its first target after the new value, a one-shot whose target is
past is cancelled (R486). -/
def State.aimAgain (s : State) (o : Nat) : State :=
  let p := s.stamp.pulses.getD o {}
  let set (s : State) (q : Pulse) : State := s.modStamp (fun x => { x with pulses := setAt x.pulses o q })
  match p.setting with
  | none => s
  | some g =>
    if p.high then s
    else if g.periodic then set s { p with target := nextTarget g s.stamp.units }
    else if p.target < s.stamp.units then
      (set s { p with setting := none }).tell
        [.event s.stamp.timing.eventQueue { code := 0x0854, subject := o, payload := p.target / 2 ^ 32 % 2 ^ 64 },
         .raise (73 + o)]
    else s

/-! ## The tick (R469, R473 to R475) -/

/-- The counter written by a HARD_SET in place of the tick's update: TIME_STEPPED, the state, the pulses (R474, R477,
R486). -/
def State.applyHardSet (s : State) (job : Option Nat) (sec : BitVec 64) (ns frac : BitVec 32) : State :=
  let replaced := s.stamp.advance.units
  let s := s.modStamp (fun x => { x with seconds := sec, nanos := ns, fraction := frac, r := 0 })
  let step := stepNs ((s.stamp.units : Int) - (replaced : Int))
  let s := s.event s.stamp.timing.eventQueue
    { code := 0x0851, detail := flag job.isNone, payload := ofInt 64 step }
  let s := s.timeOfDaySet
  let s := (List.range 8).foldl (fun s o => s.aimAgain o) s
  match job with
  | none => s
  | some n => s.finish n (endWith [] 0 (ofInt 64 step))

/-- One operation that takes effect at a tick: the state after, and whether it took the place of the update. -/
def State.applyTimeOp (s : State) (o : TimeOp) : State × Bool :=
  let done (s : State) (job : Option Nat) (result : Nat) : State :=
    match job with
    | none => s
    | some n => s.finish n (endWith [] 0 result)
  match o with
  | .adjust job off =>
    let s := s.modStamp (fun x => { x with r := x.r + off })
    (done s job (ofInt 64 s.stamp.r), false)
  | .setInc job inc => (done (s.modStamp (fun x => { x with inc := inc })) job 0, false)
  | .hardSet job sec ns frac => (s.applyHardSet job sec ns frac, true)

/-- The operations of a tick in the order in which they were accepted (R475). -/
def applyTimeOps : List TimeOp → Bool → State → State × Bool
  | [], b, s => (s, b)
  | o :: l, b, s =>
    let r := s.applyTimeOp o
    applyTimeOps l (b || r.2) r.1

/-- DATESTAMP_TICK: an epoch's close that falls in the tick that ends is made, pending operations take effect, the counter
advances by INC + s, and the frames on the ports' wires go on (R269, R449, R469, R472 to R475, R512). -/
def execDatestampTick (s : State) : Answer :=
  .next <|
    if s.stamp.refLost then s
    else
      let s := s.settleClose
      let r := applyTimeOps s.stamp.ops false (s.modStamp (fun x => { x with ops := [] }))
      let s := (if r.2 then r.1 else r.1.modStamp Stamp.advance).portsTick
      if s.stamp.pinned then (if s.stamp.pinnedAt.isSome then s else s.modStamp (fun x => { x with pinnedAt := some s.now }))
      else (s.unpinBound 0x11).modStamp (fun x => { x with pinnedAt := none })

/-! ## Opcodes (R473 to R475, R488 to R490) -/

/-- Host operations on the counter are refused while SOURCE is not HOST or FREE, and on a follower (R475, R480). -/
def State.hostTimeRefused (s : State) : Bool := decide (1 < s.stamp.timing.source) || !s.isClerk

/-- An operation put before the next tick (R473). -/
def State.queueTimeOp (s : State) (o : TimeOp) : State := s.modStamp (fun x => { x with ops := x.ops ++ [o] })

/-- The remainder as the pending operations will leave it (R473, R475). -/
def remainderAfter : Int → List TimeOp → Int
  | r, [] => r
  | r, .adjust _ o :: l => remainderAfter (r + o) l
  | r, .setInc _ _ :: l => remainderAfter r l
  | _, .hardSet _ _ _ _ :: l => remainderAfter 0 l

/-- The greatest remainder: 10^9 ns (R473). -/
def maxRemainder : Nat := 1000000000 * 2 ^ 32

/-- ADJUST_TIME (0x0851) (R473, R475, R480). -/
def execAdjustTime (job : Nat) (s : State) : Answer :=
  .next <| s.begin job 0x0851 fun j s =>
    let off := toInt 64 (fld j.slip 32 8)
    if fld j.slip 40 24 ≠ 0 then s.finish j.num (refusal stMalformed)
    else if s.hostTimeRefused then s.finish j.num (refusal stNotPermitted)
    else if maxRemainder < off.natAbs || maxRemainder < (remainderAfter s.stamp.r s.stamp.ops + off).natAbs then
      s.finish j.num (refusal stMalformed)
    else s.queueTimeOp (.adjust (some j.num) off)

/-- Whether an increment satisfies R471. -/
def incOk (ppb : Nat) (inc : BitVec 64) : Bool := decide ((trimOf inc).natAbs ≤ slewM ppb)

/-- SET_INCREMENT (0x0852) (R471, R473, R475, R480). -/
def execSetIncrement (job : Nat) (s : State) : Answer :=
  .next <| s.begin job 0x0852 fun j s =>
    let inc := BitVec.ofNat 64 (fld j.slip 32 8)
    if fld j.slip 40 24 ≠ 0 then s.finish j.num (refusal stMalformed)
    else if s.hostTimeRefused then s.finish j.num (refusal stNotPermitted)
    else if !incOk s.stamp.timing.slewPpb inc then s.finish j.num (refusal stMalformed)
    else s.queueTimeOp (.setInc (some j.num) inc)

/-- A SET_TIMING record (R489). -/
def timingOf (b : Bytes) : Timing :=
  { source := fldB b 0 1, profile := fldB b 1 1, transport := fldB b 2 1, stepMode := fldB b 3 1
    slewPpb := fldB b 4 4, roles := fldB b 8 4, domain := fldB b 12 1, priority1 := fldB b 13 1
    priority2 := fldB b 14 1, clockClass := fldB b 15 1, logSync := toInt 8 (fldB b 16 1)
    logAnnounce := toInt 8 (fldB b 17 1), logDelay := toInt 8 (fldB b 18 1), holdoverServe := fldB b 19 1 = 1
    lockNs := fldB b 20 4, ppsWindowNs := fldB b 24 4, ppsFilter := fldB b 28 1, eventQueue := fldB b 32 4 }

/-- Whether an integer lies in a range. -/
def within (lo hi i : Int) : Bool := decide (lo ≤ i) && decide (i ≤ hi)

/-- The increments that wait for the next tick (R473). -/
def waitingIncs (l : List TimeOp) : List (BitVec 64) := l.filterMap (fun o => match o with
  | .setInc _ i => some i
  | _ => none)

/-- Whether a SET_TIMING record holds values of R471 and R489. -/
def State.timingOk (s : State) (b : Bytes) : Bool :=
  let t := timingOf b
  decide (t.source ≤ 4) && decide (t.profile ≤ 2) &&
    (t.profile = 2 || (decide (t.transport ≤ 2) && decide (t.stepMode ≤ 1))) &&
    decide (1 ≤ t.slewPpb) && decide (t.slewPpb ≤ 1000000) && incOk t.slewPpb s.stamp.inc && (waitingIncs s.stamp.ops).all (incOk t.slewPpb) &&
    (List.range 16).all (fun l => bitsOf t.roles (2 * l + 1) (2 * l) ≠ 3) && decide (t.domain ≤ 127) &&
    decide (6 ≤ t.clockClass) && within (-7) 4 t.logSync && within (-3) 4 t.logAnnounce && within (-7) 5 t.logDelay &&
    decide (fldB b 19 1 ≤ 1) && decide (5 ≤ t.lockNs) && decide (t.lockNs ≤ 100000) &&
    decide (100 ≤ t.ppsWindowNs) && decide (t.ppsWindowNs ≤ 100000000) && fldB b 29 3 = 0 && s.eventQueueOk t.eventQueue &&
    allZero ((b.drop 36).take 28)

/-- The timing record taken; a change of SOURCE moves the state (R477). -/
def State.applyTiming (s : State) (t : Timing) : State :=
  let changed := s.stamp.timing.source ≠ t.source
  let s := s.modStamp (fun x => { x with timing := t })
  if !changed then s
  else if !s.stamp.todSet then s.setTimeState .unset
  else if 2 ≤ t.source then s.setTimeState .locking
  else s.setTimeState .free

/-- SET_TIMING (0x0850) (R471, R477, R488, R489). -/
def execSetTiming (job : Nat) (buf : BufRead) (s : State) : Answer :=
  .next <| s.beginRead job 0x0850 buf fun j b s =>
    if dataLenOf j.slip ≠ 64 || fld j.slip 32 32 ≠ 0 || !s.timingOk b then s.finish j.num (refusal stMalformed)
    else (s.applyTiming (timingOf b)).finish j.num (endWith [])

/-- STATE as reported: a follower reports LOCKED only while its timekeeper does too (R479). -/
def State.reportedTimeState (s : State) : TimeState :=
  if s.stamp.state = .locked && !s.isClerk && !s.stamp.keeperLocked then .locking else s.stamp.state

/-- QUERY_TIME (0x0854): the report of R490, at one tick (R488, R615). -/
def execQueryTime (job : Nat) (s : State) : Answer :=
  .next <| s.begin job 0x0854 fun j s =>
    let x := s.stamp
    if fld j.slip 32 32 ≠ 0 then s.finish j.num (refusal stMalformed)
    else if dataLenOf j.slip < 64 then s.finish j.num (refusalNotStarted stTooLarge)
    else
      s.finish j.num (endWith [] 0 0 [(0, packB 64 [(0, 8, x.seconds.toNat), (8, 4, x.nanos.toNat), (12, 4, x.fraction.toNat),
        (16, 8, x.inc.toNat), (24, 8, ofInt 64 x.r), (32, 8, ofInt 64 x.offset), (40, 1, s.reportedTimeState.code),
        (41, 1, s.clerk), (42, 1, flag (x.r ≠ 0)), (44, 4, x.pathDelay), (48, 8, x.parent), (56, 4, x.violations),
        (60, 4, sat 32 (x.ppsOffTime + x.ppsExtra))])])

/-! ## Pulse outputs (R485, R486) -/

/-- One step of START_FINE in units of 2^-32 ns: 5 / 128 ns (R485). -/
def fineUnit : Nat := 5 * 2 ^ 25

/-- One microsecond in units of 2^-32 ns (R486). -/
def microUnits : Nat := 1000 * 2 ^ 32

/-- Whether the PARAMS of SET_PULSE hold values of R486. -/
def pulseOk (j : Slip) : Bool :=
  let mode := fld j 33 1
  decide (fld j 32 1 ≤ 7) && decide (mode ≤ 2) && decide (fld j 34 1 ≤ 1) && decide (fld j 35 1 ≤ 127) && fld j 56 8 = 0 &&
    (mode = 0 || (decide (10 ≤ fld j 36 4) && decide (fld j 36 4 ≤ 999999990))) &&
    (if mode = 2 then decide (20 ≤ fld j 48 8) && decide (fld j 48 8 ≤ 4000000000) && decide (fld j 36 4 < fld j 48 8)
     else fld j 48 8 = 0)

/-- The setting of a SET_PULSE; none for MODE 0 (R486). -/
def pulseOf (j : Slip) : Option PulseSet :=
  if fld j 33 1 = 0 then none
  else some { periodic := fld j 33 1 = 2, activeLow := fld j 34 1 = 1
              start := fld j 40 8 * 2 ^ 32, fine := fld j 35 1 * fineUnit, widthNs := fld j 36 4, periodNs := fld j 48 8 }

/-- A setting in effect at an output that has no pulse in progress, aimed at least 1 µs after `accepted`. -/
def Pulse.set (p : Pulse) (g : Option PulseSet) (accepted : Nat) : Pulse :=
  match g with
  | none => { p with setting := none, next := none }
  | some x => { p with setting := some x, target := firstTarget x (accepted + microUnits), next := none }

/-- SET_PULSE (0x0855) (R486, R488). -/
def execSetPulse (job : Nat) (s : State) : Answer :=
  .next <| s.begin job 0x0855 fun j s =>
    let o := fld j.slip 32 1
    let g := pulseOf j.slip
    let early : Bool := match g with
      | some x => !x.periodic && decide (x.start < s.stamp.units + microUnits)
      | none => false
    if !pulseOk j.slip then s.finish j.num (refusal stMalformed)
    else if early then s.finish j.num (refusal stNotPermitted)
    else
      (s.modStamp (fun x => { x with pulses := modAt x.pulses o (fun p =>
        if p.high then { p with next := some (g, x.units) } else p.set g x.units) })).finish j.num (endWith [])

/-- The level of an output's pin, active or not (R486). -/
def pulseLevel (g : PulseSet) (active : Bool) : Bool := active != g.activeLow

/-- Where an edge aimed at a target leaves: the tick's record time and the fine delay, for a counter at `c` that next
advances by `add` (R485). A target already behind the counter leaves at once. -/
def edgePlace (c add target : Nat) : Nat × Nat :=
  let f := rneDiv ((target - c) * 128) (5 * 2 ^ 32)
  if f < 128 then (c / 2 ^ 32 % 2 ^ 64, f) else ((c + add) / 2 ^ 32 % 2 ^ 64, 0)

/-- INC + s of the next tick in units of 2^-32 ns (R469). -/
def Stamp.nextAdd (x : Stamp) : Nat := (x.inc + BitVec.ofInt 64 x.slew).toNat

/-- An output after its trailing edge: a waiting SET_PULSE takes effect, a periodic output aims at its first target after the counter,
a one-shot is done (R485, R486). -/
def Pulse.afterTrailing (p : Pulse) (g : PulseSet) (now : Nat) : Pulse :=
  let p := { p with high := false }
  match p.next with
  | some (n, accepted) => p.set n (if n.any (·.periodic) && decide (accepted + microUnits < now) then now - microUnits else accepted)
  | none => if g.periodic then { p with target := nextTarget g now } else { p with setting := none }

/-- PULSE_EDGE: the target of output `o` falls before the next tick, and its edge leaves (R485, R486, R494). -/
def execPulseEdge (o : Nat) (s : State) : Answer :=
  .next <|
    let x := s.stamp
    let p := x.pulses.getD o {}
    match p.setting with
    | none => s
    | some g =>
      let t := if p.high then p.trailing else p.target
      if x.units + x.nextAdd ≤ t || x.refLost then s
      else
        let e := edgePlace x.units x.nextAdd t
        let set (s : State) (q : Pulse) : State := s.modStamp (fun x => { x with pulses := setAt x.pulses o q })
        let s := s.emit [.edge o (pulseLevel g (!p.high)) e.1 e.2]
        if p.high then
          let s := set s (p.afterTrailing g x.units)
          if g.periodic then s else s.tell [.raise (73 + o)]
        else set s { p with high := true, trailing := t + g.widthNs * 2 ^ 32 }

/-! ## Capture inputs (R487, R491, R515) -/

/-- SET_CAPTURE (0x0856) (R487, R488). -/
def execSetCapture (job : Nat) (s : State) : Answer :=
  .next <| s.begin job 0x0856 fun j s =>
    let i := fld j.slip 32 1
    if decide (8 < i) || decide (3 < fld j.slip 33 1) || fld j.slip 35 1 ≠ 0 || decide (1000000 < fld j.slip 36 4) ||
        fld j.slip 40 24 ≠ 0 then s.finish j.num (refusal stMalformed)
    else
      (s.modStamp (fun x => { x with captures := modAt x.captures i (fun c =>
        { c with edge := fld j.slip 33 1, filterTicks := fld j.slip 34 1, minIntervalUs := fld j.slip 36 4 }) })).finish
        j.num (endWith [])

/-- Whether EDGE takes an edge (R487). -/
def edgeTaken (edge : Nat) (rising : Bool) : Bool := edge = 3 || (if rising then edge = 1 else edge = 2)

/-- One stamped edge reported: CAPTURE with the stamp as its TIME, and the Bell source (R491, R494). -/
def State.captureEvent (s : State) (i : Nat) (e : HeldEdge) : State :=
  let c := s.stamp.captures.getD i {}
  let d := s.desk.tell e.stamp [.event s.stamp.timing.eventQueue
    { code := 0x0853, subject := i, detail := flag e.rising + e.fine % 128 * 256, value := c.suppressed, payload := c.seq }]
  let s := { s with desk := d }
  (s.modStamp (fun x => { x with captures := setAt x.captures i { c with seq := (c.seq + 1) % 2 ^ 32, suppressed := 0 } })).tell
    [.raise (64 + i)]

/-- CAPTURE_EDGE: an edge of input `i` has passed the glitch filter: its stamp is the record time of the last tick at or
before the edge, `fine` the steps beyond it (R487, R515). -/
def execCaptureEdge (input : Nat) (rising : Bool) (stamp fine : Nat) (s : State) : Answer :=
  .next <|
    match s.stamp.captures[input]? with
    | none => s
    | some c =>
      let set (c : Capture) : State := s.modStamp (fun x => { x with captures := setAt x.captures input c })
      let close : Bool := match c.last with
        | some t => decide (t ≤ stamp) && decide (stamp < t + c.minIntervalUs * 1000)
        | none => false
      if !edgeTaken c.edge rising then s
      else if close then set { c with suppressed := satAdd 32 c.suppressed 1 }
      else
        match s.power.sleep with
        | .awake => (set { c with last := some stamp }).captureEvent input { stamp := stamp, rising := rising, fine := fine }
        | _ =>
          let s := if c.held.length < 16 then
              set { c with last := some stamp, held := c.held ++ [{ stamp := stamp, rising := rising, fine := fine }] }
            else set { c with suppressed := satAdd 32 c.suppressed 1 }
          if s.power.captureMask.testBit input then s.startWake 5 input else s

/-! ## The servo and the sources (R472, R476 to R480, R484, R617) -/

/-- A firmware correction put before the next tick, clipped to the bound of R473. -/
def State.firmwareAdjust (s : State) (off : Int) : State :=
  let room : Int := maxRemainder
  let r := remainderAfter s.stamp.r s.stamp.ops
  let o := max (-room) (min room off)
  let o := max (-room - r) (min (room - r) o)
  s.queueTimeOp (.adjust none o)

/-- Units of OFFSET, 2^-16 ns, in a second (R490). -/
def secondOffset : Nat := 1000000000 * 2 ^ 16

/-- One amount of a large correction: at most 1 s, with TIME_OFFSET_LARGE at its start (R478, R491). -/
def State.slewLarge (s : State) (offset : Int) : State :=
  let s := s.event s.stamp.timing.eventQueue
    { code := 0x0852, detail := s.stamp.timing.source, payload := ofInt 64 (stepNs (offset * 2 ^ 16)) }
  s.firmwareAdjust (if offset < 0 then maxRemainder else -(maxRemainder : Int))

/-- A correction of an offset in units of 2^-16 ns: beyond 1 s it is slewed at most 1 s at a time (R478). -/
def State.slewOffset (s : State) (offset : Int) : State :=
  let s := s.modStamp (fun x => { x with offset := offset })
  if secondOffset < offset.natAbs then s.slewLarge offset else s.firmwareAdjust (-offset * 2 ^ 16)

/-- An offset judged at a servo interval: the runs within LOCK_NS and beyond 4 × LOCK_NS, and the state (R477). -/
def State.judgeOffset (s : State) (offset : Int) : State :=
  let x := s.stamp
  let near := if offset.natAbs ≤ x.timing.lockNs * 2 ^ 16 then x.near + 1 else 0
  let far := if 4 * x.timing.lockNs * 2 ^ 16 < offset.natAbs then x.far + 1 else 0
  let s := s.modStamp (fun x => { x with offset := offset, near := near, far := far })
  match x.state with
  | .locking => if 16 ≤ near then s.setTimeState .locked else s
  | .locked => if 4 ≤ far then s.setTimeState .locking else s
  | .holdover => s.setTimeState .locking
  | _ => s

/-- SERVO_INTERVAL: a servo interval of the source that the timekeeper follows ends with the offset that firmware measured, in units of
2^-16 ns; the counter is ahead of the source by it. `inc` is a new increment that the servo sets, `adjust` whether it slews
the offset (R477 to R479, R617). -/
def execServoInterval (offset : Int) (inc : Option (BitVec 64)) (adjust : Bool) (s : State) : Answer :=
  .next <|
    let x := s.stamp
    if x.timing.source < 2 || x.state = .unset || x.state = .free || !s.isClerk then s
    else
      let s := s.judgeOffset offset
      let s := match inc with
        | some i => if incOk x.timing.slewPpb i then s.queueTimeOp (.setInc none i) else s
        | none => s
      if adjust then s.slewOffset offset else s

/-- Whether the source is lost: no usable Sync for 4 Sync intervals, or no used PPS edge for 2 s (R617). -/
def State.sourceGone (s : State) : Bool :=
  let x := s.stamp
  if x.timing.source < 2 then false
  else if x.timing.source = 2 then decide (x.ptpUntil ≤ s.now)
  else x.lastPps.all (fun t => decide (s.now < t) || decide (t + 2000000000 ≤ s.now))

/-- TIME_SOURCE_LOST: the source that the timekeeper follows is lost; INC and r are held and r runs out (R477, R479, R617). -/
def execTimeSourceLost (s : State) : Answer :=
  .next <|
    let x := s.stamp
    if !s.sourceGone then s
    else
      let s := if x.timing.source = 2 then s.modStamp (fun x => { x with parentData := none }) else s
      if s.isClerk && (x.state = .locking || x.state = .locked) then s.setTimeState .holdover else s

/-- SLEW_PINNED_TIMEOUT: r has stood at a limit for more than 1 s (R358, R472). -/
def execSlewPinnedTimeout (s : State) : Answer :=
  .next (if s.stamp.pinned && s.stamp.pinnedAt.any (fun t => decide (t + 1000000000 < s.now)) then s.pinBound 0x11 else s)

/-- TIMEKEEPER_EXCHANGE: a follower has exchanged time with the timekeeper: the offset in units of 2^-16 ns, half the
round trip in ns, and whether the timekeeper is LOCKED. The exchange is the follower's servo interval, and the first one with a locked
timekeeper gives an UNSET follower its time of day (R472, R473, R477, R479; log 187). -/
def execTimekeeperExchange (offset : Int) (delay : Nat) (keeperLocked : Bool) (s : State) : Answer :=
  .next <|
    if s.isClerk || s.power.sleep ≠ .awake then s
    else
      let s := s.modStamp (fun x => { x with pathDelay := sat 32 delay, keeperLocked := keeperLocked })
      let s := if keeperLocked && s.stamp.state = .unset then s.timeOfDaySet else s
      (s.judgeOffset offset).slewOffset offset

/-- Whether a stamp lies within the window of a whole second (R484). -/
def onTime (window stamp : Nat) : Bool :=
  let n := stamp % 1000000000
  decide (n ≤ window) || decide (1000000000 - window ≤ n)

/-- PPS_EDGE: a rising edge of the PPS input that has passed its filter, with its stamp in ns; `secondsOff` is by how many
whole seconds it disagrees with PTP, where PTP is present (R484, R617). -/
def execPpsEdge (stamp : Nat) (secondsOff : Int) (s : State) : Answer :=
  .next <|
    let x := s.stamp
    if !onTime x.timing.ppsWindowNs stamp then s.modStamp (fun x => { x with ppsOffTime := satAdd 32 x.ppsOffTime 1 })
    else if (match x.lastPps with | some t => decide (t ≤ stamp) && decide (stamp < t + 500000000) | none => false) then
      s.modStamp (fun x => { x with ppsExtra := satAdd 32 x.ppsExtra 1 })
    else
      let s := s.modStamp (fun x => { x with lastPps := some stamp })
      if x.timing.source = 3 && s.isClerk && decide (s.now < x.ptpUntil) && secondsOff ≠ 0 then s.slewLarge (secondsOff * secondOffset)
      else s

/-- Whether SERVE ports send: the state, as STAMP_STATE reports it, is LOCKED, or HOLDOVER with HOLDOVER_SERVE (R479, R481). -/
def State.servesTime (s : State) : Bool :=
  s.reportedTimeState = .locked || (s.reportedTimeState = .holdover && s.stamp.timing.holdoverServe)

/-- ROLE of a local logical port (R481, R489). -/
def Stamp.role (x : Stamp) (l : Nat) : Nat := bitsOf x.timing.roles (2 * l + 1) (2 * l)

/-- The delay requests of a profile: Delay_Req end to end, Pdelay_Req peer to peer (R482). -/
def delayRequest (profile : Nat) : Nat := if profile = 0 then 1 else 2

/-- PTP_SEND: a port is given a message of a type at its interval: Announce 11 and Sync 0, in two steps with its Follow_Up 8, on
a SERVE port while the state lets it, a Pdelay_Req on any port in use, a Delay_Req on a slave-capable one as the profile has it (R449, R481 to R483). -/
def execPtpSend (port kind seq : Nat) (s : State) : Answer :=
  .next <|
    let x := s.stamp
    let role := x.role port
    let may : Bool :=
      if kind = 0 || kind = 11 then role = 2 && s.servesTime
      else kind = delayRequest x.timing.profile && (role = 1 || (role = 2 && kind = 2))
    if !may || decide (15 < port) || (s.net.ports.getD port {}).state ≠ .up then s
    else
      let s := if kind = 1 || kind = 2 then
          s.modStamp (fun x => { x with openSeq := amSet x.openSeq (port * 16 + kind) (seq % 65536) })
        else s
      let two := kind = 0 && (x.timing.profile = 2 || x.timing.stepMode = 0)
      s.queuePtp port { kind := kind, seq := seq % 65536, follow := if two then some 8 else none }

end Sys2Proof.Machine
end

