-- ==== Sys2Proof/Machine/Catalogue.lean ====
section
/-! DEFINITION. Collections, codes and distances, the walk of a search, the addenda and its links (R396 to R413). -/
namespace Sys2Proof.Machine

/-! ## Codebooks, tables, codes (R400 to R402) -/

/-- Elements of a subspace: DIM / 64. -/
def Collection.width (c : Collection) : Nat := c.dim / 64

/-- Bytes of a vector. -/
def Collection.vecBytes (c : Collection) : Nat := if c.half then 2 * c.dim else c.dim

/-- Element e of centroid c of subspace s of a collection's codebook (R400). -/
def Collection.centroid (k : Nat) (x : Collection) (s c e : Nat) : F32 :=
  match x.book with
  | some b => BitVec.ofNat 32 (fldB b (4 * ((256 * s + c) * x.width + e)) 4)
  | none => Config.catalogueCodebook k s c e

/-- A vector's elements widened exactly to fp32. -/
def Collection.elements (x : Collection) (v : Bytes) : List F32 :=
  (List.range x.dim).map (fun i =>
    if x.half then f16ToF32 (fldB v (2 * i) 2)
    else BitVec.ofNat 32 (fmtF32.ofInt (v.getD i 0).toInt))

/-- The table of a query (R400). -/
structure CodeTable where
  /-- T by subspace and code -/
  full : List (List F32)
  /-- Q by subspace and code -/
  quant : List (List Nat)
  base : F32
  delta : F32

/-- The smaller and the greater of two fp32 values. -/
def f32min (a b : F32) : F32 := if f32lt b a then b else a
def f32max (a b : F32) : F32 := if f32lt a b then b else a

/-- An fp32 value to the nearest integer, ties to even; 0 for a negative one. -/
def f32rint (x : F32) : Nat := (f64rint (f32ToF64 x)).toNat

/-- The table of a query's elements under a collection's codebook (R400). -/
def codeTable (k : Nat) (x : Collection) (q : List F32) : CodeTable :=
  let w := x.width
  let full := (List.range 64).map (fun s => (List.range 256).map (fun c =>
    (List.range w).foldl (fun t e =>
      let u := f32sub (q.getD (s * w + e) 0) (x.centroid k s c e)
      f32fma u u t) 0))
  let lo (r : List F32) : F32 := match r with | [] => 0 | a :: l => l.foldl f32min a
  let hi (r : List F32) : F32 := match r with | [] => 0 | a :: l => l.foldl f32max a
  let span := full.foldl (fun m r => f32max m (f32sub (hi r) (lo r))) 0
  let delta := f32div span 0x437F0000#32
  { full := full
    quant := full.map (fun r => r.map (fun t =>
      if f32lt 0 delta then min 255 (f32rint (f32div (f32sub t (lo r)) delta)) else 0))
    base := full.foldl (fun b r => f32add b (lo r)) 0
    delta := delta }

/-- Whether every value of the table is finite (R400). -/
def CodeTable.finite (t : CodeTable) : Bool := t.full.all (fun r => r.all f32finite)

/-- The product code of the vector whose table this is (R401). -/
def CodeTable.code (t : CodeTable) : Bytes :=
  t.full.map (fun r => BitVec.ofNat 8 (((List.range 256).zip r).foldl
    (fun (b : Nat × F32) e => if f32lt e.2 b.2 then e else b) (0, r.getD 0 0)).1)

/-- The distance of a code (R401). -/
def CodeTable.dist (t : CodeTable) (code : Bytes) : Nat :=
  (List.range 64).foldl (fun d s => d + natAt (t.quant.getD s []) (code.getD s 0).toNat) 0

/-- The reconstruction of a code (R402). -/
def Collection.reconstruct (k : Nat) (x : Collection) (code : Bytes) : List F32 :=
  (List.range 64).flatMap (fun s => (List.range x.width).map (fun e => x.centroid k s (code.getD s 0).toNat e))

/-- A collection's definition. -/
def Catalogue.coll (c : Catalogue) (k : Nat) : Option Collection := amGet c.collections k

/-- The table whose query is the reconstruction of a stored code: distances from it (R402). -/
def Catalogue.tableFrom (c : Catalogue) (k : Nat) (code : Bytes) : CodeTable :=
  match c.coll k with
  | none => { full := [], quant := [], base := 0, delta := 0 }
  | some x => codeTable k x (x.reconstruct k code)

/-! ## The walk (R411, R412) -/

/-- A candidate: identifier, distance, the key of its node in its graph, whether it has been expanded. -/
structure Cand where
  id : Nat
  dist : Nat
  key : Nat
  expanded : Bool := false
  deriving DecidableEq, Repr

/-- The order (d, id) of R401. -/
def Cand.before (a b : Cand) : Bool := decide (a.dist < b.dist) || (a.dist == b.dist && decide (a.id < b.id))

/-- A graph of a collection as a walk reads it: entry keys in order; the identifier and code of a visible key; the keys a
node links to, in order; why a node can not be read: 4 READ_FAILED, 8 SHARD_MISSING, 0 readable. -/
structure SearchGraph where
  entries : List Nat
  look : Nat → Option (Nat × Bytes)
  links : Nat → List Nat
  bad : Nat → Nat

/-- The state of a walk; `trace` holds each node expanded, the last first, with the eight best unexpanded candidates then
(R417). -/
structure Walk where
  c : List Cand := []
  seen : List Nat := []
  n : Nat := 0
  flags : Nat := 0
  trace : List (Nat × List Nat) := []

/-- A key put into a walk, unless it is seen or not visible (R412). -/
def Walk.put (w : Walk) (g : SearchGraph) (t : CodeTable) (list key : Nat) : Walk :=
  if w.seen.contains key then w
  else
    match g.look key with
    | none => w
    | some (id, code) =>
      { w with seen := key :: w.seen
               c := (insertBy Cand.before { id := id, dist := t.dist code, key := key } w.c).take list }

/-- Expansions until none is left or `fuel` are made (R412). -/
def Walk.run (g : SearchGraph) (t : CodeTable) (list : Nat) : Nat → Walk → Walk
  | 0, w => w
  | fuel + 1, w =>
    match w.c.find? (fun c => !c.expanded) with
    | none => w
    | some c =>
      let why := g.bad c.id
      if why ≠ 0 then
        Walk.run g t list fuel { w with c := w.c.filter (fun x => x.key ≠ c.key), n := w.n + 1, flags := w.flags ||| why }
      else
        let cs := mapIf (fun x => x.key == c.key) (fun x => { x with expanded := true }) w.c
        let w := { w with
          c := cs, n := w.n + 1
          trace := (c.key, ((cs.filter (fun x => !x.expanded)).take 8).map (·.key)) :: w.trace }
        Walk.run g t list fuel ((g.links c.key).foldl (fun w y => w.put g t list y) w)

/-- A walk of a graph from its entries with EXPAND_MAX `expand`, cut short after `fuel` expansions by a deadline (R412,
R418). An entry that can not be read has no code to score it and is left out. -/
def walkGraph (g : SearchGraph) (t : CodeTable) (list expand fuel : Nat) : Walk :=
  let start := g.entries.foldl (fun (w : Walk) e =>
    match g.look e with
    | none => w
    | some (id, _) =>
      let why := g.bad id
      if why ≠ 0 then { w with flags := w.flags ||| why } else w.put g t list e) ({} : Walk)
  let w := Walk.run g t list (min expand fuel) start
  if w.n = expand && w.c.any (fun c => !c.expanded) then { w with flags := w.flags ||| 2 } else w

/-- The generation graph of a collection (R412). -/
def Generation.graph (g : Generation) (k : Nat) (bad : Nat → Nat) : SearchGraph :=
  { entries := amGetD g.entries k []
    look := fun id => (amGet g.nodes id).map (fun n => (id, n.code))
    links := fun id => (amGet g.nodes id).elim [] (fun n => n.nbrs.map (·.1))
    bad := bad }

/-- The addenda graph of a collection over positions from `lo` up to, not including, `hi` (R411, R412). -/
def addendaGraph (l : List Addendum) (k lo hi : Nat) (bad : Nat → Nat) : SearchGraph :=
  let seen := l.filter (fun a => a.coll == k && decide (lo ≤ a.pos) && decide (a.pos < hi))
  let ps := seen.map (·.pos)
  let find (p : Nat) : Option Addendum := seen.find? (fun a => a.pos == p)
  { entries := (ps.take 8 ++ ps.drop (ps.length - 8)).eraseDups
    look := fun p => (find p).map (fun a => (a.id, a.code))
    links := fun p => (find p).elim [] (fun a => a.forward ++ a.back)
    bad := bad }

/-! ## A search on this member (R411 to R413) -/

/-- A held generation. -/
def Catalogue.generation (c : Catalogue) (n : Nat) : Generation :=
  if c.current.number = n then c.current
  else match c.previous with
    | some g => if g.number = n then g else c.current
    | none => c.current

/-- Why a node can not be read: its page (READ_FAILED), or its shard's engine (SHARD_MISSING) (R412). -/
def State.nodeBad (s : State) (g : Generation) (id : Nat) : Nat :=
  if s.unitDown 0x0011 (g.engines.getD ((id % 2 ^ 34) / 2 ^ 28) 0) then 8
  else if s.catalogue.unreadable.contains id then 4 else 0

/-- Why an addenda entry can not be read (R546). -/
def State.entryBad (s : State) (id : Nat) : Nat := if s.catalogue.unreadable.contains id then 4 else 0

/-- What R413 keeps and counts. -/
structure Kept where
  hits : List SearchHit := []
  deleted : Nat := 0
  filtered : Nat := 0
  flags : Nat := 0
  /-- generation candidates whose node is read for its ATTR, which the walk has not read -/
  reads : List Nat := []

/-- A round's walk of the generation graph (R412). -/
def State.shelfWalk (s : State) (p : SearchParams) (vector : Bytes) (snap : Snapshot) (list expand fuel : Nat) : Walk :=
  let c := s.catalogue
  let x := (c.coll p.coll).getD { half := false, dim := 0, book := none }
  let g := c.generation snap.gen
  walkGraph (g.graph p.coll (s.nodeBad g)) (codeTable p.coll x (x.elements vector)) list expand fuel

/-- The engine of a node's shard. -/
def Generation.engineOf (g : Generation) (id : Nat) : Nat := g.engines.getD ((id % 2 ^ 34) / 2 ^ 28) 0

/-- The block and the page of it that hold a node, six nodes to a page (R405); none where its segment has no block. -/
def Generation.pageOf (g : Generation) (pages : Nat → Nat) (id : Nat) : Option (Nat × Nat) :=
  let k := id % 65536 / 6
  match amGet g.segments ((id % 2 ^ 34) / 65536) with
  | none => none
  | some l =>
    let n := max (pages (l.headD 0)) 1
    l[k / n]?.map (fun b => (b, k % n))

/-- A node noted among a page's reads: wanted by the walk, or only read ahead. -/
def ShelfRead.note (r : ShelfRead) (id : Nat) (ahead : Bool) : ShelfRead :=
  if !ahead then { r with wanted := if r.wanted.contains id then r.wanted else r.wanted ++ [id], ahead := r.ahead.filter (· ≠ id) }
  else if r.wanted.contains id || r.ahead.contains id then r
  else { r with ahead := r.ahead ++ [id] }

/-- The page of a node read by the engine of its shard, unless its read is under way (R412, R417). -/
def State.readNode (s : State) (g : Generation) (ahead : Bool) (id : Nat) : State :=
  let e := g.engineOf id
  let x := s.engine e
  if s.nodeBad g id ≠ 0 then s
  else
    match g.pageOf x.pages id with
    | none => s
    | some (b, p) =>
      if x.reads.any (fun r => r.block == b && r.page == p) then
        s.modEngine e (fun x => { x with
          reads := mapIf (fun r => r.block == b && r.page == p) (fun r => r.note id ahead) x.reads })
      else
        (s.modEngine e (fun x => { x with
          reads := x.reads ++ [({ block := b, page := p } : ShelfRead).note id ahead] })).emit [.flash e (x.lunNo b) 0 (x.row b p) []]

/-- An engine scores a node for a search: its quantised table is in one of the three slots, fetched from the Stack in the
place of the least recently used one where it was not (R417). -/
def Engine.useTable (x : Engine) (query : Nat × Nat) : Engine :=
  { x with tables := (query :: x.tables.filter (· ≠ query)).take 3 }

/-- What the shelf engines do for a round: each node expanded is read and its neighbours are scored beside it, while the eight
best unexpanded candidates are read ahead; then the nodes whose ATTR is wanted are read. The search has read from those engines
(R412, R413, R417, R438). -/
def State.shelfRound (s : State) (query : Nat × Nat) (gen : Nat) (w : Walk) (reads : List Nat) : State :=
  let g := s.catalogue.generation gen
  let s := w.trace.reverse.foldl (fun s e =>
    e.2.foldl (fun s y => s.readNode g true y)
      ((s.readNode g false e.1).modEngine (g.engineOf e.1) (fun x => x.useTable query))) s
  let s := reads.foldl (fun s y => s.readNode g false y) s
  let es := ((w.trace.map (·.1) ++ reads).map g.engineOf).eraseDups
  s.modCat (fun c => { c with
    served := mapIf (fun v => v.member == query.1 && v.number == query.2) (fun v => { v with engines := union v.engines es }) c.served })

/-- A round's walk of the addenda graph (R412). -/
def State.addendaWalk (s : State) (p : SearchParams) (vector : Bytes) (snap : Snapshot) (list expand fuel : Nat) : Walk :=
  let c := s.catalogue
  let x := (c.coll p.coll).getD { half := false, dim := 0, book := none }
  walkGraph (addendaGraph c.addenda p.coll (c.generation snap.gen).base snap.addEnd s.entryBad) (codeTable p.coll x (x.elements vector))
    list expand fuel

/-- The merge of both walks' lists and the filter (R413). -/
def State.keepMerged (s : State) (p : SearchParams) (snap : Snapshot) (a b : Walk) : Kept :=
  let c := s.catalogue
  let g := c.generation snap.gen
  let merged := sortBy (fun u v => Cand.before u.1 v.1) (a.c.map (fun u => (u, false)) ++ b.c.map (fun u => (u, true)))
  merged.foldl (fun (k : Kept) e =>
    if p.k ≤ k.hits.length then k
    else if c.deletedAt e.1.id snap.deletes then { k with deleted := satAdd 32 k.deleted 1 }
    else
      let k := if e.2 || e.1.expanded then k else { k with reads := k.reads ++ [e.1.id] }
      let why := if e.2 then s.entryBad e.1.id else s.nodeBad g e.1.id
      if why ≠ 0 then { k with flags := k.flags ||| why }
      else
        let attr := if e.2 then (c.addenda.find? (fun y => y.pos == e.1.key)).elim 0 (·.attr)
          else (amGet g.nodes e.1.id).elim 0 (·.attr)
        if decide (attr &&& p.mask = p.value) = p.invert then { k with filtered := satAdd 32 k.filtered 1 }
        else { k with hits := k.hits ++ [{ id := e.1.id, dist := e.1.dist, attr := attr, addenda := e.2 }] }) ({} : Kept)

/-- The round of a search on this member: both walks on its snapshot, then the merge and the filter, with what the shelf engines read
for it (R412, R413, R417). The fuels cut the walks of the generation and of the addenda short (R418). -/
def State.memberRound (s : State) (query : Nat × Nat) (p : SearchParams) (vector : Bytes) (snap : Snapshot) (list expand : Nat)
    (fuel : Nat × Nat) : MemberResult × State :=
  let a := s.shelfWalk p vector snap list expand fuel.1
  let b := s.addendaWalk p vector snap list expand fuel.2
  let k := s.keepMerged p snap a b
  ({ member := s.position, snapshot := snap, hits := k.hits, expansions := a.n + b.n, deleted := k.deleted
     filtered := k.filtered, flags := a.flags ||| b.flags ||| k.flags }, s.shelfRound query snap.gen a k.reads)

/-- The snapshot as it stands (R411). -/
def State.snapshot (s : State) : Snapshot :=
  { gen := s.catalogue.current.number, addEnd := s.catalogue.addEnd, deletes := s.catalogue.deletes }

/-! ## Identifiers (R397, R398) -/

/-- The segment of a slot among the 2^18 of a member. -/
def segmentOf (id : Nat) : Nat := (id % 2 ^ 34) / 65536

/-- Segments of slots that a held generation or the addenda occupy (R398). -/
def Catalogue.occupied (c : Catalogue) : List Nat :=
  ((c.current.nodes ++ (c.previous.elim [] (·.nodes))).map (fun e => segmentOf e.1) ++
    c.addenda.map (fun a => segmentOf a.id)).eraseDups

/-- The first local identifier, at a segment's start, whose segment is not occupied; the fuel is how many are. -/
def nextFree (occ : List Nat) : Nat → Nat → Option Nat
  | 0, _ => none
  | n + 1, l =>
    if 2 ^ 37 ≤ l + 65535 then none
    else if occ.contains (segmentOf l) then nextFree occ n ((l / 65536 + 1) * 65536) else some l

/-- The first of `n` consecutive local identifiers (R398); none where no segment is free. -/
def Catalogue.idRun (c : Catalogue) (n : Nat) : Option Nat :=
  let next := c.nextId
  let last := next + n - 1
  let enters : Bool := next % 65536 = 0 || segmentOf next ≠ segmentOf last
  let seg := if next % 65536 = 0 then segmentOf next else segmentOf last
  if 2 ^ 37 ≤ last then none
  else if enters && c.occupied.contains seg then
    nextFree c.occupied (c.occupied.length + 1) ((next / 65536 + 1) * 65536)
  else some next

/-- A run of identifiers taken: those skipped, the counter, reservations of 65,536, which the log writes before the identifiers
are assigned (R398, R409). -/
def State.takeIds (s : State) (first n : Nat) : State :=
  let c := s.catalogue
  let s := s.modCat (fun c => { c with
    skipped := if first = c.nextId then c.skipped else c.skipped ++ [(c.nextId, first - 1)], nextId := first + n })
  if c.reserved < first + n then
    ((s.modCat (fun c => { c with reserved := first + n + 65535 })).logAppend (.reserve (first + n + 65535))).writeLog
  else s

/-! ## Insertion (R401, R407 to R409) -/

/-- One entry linked and appended (R408). -/
def Catalogue.link (c : Catalogue) (t : CodeTable) (x : Addendum) : Catalogue × Addendum :=
  let w := walkGraph (addendaGraph c.addenda x.coll c.current.base x.pos (fun _ => 0)) t 64 128 128
  let forward := (w.c.take 16).map (·.key)
  let x := { x with forward := forward }
  ({ c with
      addenda := mapIf (fun (a : Addendum) => forward.contains a.pos && decide (a.back.length < 16))
        (fun a => { a with back := a.back ++ [x.pos] }) c.addenda ++ [x]
      addEnd := x.pos + 1 }, x)

/-- Vectors, each with its ATTR, inserted in a collection under consecutive identifiers from `first` (R408, R409). -/
def State.insertAll (s : State) (k : Nat) (x : Collection) (first : Nat) (vs : List (Bytes × Nat)) : State :=
  ((List.range vs.length).zip vs).foldl (fun s e =>
    let t := codeTable k x (x.elements e.2.1)
    let r := s.catalogue.link t {
      pos := s.catalogue.addEnd, id := s.position * 2 ^ 37 + (first + e.1) % 2 ^ 37, attr := e.2.2, coll := k, code := t.code }
    (s.modCat (fun _ => r.1)).logAppend (.entry r.2)) (s.takeIds first vs.length)

/-- Entries that the addenda ring holds (R407). -/
def addendaMax : Nat := 16777216

/-- Vectors inserted by the device: the first identifier, or none where they find no room (R399). -/
def State.deviceInsert (s : State) (k : Nat) (vs : List (Bytes × Nat)) : Option Nat × State :=
  match s.catalogue.coll k, s.catalogue.idRun vs.length with
  | some x, some first =>
    if addendaMax < s.catalogue.addenda.length + vs.length || vs.isEmpty then (none, s)
    else (some (s.position * 2 ^ 37 + first), s.insertAll k x first vs)
  | _, _ => (none, s)

end Sys2Proof.Machine
end

