-- ==== Sys2Proof/Machine/Reshelve.lean ====
section
/-! DEFINITION. Reshelving, generations, inserts and deletes, collections, shelf policy and report (R404 to R410, R423 to
R431, R436). -/
namespace Sys2Proof.Machine

/-! ## The start of a reshelving (R429) -/

/-- Entries of the addenda that are visible from the current generation. -/
def Catalogue.fill (c : Catalogue) : Nat := c.addEnd - c.current.base

/-- A reshelving starts, with its cut: `detail` 0 for the fill of the addenda, 1 for the host (R428, R429). -/
def State.startReshelving (s : State) (detail : Nat) (jobs : List Nat) : State :=
  let c := s.catalogue
  (s.modCat (fun c => { c with
    reshelving := some { cut := c.addEnd, deletes := c.deletes, bad := c.unreadable, jobs := jobs, since := s.now }, reshelveWaiting := [] })).event
      c.eventQueue { code := 0x0501, subject := (c.current.number + 1) % 2 ^ 32, detail := detail, value := sat 32 c.fill }

/-- A reshelving starts where one is asked for or the addenda have reached RESHELVE_AT, none runs, and no previous
generation is held (R429). -/
def State.tryReshelving (s : State) : State :=
  let c := s.catalogue
  if c.reshelving.isSome || c.previous.isSome || s.reference.state ≠ .normal then s
  else if !c.reshelveWaiting.isEmpty then s.startReshelving 1 c.reshelveWaiting
  else if addendaMax * c.reshelveAt ≤ c.fill * 100 then s.startReshelving 0 []
  else s

/-- RESHELVE (0x0504) (R419, R429). -/
def execReshelve (job : Nat) (s : State) : Answer :=
  .next <| s.begin job 0x0504 fun j s =>
    if fld j.slip 32 32 ≠ 0 || dataLenOf j.slip ≠ 0 then s.finish j.num (refusal stMalformed)
    else
      match s.catalogue.reshelving with
      | some r => s.modCat (fun c => { c with reshelving := some { r with jobs := r.jobs ++ [j.num] } })
      | none => (s.modCat (fun c => { c with reshelveWaiting := c.reshelveWaiting ++ [j.num] })).tryReshelving

/-! ## The new generation (R429) -/

/-- Whether a vector is deleted at the cut: by a delete up to X_r, be it folded or pending, or because its page could not be read
(R429, R435). -/
def Catalogue.goneAt (c : Catalogue) (r : Reshelving) (id : Nat) : Bool :=
  ({ c with tombstones := c.tombstones.filter (fun t => !r.later.contains t) }).deletedAt id r.deletes || r.bad.contains id

/-- The order of a neighbour list: distance from the node, then identifier. -/
def nearBefore (t : CodeTable) (a b : Nat × Bytes) : Bool :=
  let da := t.dist a.2
  let db := t.dist b.2
  decide (da < db) || (da == db && decide (a.1 < b.1))

/-- A node whose neighbours were deleted, repaired (R429 step 1). -/
def Catalogue.repair (c : Catalogue) (r : Reshelving) (v : Node) : Node :=
  let gone (id : Nat) : Bool := c.goneAt r id
  let own := v.nbrs.filter (fun y => !gone y.1)
  let more := (v.nbrs.filter (fun y => gone y.1)).flatMap (fun u =>
    ((amGet c.current.nodes u.1).elim [] (·.nbrs)).filter (fun y => !gone y.1 && y.1 ≠ v.id))
  let l := (own ++ more).foldl (fun (l : List (Nat × Bytes)) y => if l.any (fun z => z.1 == y.1) then l else l ++ [y]) []
  { v with nbrs := (sortBy (nearBefore (c.tableFrom v.coll v.code)) l).take 32 }

/-- Entry nodes of a collection: the surviving ones, filled to 64 from its nodes in rising identifier (R429 step 3). -/
def entriesOf (old : List Nat) (nodes : List (Nat × Node)) (k : Nat) : List Nat :=
  let ids := (nodes.filter (fun e => e.2.coll == k)).map (·.1)
  let keep := old.filter (fun i => ids.contains i)
  keep ++ (ids.filter (fun i => !keep.contains i)).take (64 - keep.length)

/-- Node `a` offered to the list of a neighbour (R429 step 2). -/
def Catalogue.offer (c : Catalogue) (w : Node) (a : Nat × Bytes) : Node :=
  let t := c.tableFrom w.coll w.code
  let all := sortBy (nearBefore t) (w.nbrs ++ [a])
  if w.nbrs.length < 32 then { w with nbrs := all }
  else
    match w.nbrs.getLast? with
    | none => w
    | some z => if nearBefore t a z then { w with nbrs := sortBy (nearBefore t) (w.nbrs.dropLast ++ [a]) } else w

/-- One addenda entry placed in the generation as built so far (R429 step 2). -/
def Catalogue.place (c : Catalogue) (old : List (Nat × List Nat)) (touched : List Nat) (nodes : List (Nat × Node)) (a : Addendum) :
    List (Nat × Node) :=
  let g : Generation := { nodes := nodes, entries := [(a.coll, entriesOf (amGetD old a.coll []) nodes a.coll)] }
  let t := c.tableFrom a.coll a.code
  let w := walkGraph (g.graph a.coll (fun _ => 0)) t 128 256 256
  let nb := (w.c.take 32).filterMap (fun x => (amGet nodes x.id).map (fun n => (x.id, n.code)))
  let nodes := amSet nodes a.id { id := a.id, attr := a.attr, coll := a.coll, gen := 0, code := a.code, nbrs := nb }
  nb.foldl (fun m y =>
    if !touched.contains (segmentOf y.1) then m
    else match amGet m y.1 with
      | none => m
      | some n => amSet m y.1 (c.offer n (a.id, a.code))) nodes

/-- What a reshelving makes: the nodes, the entry nodes, the segments touched, the nodes removed and added. -/
structure NewNodes where
  nodes : List (Nat × Node)
  entries : List (Nat × List Nat)
  touched : List Nat
  removed : List Nat
  added : Nat
  deriving DecidableEq, Repr

/-- The nodes of the new generation (R429). -/
def Catalogue.reshelve (c : Catalogue) (r : Reshelving) : NewNodes :=
  let g := c.current
  let removed := (g.nodes.filter (fun e => c.goneAt r e.1)).map (·.1)
  let kept := g.nodes.filter (fun e => !c.goneAt r e.1)
  let hurt (v : Node) : Bool := v.nbrs.any (fun y => c.goneAt r y.1)
  let fresh := c.addenda.filter (fun a => decide (g.base ≤ a.pos) && decide (a.pos < r.cut) && !c.goneAt r a.id)
  let touched := (removed.map segmentOf ++ (kept.filter (fun e => hurt e.2)).map (fun e => segmentOf e.1) ++
    fresh.map (fun a => segmentOf a.id)).eraseDups
  let mended := kept.map (fun e => if hurt e.2 then (e.1, c.repair r e.2) else e)
  let nodes := fresh.foldl (c.place g.entries touched) mended
  { nodes := nodes
    entries := (c.collections.map (·.1)).map (fun k => (k, entriesOf (amGetD g.entries k []) nodes k))
    touched := sortBy (fun a b => decide (a < b)) touched, removed := removed, added := fresh.length }

/-! ## Segments on flash (R403 to R405, R436) -/

/-- Identifiers in the 5 bytes of a node's neighbour list. -/
def Node.bytes (n : Node) : Bytes :=
  le 8 n.id ++ le 8 n.attr ++ le 1 n.coll ++ le 1 n.nbrs.length ++ zeros 2 ++ le 4 n.gen ++ zeros 8 ++ takePad 64 n.code ++
    takePad 160 (n.nbrs.flatMap (fun y => le 5 y.1)) ++ takePad 2048 (n.nbrs.flatMap (fun y => takePad 64 y.2))

/-- A page of a segment (R405): its nodes, and its trailer with a write sequence number. -/
def segmentPage (nodes : List (Nat × Node)) (gen seg page seq : Nat) : Bytes :=
  let at_ (p : Nat) : Option Node := (nodes.find? (fun e => segmentOf e.1 == seg && e.1 % 65536 == p)).map (·.2)
  let ns := (List.range 6).map (fun i => at_ (6 * page + i))
  let trailer := packB 256 [(0, 4, 0x5A534850), (4, 1, seg / 4096), (6, 2, seg % 4096), (8, 2, page), (12, 4, gen),
    (16, 1, (ns.filterMap id).length), (24, 8, seq)]
  ns.flatMap (fun n => nandWords (n.elim (zeros 2304) (·.bytes))) ++ nandWords trailer ++ zeros 984

/-- Nodes of segments that are written in a generation (R404). -/
def stampNodes (segs : List Nat) (number : Nat) (nodes : List (Nat × Node)) : List (Nat × Node) :=
  nodes.map (fun e => if segs.contains (segmentOf e.1) then (e.1, { e.2 with gen := number }) else e)

/-- Pages of a segment (R403). -/
def segmentPages : Nat := 10923

/-- Blocks for a segment taken on an engine until its pages are held; none where the engine runs out of them. -/
def takeBlocks (e : Nat) : Nat → Nat → State → Option (List Nat × State)
  | 0, _, s => some ([], s)
  | fuel + 1, need, s =>
    if need = 0 then some ([], s)
    else
      match s.takeBlock e with
      | none => none
      | some (b, s) =>
        match takeBlocks e fuel (need - (s.engine e).pages b) s with
        | none => none
        | some (bs, s) => some (b :: bs, s)

/-- A segment written whole into fresh blocks of an engine (R430); none where it has no room. -/
def State.writeSegment (s : State) (nodes : List (Nat × Node)) (gen e seg : Nat) : Option (List Nat × State) :=
  match takeBlocks e segmentPages segmentPages s with
  | none => none
  | some (bs, s) =>
    let r := bs.foldl (fun (a : Nat × State) b =>
      let n := min ((a.2.engine e).pages b) (segmentPages - a.1)
      (a.1 + n, (List.range n).foldl (fun s p => s.program e b p (segmentPage nodes gen seg (a.1 + p) (gen * segmentPages + a.1 + p))) a.2))
      (0, s)
    some (bs, r.2)

/-- The engine for a shard at a reshelving: its own, or, where that has fallen below SPARE_PCT, the writable engine with the
greatest spare share (R431, R436). -/
def State.engineFor (s : State) (shard : Nat) : Nat :=
  let own := s.catalogue.current.engines.getD shard 0
  if !s.lowSpare.contains own then own
  else
    (s.writable.filter (fun e => !s.lowSpare.contains e)).foldl (fun best e =>
      if (s.engine best).spare < (s.engine e).spare then e else best) own

/-- Mean erase count of a channel's blocks. -/
def Engine.meanErases (x : Engine) : Nat := if x.total = 0 then 0 else (x.blocks.foldl (fun a b => a + b.2.erases) 0) / x.total

/-- Untouched segments that are rewritten: those with a block set down for retirement, those on a shard that moves, and,
up to 5 % of a channel's segments, those whose blocks lie more than 500 erases below the channel's mean (R431, R435,
R436). -/
def State.rewritten (s : State) (touched : List Nat) : List Nat :=
  let g := s.catalogue.current
  let rest := g.segments.filter (fun x => !touched.contains x.1)
  let eng (x : Nat × List Nat) : Nat := g.engines.getD (x.1 / 4096) 0
  let must := rest.filter (fun x => x.2.any (fun b => ((s.engine (eng x)).block b).worn) || s.engineFor (x.1 / 4096) ≠ eng x)
  let cold := (List.range 64).flatMap (fun e =>
    let own := g.segments.filter (fun x => eng x == e)
    (rest.filter (fun x => eng x == e && !x.2.isEmpty &&
      x.2.all (fun b => decide (((s.engine e).block b).erases + 500 < (s.engine e).meanErases)))).take (own.length * 5 / 100))
  (must.map (·.1) ++ cold.map (·.1)).eraseDups

/-- Every segment of a list written; the new block lists. None where one finds no room. -/
def writeSegments (nodes : List (Nat × Node)) (gen : Nat) (engineOf : Nat → Nat) : List Nat → State → Option (List (Nat × List Nat) × State)
  | [], s => some ([], s)
  | seg :: l, s =>
    match s.writeSegment nodes gen (engineOf seg) seg with
    | none => none
    | some (bs, s) =>
      match writeSegments nodes gen engineOf l s with
      | none => none
      | some (r, s) => some ((seg, bs) :: r, s)

/-- The metadata of a generation as bytes: its header, its engines, its entry nodes, its segments' block lists. -/
def Generation.bytes (g : Generation) : Bytes :=
  le 4 g.number ++ zeros 4 ++ le 8 g.base ++ le 8 g.folded ++ le 8 g.counter ++ g.engines.flatMap (le 1) ++
    g.entries.flatMap (fun e => le 1 e.1 ++ le 1 e.2.length ++ e.2.flatMap (le 5)) ++
    g.segments.flatMap (fun x => le 4 x.1 ++ le 2 x.2.length ++ x.2.flatMap (le 4))

/-- The metadata written in two copies on different channels (R403, R430). -/
def State.writeMetadata (s : State) (g : Generation) : State :=
  let d := g.bytes
  let pages := (List.range ((d.length + 14975) / 14976)).map (fun i => nandWords ((d.drop (14976 * i)).take 14976))
  (s.writable.take 2).foldl (fun s e => pages.foldl (fun s p => match s.appendPage e p with
    | none => s
    | some (_, s) => s) s) s

/-! ## The previous generation (R406, R430) -/

/-- Blocks that only a generation uses are freed; those set down for retirement are retired. -/
def State.freeBlocks (s : State) (old new : Generation) : State :=
  let used := new.segments.flatMap (fun x => x.2.map (fun b => (new.engines.getD (x.1 / 4096) 0, b)))
  let only := (old.segments.flatMap (fun x => x.2.map (fun b => (old.engines.getD (x.1 / 4096) 0, b)))).filter (fun y => !used.contains y)
  only.foldl (fun s y =>
    if ((s.engine y.1).block y.2).worn then s.retireBlock y.1 y.2 2
    else s.modEngine y.1 (fun x => x.modBlock y.2 (fun k => { k with used := false }))) s

/-- The generation before the current one is released once no search in flight has fixed it: its blocks and its addenda are
freed, and what was removed loses its delete marks (R406, R410, R430). -/
def State.releasePrevious (s : State) : State :=
  let c := s.catalogue
  match c.previous with
  | none => s
  | some g =>
    if c.served.any (fun v => v.snapshot.gen == g.number) then s
    else
      ((s.freeBlocks g c.current).modCat (fun c => { c with
        previous := none, addenda := c.addenda.filter (fun a => decide (c.current.base ≤ a.pos))
        tombstones := c.tombstones.filter (fun t => !(c.removed.map (· % 2 ^ 34)).contains t)
        pendingDeletes := c.pendingDeletes.filter (fun d => !c.removed.contains d.1)
        unreadable := c.unreadable.filter (fun i => !c.removed.contains i), removed := [] })).tryReshelving

/-- A searcher's snapshot is given up (R411). -/
def State.dropServed (s : State) (member number : Nat) : State :=
  (s.modCat (fun c => { c with served := c.served.filter (fun v => !(v.member == member && v.number == number)) })).releasePrevious

/-- GENERATION_SWITCHED: the segments and the metadata of the new generation are on NAND and it becomes current (R429 to
R431). Nothing happens while a segment finds no room on its channel; while WRITE_MIB_S does not let its segments be written yet, the
loop is pinned (R425, R436). -/
def execGenerationSwitched (s : State) : Answer :=
  .next <|
    match s.catalogue.reshelving with
    | none => s
    | some r =>
      let c := s.catalogue
      let n := c.reshelve r
      let number := (c.current.number + 1) % 2 ^ 32
      let engines := (List.range 64).map s.engineFor
      let all := sortBy (fun a b => decide (a < b)) (n.touched ++ s.rewritten n.touched)
      let live := all.filter (fun seg => n.nodes.any (fun e => segmentOf e.1 == seg))
      let bytes := live.length * segmentPages * 16384
      let nodes := stampNodes all number n.nodes
      if !s.mayWrite r.since bytes then s.pinBound 0x10
      else
      match writeSegments nodes number (fun seg => engines.getD (seg / 4096) 0) live s with
      | none => s
      | some (written, s) =>
        let gone := c.addenda.filter (fun a => decide (c.current.base ≤ a.pos) && decide (a.pos < r.cut) && c.goneAt r a.id)
        let g : Generation := {
          number := number, base := r.cut, folded := r.deletes, counter := c.nextId, entries := n.entries, engines := engines
          segments := written.foldl (fun m e => amSet m e.1 e.2) (c.current.segments.filter (fun x => !all.contains x.1))
          nodes := nodes }
        let s := ((s.written r.since bytes).writeMetadata g).modCat (fun c => { c with
          previous := some c.current, current := g, shelved := g, reshelving := none, switches := satAdd 32 c.switches 1
          removed := n.removed ++ gone.map (·.id) })
        let s := s.event s.catalogue.eventQueue { code := 0x0502, subject := number, value := live.length }
        let res := number + n.added * 2 ^ 32 + n.removed.length * 2 ^ 64 + live.length * 2 ^ 96
        (r.jobs.foldl (fun s k => s.finish k (endWith [] 0 res)) s).releasePrevious

/-! ## INSERT and DELETE (R409, R410, R423, R426) -/

/-- A job ends at once, or, with DURABLE set, once what it has appended to the log is on NAND (R409). -/
def State.endLogged (s : State) (n : Nat) (durable : Bool) (e : Ending) : State :=
  if durable && decide (s.catalogue.logSafe < s.catalogue.logged) then
    s.modCat (fun c => { c with durable := c.durable ++ [(n, c.logged, e)] })
  else s.finish n e

/-- INSERT (0x0502): `buf` is what the read of the data buffer returns (R398, R408, R409, R423, R426). -/
def execInsert (job : Nat) (buf : BufRead) (s : State) : Answer :=
  .next <| s.beginRead job 0x0502 buf fun j b s =>
    let k := fld j.slip 32 1
    let n := fld j.slip 34 2
    let x := s.catalogue.coll k
    let w := x.elim 0 (·.vecBytes)
    let vs := (List.range n).map (fun i => ((b.drop (w * i)).take w, fldB b (w * n + 8 * i) 8))
    let dataBad : Bool := match x with
      | none => false
      | some y => dataLenOf j.slip ≠ up64 (n * (w + 8)) || vs.any (fun v => !(codeTable k y (y.elements v.1)).finite)
    let full : Bool := decide (addendaMax < s.catalogue.addenda.length + n)
    if decide (15 < k) || decide (1 < fld j.slip 33 1) || n = 0 || fld j.slip 36 28 ≠ 0 || (decide (n ≤ 4096) && dataBad) then
      s.finish j.num (refusal stMalformed)
    else if 4096 < n then s.finish j.num (refusal stTooLarge)
    else
      match x with
      | none => s.finish j.num (refusal stNotPermitted)
      | some y =>
        if k < 2 then s.finish j.num (refusal stNotPermitted)
        else if full then
          (s.report { family := 0x0503, subject := s.position, reason := 0 } (fun prev =>
            [.event s.catalogue.eventQueue { code := 0x0503, subject := s.position, value := sat 32 prev }])).finish j.num
              (refusal stNoResource 1)
        else
          match s.catalogue.idRun n with
          | none => s.finish j.num (refusal stNoResource 2)
          | some first =>
            ((s.insertAll k y first vs).tryReshelving).endLogged j.num ((fld j.slip 33 1).testBit 0)
              (endWith [] 0 (s.position * 2 ^ 37 + first + n * 2 ^ 64))

/-- A DELETE taken on: it ends once every identifier is entered or counted, and every other member has answered (R410,
R423). -/
def State.runDelete (s : State) (d : WaitingDelete) : State :=
  let r := takeDeletes d.ids.length d s
  let d := r.1
  let s := r.2
  if !d.ids.isEmpty || !d.remote.isEmpty then s.modCat (fun c => { c with deleteWaiting := c.deleteWaiting ++ [d] })
  else
    match d.job, d.asker with
    | some n, _ => s.endLogged n d.durable (endWith [] 0 (d.fresh + d.already * 2 ^ 32 + d.never * 2 ^ 64))
    | none, some m =>
      if d.fresh = 1 && d.durable && decide (s.catalogue.logSafe < s.catalogue.logged) then
        s.modCat (fun c => { c with durableAsked := c.durableAsked ++ [(c.logged, m, d.asked)] })
      else s.control m 0x51 [d.asked, if d.fresh = 1 then 0 else if d.already = 1 then 1 else 2]
    | none, none => s

/-- DELETE (0x0503): `buf` is what the read of the data buffer returns (R410, R423, R426). -/
def execDelete (job : Nat) (buf : BufRead) (s : State) : Answer :=
  .next <| s.beginRead job 0x0503 buf fun j b s =>
    let n := fld j.slip 34 2
    let ids := (List.range n).map (fun i => fldB b (8 * i) 8)
    if fld j.slip 32 1 ≠ 0 || decide (1 < fld j.slip 33 1) || n = 0 || fld j.slip 36 28 ≠ 0 ||
        (decide (n ≤ 4096) && (dataLenOf j.slip ≠ up64 (8 * n) || ids.any (fun i => decide (2 ^ 40 ≤ i)))) then
      s.finish j.num (refusal stMalformed)
    else if 4096 < n then s.finish j.num (refusal stTooLarge)
    else s.runDelete {
      job := some j.num, ids := ids, durable := (fld j.slip 33 1).testBit 0, fresh := 0, already := 0, never := 0 }

/-- Deletes that wait for the pending list go on, in order (R410). -/
def State.pushDeletes (s : State) : State :=
  let ds := s.catalogue.deleteWaiting
  ds.foldl (fun s d => s.runDelete d) (s.modCat (fun c => { c with deleteWaiting := [] }))

/-- DELETE_FOLD: the oldest pending delete is folded into the tombstone bitmap, once no search in flight has fixed a lower
delete count (R410). -/
def execDeleteFold (s : State) : Answer :=
  .next <|
    match s.catalogue.pendingDeletes with
    | [] => s
    | (id, x) :: rest =>
      if s.catalogue.served.any (fun v => decide (v.snapshot.deletes < x)) then s
      else
        (s.modCat (fun c => { c with
          pendingDeletes := rest
          reshelving := c.reshelving.map (fun r => if r.deletes < x then { r with later := r.later ++ [id % 2 ^ 34] } else r)
          tombstones := if c.tombstones.contains (id % 2 ^ 34) then c.tombstones else c.tombstones ++ [id % 2 ^ 34] })).pushDeletes

/-! ## Collections, policy, report (R424 to R427) -/

/-- Whether a member holds no vector of a collection in any held generation or the addenda (R424). -/
def Catalogue.holdsNone (c : Catalogue) (k : Nat) : Bool :=
  !(c.current.nodes ++ c.previous.elim [] (·.nodes)).any (fun e => e.2.coll == k) && !c.addenda.any (fun a => a.coll == k)

/-- A definition taken by this member. -/
def State.define (s : State) (k : Nat) (x : Collection) : State :=
  s.modCat (fun c => { c with collections := amSet c.collections k x })

/-- A definition sent to a member: its codebook as BULK data of the Catalogue's, then a CONTROL message (R461; log 14). -/
def State.sendDefinition (s : State) (m job k : Nat) (x : Collection) : State :=
  let b := x.book.getD []
  let s := (List.range (b.length / 4096)).foldl (fun s i => s.sendLink {
    kind := 8, channel := 2, source := s.position, dest := m, address := 0x14 * 2 ^ 32 + 4096 * i
    words := (List.range 128).map (fun w => (b.drop (4096 * i + 32 * w)).take 32) }) s
  s.control m 0x66 [job, k, flag x.half, x.dim]

/-- A member's answer on a definition: whether it may be made, or that it is made (R424). -/
def State.definitionAnswer (s : State) (job member : Nat) (ok : Bool) : State :=
  match s.catalogue.defining.find? (fun d => d.job == job) with
  | none => s
  | some d =>
    let d := { d with waiting := d.waiting.filter (· ≠ member), refused := d.refused || !ok }
    let rest := s.catalogue.defining.filter (fun e => e.job ≠ job)
    if !d.waiting.isEmpty then s.modCat (fun c => { c with defining := rest ++ [d] })
    else if d.refused then (s.modCat (fun c => { c with defining := rest })).finish job (refusal stNotPermitted)
    else if d.asking && !s.others.isEmpty then
      s.others.foldl (fun s m => s.sendDefinition m job d.coll d.value)
        ((s.define d.coll d.value).modCat (fun c => { c with defining := rest ++ [{ d with asking := false, waiting := s.others }] }))
    else ((s.define d.coll d.value).modCat (fun c => { c with defining := rest })).finish job (endWith [])

/-- SET_COLLECTION (0x0505): `buf` is what the read of the data buffer returns (R424, R426). -/
def execSetCollection (job : Nat) (buf : BufRead) (s : State) : Answer :=
  .next <| s.beginRead job 0x0505 buf fun j b s =>
    let k := fld j.slip 32 1
    let dim := fld j.slip 34 2
    if decide (15 < k) || decide (1 < fld j.slip 33 1) || dim % 64 ≠ 0 || decide (dim < 64) || decide (1024 < dim) ||
        fld j.slip 36 28 ≠ 0 || dataLenOf j.slip ≠ 1024 * dim ||
        (List.range (256 * dim)).any (fun i => !f32finite (f32At b (4 * i))) then s.finish j.num (refusal stMalformed)
    else if decide (k < 2) || !s.catalogue.holdsNone k then s.finish j.num (refusal stNotPermitted)
    else
      let x : Collection := { half := fld j.slip 33 1 = 1, dim := dim, book := some b }
      if s.others.isEmpty then (s.define k x).finish j.num (endWith [])
      else
        (s.modCat (fun c => { c with defining := c.defining ++ [{ job := j.num, coll := k, value := x, waiting := s.others }] })).controlAll
          0x64 [j.num, k]
where
  /-- an fp32 value in a byte run -/
  f32At (b : Bytes) (o : Nat) : F32 := BitVec.ofNat 32 (fldB b o 4)

/-- The least spare share of any channel with NAND (R427). -/
def State.spareMin (s : State) : Nat :=
  minOf 0 ((List.range 64).filterMap (fun e => if (s.engine e).total = 0 then none else some (s.engine e).spare))

/-- QUERY_CATALOGUE (0x0506) (R427). -/
def execQueryCatalogue (job : Nat) (s : State) : Answer :=
  .next <| s.begin job 0x0506 fun j s =>
    if fld j.slip 32 32 ≠ 0 then s.finish j.num (refusal stMalformed)
    else if dataLenOf j.slip < 128 then s.finish j.num (refusalNotStarted stTooLarge)
    else
      let c := s.catalogue
      s.finish j.num (endWith [] 0 0 [(0, packB 128 [(0, 4, c.current.number), (4, 1, flag c.reshelving.isSome),
        (8, 8, c.current.nodes.length), (16, 8, c.current.base), (24, 8, c.addEnd), (32, 8, c.deletes),
        (40, 4, c.pendingDeletes.length), (44, 4, sat 32 c.lostRecords), (48, 8, c.nextId), (56, 8, c.ended), (64, 4, sat 32 c.short),
        (68, 4, sat 32 c.widened), (72, 4, sat 32 c.readFailed), (76, 4, sat 32 c.switches), (80, 4, sat 32 c.blocksRetired),
        (84, 1, s.spareMin)])])

/-- SET_SHELF_POLICY (0x0507) (R425, R426). -/
def execSetShelfPolicy (job : Nat) (s : State) : Answer :=
  .next <| s.begin job 0x0507 fun j s =>
    let w := fld j.slip 32 2
    let r := fld j.slip 34 1
    let p := fld j.slip 35 1
    let q := fld j.slip 36 4
    if decide (w < 100) || decide (60000 < w) || decide (r < 10) || decide (95 < r) || decide (p < 2) || decide (20 < p) ||
        !s.eventQueueOk q || fld j.slip 40 24 ≠ 0 || dataLenOf j.slip ≠ 0 then s.finish j.num (refusal stMalformed)
    else
      (((s.modCat (fun c => { c with writeMib := w, reshelveAt := r, sparePct := p, eventQueue := q })).judgeSpare).tryReshelving).finish
        j.num (endWith [])

end Sys2Proof.Machine
end

