-- ==== Sys2Proof/Machine/Search.lean ====
section
/-! DEFINITION. Searches over the room: their start, a member's round, the merge, the results (R411 to R422). -/
namespace Sys2Proof.Machine

/-! ## Start (R414, R420, R421, R426) -/

/-- The parameters of a search with defaults filled in (R420). -/
def searchParams (j : Slip) : SearchParams :=
  let k := fld j 34 2
  let or_ (v d : Nat) : Nat := if v = 0 then d else v
  let list := or_ (fld j 36 2) (max k 128)
  { coll := fld j 32 1, widen := (fld j 33 1).testBit 0, invert := (fld j 33 1).testBit 1, localOnly := (fld j 33 1).testBit 2
    k := k, list := list, limit := or_ (fld j 38 2) 4096, mask := fld j 40 8, value := fld j 48 8
    expand := or_ (fld j 56 2) (min (2 * list) 65535) }

/-- Whether fields of a SEARCH break R420 otherwise than by being too large. -/
def searchBad (j : Slip) : Bool :=
  let p := searchParams j
  decide (15 < p.coll) || decide (7 < fld j 33 1) || p.k = 0 || decide (p.list < p.k) || decide (p.limit < p.list) ||
    decide (p.expand < p.list) || fld j 58 6 ≠ 0

/-- Whether a SEARCH names more than R426 allows. -/
def searchLarge (j : Slip) : Bool :=
  let p := searchParams j
  decide (1024 < p.k) || decide (4096 < p.list) || decide (4096 < p.limit)

/-- A round asked of another member: the vector as BULK data, then its parameters (R414; log 14). -/
def State.askRound (s : State) (m number : Nat) (x : Search) : State :=
  let v := takePad (up64 x.vector.length) x.vector
  let s := s.sendLink {
    kind := 8, channel := 2, source := s.position, dest := m, address := 0x14 * 2 ^ 32 + 2 ^ 31
    words := (List.range (v.length / 32)).map (fun i => (v.drop (32 * i)).take 32) }
  s.control m 0x40 [number, x.params.coll, x.params.k, x.list, x.expand, x.params.mask, x.params.value, flag x.params.invert]

/-- A round begun: every member that takes part is waited for (R414, R415). -/
def State.askAll (s : State) (number : Nat) (x : Search) : State :=
  (x.waiting.filter (· ≠ s.position)).foldl (fun s m => s.askRound m number x) s

/-- A search begun on this member (R411, R414): its snapshot here is fixed at once while fewer than 1,024 searches run. -/
def State.startSearch (s : State) (o : SearchOwner) (p : SearchParams) (vector : Bytes) : Nat × State :=
  let n := s.catalogue.nextSearch
  let x : Search := {
    owner := o, params := p, vector := vector, list := p.list, expand := p.expand
    waiting := if p.localOnly then [s.position] else s.present }
  let own : List Served := if s.catalogue.served.length < 1024 then [{ member := s.position, number := n, snapshot := s.snapshot }] else []
  let s := s.modCat (fun c => { c with
    searches := amSet c.searches n x, nextSearch := n + 1, served := c.served ++ own })
  (n, s.askAll n x)

/-- SEARCH (0x0501): `buf` is what the read of the data buffer returns (R414, R419 to R421, R426). -/
def execSearch (job : Nat) (buf : BufRead) (s : State) : Answer :=
  .next <| s.beginRead job 0x0501 buf fun j b s =>
    let p := searchParams j.slip
    let x := s.catalogue.coll p.coll
    let w := x.elim 0 (·.vecBytes)
    let large := searchLarge j.slip
    let dataBad : Bool := match x with
      | none => false
      | some y => dataLenOf j.slip ≠ up64 (w + 256 + 16 * p.k) || !(codeTable p.coll y (y.elements (b.take w))).finite
    if searchBad j.slip || (!large && dataBad) then s.finish j.num (refusal stMalformed)
    else if large then s.finish j.num (refusal stTooLarge)
    else if x.isNone then s.finish j.num (refusal stNotPermitted)
    else (s.startSearch (.job j.num) p (b.take w)).2

/-! ## A member's round (R411 to R413) -/

/-- The snapshot of a search on this member. -/
def State.servedOf (s : State) (member number : Nat) : Option Served :=
  s.catalogue.served.find? (fun v => v.member == member && v.number == number)

/-- The snapshot that a search has on this member, fixed now if it has none; none while 1,024 searches run (R411, R426). -/
def State.fixSnapshot (s : State) (member number : Nat) : Option (Snapshot × State) :=
  match s.servedOf member number with
  | some v => some (v.snapshot, s)
  | none =>
    if 1024 ≤ s.catalogue.served.length then none
    else some (s.snapshot, s.modCat (fun c => { c with
      served := c.served ++ [{ member := member, number := number, snapshot := s.snapshot }] }))

/-- A result kept until it is merged. -/
def State.keepResult (s : State) (number : Nat) (r : MemberResult) : State :=
  s.modCat (fun c => { c with
    served := mapIf (fun v => v.member == s.position && v.number == number) (fun v => { v with result := some r }) c.served })

/-- A survivor as 16 bytes (R421). -/
def hitBytes (h : SearchHit) : Bytes := le 5 h.id ++ le 1 (flag h.addenda) ++ le 2 h.dist ++ le 8 h.attr

/-- SEARCH_REQUEST: a round of search `number` of member `issuer` reaches this member, whose snapshot is fixed and whose
graphs are walked, the shelf engines reading as R417 says; `remote` is the round as another member sends it (R411 to R414). -/
def execSearchRequest (issuer number : Nat) (remote : Option RemoteSearch) (s : State) : Answer :=
  .next <|
    if issuer = s.position then
      match amGet s.catalogue.searches number with
      | none => s
      | some x =>
        if !x.waiting.contains issuer || ((s.servedOf issuer number).bind (·.result)).isSome then s
        else
          match s.fixSnapshot issuer number with
          | none => s
          | some (snap, s) =>
            let r := s.memberRound (issuer, number) x.params x.vector snap x.list x.expand (x.expand, x.expand)
            r.2.keepResult number r.1
    else
      match remote with
      | none => s
      | some q =>
        if !s.present.contains issuer || (s.catalogue.coll q.coll).isNone then s
        else
          match s.fixSnapshot issuer number with
          | none => s
          | some (snap, s) =>
            let p : SearchParams := {
              coll := q.coll, widen := false, invert := q.invert, localOnly := true, k := q.k, list := q.list, limit := q.list
              mask := q.mask, value := q.value, expand := q.expand }
            let w := s.memberRound (issuer, number) p q.vector snap q.list q.expand (q.expand, q.expand)
            let r := w.1
            let d := r.hits.flatMap hitBytes
            (w.2.sendLink {
              kind := 8, channel := 2, source := s.position, dest := issuer, address := 0x14 * 2 ^ 32 + 3 * 2 ^ 30
              words := (List.range ((d.length + 31) / 32)).map (fun i => takePad 32 ((d.drop (32 * i)).take 32)) }).control issuer 0x41
                [number, snap.gen, snap.addEnd, snap.deletes, r.hits.length, r.expansions, r.deleted, r.filtered, r.flags]

/-! ## The merge and the end (R413 to R415, R418, R421, R422) -/

/-- The survivors of all members in (d, id) order. -/
def Search.merged (x : Search) : List SearchHit :=
  sortBy (fun a b => decide (a.dist < b.dist) || (a.dist == b.dist && decide (a.id < b.id))) (x.results.flatMap (·.hits))

/-- How a search ended: its records, its detail flags, RESULT, and the header's snapshots. -/
structure SearchEnd where
  found : List SearchHit
  code : List Nat
  flags : Nat
  result : Nat
  header : Bytes

/-- The end of a search with what is merged (R415, R418, R421, R422). -/
def State.endOf (s : State) (x : Search) (late : Bool) : SearchEnd :=
  let found := x.merged.take x.params.k
  let sum (f : MemberResult → Nat) : Nat := sat 32 (x.results.foldl (fun a r => a + f r) 0)
  let c := (s.catalogue.coll x.params.coll).getD { half := false, dim := 0, book := none }
  let t := codeTable x.params.coll c (c.elements x.vector)
  let snap (m : Nat) : Bytes := match x.results.find? (fun r => r.member == m) with
    | none => zeros 24
    | some r => le 4 r.snapshot.gen ++ zeros 4 ++ le 8 r.snapshot.addEnd ++ le 8 r.snapshot.deletes
  { found := found
    code := if late then [stPartialDeadline] else if found.length < x.params.k then [stShortResult] else []
    flags := x.flags + flag x.widened
    result := found.length + x.list * 2 ^ 16 + sum (·.expansions) * 2 ^ 32 + sum (·.deleted) * 2 ^ 64 + sum (·.filtered) * 2 ^ 96
    header := le 2 found.length ++ le 2 x.list ++ le 4 t.base.toNat ++ le 4 t.delta.toNat ++ zeros 52 ++ (List.range 8).flatMap snap }

/-- A search leaves: its snapshots are given up here and at the other members, and it is counted (R411, R427). -/
def State.leaveSearch (s : State) (number : Nat) (x : Search) (e : SearchEnd) : State :=
  let s := s.modCat (fun c => { c with
    searches := amDel c.searches number, ended := satAdd 64 c.ended 1
    short := if e.code.contains stShortResult then satAdd 32 c.short 1 else c.short
    widened := if x.widened then satAdd 32 c.widened 1 else c.widened })
  let s := if x.params.localOnly then s else s.controlAll 0x42 [number]
  s.dropServed s.position number

/-- A SEARCH job ends with its records (R421, R422). -/
def State.endSearchJob (s : State) (n : Nat) (x : Search) (e : SearchEnd) : State :=
  let body := e.header ++ takePad (16 * x.params.k) (e.found.flatMap hitBytes)
  s.finish n (endWith e.code e.flags e.result [(x.vector.length, body)])

/-- A member's answer to the round taken into a search. -/
def Search.take_ (x : Search) (r : MemberResult) : Search :=
  { x with waiting := x.waiting.filter (· ≠ r.member), results := x.results ++ [r], flags := x.flags ||| r.flags }

/-- Whether a search that every member has answered is to widen (R415). -/
def Search.widens (x : Search) : Bool :=
  decide (x.merged.length < x.params.k) && x.params.widen && decide (x.list < x.params.limit)

/-- The next round of a search on the same snapshots (R415). -/
def Search.next (x : Search) (members : List Nat) : Search :=
  { x with
    list := min (2 * x.list) x.params.limit, expand := min (2 * x.expand) 65535, widened := true, waiting := members, results := [] }

/-- A search that every member has answered: a wider round, or its end (R414, R415). -/
def State.judgeSearch (s : State) (number : Nat) (x : Search) : State × Option SearchEnd :=
  if !x.waiting.isEmpty then (s.modCat (fun c => { c with searches := amSet c.searches number x }), none)
  else if x.widens then
    let y := x.next ((x.results.map (·.member)).filter s.present.contains)
    let s := s.modCat (fun c => { c with
      searches := amSet c.searches number y
      served := mapIf (fun v => v.member == s.position && v.number == number) (fun v => { v with result := none }) c.served })
    (s.askAll number y, none)
  else
    let e := s.endOf x false
    (s.leaveSearch number x e, some e)

/-- What a member has answered: this member's kept result, or what another sends. -/
def State.resultOf (s : State) (number member : Nat) (remote : Option RemoteResult) : Option MemberResult :=
  if member = s.position then (s.servedOf member number).bind (·.result)
  else
    remote.map (fun r => {
      member := member, snapshot := { gen := r.gen, addEnd := r.addEnd, deletes := r.deletes }, hits := r.hits
      expansions := r.expansions, deleted := r.deleted, filtered := r.filtered, flags := r.flags % 16 / 2 * 2 })

/-- Whether a search has a member take part in its round: it waits for it, or holds its answer. -/
def Search.asks (x : Search) (member : Nat) : Bool := x.waiting.contains member || x.results.any (fun r => r.member == member)

/-- A member that has left contributes nothing to the searches in flight, which carry MEMBER_MISSING (R414). -/
def Search.without (x : Search) (member : Nat) : Search :=
  if x.asks member then
    { x with waiting := x.waiting.filter (· ≠ member), results := x.results.filter (fun r => r.member ≠ member), flags := x.flags ||| 16 }
  else x

/-- A search cut short by its deadline: this member's lists as they stand after `own` expansions of its generation and its
addenda graph, and what has come from the others (R418). -/
def State.cutSearch (s : State) (number : Nat) (x : Search) (own : Nat × Nat) : State × Search :=
  if !x.waiting.contains s.position then (s, x)
  else
    match ((s.servedOf s.position number).bind (·.result)) with
    | some r => (s, x.take_ r)
    | none =>
      match s.fixSnapshot s.position number with
      | none => (s, x)
      | some (snap, s) =>
        let r := s.memberRound (s.position, number) x.params x.vector snap x.list x.expand own
        (r.2, x.take_ r.1)

end Sys2Proof.Machine
end

