-- ==== Sys2Proof/Machine/SessionOps.lean ====
section
/-! DEFINITION. The session filter, sheet selection, re-basing, the small solves of a query, descriptors and parts
(R298, R300 to R311, R345, R346, R392). -/
namespace Sys2Proof.Machine

/-! ## Matrices of the filter (R308) -/

/-- The identity. -/
def matEye (n : Nat) : Mat := matOf n n (fun i j => if i = j then f64one else 0)

/-- (M X) Mᵀ of an n × k matrix M, its upper triangle computed and mirrored. -/
def sand (n k : Nat) (m x : Mat) : Mat := matMirror n (matMul k n n (matMul k n k m x) (matT n k m))

/-- A symmetric matrix from its upper triangle, row by row (R68). -/
def fullOf (n : Nat) (c : List F64) : Mat := matOf n n (fun i j => c.getD (covIndex n (min i j) (max i j)) 0)

/-- The upper triangle of the leading n × n block, row by row (R68). -/
def triOf (n : Nat) (m : Mat) : List F64 := (List.range n).flatMap (fun i => (List.range (n - i)).map (fun k => m.at_ i (i + k)))

/-- [d]× as a matrix of the filter (R308). -/
def crossMat (d : Vec3) : Mat := let r := crossRows d; [r.1.list, r.2.1.list, r.2.2.list]

/-- A 12 × 12 matrix with a 3 × 3 block at (r, c) added to the identity's entries. -/
def eyeWith (r c : Nat) (b : Mat) : Mat :=
  matOf 12 12 (fun i j =>
    if r ≤ i && i < r + 3 && c ≤ j && j < c + 3 then b.at_ (i - r) (j - c) else if i = j then f64one else 0)

/-- Entries of a symmetric matrix changed. -/
def matMap (n : Nat) (a : Mat) (f : Nat → Nat → F64 → F64) : Mat := matOf n n (fun i j => f i j (a.at_ i j))

/-! ## Prediction (R308) -/

/-- Odometry of a query (R300): translation, rotation vector, the two deviations. -/
structure Odometry where
  t : Vec3
  r : Vec3
  sigmaT : F64
  sigmaR : F64

/-- The pose of a filter. -/
def Filter.pose (f : Filter) : Pose := { t := f.p, q := f.q }

/-- The filter set from a pose and its covariance (R310). -/
def seedFilter (x : Pose) (cov : List F64) (t : Nat) : Filter :=
  let c := fullOf 6 cov
  { p := x.t, q := x.q, v := Vec3.zero, w := Vec3.zero, t := t
    cov := matOf 12 12 (fun i j => if i < 6 && j < 6 then c.at_ i j else if i = j then f64one else 0) }

/-- Time from T to a capture time in seconds (R308). -/
def filterStep (f : Filter) (t : Nat) : F64 := f64mul (f64ofInt (toInt 64 ((t + 2 ^ 64 - f.t % 2 ^ 64) % 2 ^ 64))) (f64dec 1 9)

/-- v and ω set to zero and their blocks to I3, as after more than 5 s (R308). -/
def Filter.rested (f : Filter) : Filter :=
  { f with
    v := Vec3.zero, w := Vec3.zero
    cov := matMap 12 f.cov (fun i j x => if i < 6 && j < 6 then x else if i = j then f64one else 0) }

/-- The prediction with odometry (R308). -/
def Filter.moveBy (f : Filter) (o : Odometry) : Filter :=
  let d := f.q.rotate o.t
  let n := matMap 3 (crossMat d) (fun _ _ x => f64neg x)
  let c := sand 12 12 (eyeWith 0 3 n) f.cov
  let t2 := f64mul o.sigmaT o.sigmaT
  let r2 := f64mul o.sigmaR o.sigmaR
  { f with
    p := f.p.add d, q := (f.q.mul (qexp o.r)).canon
    cov := matMap 12 c (fun i j x => if i ≠ j || 6 ≤ i then x else if i < 3 then f64add x t2 else f64add x r2) }

/-- The prediction at constant rates over dt, with sa2 and sw2 (R308). -/
def Filter.drift (f : Filter) (dt sa2 sw2 : F64) : Filter :=
  let step (p v : F64) : F64 := f64fma v dt p
  let c := sand 12 12 (matOf 12 12 (fun i j => if i = j then f64one else if i < 6 && j = i + 6 then dt else 0)) f.cov
  let s (a : Nat) : F64 := if a < 3 then sa2 else sw2
  let add (i j : Nat) (x : F64) : F64 :=
    if i < 6 && i = j then f64add x (f64div (f64mul (f64mul (f64mul (s i) dt) dt) dt) (f64ofInt 3))
    else if i < 6 && j = i + 6 then f64add x (f64div (f64mul (f64mul (s i) dt) dt) (f64ofInt 2))
    else if 6 ≤ i && i = j then f64add x (f64mul (s (i - 6)) dt)
    else x
  { f with
    p := { x := step f.p.x f.v.x, y := step f.p.y f.v.y, z := step f.p.z f.v.z }
    q := ((qexp { x := f64mul f.w.x dt, y := f64mul f.w.y dt, z := f64mul f.w.z dt }).mul f.q).canon
    cov := matMirror 12 (matMap 12 c add) }

/-- The prediction to a capture time (R308). -/
def Filter.predict (f : Filter) (t : Nat) (sa2 sw2 : F64) (o : Option Odometry) : Filter :=
  let dt := filterStep f t
  let f := if f64lt (f64ofInt 5) dt then f.rested else f
  let f := match o with
    | some o => f.moveBy o
    | none => f.drift dt sa2 sw2
  { f with t := t }

/-! ## Update (R309) -/

/-- Every value of a filter is finite. -/
def Filter.finite (f : Filter) : Bool :=
  (f.p.list ++ [f.q.w, f.q.x, f.q.y, f.q.z] ++ f.v.list ++ f.w.list).all f64finite && f.cov.all (fun r => r.all f64finite)

/-- The update with a solved pose and its covariance; none for a miss (R309). -/
def Filter.update (f : Filter) (z : Pose) (sz : Mat) (gate : F64) : Option Filter :=
  let y := (z.t.sub f.p).list ++ (qlog ((z.q.mul f.q.conj).canon)).list
  match chol 6 (matAdd 6 6 f.cov sz) with
  | none => none
  | some u =>
    let d2 := fmaSum (y.zip (cholSolve 6 u y))
    if !f64finite d2 || f64lt gate d2 then none
    else
      let k : Mat := (List.range 12).map (fun r => cholSolve 6 u ((f.cov.getD r []).take 6))
      let dx := k.map (fun row => fmaSum (row.zip y))
      let h : Mat := matOf 6 12 (fun i j => if i = j then f64one else 0)
      let kh := matMul 6 12 12 k h
      let a := matOf 12 12 (fun i j => f64sub (if i = j then f64one else 0) (kh.at_ i j))
      let g : Filter := {
        p := f.p.add (vecAt dx 0), q := ((qexp (vecAt dx 3)).mul f.q).canon, v := f.v.add (vecAt dx 6)
        w := f.w.add (vecAt dx 9), t := f.t, cov := matAdd 12 12 (sand 12 12 a f.cov) (sand 12 6 k sz) }
      if g.finite && k.all (fun r => r.all f64finite) then some g else none

/-! ## Re-basing (R346) -/

/-- A filter re-based by an anchor's base pose and edit pose. -/
def Filter.rebase (f : Filter) (a : Anchor) : Filter :=
  let qT := (a.base.q.mul a.edit.q.conj).canon
  let tT := a.base.t.sub (qT.rotate a.edit.t)
  let r := qT.rows
  let rows : Mat := [r.1.list, r.2.1.list, r.2.2.list]
  let g := matOf 12 12 (fun i j => if i / 3 = j / 3 then rows.at_ (i % 3) (j % 3) else 0)
  { f with
    p := (qT.rotate f.p).add tT, q := (qT.mul f.q).canon, v := qT.rotate f.v, w := qT.rotate f.w, cov := sand 12 12 g f.cov }

/-- The sheet that holds a position in metres. -/
def sheetAt (p : Vec3) : Option Nat :=
  match mapUnits p.x, mapUnits p.y with
  | some x, some y => sheetOf x y
  | _, _ => none

/-- A filter re-based by an edit: the identity where its table has expired or has no anchor for the sheet (R346). -/
def State.rebaseBy (s : State) (f : Filter) (n : Nat) : Filter :=
  match s.edit n, sheetAt f.p with
  | some e, some k => (match e.rebase.find? (fun a => a.sheet == k) with | some a => f.rebase a | none => f)
  | _, _ => f

/-! ## Sheets of a query (R306) -/

/-- fmax and fmin: the other operand where one is no number. -/
def fmax_ (a b : F64) : F64 := if f64isNan a then b else if f64isNan b then a else f64max a b
def fmin_ (a b : F64) : F64 := if f64isNan a then b else if f64isNan b then a else f64min a b

/-- The selected sheets: at most 16 by least key, then by sheet number (R306). -/
def State.selectSheets (s : State) (f : Filter) : List Nat :=
  let sigma := f64sqrt (fmax_ (f.cov.at_ 0 0) (f.cov.at_ 1 1))
  let r := fmin_ (f64ofInt 48) (f64fma (f64ofInt 3) sigma (f64ofInt 8))
  let found := (s.map.flash.sheets.map (·.1)).filterMap (fun n =>
    let x0 := f64ofInt (32 * sheetX n)
    let y0 := f64ofInt (32 * sheetY n)
    let side (a p : F64) : F64 := fmax_ (fmax_ (f64sub a p) (f64sub p (f64add a (f64ofInt 32)))) 0
    let dx := side x0 f.p.x
    let dy := side y0 f.p.y
    if f64le (f64fma dx dx (f64mul dy dy)) (f64mul r r) then
      let ex := f64sub (f64add x0 (f64ofInt 16)) f.p.x
      let ey := f64sub (f64add y0 (f64ofInt 16)) f.p.y
      some (f64fma ex ex (f64mul ey ey), n)
    else none)
  ((sortBy (fun (a b : F64 × Nat) => f64lt a.1 b.1 || (f64eq a.1 b.1 && decide (a.2 < b.2))) found).take 16).map (·.2)

/-! ## Parts and items (R300, R301) -/

/-- Size of an item of a kind (R301). -/
def itemBytes (kind : Nat) : Nat := if kind = 0 then 136 else if kind = 2 then 20 else 1

/-- Items of one part: their bytes in turn. -/
def QueryPartIn.items (p : QueryPartIn) (kind : Nat) : List Bytes :=
  let o := if p.part = 0 then 64 else 32
  let n := itemBytes kind
  (List.range (fldB p.body 26 2)).map (fun i => (p.body.drop (o + n * i)).take n)

/-- The parts of a query in order. -/
def Query.ordered (q : Query) : List QueryPartIn := sortBy (fun a b => decide (a.part < b.part)) q.got

/-- Items of a query over its parts. -/
def Query.items (q : Query) : List Bytes := q.ordered.flatMap (fun p => p.items q.kind)

/-- How many items a query has. -/
def Query.total (q : Query) : Nat := q.got.foldl (fun a p => a + fldB p.body 26 2) 0

/-- The keypoints of a features query. -/
def Query.keypoints (q : Query) : List Keypoint :=
  if q.kind ≠ 0 then []
  else q.items.map (fun b => { u := f32At b 0, v := f32At b 4, desc := (b.drop 8).take 128 })

/-- Ranges of a range query: anchor, range, deviation. -/
def Query.ranges (q : Query) : List (MapPos × F32 × F32) :=
  if q.kind ≠ 2 then [] else q.items.map (fun b => (mapPosAt b 0, f32At b 12, f32At b 16))

/-- The preamble of a query's part 0. -/
def Query.preamble (q : Query) : Bytes := match q.got.find? (fun p => p.part == 0) with
  | some p => (p.body.drop 32).take 32
  | none => []

/-- The odometry of a query that carries it (R300). -/
def Query.odometry (q : Query) : Option Odometry :=
  if !q.flags.testBit 0 then none
  else
    let b := q.preamble
    let g (i : Nat) : F64 := f32ToF64 (f32At b (4 * i))
    some { t := { x := g 0, y := g 1, z := g 2 }, r := { x := g 3, y := g 4, z := g 5 }, sigmaT := g 6, sigmaR := g 7 }

/-- Units of a query (R318). -/
def Query.units (q : Query) : Nat :=
  if q.kind = 0 then (q.total + 511) / 512
  else if q.kind = 2 then 1
  else if q.width * q.height ≤ 921600 then 200 else 450

/-- A value above 0 and finite. -/
def f32positive (v : F32) : Bool := f32finite v && f32lt 0 v

/-- Every coordinate, range and deviation of a query is in range (R322, 0x08). -/
def Query.finite (q : Query) : Bool :=
  q.keypoints.all (fun k => f32finite k.u && f32finite k.v) &&
    q.ranges.all (fun r => f32positive r.2.1 && f32positive r.2.2) &&
    (!q.flags.testBit 0 || (List.range 8).all (fun i => f32finite (f32At q.preamble (4 * i))))

/-- The total of items of a query lies in the range of its kind (R301). -/
def Query.totalOk (q : Query) : Bool :=
  let n := q.total
  if q.kind = 0 then decide (8 ≤ n) && decide (n ≤ 2048)
  else if q.kind = 2 then decide (4 ≤ n) && decide (n ≤ 64) && q.parts = 1
  else n = q.width * q.height && q.got.all (fun p => p.part + 1 = q.parts || fldB p.body 26 2 = 8832)

/-! ## Descriptors (R298, R569) -/

/-- A session descriptor's fields; `key` is the key as used. -/
def sessionDescOf (b : Bytes) (key : Bytes) : SessionDesc :=
  let p := poseAt b 64
  { raw := b, host := fldB b 1 1 = 1, read := fldB b 2 1, kinds := fldB b 3 1, port := fldB b 4 1, udpPort := fldB b 6 2
    bindQueue := fldB b 8 4, eventQueue := fldB b 12 4, rate := fldB b 16 4, units := fldB b 20 2, burst := fldB b 22 1
    missLimit := fldB b 23 1, minInliers := fldB b 24 2, relocK := fldB b 26 2, idle := fldB b 28 4, pin := fldB b 32 8
    gate := f32At b 40, accel := f32At b 44, angacc := f32At b 48, relocMs := fldB b 52 2, assemblyMs := fldB b 54 2
    body := { p with q := p.q.canon }
    camera := {
      model := fldB b 120 1, width := fldB b 122 2, height := fldB b 124 2
      params := (List.range 8).map (fun i => f64At b (128 + 8 * i)) }
    key := key }

/-- Every field of a session descriptor in range (R296, R298, R569). -/
def State.sessionDescOk (s : State) (b : Bytes) : Bool :=
  let d := sessionDescOf b []
  let between (lo hi n : Nat) : Bool := decide (lo ≤ n) && decide (n ≤ hi)
  let home := fldB b 0 1
  let zero (o n : Nat) : Bool := allZero ((b.drop o).take n)
  (between 0 7 home || home = 0xFF) && decide (fldB b 1 1 ≤ 1) && decide (d.read ≤ 2) && between 1 7 d.kinds &&
    decide (fldB b 5 1 ≤ 1) && between 100 120000 d.rate && between 1 450 d.units && between 1 64 d.burst &&
    decide (1 ≤ d.missLimit) && between 6 1024 d.minInliers && between 1 100 d.relocK && decide (d.idle ≤ 86400) &&
    f32positive d.gate && f32positive d.accel && f32positive d.angacc && decide (d.relocMs ≤ 10000) &&
    between 1 1000 d.assemblyMs && zero 56 8 && (poseAt b 64).ok && zero 121 1 && zero 126 2 && zero 224 32 &&
    cameraOk d.camera.model d.camera.width d.camera.height d.camera.params &&
    (!d.kinds.testBit 1 || decide (d.camera.width * d.camera.height ≤ 1920 * 1080)) && s.eventQueueOk d.eventQueue &&
    (if d.host then d.port = 0 && d.udpPort = 0 && zero 192 32
     else d.bindQueue = 0 && d.udpPort ≠ 319 && d.udpPort ≠ 320 && (decide (d.port ≤ 127) || d.port = 0xFF) &&
       ((fldB b 5 1).testBit 0 || !zero 192 32))

/-- 32 bytes of a KMAC256 output of 256 bits, and 16 of one of 128 bits. -/
def kmac32 (k x : Bytes) (name : String) : Bytes := le 32 (Config.kmac256 k x 256 name)
def kmac16 (k x : Bytes) (name : String) : Bytes := le 16 (Config.kmac256 k x 128 name)

/-! ## The small solves of a query (R306, R307, R391, R392) -/

/-- What a query's solve gives: the pose with its covariance as an upper triangle, where it has one; inliers; the
correspondences offered; the landmarks of its inliers; the problem and its progress. -/
structure QuerySolve where
  pose : Option (Pose × List F64)
  inliers : Nat
  matched : Nat
  marks : List Nat
  problem : Option (Problem × Progress)

/-- Σz of a camera pose's covariance (R392). -/
def bodyCovariance (body bc : Pose) (cov : List F64) : List F64 :=
  let x := crossMat (body.q.rotate bc.t)
  let g := matOf 6 6 (fun i j => if i = j then f64one else if i < 3 && 3 ≤ j then x.at_ i (j - 3) else 0)
  triOf 6 (sand 6 6 g (fullOf 6 cov))

/-- The map with the settings that a query's solves started with (R380). -/
def Service.settings (v : Service) (m : MapSt) : MapSt := { m with policy := v.policy, codebook := v.codebook }

/-- The pose solve of correspondences from a camera pose (R392). -/
def MapSt.poseSolve (m : MapSt) (d : SessionDesc) (start : Pose) (ms : List Match) : QuerySolve :=
  if ms.isEmpty then { pose := none, inliers := 0, matched := 0, marks := [], problem := none }
  else
    let p := poseProblem m d.camera start ms
    let r := smallSolve p m.smallParams m.inlierChi2
    let out := match r.progress.ended, r.cov with
      | some .diverged, _ => none
      | _, none => none
      | _, some c =>
        let b := bodyPose (r.progress.x.getD 0 (.pose start)).asPose d.body
        some (b, bodyCovariance b d.body c)
    { pose := out, inliers := r.inliers.length, matched := ms.length
      marks := r.inliers.filterMap (fun i => (ms[i]?).map (·.landmark)), problem := some (p, r.progress) }

/-- The solve of a range query about the predicted filter: the position alone (R306, R392). -/
def MapSt.rangeSolve (m : MapSt) (f : Filter) (rs : List (MapPos × F32 × F32)) : QuerySolve :=
  let p : Problem := {
    cameras := [], blocks := [{ fixed := false, value := .position f.pose }]
    residuals := rs.map (fun r => {
      kind := 5, kernel := 1, camera := 0, scale := m.huberScale, blocks := [0], m := r.1.vec.list ++ [f32ToF64 r.2.1]
      sigma := [f32ToF64 r.2.2], dt := 0 })
    gravity := 0 }
  let r := smallSolve p m.smallParams (f64ofInt 9)
  let out := match r.progress.ended, r.cov with
    | some .diverged, _ => none
    | _, none => none
    | _, some c =>
      let k := fullOf 3 c
      some ((r.progress.x.getD 0 (.pose f.pose)).asPose, triOf 6 (matOf 6 6 (fun i j =>
        if i < 3 && j < 3 then k.at_ i j else if 3 ≤ i && 3 ≤ j then f.cov.at_ i j else 0)))
  { pose := out, inliers := r.inliers.length, matched := rs.length, marks := [], problem := some (p, r.progress) }

/-- A query's solve counted (R380). -/
def State.countSolve (s : State) (m : MapSt) (r : QuerySolve) : State :=
  match r.problem with
  | none => s
  | some (p, g) => s.tallySmall p m.smallParams g

/-- The landmark records of sheets in a view. -/
def Edition.landmarksIn (e : Edition) (sheets : List Nat) : List Bytes :=
  sheets.flatMap (fun k => (e.inSheet .landmark k).map (·.2))

end Sys2Proof.Machine
end

