-- ==== Sys2Proof/Machine/Sessions.lean ====
section
/-! DEFINITION. The localisation sessions: answers, parts, opening and closing, the service of a query (R290 to R325). -/
namespace Sys2Proof.Machine

/-! ## Sessions by index (R290, R293) -/

/-- A session of this device. -/
def State.session (s : State) (i : Nat) : Option Session := amGet s.sessions.open_ i

/-- The sessions changed. -/
def State.modSessions (s : State) (f : Sessions → Sessions) : State := { s with sessions := f s.sessions }

/-- A session set. -/
def State.setSession (s : State) (i : Nat) (x : Session) : State :=
  s.modSessions (fun t => { t with open_ := amSet t.open_ i x })

/-- A session changed. -/
def State.modSession (s : State) (i : Nat) (f : Session → Session) : State :=
  match s.session i with
  | none => s
  | some x => s.setSession i (f x)

/-- The SESSION_ID of an index (R290). -/
def State.sessionId (s : State) (i : Nat) : Nat := s.position * 65536 + i

/-- The index and session that a SESSION_ID names on this device. -/
def State.sessionNamed (s : State) (id : Nat) : Option (Nat × Session) :=
  if id / 65536 = s.position then (s.session (id % 65536)).map (fun x => (id % 65536, x)) else none

/-- STATE of a session (R299). -/
def Session.code (x : Session) : Nat :=
  if x.closing then 4 else match x.mode with
    | .seeking => 1
    | .tracking => 2
    | .lost => 3

/-- An event of a session to its EVENT_QUEUE (R323). -/
def State.sessionEvent (s : State) (i : Nat) (e : EventIn) : State :=
  match s.session i with
  | none => s
  | some x => s.event x.desc.eventQueue { e with subject := s.sessionId i }

/-- A working head used: the session cache holds 4,096 of them, and gives up the least recently used that no query in
service holds (R24, R27). -/
def State.touchHead (s : State) (i : Nat) : State :=
  s.modSessions (fun t =>
    let l := i :: t.cache.filter (· ≠ i)
    if l.length ≤ 4096 then { t with cache := l }
    else
      match l.reverse.find? (fun k => match amGet t.open_ k with | some x => x.service.isNone | none => true) with
      | some k => { t with cache := l.filter (· ≠ k) }
      | none => { t with cache := l.take 4096 })

/-- A part dropped under reason 0x02 (R322). -/
def State.partNotOpen (s : State) : State := s.modSessions (fun t => { t with notOpen := satAdd 32 t.notOpen 1 })

/-- A client violation counted and, first of its session in a reporting window, reported (R322, R323, R613). -/
def State.sessionViolation (s : State) (i reason source : Nat) : State :=
  match s.session i with
  | none => s
  | some x =>
    let id := s.sessionId i
    (s.setSession i { x with
      violations := satAdd 32 x.violations 1
      authFailures := if reason = 3 then satAdd 32 x.authFailures 1 else x.authFailures }).report
      { family := 0x0204, subject := id, reason := 0 } (fun prev =>
        [.event x.desc.eventQueue { code := 0x0204, detail := reason, subject := id, value := sat 32 prev },
         .errata { cls := 0, unit := 0x0023, inst := s.position, code := reason, flags := 4, detail0 := source % 2 ^ 64
                   detail1 := id }])

/-! ## Answers (R312 to R314, R450, R570) -/

/-- What an answer says. -/
structure AnswerIn where
  codes : List Nat
  flags : Nat := 0
  edition : Nat := 0
  pose : Option (Pose × List F64) := none
  inliers : Nat := 0
  matched : Nat := 0
  missing : List Nat := []
  withdrawn : Nat := 0

/-- STATUS and DETAIL of an answer (R97, R314). -/
def AnswerIn.status (a : AnswerIn) : Nat × Nat :=
  let t := statusOf a.codes
  (t.1, a.flags % 256 + t.2)

/-- Bytes 0 to 215 of an answer (R312). -/
def answerBytes (now id state : Nat) (q : Query) (a : AnswerIn) : Bytes :=
  let t := a.status
  packB 40 [(0, 2, 0x5A53), (2, 1, 1), (3, 1, 4), (4, 4, id), (8, 4, q.seq), (12, 2, t.1), (14, 2, t.2), (16, 8, q.capture),
      (24, 8, a.edition), (32, 8, now)] ++
    (match a.pose with
      | none => zeros 140
      | some p => p.1.bytes ++ takePad 84 (covBytes 6 p.2)) ++
    packB 36 [(0, 2, sat 16 a.inliers), (2, 2, sat 16 a.matched), (4, 1, state), (5, 1, sat 8 a.missing.length),
      (12, 8, a.withdrawn), (20, 4, natAt a.missing 0), (24, 4, natAt a.missing 1), (28, 4, natAt a.missing 2),
      (32, 4, natAt a.missing 3)]

/-- RESULT of a SUBMIT_QUERY (R313). -/
def submitResult (edition seq inliers state : Nat) : Nat := edition + seq * 2 ^ 64 + sat 16 inliers * 2 ^ 96 + state * 2 ^ 112

/-- A link message of a session: a part for its home device, or an answer for the member that sends it (R292, R461;
log 14). -/
def State.postLink (s : State) (dest queue : Nat) (b : Bytes) : State :=
  let n := (b.length + 4095) / 4096
  (List.range n).foldl (fun s i =>
    let d := (b.drop (4096 * i)).take 4096
    s.sendLink {
      kind := 6, channel := 0, source := s.position, dest := dest, address := queue
      words := (List.range ((d.length + 31) / 32)).map (fun k => takePad 32 ((d.drop (32 * k)).take 32)) }) s

/-- An answer written: out of the port of the query's last part, over the link to it, or into the job's buffer. -/
def State.sendAnswer (s : State) (i : Nat) (q : Query) (a : AnswerIn) : State :=
  match s.session i with
  | none => s
  | some x =>
    let body := answerBytes s.now (s.sessionId i) x.code q a
    let t := a.status
    let data := body ++ kmac16 x.desc.key body "HTL8800 answer"
    let host := match q.answer with | .job _ _ => true | _ => false
    let s := s.setSession i { x with
      answers := satAdd 32 x.answers 1, history := (takePad 256 (if host then body else data) :: x.history).take 16 }
    match q.answer with
    | .packet l r => if (s.netPort l).state = .up then s.sendFrame l (udpFrame r data) else s
    | .link m l r => s.postLink m (524289 + 2 * i) (packB 32 [(0, 1, l), (16, 4, (udpFrame r data).length)] ++ udpFrame r data)
    | .job n _ =>
      if t.1 = stDiscarded then s.finish n (refusal stDiscarded)
      else
        let off := match s.job n with | some j => dataLenOf j.slip - 256 | none => 0
        s.finish n {
          status := t.1, detail := t.2, result := submitResult a.edition q.seq a.inliers x.code
          output := [(off, body ++ zeros 16)] }

/-- A query or part dropped: a SUBMIT_QUERY still ends, with the reason. -/
def State.dropQuery (s : State) (i reason seq : Nat) (dest : AnswerTo) : State :=
  match dest with
  | .job n _ =>
    s.finish n { status := stMalformed, detail := reason, result := submitResult 0 seq 0 ((s.session i).elim 0 (·.code)) }
  | _ => s

/-- A violation that drops a query or part. -/
def State.violatePart (s : State) (i reason source seq : Nat) (dest : AnswerTo) : State :=
  (s.sessionViolation i reason source).dropQuery i reason seq dest

/-- A violation that is answered. -/
def State.violateQuery (s : State) (i : Nat) (q : Query) (code reason : Nat) : State :=
  (s.sessionViolation i reason q.source).sendAnswer i q { codes := [code], flags := reason }

/-! ## Opening and closing (R291, R294, R295, R319, R361, R569) -/

/-- UDP ports of the open flow-bound sessions (R444). -/
def State.ownPorts (s : State) : List Nat :=
  ((s.sessions.open_.filter (fun e => !e.2.desc.host)).map (·.2.desc.udpPort)).eraseDups

/-- This member's session ports and admitted units told to the others: ports 16 to a word, the first message replacing
the set before (R361, R444; log 14). -/
def State.tellSessions (s : State) : State :=
  let ports := s.ownPorts
  let words := (List.range ((ports.length + 15) / 16)).map (fun k =>
    unle ((List.range 16).flatMap (fun j => le 2 (natAt ports (16 * k + j)))))
  let n := max 1 ((words.length + 125) / 126)
  let s := (List.range n).foldl (fun s k =>
    s.controlAll 0x73 (flag (k = 0) :: min 2016 (ports.length - 2016 * k) :: (words.drop (126 * k)).take 126)) s
  s.controlAll 0x72 [s.sessions.open_.length, s.admitted]

/-- A Stack-resident queue of a session made. The manual gives its ring no place within the scratch region and no size: both are free
values within R80, R82 and R85. -/
def State.makeStackQueue (s : State) (q : Nat) (kind : QKind) (id : Nat) : State :=
  let x := s.desk.circ.queue q
  let y : Queue := { x with
    ringAddr := Region.scratch.address (64 * ((Config.freeValue s.fresh).toNat % (Region.scratch.total / 64 - 65536)))
    log2 := 4 + (Config.freeValue (s.fresh + 1)).toNat % 13, bufAddr := 0
    kind := kind, gen := nextGen x.gen, state := .active, head := 0, tail := 0, partner := 0, vector := noVector, coalCount := 0
    serving := true, coalTime := 0, quota := 0, phase := true, entryTimes := [], binding := id, drain := .none, lost := 0 }
  (s.modCirc (fun c => c.setQueue q y)).draw.draw

/-- A Stack-resident queue destroyed (R86, R291). -/
def State.dropStackQueue (s : State) (q : Nat) : State :=
  s.modCirc (fun c => let x := c.queue q; c.setQueue q { x with gen := nextGen x.gen, state := .free })

/-- The next free index in rotation: of the free ones, that used longest ago (R295). DESIGN CHOICE (log 177): an index that the rotation
reaches again is taken even where fewer than 2^16 sessions have been opened since, as happens where a session outlives a whole turn. -/
def Sessions.index (t : Sessions) : Option Nat :=
  ((List.range 65536).map (fun k => (t.nextIndex + k) % 65536)).find? (fun i => (amGet t.open_ i).isNone)

/-- OPEN_SESSION on its home device: the status of a refusal, or the SESSION_ID and the state with the session open
(R291, R294 to R296, R319, R361, R569). -/
def State.openHere (s : State) (b : Bytes) : Nat ⊕ (Nat × State) :=
  let wrapped := (fldB b 5 1).testBit 0
  let d0 := sessionDescOf b []
  let key : Option Bytes :=
    if d0.host && !wrapped then some (zeros 32)
    else if wrapped then s.vault.sessionRoot.map (fun r => kmac32 r ((b.drop 192).take 32) "HTL8800 session key")
    else some ((b.drop 192).take 32)
  let q := s.desk.circ.queue d0.bindQueue
  let queueOk := !d0.host || (hostResident d0.bindQueue && q.kind = .submission && q.state = .active && q.serving)
  match key with
  | none => .inl stNotPermitted
  | some key =>
    if !queueOk then .inl stNotPermitted
    else if decide (min 65536 s.curator.policy.maxSessions ≤ s.sessions.open_.length) ||
        decide (s.uMax < s.admitted + d0.rate * d0.units) then .inl stNoResource
    else
      match s.sessions.index with
      | none => .inl stNoResource
      | some i =>
        let d := sessionDescOf b key
        let x : Session := { desc := d, slot := s.contextSlot, bucket := d.burst * 10 ^ 12, usedAt := s.now, pinHeld := (s.edition d.pin).isSome }
        let s := s.draw.modSessions (fun t => { t with open_ := amSet t.open_ i x, nextIndex := (i + 1) % 65536 })
        let s := if d.host then s
          else (s.makeStackQueue (524288 + 2 * i) .receive (s.sessionId i)).makeStackQueue (524289 + 2 * i) .transmit (s.sessionId i)
        .inr (s.sessionId i, s.dropEditions.tellSessions.reviewBounds)

/-- The member that HOME 0xFF chooses: the owner of PORT, else the member below MAX_SESSIONS with the fewest admitted units
(R361). -/
def State.chooseHome (s : State) (b : Bytes) : Option Nat :=
  let port := fldB b 4 1
  if fldB b 1 1 = 0 && port ≠ 0xFF then some (port / 16)
  else
    let units (m : Nat) : Nat := if m = s.position then s.admitted else (amGetD s.sessions.members m (0, 0)).2
    let room (m : Nat) : Bool :=
      m ≠ s.position || decide (s.sessions.open_.length < min 65536 s.curator.policy.maxSessions)
    (s.present.filter room).foldl (fun best m => match best with
      | none => some m
      | some c => if units m < units c then some m else some c) none

/-- OPEN_SESSION (0x0201): `buf` is what the read of the data buffer returns (R294 to R298, R319, R361). -/
def execOpenSession (job : Nat) (buf : BufRead) (s : State) : Answer :=
  .next <| s.beginRead job 0x0201 buf fun j b s =>
    if dataLenOf j.slip ≠ 256 || fld j.slip 32 32 ≠ 0 || !s.sessionDescOk b then s.finish j.num (refusal stMalformed)
    else
      match (if fldB b 0 1 = 0xFF then s.chooseHome b else some (fldB b 0 1)) with
      | none => (s.pinBound 7).finish j.num (refusal stNoResource)
      | some m =>
        if !s.present.contains m then s.finish j.num (refusal stNotPermitted)
        else if m = s.position then
          match s.openHere b with
          | .inl code => s.finish j.num (refusal code)
          | .inr (id, s) => s.finish j.num (endWith [] 0 id)
        else
          (s.modSessions (fun t => { t with opening := amSet t.opening j.num m })).control m 0x70
            (j.num :: (recordsAt b 0 32 8).map unle)

/-- A session becomes free: its queues destroyed, its context gone, its CLOSE_SESSION answered (R294). -/
def State.freeSession (s : State) (i : Nat) : State :=
  match s.session i with
  | none => s
  | some x =>
    let s := s.modSessions (fun t => { t with open_ := amDel t.open_ i, cache := t.cache.filter (· ≠ i) })
    let s := s.modMap (fun m => { m with edits := m.edits.map (fun (e : Nat × Edit) =>
      let c := e.2.consumers.map (fun l => l.filter (· ≠ i))
      (e.1, { e.2 with consumers := if c = some [] then none else c })) })
    let s := if x.desc.host then s else (s.dropStackQueue (524288 + 2 * i)).dropStackQueue (524289 + 2 * i)
    let s := match x.closeJob with
      | some n => s.finish n (endWith [] 0 x.answers)
      | none => s
    s.dropEditions.tellSessions.reviewBounds

/-- A closing session whose last closed query is answered becomes free (R294). -/
def State.freeIfDone (s : State) (i : Nat) : State :=
  match s.session i with
  | none => s
  | some x => if x.closing && x.service.isNone && x.closed.isEmpty then s.freeSession i else s

/-- A session starts to close: no further query closes, and the one under assembly is dropped (R294). -/
def State.startClose (s : State) (i : Nat) (job : Option Nat) : State :=
  (s.modSession i (fun x => { x with closing := true, closeJob := job, assembling := none })).freeIfDone i

/-- A session opcode on the session it names: reserved bytes first, then the session (R296). -/
def State.onSession (s : State) (j : Job) (used : List (Nat × Nat)) (k : Nat → Session → State → State) : State :=
  if !paramsClear j.slip ((32, 4) :: used) then s.finish j.num (refusal stMalformed)
  else
    match s.sessionNamed (fld j.slip 32 4) with
    | none => s.finish j.num (refusal stNotPermitted)
    | some (i, x) => k i x s

/-- CLOSE_SESSION (0x0202) (R294, R296). -/
def execCloseSession (job : Nat) (s : State) : Answer :=
  .next <| s.begin job 0x0202 fun j s =>
    if dataLenOf j.slip ≠ 0 then s.finish j.num (refusal stMalformed)
    else s.onSession j [] fun i x s =>
      if x.closing then s.finish j.num (refusal stNotPermitted) else s.startClose i (some j.num)

/-- SESSION_EXPIRED: IDLE_S has passed with no query part (R294, R323). -/
def execSessionExpired (index : Nat) (s : State) : Answer :=
  .next <|
    match s.session index with
    | none => s
    | some x =>
      if x.closing || x.desc.idle = 0 || decide (s.now < x.usedAt + x.desc.idle * 1000000000) then s
      else (s.sessionEvent index { code := 0x0203, value := x.desc.idle }).startClose index none

/-! ## Reports and settings (R297, R299, R310) -/

/-- The report of a session (R299). -/
def Session.report (x : Session) (id : Nat) : Bytes :=
  let f := x.filter
  packB 56 [(0, 4, id), (4, 1, x.code), (5, 1, x.desc.read), (6, 2, sat 16 x.misses), (8, 8, f.elim 0 (·.t)),
      (16, 8, x.lastEdition), (24, 4, x.lastSeq.getD 0), (28, 4, x.answers), (32, 4, x.losses), (36, 4, x.relocalisations),
      (40, 4, x.authFailures), (44, 4, x.bestEffort), (48, 4, x.violations), (52, 4, x.revocations)] ++
    (match f with
      | none => zeros 68
      | some f => f.pose.bytes ++ f.v.list.flatMap bytes32) ++ zeros 4

/-- QUERY_SESSION (0x0203) (R296, R299, R615). -/
def execQuerySession (job : Nat) (s : State) : Answer :=
  .next <| s.begin job 0x0203 fun j s => s.onSession j [] fun i x s =>
    if dataLenOf j.slip < 128 then s.finish j.num (refusalNotStarted stTooLarge)
    else s.finish j.num (endWith [] 0 0 [(0, x.report (s.sessionId i))])

/-- SET_SESSION (0x0204): a zero field other than READ leaves its setting; READ and PIN_EDITION wait for the next step 4
(R296, R297, R319). -/
def execSetSession (job : Nat) (s : State) : Answer :=
  .next <| s.begin job 0x0204 fun j s => s.onSession j [(36, 8), (48, 8)] fun i x s =>
    let read := fld j.slip 36 1
    let burst := fld j.slip 37 1
    let units := fld j.slip 38 2
    let rate := fld j.slip 40 4
    let pin := fld j.slip 48 8
    if decide (2 < read) || decide (64 < burst) || decide (450 < units) ||
        (rate ≠ 0 && (decide (rate < 100) || decide (120000 < rate))) || dataLenOf j.slip ≠ 0 then
      s.finish j.num (refusal stMalformed)
    else
      let d := x.desc
      let d' := { d with
        burst := if burst = 0 then d.burst else burst, units := if units = 0 then d.units else units
        rate := if rate = 0 then d.rate else rate }
      let old := d.rate * d.units
      let new := d'.rate * d'.units
      if old < new && decide (s.uMax < s.admitted - old + new) then s.finish j.num (refusal stNoResource)
      else
        let pin := if pin ≠ 0 then pin else match x.newRead with
          | some r => r.2
          | none => d.pin
        ((s.setSession i { x with desc := d', newRead := some (read, pin) }).tellSessions.reviewBounds).finish j.num (endWith [])

/-- SEED_POSE (0x0205): `buf` is what the read of the data buffer returns (R67, R68, R296, R310). -/
def execSeedPose (job : Nat) (buf : BufRead) (s : State) : Answer :=
  .next <| s.beginRead job 0x0205 buf fun j b s =>
    let p := poseAt b 8
    if dataLenOf j.slip ≠ 192 || fldB b 0 8 = 0 || !p.ok || !covOk b 64 6 || !allZero (b.drop 148) then
      s.finish j.num (refusal stMalformed)
    else s.onSession j [] fun i x s =>
      let cov := (List.range 21).map (fun k => f32ToF64 (f32At b (64 + 4 * k)))
      (s.setSession i { x with seed := some (fldB b 0 8, { p with q := p.q.canon }, cov) }).finish j.num (endWith [])

/-! ## Parts and assembly (R292, R300 to R304, R320, R322) -/

/-- (i32)(a - b) is below 0, or is 0 or below (R303). -/
def seqBelow (a b : Nat) : Bool := decide (toInt 32 ((a + 2 ^ 32 - b % 2 ^ 32) % 2 ^ 32) < 0)
def seqNotAbove (a b : Nat) : Bool := decide (toInt 32 ((a + 2 ^ 32 - b % 2 ^ 32) % 2 ^ 32) ≤ 0)

/-- The bucket at a close, and whether the query takes a token (R320). -/
def Session.atClose (x : Session) (now : Nat) : Session × Bool :=
  let full := x.desc.burst * 10 ^ 12
  let gap := match x.lastClose with
    | none => 10 ^ 12
    | some t => min (now - t) (10 ^ 12)
  let b := min full (x.bucket + x.desc.rate * gap)
  ({ x with bucket := if 10 ^ 12 ≤ b then b - 10 ^ 12 else b, lastClose := some now }, decide (10 ^ 12 ≤ b))

/-- The query under assembly closes (R303, R320, R322). -/
def State.closeQuery (s : State) (i : Nat) (complete : Bool) : State :=
  match s.session i with
  | none => s
  | some x =>
    match x.assembling with
    | none => s
    | some q =>
      let r := x.atClose s.now
      let x := { r.1 with assembling := none }
      let q := { q with guaranteed := r.2, closedAt := s.now }
      let s := s.setSession i x
      let bad (reason : Nat) : State := s.violateQuery i q stMalformed reason
      if !complete then bad 0x0A
      else if !x.desc.kinds.testBit q.kind || !q.totalOk then bad 0x07
      else if q.kind = 1 && (q.width ≠ x.desc.camera.width || q.height ≠ x.desc.camera.height) then bad 0x0B
      else if q.capture = 0 || decide (2000000000 < timeGap q.capture q.lastAt) then bad 0x09
      else if !q.finite then bad 0x08
      else if (if x.service.isSome then 2 else 3) ≤ x.closed.length then s.violateQuery i q stNoResource 0x0C
      else s.setSession i { x with closed := x.closed ++ [q] }

/-- A part whose tag has been checked joins its query; from it on IDLE_S runs anew (R294, R300 to R304, R322). -/
def State.takePart (s : State) (i : Nat) (b : Bytes) (time source : Nat) (dest : AnswerTo) : State :=
  let seq := fldB b 8 4
  let part := fldB b 12 2
  let parts := fldB b 14 2
  let kind := fldB b 24 1
  let drop (s : State) (reason : Nat) : State := s.violatePart i reason source seq dest
  let one := match dest with | .job _ _ => true | _ => false
  let s := s.modSession i (fun x => { x with usedAt := s.now })
  if fldB b 0 2 ≠ 0x5A53 || fldB b 2 1 ≠ 1 || fldB b 3 1 ≠ 3 || decide (3 < fldB b 25 1) ||
      (kind ≠ 1 && fldB b 28 4 ≠ 0) then drop s 0x01
  else if parts = 0 || decide (256 < parts) || decide (parts ≤ part) || (one && parts ≠ 1) then drop s 0x05
  else if b.length ≠ 48 + (if part = 0 then 32 else 0) + itemBytes kind * fldB b 26 2 then drop s 0x06
  else
    match s.session i with
    | none => s
    | some x =>
      if x.assembling.any (fun a => seqBelow seq a.seq) then drop s 0x04
      else
        let s := if x.assembling.any (fun a => a.seq ≠ seq) then s.closeQuery i false else s
        match s.session i with
        | none => s
        | some x =>
          let fresh : Query := {
            seq := seq, parts := parts, capture := fldB b 16 8, kind := kind, flags := fldB b 25 1, width := fldB b 28 2
            height := fldB b 30 2, firstAt := time, lastAt := time, answer := dest, source := source }
          let a := x.assembling.getD fresh
          if a.got.any (fun p => p.part == part) || a.parts ≠ parts || a.capture ≠ fresh.capture || a.kind ≠ kind ||
              a.flags ≠ fresh.flags || a.width ≠ fresh.width || a.height ≠ fresh.height then drop s 0x05
          else
            let a := { a with got := a.got ++ [{ part := part, body := b }], lastAt := time, answer := dest, source := source }
            let s := s.setSession i { x with assembling := some a }
            if a.got.length = parts then s.closeQuery i true else s

/-- A part at its home device: the session, open and not closing, port, length, tag, then the rest (R292, R294, R302, R322, R444,
R570). -/
def State.arrivePart (s : State) (port time : Nat) (frame : Bytes) (dest : Parsed → AnswerTo) : State :=
  let p := parseFrame frame
  let b := p.data frame
  let id := if b.length < 8 then 2 ^ 32 - 1 else fldB b 4 4
  match s.sessionNamed id with
  | none => s.partNotOpen
  | some (i, x) =>
    if x.desc.host || x.closing then s.partNotOpen
    else if x.desc.port ≠ 0xFF && x.desc.port ≠ port then
      { s with net := { s.net with wrongPort := satAdd 32 s.net.wrongPort 1 } }
    else
      let s := s.touchHead i
      if decide (8992 < b.length) || decide (b.length < 48) then s.sessionViolation i 0x01 p.srcAddr
      else if b.drop (b.length - 16) ≠ kmac16 x.desc.key (b.take (b.length - 16)) "HTL8800 query" then
        s.sessionViolation i 0x03 p.srcAddr
      else s.takePart i b time p.srcAddr (dest p)

/-- A part that another member forwards, once its last bytes have come (R292; log 14). -/
def State.postedPart (s : State) (member : Nat) (b : Bytes) : State :=
  let whole := amGetD s.sessions.partIn member [] ++ b
  let len := fldB whole 16 4
  if whole.length < 32 + len then s.modSessions (fun t => { t with partIn := amSet t.partIn member whole })
  else
    let s := s.modSessions (fun t => { t with partIn := amDel t.partIn member })
    s.arrivePart (fldB whole 0 1) (fldB whole 8 8) ((whole.drop 32).take len) (fun p =>
      .link member (fldB whole 0 1 % 16) (replyTo 0 p))

/-- An answer that a home device sends out of a port of this member (R292, R450; log 14). -/
def State.postedAnswer (s : State) (b : Bytes) : State :=
  let l := fldB b 0 1 % 16
  let f := (b.drop 32).take (fldB b 16 4)
  if (s.netPort l).state = .up then s.sendFrame l (f.take 6 ++ be 6 (s.netPort l).mac ++ f.drop 12) else s

/-- QUERY_PART: the first frame that waits for the session stage at a local logical port is taken, here or at its home
device (R292, R300 to R304, R322). -/
def execQueryPart (port : Nat) (s : State) : Answer :=
  .next <|
    match (s.netPort port).sessions with
    | [] => s
    | a :: rest =>
      let s := s.modPort port (fun x => { x with sessions := rest })
      let b := (parseFrame a.frame).data a.frame
      let id := fldB b 4 4
      if decide (8 ≤ b.length) && decide (id < 2 ^ 19) && id / 65536 ≠ s.position then
        if s.present.contains (id / 65536) then
          s.postLink (id / 65536) (524288 + 2 * (id % 65536))
            (packB 32 [(0, 1, a.port), (8, 8, a.time), (16, 4, a.frame.length)] ++ a.frame)
        else s.partNotOpen
      else s.arrivePart a.port a.time a.frame (fun p => .packet port (replyTo (s.netPort port).mac p))

/-- QUERY_ASSEMBLY_TIMEOUT: ASSEMBLY_MS has passed since the first part of the query under assembly (R303). -/
def execQueryAssemblyTimeout (index : Nat) (s : State) : Answer :=
  .next <|
    match s.session index with
    | none => s
    | some x =>
      if x.assembling.any (fun q => decide (q.firstAt + x.desc.assemblyMs * 1000000 ≤ s.now)) then s.closeQuery index false else s

/-- SUBMIT_QUERY (0x0210): `buf` is what the read of the data buffer returns (R296, R313, R322). -/
def execSubmitQuery (job : Nat) (buf : BufRead) (s : State) : Answer :=
  .next <| s.beginRead job 0x0210 buf fun j b s =>
    let named := s.sessionNamed (fld j.slip 32 4)
    let seq := if dataLenOf j.slip < 32 then 0 else fldB b 8 4
    let refuse (code : Nat) : State := s.finish j.num {
      status := code, result := submitResult 0 seq 0 (named.elim 0 (·.2.code)) }
    let n := 48 + (if fldB b 12 2 = 0 then 32 else 0) + itemBytes (fldB b 24 1) * fldB b 26 2
    if !paramsClear j.slip [(32, 5)] || decide (2 < fld j.slip 36 1) || decide (dataLenOf j.slip < 320) ||
        dataLenOf j.slip ≠ up64 n + 256 then refuse stMalformed
    else
      match named with
      | none => refuse stNotPermitted
      | some (i, x) =>
        if !x.desc.host || j.sq ≠ x.desc.bindQueue || x.closing then refuse stNotPermitted
        else (s.touchHead i).takePart i (b.take n) s.now 0 (.job j.num (fld j.slip 36 1))

/-! ## Service: step 8 and the answer (R294, R307, R309 to R315) -/

/-- How a query in service ends. -/
structure QueryEnd where
  codes : List Nat := []
  flags : Nat := 0
  pose : Option (Pose × List F64) := none
  filter : Option Filter := none
  misses : Nat
  mode : SessionMode
  /-- landmarks of the inliers of an accepted solve -/
  marks : Option (List Nat) := none
  /-- this query relocalised the session -/
  relocalised : Bool := false
  /-- step 8 was reached (R304) -/
  reached : Bool := true

/-- A query in service answered (R304, R309, R312 to R315, R323, R345). -/
def State.endQuery (s : State) (i : Nat) (v : Service) (e : QueryEnd) : State :=
  match s.session i with
  | none => s
  | some x =>
    let report := decide ((statusOf e.codes).1 < 16) && (!v.revoked.isEmpty || v.overflow)
    let f := if e.filter.isSome then e.filter else if report then v.base else x.filter
    let left := if report then x.pendingRevoked.filter (fun n => !v.revoked.contains n) else x.pendingRevoked
    let s := s.setSession i { x with
      mode := e.mode, filter := f, misses := e.misses, service := none
      lastSeq := if e.reached then some v.query.seq else x.lastSeq, lastEdition := v.edition
      bestEffort := if v.query.guaranteed then x.bestEffort else satAdd 32 x.bestEffort 1
      losses := if v.lost.isSome then satAdd 32 x.losses 1 else x.losses
      relocalisations := if e.relocalised then satAdd 32 x.relocalisations 1 else x.relocalisations
      revocations := if report then satAdd 32 x.revocations 1 else x.revocations
      pendingRevoked := left, overflow := if report && v.overflow then false else x.overflow
      inlierCache := e.marks.getD x.inlierCache
      seeded := match e.relocalised, e.pose with
        | true, some p => some (v.query.capture, p.1, p.2)
        | _, _ => x.seeded }
    let s := match v.lost with
      | some d => s.sessionEvent i { code := 0x0201, detail := d, value := v.query.seq }
      | none => s
    let s := if e.relocalised then s.sessionEvent i { code := 0x0202, value := v.inliers } else s
    let flags := e.flags + flag v.fromDraft + 2 * flag e.relocalised + 8 * flag (!v.missing.isEmpty) + 16 * flag v.outOfOrder +
      32 * flag (!v.query.guaranteed) + 64 * flag (report && (decide (1 < v.revoked.length) || v.overflow)) + 128 * flag v.deferred
    let first := minOf (v.revoked.headD 0) v.revoked
    ((s.sendAnswer i v.query {
      codes := e.codes ++ (if report then [stRevoked] else []), flags := flags, edition := v.edition, pose := e.pose
      inliers := v.inliers, matched := v.matched, missing := v.missing, withdrawn := if report then first else 0 }).freeEdition
        (3 * i + 2)).freeIfDone i

/-- A query that ends `LOST` (R294, R316, R317). -/
def State.endLost (s : State) (i : Nat) (x : Session) (v : Service) : State :=
  s.endQuery i v { codes := [stLost], misses := v.misses, mode := if v.lost.isSome then .lost else x.mode }

/-- A query in service set to a step. -/
def State.serveStep (s : State) (i : Nat) (v : Service) : State := s.modSession i (fun x => { x with service := some v })

/-- Whether a query's job, where it has one, still waits for its answer. -/
def State.answerable (s : State) (q : Query) : Bool := match q.answer with
  | .job n _ => s.running n
  | _ => true

/-- Relocalisations that run (R317). -/
def State.relocalising (s : State) : Nat :=
  (s.sessions.open_.filter (fun e => match e.2.service with
    | some v => (match v.step with | .searching _ => true | .verifying _ => true | _ => false)
    | none => false)).length

/-- REPLAY of a query (R313). -/
def Query.replay (q : Query) : Nat := match q.answer with
  | .job _ r => r
  | _ => 0

/-- Relocalisation begun for a query, or its answer `LOST` (R294, R316, R317). -/
def State.relocalise (s : State) (i : Nat) (v : Service) : State :=
  match s.session i with
  | none => s
  | some x =>
    if v.query.kind = 2 then s.endLost i x v
    else if v.query.replay = 1 || decide (1024 ≤ s.relocalising) ||
        (match x.lastReloc with | some t => decide (s.now < t + x.desc.relocMs * 1000000) | none => false) then
      s.endLost i x { v with deferred := true }
    else
      let k := x.desc.relocK
      let p : SearchParams := {
        coll := 0, widen := false, invert := false, localOnly := false, k := k, list := max k 128, limit := 4096, mask := 0, value := 0
        expand := 2 * max k 128 }
      let r := s.startSearch (.session i) p v.place
      (r.2.setSession i { x with lastReloc := some s.now }).serveStep i { v with step := .searching r.1 }

/-- The search of a relocalising query has ended: its candidates in order (R316). -/
def State.sessionFound (s : State) (i number : Nat) (hits : List SearchHit) : State :=
  match s.session i with
  | none => s
  | some x =>
    match x.service with
    | none => s
    | some v =>
      if v.step ≠ .searching number then s
      else if hits.isEmpty then s.endLost i x v
      else s.serveStep i { v with step := .verifying (hits.map (fun h => h.attr % 2 ^ 40)) }

/-- What the answer of a query that a fault discards says: what its step 4 has fixed, and the flags that apply (R29, R312, R314). -/
def Service.discarded (v : Service) : AnswerIn :=
  { codes := [stDiscarded]
    flags := flag v.fromDraft + 8 * flag (!v.missing.isEmpty) + 16 * flag v.outOfOrder + 32 * flag (!v.query.guaranteed)
    edition := v.edition, missing := v.missing }

/-- A query in service discarded: filter, state and LAST_SEQ stand (R311, R324). -/
def State.discardService (s : State) (i : Nat) : State :=
  match s.session i with
  | none => s
  | some x =>
    match x.service with
    | none => s
    | some v =>
      let s := s.setSession i { x with service := none }
      let s := match v.step with
        | .searching n => (match amGet s.catalogue.searches n with
            | some y => s.leaveSearch n y (s.endOf y true)
            | none => s)
        | _ => s
      let s := if s.answerable v.query then s.sendAnswer i v.query v.discarded else s
      (s.freeEdition (3 * i + 2)).freeIfDone i

/-- A query that no service holds answered `DISCARDED`; one that has closed may lie outside the guarantee (R314, R320, R324). -/
def State.answerDiscarded (s : State) (i : Nat) (q : Query) (closed : Bool) : State :=
  if s.answerable q then s.sendAnswer i q { codes := [stDiscarded], flags := 32 * flag (closed && !q.guaranteed) } else s

/-- The query under assembly discarded (R324, R546). -/
def State.discardAssembling (s : State) (i : Nat) : State :=
  match s.session i with
  | none => s
  | some x =>
    match x.assembling with
    | none => s
    | some q => ((s.setSession i { x with assembling := none }).answerDiscarded i q false).freeIfDone i

/-- A closed query that waits discarded (R324). -/
def State.discardClosed (s : State) (i : Nat) (q : Query) : State :=
  match s.session i with
  | none => s
  | some x => ((s.setSession i { x with closed := x.closed.erase q }).answerDiscarded i q true).freeIfDone i

/-! ## Service: step 4 (R304 to R306, R308, R310, R311, R315, R316, R344) -/

/-- The seed and the settings that wait take effect at step 4; `held` says of an edition whether it is held then (R297, R310, R335). -/
def Session.atStep4 (x : Session) (held : Nat → Bool) : Session :=
  let x := match x.newRead with
    | some r => { x with desc := { x.desc with read := r.1, pin := r.2 }, newRead := none, pinHeld := held r.2 }
    | none => x
  match x.seed with
  | some g => { x with
      filter := some (seedFilter g.2.1 g.2.2 g.1), mode := .tracking, misses := 0, seed := none, seeded := some g }
  | none => x

/-- Pencilled edits of a cut that touch a list of sheets. -/
def State.editsTouching (s : State) (cut sheets : List Nat) : List Nat :=
  cut.filter (fun n => (s.edit n).elim false (fun e => e.sheets.any sheets.contains))

/-- A session recorded as a consumer of edits; none where a new bitmap is needed and none is free (R344). -/
def State.consume (s : State) (i : Nat) (es : List Nat) : Option State :=
  let held := (s.map.edits.filter (fun e => e.2.consumers.isSome)).length
  let new := (es.filter (fun n => (s.edit n).elim false (fun e => e.consumers.isNone))).length
  if 4096 < held + new then none
  else some (es.foldl (fun s n => s.modEdit n (fun e => { e with consumers := some (union (e.consumers.getD []) [i]) })) s)

/-- Bytes sent as BULK data of the Collator's small path, on a channel, from an offset on (R461; log 14). -/
def State.sendBulk (s : State) (dest channel offset : Nat) (b : Bytes) : State :=
  (List.range ((b.length + 4095) / 4096)).foldl (fun s c =>
    let e := (b.drop (4096 * c)).take 4096
    s.sendLink {
      kind := 8, channel := channel, source := s.position, dest := dest, address := 0x15 * 2 ^ 32 + offset + 4096 * c
      words := (List.range ((e.length + 31) / 32)).map (fun k => takePad 32 ((e.drop (32 * k)).take 32)) }) s

/-- A holder asked to match for a query: as BULK data the camera, the predicted camera pose, the sheets, the whole cut, each edit with
the number of its state, and the keypoints; then the request (R36, R342; log 14). -/
def State.askHolder (s : State) (i m : Nat) (d : SessionDesc) (v : Service) (pose : Pose) : State :=
  let sheets := v.sheets.filter (fun k => s.holder k = some m && !v.missing.contains k)
  let b := (d.raw.drop 120).take 72 ++ (cameraPose pose d.body).bytes ++ sheets.flatMap (le 4) ++
    v.cut.flatMap (fun n => le 8 n ++ le 4 ((s.edit n).elim 0 Edit.revision)) ++
    v.keypoints.flatMap (fun k => le 4 k.u.toNat ++ le 4 k.v.toNat ++ takePad 128 k.desc)
  let s := s.sendBulk m 0 0 b
  s.sendLink { controlMsg s.position m 0x45 [i, v.query.seq, v.edition, sheets.length, v.cut.length, v.keypoints.length] with channel := 0 }

/-- Step 4 of a tracking session's query: prediction, selection, consumers, and the holders asked (R306, R308, R311, R344). -/
def State.trackQuery (s : State) (i : Nat) (x : Session) (v : Service) (f : Filter) : State :=
  let q := v.query
  let late := decide (q.capture < f.t)
  let square (a : F32) : F64 := f64mul (f32ToF64 a) (f32ToF64 a)
  let p := if late then f else f.predict q.capture (square x.desc.accel) (square x.desc.angacc) q.odometry
  let sheets := s.selectSheets p
  let missing := sheets.filter (s.sheetMissingIn v.edition)
  let v := { v with predicted := some p, outOfOrder := late, sheets := sheets, missing := missing }
  if !sheets.isEmpty && missing.length = sheets.length then s.relocalise i { v with lost := some 1 }
  else
    let r := if v.fromDraft then (match s.consume i (s.editsTouching v.cut sheets) with
        | some s => (s, v)
        | none => (s, { v with fromDraft := false, cut := [], draft := [] }))
      else (s, v)
    let s := r.1
    let there := sheets.filter (fun k => !missing.contains k)
    let v := { r.2 with own := there.filter (fun k => s.holder k = some s.position) }
    let holders := if q.kind = 2 then [] else ((there.filterMap s.holder).filter (· ≠ s.position)).eraseDups
    if holders.isEmpty then s.serveStep i { v with step := .solving }
    else holders.foldl (fun s m => s.askHolder i m x.desc v p.pose) (s.serveStep i { v with step := .matching holders })

/-- Step 4 of a query (R29, R297, R304, R305, R310, R311, R315, R325). -/
def State.serve (s : State) (i : Nat) (x : Session) (q : Query) (keypoints : List Keypoint) (place : Bytes) : State :=
  let x := x.atStep4 (fun n => (s.edition n).isSome)
  let revoking := !x.pendingRevoked.isEmpty || x.overflow
  let base := if !revoking then x.filter
    else x.filter.map (fun f => (sortBy (fun a b => decide (a < b)) x.pendingRevoked).foldl (fun f n => s.rebaseBy f n) f)
  let draft := x.desc.read = 1 && s.reference.state = .normal && q.replay ≠ 2 && !revoking
  let edition := if x.desc.read = 2 then x.desc.pin else s.map.lastInked
  let cut := if draft then s.draftCut else []
  let v : Service := {
    query := q, step := .solving, edition := edition, cut := cut, draft := s.cutWrites cut, fromDraft := draft, base := base
    keypoints := if q.kind = 1 then keypoints else q.keypoints, policy := s.map.policy, codebook := s.map.codebook, place := place
    revoked := x.pendingRevoked, overflow := x.overflow, misses := x.misses }
  let s := s.setSession i { x with service := some v }
  if (s.edition edition).isNone then
    s.endQuery i { v with fromDraft := false, edition := 0 } { codes := [stStaleEdition], misses := x.misses, mode := x.mode, reached := false }
  else
    let s := s.fixEdition (3 * i + 2) edition
    match x.mode, base with
    | .tracking, some f =>
      if q.flags.testBit 1 then s.relocalise i { v with lost := some 2 } else s.trackQuery i x v f
    | _, _ => s.relocalise i v

/-- QUERY_SERVE: the oldest closed query of a session reaches step 4. `keypoints` is what the features image gives for an
image query and `place` what the place image gives (R26, R27, R304, R316; log 11). -/
def execQueryServe (index : Nat) (keypoints : List Keypoint) (place : Bytes) (s : State) : Answer :=
  .next <|
    if !s.unitWorks 0x0023 s.position then s
    else
    match s.session index with
    | none => s
    | some x =>
      match x.service, x.closed with
      | none, q :: rest =>
        let x := { x with closed := rest }
        let s := (s.setSession index x).touchHead index
        if !s.answerable q then s.freeIfDone index
        else if x.lastSeq.any (fun l => seqNotAbove q.seq l) then
          (s.violatePart index 0x04 q.source q.seq q.answer).freeIfDone index
        else s.serve index x q keypoints place
      | _, _ => s

/-! ## Matching on other holders (R36, R342, R391) -/

/-- A correspondence as a holder returns it (R36; log 14). -/
def Match.bytes (m : Match) : Bytes :=
  le 2 m.keypoint ++ le 4 m.u.toNat ++ le 4 m.v.toNat ++ le 5 m.landmark ++ m.position.bytes ++ le 4 m.dist ++ zeros 1

/-- A correspondence from the 32 bytes that a holder returns of it. -/
def matchOf (b : Bytes) : Match :=
  { keypoint := fldB b 0 2, u := f32At b 2, v := f32At b 6, landmark := fldB b 10 5, position := mapPosAt b 15, dist := fldB b 27 4 }

/-- Whether the pages of a sheet stand here, as its holder's or as the old copy that earlier readers finish on (R33). -/
def State.standsHere (s : State) (k : Nat) : Bool :=
  s.holder k = some s.position || s.map.oldCopies.any (fun c => c.sheet == k && c.holder == s.position)

/-- What a cut that another member has fixed writes, each edit in the state it names; none while one of them has not come here (R342). -/
def State.namedCut (s : State) (cut : List (Nat × Nat)) : Option (List MapWrite) :=
  if cut.all (fun c => ((s.edit c.1).bind (fun e => e.contentAt c.2)).isSome) then
    some ((s.ordered (cut.map (·.1))).flatMap (fun n => ((s.edit n).bind (fun e => e.contentAt (amGetD cut n 0))).getD []))
  else none

/-- REMOTE_MATCH_REQUEST: this member matches for a query of session `session` of member `source` on its sheets, over exactly the cut
it names, and returns what it finds with the sheets it can not read; `camera` is laid out as bytes 120 to 191 of R298. The request
waits while an edit of the cut, or the edition, has not come here (R33, R36, R342, R391; log 14). -/
def execRemoteMatchRequest (source session seq edition : Nat) (cut : List (Nat × Nat)) (sheets : List Nat) (camera pose : Bytes)
    (keypoints : List Keypoint) (s : State) : Answer :=
  .next <|
    if source = s.position || !s.present.contains source then s
    else
      match s.namedCut cut with
      | none => s
      | some ws =>
        if s.map.lastInked < edition then s
        else
          let cam : Camera := {
            model := fldB camera 0 1, width := fldB camera 2 2, height := fldB camera 4 2
            params := (List.range 8).map (fun i => f64At camera (8 + 8 * i)) }
          let own := sheets.filter (fun k => (s.edition edition).isSome && s.standsHere k && !s.map.lost.contains (edition, k))
          let ms := offered s.map keypoints (considered cam (poseAt pose 0) ((s.seen edition ws).landmarksIn own))
          let s := s.sendBulk source 1 (2 ^ 31) (ms.flatMap Match.bytes)
          s.sendLink { controlMsg s.position source 0x46 ([session, seq, ms.length] ++ sheets.filter (fun k => !own.contains k)) with
            channel := 1 }

/-- A holder has answered, or has left with its sheets missing. -/
def State.holderDone (s : State) (i member : Nat) (gone : Bool) : State :=
  match (s.session i).bind (·.service) with
  | none => s
  | some v =>
    match v.step with
    | .matching w =>
      if !w.contains member then s
      else
        let w := w.filter (· ≠ member)
        let lost := if gone then v.sheets.filter (fun k => s.holder k = some member && !v.missing.contains k) else []
        s.serveStep i { v with step := if w.isEmpty then .solving else .matching w, missing := v.missing ++ lost }
    | _ => s

/-- What a holder has returned for a query that waits for it. -/
def Service.hear (v : Service) (matches_ : Bytes) (missing : List Nat) : Service :=
  { v with
    found := v.found ++ (recordsAt matches_ 0 32 (matches_.length / 32)).map matchOf
    missing := v.missing ++ missing.filter (fun k => v.sheets.contains k && !v.missing.contains k) }

/-- REMOTE_MATCH_ANSWER: a holder's correspondences for the query of QUERY_SEQ `seq` reach the home device, with the sheets that it
could not read; the solve starts with the last answer (R36, R38). -/
def execRemoteMatchAnswer (index member seq : Nat) (matches_ : Bytes) (missing : List Nat) (s : State) : Answer :=
  .next <|
    match (s.session index).bind (·.service) with
    | none => s
    | some v =>
      match v.step with
      | .matching w =>
        if v.query.seq ≠ seq || !w.contains member then s
        else (s.serveStep index (v.hear matches_ missing)).holderDone index member false
      | _ => s

/-! ## The small solve's end (R294, R307, R309, R311, R316, R390 to R392) -/

/-- A tracking query's solve has ended (R307, R309, R311). -/
def State.endTracking (s : State) (i : Nat) (x : Session) (v : Service) (f : Filter) : State :=
  let q := v.query
  let cam := cameraPose f.pose x.desc.body
  let m := v.settings s.map
  let r := if q.kind = 2 then m.rangeSolve f q.ranges
    else m.poseSolve x.desc cam (joinOffers m v.keypoints.length
      (offered m v.keypoints (considered x.desc.camera cam ((s.seen v.edition v.draft).landmarksIn v.own)) ++ v.found))
  let s := s.countSolve m r
  let v := { v with inliers := r.inliers, matched := r.matched }
  let good := if r.inliers < (if q.kind = 2 then 4 else x.desc.minInliers) then none else r.pose
  let still : Pose × List F64 := (f.pose, triOf 6 f.cov)
  let miss (s : State) : State :=
    if x.desc.missLimit ≤ x.misses + 1 then s.relocalise i { v with lost := some 0, misses := x.misses + 1 }
    else s.endQuery i v { flags := 4, pose := some still, misses := x.misses + 1, mode := x.mode }
  if v.outOfOrder then
    match good with
    | some z => s.endQuery i v { pose := some z, misses := x.misses, mode := x.mode }
    | none => miss s
  else
    match good.bind (fun z => f.update z.1 (fullOf 6 z.2) (f32ToF64 x.desc.gate)) with
    | some g => s.endQuery i v {
        pose := some (g.pose, triOf 6 g.cov), filter := some g, misses := 0, mode := .tracking, marks := some r.marks }
    | none => miss s

/-- The landmarks and the pose of a candidate keyframe as a reader sees them: none where no edition or edit holds it, where it is
retired, or where its sheet is missing (R38, R332, R391). -/
def State.candidate (s : State) (edition : Nat) (view : Edition) (kf : Nat) : Option (List Considered × Bytes) :=
  match view.find .keyframe kf with
  | none => none
  | some (sheet, b) =>
    if MapTable.retired .keyframe b || s.sheetMissingIn edition sheet then none
    else some (joinedLandmarks view (fun k => s.sheetMissingIn edition k) kf, b)

/-- A candidate keyframe of a relocalisation has been verified (R316, R391, R392). -/
def State.endCandidate (s : State) (i : Nat) (x : Session) (v : Service) (kf : Nat) (rest : List Nat) : State :=
  let c := s.candidate v.edition (s.seen v.edition v.draft) kf
  let start := match c with
    | some r => framePose r.2
    | none => { t := Vec3.zero, q := Quat.one }
  let m := v.settings s.map
  let r := m.poseSolve x.desc start (correspond m v.keypoints (c.elim [] (·.1)))
  let s := s.countSolve m r
  let v := { v with inliers := r.inliers, matched := r.matched }
  match (if r.inliers < x.desc.minInliers then none else r.pose) with
  | some z => s.endQuery i v {
      pose := some z, filter := some (seedFilter z.1 z.2 v.query.capture), misses := 0, mode := .tracking
      marks := some r.marks, relocalised := true }
  | none => if rest.isEmpty then s.endLost i x v else s.serveStep i { v with step := .verifying rest }

/-- SMALL_SOLVE_END: the pose solve of a session's query ends: the filter, the answer, loss, relocalisation follow (R26,
R294, R304, R307, R309 to R316, R392). -/
def execSmallSolveEnd (index : Nat) (s : State) : Answer :=
  .next <|
    match s.session index with
    | none => s
    | some x =>
      match x.service with
      | none => s
      | some v =>
        if !s.answerable v.query then ((s.setSession index { x with service := none }).freeEdition (3 * index + 2)).freeIfDone index
        else
          match v.step, v.predicted with
          | .solving, some f => s.endTracking index x v f
          | .verifying (kf :: rest), _ => s.endCandidate index x v kf rest
          | _, _ => s

/-- BEST_EFFORT_TIMEOUT: the oldest BEST_EFFORT query that waits has found no spare capacity within 10 ms (R320, R322). -/
def execBestEffortTimeout (index : Nat) (s : State) : Answer :=
  .next <|
    match s.session index with
    | none => s
    | some x =>
      match x.closed.find? (fun q => !q.guaranteed && decide (q.closedAt + 10000000 ≤ s.now)) with
      | none => s
      | some q => ((s.setSession index { x with closed := x.closed.erase q }).violateQuery index q stNoResource 0x0D).freeIfDone index

end Sys2Proof.Machine
end

