-- ==== Sys2Proof/Machine/FrameStages.lean ====
section
/-! DEFINITION. The stages of a frame, the keyframe decision, loop candidates, and the results of searches (R37, R249 to
R252, R390, R399, R414, R415, R418). -/
namespace Sys2Proof.Machine

/-! ## FLOW, FEATURES, FUSION (R244, R245, R249) -/

/-- A flow field of a plane's size as an owner image writes it: header and rows (R244, R245). -/
def fieldWritten (w h : Nat) (b : Bytes) : Field :=
  { number := fldB b 0 4, refNumber := fldB b 4 4, capture := fldB b 8 8, refCapture := fldB b 16 8, width := fldB b 24 2
    height := fldB b 26 2, levels := fldB b 28 1, flags := fldB b 30 2
    valid := fldB b 32 4, noTexture := fldB b 36 4, occluded := fldB b 40 4, outside := fldB b 44 4, beyond := fldB b 48 4
    motion := fldB b 52 8
    rows := (List.range h).map (fun y => (List.range w).map (fun x =>
      (fldB b (64 + y * up64 (4 * w) + 4 * x) 2, fldB b (66 + y * up64 (4 * w) + 4 * x) 2))) }

/-- The head of the field of an own frame `f` and its reference or pair frame `o`: the own frame's numbers stand first in both
modes, INCOMPLETE is set if either frame is incomplete, BAND_SRAM where the own frame used the fall-back band (R235, R244). -/
def fieldHead (set : GraphSet) (w h levels : Nat) (f o : Frame) : FieldHead :=
  { number := f.number % 2 ^ 32, refNumber := o.number % 2 ^ 32, capture := f.capture, refCapture := o.capture, width := w
    height := h, levels := levels
    flags := flag set.stereo + 2 * flag set.lrCheck + 4 * flag f.bandSram +
      8 * flag (decide (0 < f.linesMissing) || decide (0 < o.linesMissing)) }

/-- The flow field of a frame in flight: computed by Thagrim's image, given by an owner's (R238 to R245). I1 is the
reference frame in temporal flow and the own frame in stereo. -/
def State.fieldFor (s : State) (k : Nat) (g : Graph) (r : FrameRun) (given : Option Bytes) : Option Field :=
  let place := if g.set.stereo then g.set.pair.getD k else k
  match r.other.bind (fun o => s.frameIn place o.2), s.frameIn k r.buffer, s.stream k with
  | some o, some f, some x =>
    let z := s.planeSize x.desc
    if (s.image g.set.flowImage).elim false (·.ownerSigned) then given.map (fieldWritten z.1 z.2)
    else
      let a := s.frameLevels k g.set.levels f
      let b := s.frameLevels place g.set.levels o
      let p := if g.set.stereo then (a, b) else (b, a)
      some (fieldOf (fieldHead g.set z.1 z.2 a.length f o)
        (flowField g.set.stereo g.set.lrCheck g.set.textureMin g.set.lrTol p.1 p.2))
  | _, _, _ => none

/-! ## KEYFRAMES (R251, R331, R388, R399) -/

/-- The decision of R251: the graph's sums after it, and the reason of a keyframe. -/
def Graph.decide_ (g : Graph) (r : FrameRun) (pixels : Nat) : Graph × Option Nat :=
  if r.restart then ({ g with msum := 0, gap := 0 }, some 0)
  else
    let valid := (r.field.map (·.valid)).getD 0
    let motion := (r.field.map (·.motion)).getD 0
    let msum := (g.msum + (if valid = 0 then 0 else motion / valid)) % 2 ^ 64
    let gap := g.gap + 1
    let on := ({ g with msum := 0, gap := 0 } : Graph)
    if valid * 100 < g.set.validMin * pixels then ({ g with msum := msum, gap := gap }, none)
    else if g.set.keyMotion ≤ msum then (on, some 1)
    else if g.set.keyMaxGap ≤ gap then (on, some 2)
    else ({ g with msum := msum, gap := gap }, none)

/-- A new keyframe's record with the fields that the device knows (R331). -/
def keyframeFields (b : Bytes) (stream capture number features place first : Nat) (loop : Bool) : Bytes :=
  b.take 148 ++ le 4 stream ++ le 8 capture ++ le 4 number ++ le 4 features ++ le 8 place ++ le 8 first ++
    (b.drop 184).take 1 ++ le 1 (4 * flag loop) ++ b.drop 186

/-- A new landmark's record with the product code of the keypoint it is made from (R330, R388). -/
def landmarkCoded (m : MapSt) (features : List Keypoint) (b : Bytes) (k : Option Nat) : Bytes :=
  match k.bind (fun i => features[i]?) with
  | none => b
  | some p => b.take 48 ++ productCode (matchTable m.book p.desc)

/-- The AUTO edit of a keyframe, from the records that the carrels' work gives: one new keyframe and its new landmarks
(R338). Its writes, the keyframe's identifier, the last serial used. -/
def State.keyframeWrites (s : State) (batch : Bytes) (marks : List Nat) (features : List Keypoint)
    (fields : Bytes → Bytes) : Option (List MapWrite × Nat × Nat) :=
  match batchOf batch.length batch with
  | none => none
  | some t =>
    let fresh (b : Bytes) : Bool := fldB b 0 8 = 0
    let t := { t with
      landmarks := ((List.range t.landmarks.length).zip t.landmarks).map (fun (e : Nat × Bytes) => landmarkCoded s.map features e.2 marks[e.1]?)
      keyframes := t.keyframes.map fields }
    if t.keyframes.length ≠ 1 || !t.keyframes.all fresh || !t.landmarks.all fresh then none
    else
      let next := s.map.flash.lastId + 1
      let v := s.view s.map.lastInked s.draftCut
      (t.writes s.position next v (fun tb id => (v.find tb id).isSome)).map
        (fun (w : List MapWrite × Nat) => (w.1, s.position * 2 ^ 37 + next + t.landmarks.length, w.2 - 1))

/-- The vectors of a keyframe placed in the addenda (R249, R399): its first keypoint vector and its place vector, 0 where
there is none. -/
def State.insertKeyframe (s : State) (id : Nat) (features : List Keypoint) (place : Bytes) : Nat × Nat × State :=
  let kp := s.deviceInsert 1 (((List.range features.length).zip features).map (fun e => (takePad 128 e.2.desc, id + e.1 * 2 ^ 40)))
  let pl := kp.2.deviceInsert 0 [(takePad 512 place, id)]
  (kp.1.getD 0, pl.1.getD 0, pl.2.tryReshelving)

/-- A keyframe of a frame (R249 step 5, R338, R399): its vectors, its AUTO edit, and with LOOP the search for candidates. -/
def State.addKeyframe (s : State) (k : Nat) (g : Graph) (r : FrameRun) (f : Frame) (place batch : Bytes) (marks : List Nat) :
    State :=
  let plain (b : Bytes) : Bytes := keyframeFields b k f.capture r.number 0 0 0 g.set.loop
  match s.keyframeWrites batch marks r.features plain with
  | none => s
  | some (_, id, _) =>
    let v := s.insertKeyframe id r.features place
    let n := if v.1 = 0 then 0 else r.features.length
    let full (b : Bytes) : Bytes := keyframeFields b k f.capture r.number n v.2.1 v.1 g.set.loop
    match v.2.2.keyframeWrites batch marks r.features full with
    | none => s
    | some (ws, id, last) =>
      let e := v.2.2.deviceEdit 1 ws last none 0 none []
      match e.1 with
      | .error _ => e.2.deleteVectors ((if v.2.1 = 0 then [] else [v.2.1]) ++ (List.range n).map (fun i => v.1 + i))
      | .ok _ =>
        if !g.set.loop then e.2
        else
          let p : SearchParams := {
            coll := 0, widen := false, invert := false, localOnly := false, k := 100, list := 128, limit := 4096, mask := 0
            value := 0, expand := 256 }
          let q := (e.2.startSearch (.loop id) p (takePad 512 place)).2
          { q with vision := { q.vision with loops := amSet q.vision.loops id r.features } }

/-- Step 5 of a frame (R249, R251, R252). -/
def State.keyframeStage (s : State) (k : Nat) (g : Graph) (r : FrameRun) (place batch : Bytes) (marks : List Nat) : State :=
  match s.stream k, s.frameIn k r.buffer with
  | some x, some f =>
    let z := s.planeSize x.desc
    let d := g.decide_ r (z.1 * z.2)
    let s := s.setGraph k (d.1.modFrame r.number (fun q => { q with stage := 6 }))
    match d.2 with
    | none => s
    | some why =>
      let s := (s.modGraph k (fun g => { g with keyframes := satAdd 32 g.keyframes 1 })).graphEvent k
        { code := 0x0702, subject := k, detail := why, value := r.number % 2 ^ 32 }
      s.addKeyframe k g r f place batch marks
  | _, _ => s

/-- Whether a batch has a record in a sheet that is being moved: what needs the sheet waits until the move completes (R33). -/
def State.batchMoving (s : State) (batch : Bytes) : Bool :=
  match batchOf batch.length batch with
  | none => false
  | some t =>
    let v := s.roomEdition s.map.lastInked
    t.assigned.any (fun w => (v.sheetFor w).any s.sheetMoving)

/-- FRAME_STAGE_END: the stage that a frame is in ends (R249 to R252); of several frames of a graph at one stage the first to
have entered is in it and the others wait for it. `field` is the field an owner flow image wrote,
`features` what the features image found, `place` what the place image found, `batch` the records of the keyframe's edit
as R349 lays them out with `marks` the keypoint of each landmark; `poisoned` says whether a poisoned word reached a
product. -/
def execFrameStageEnd (stream number : Nat) (field : Option Bytes) (features : List Keypoint) (place batch : Bytes)
    (marks : List Nat) (poisoned : Bool) (s : State) : Answer :=
  .next <|
    match s.graph stream with
    | none => s
    | some g =>
      match g.frame number with
      | none => s
      | some r =>
        let move (f : FrameRun → FrameRun) : State :=
          s.setGraph stream (g.modFrame number (fun q => s.atStage stream g { f q with stage := g.set.next q.stage }))
        if 5 < r.stage || s.reference.state ≠ .normal then s
        else if (g.inFlight.find? (fun q => q.stage == r.stage)).map (·.number) ≠ some number then s
        else if poisoned then s.skipEntered stream number 3
        else if r.stage = 2 then
          match s.fieldFor stream g r field with
          | none => s
          | some x => move (fun q => { q with field := some x })
        else if r.stage = 3 then move (fun q => { q with features := features.take 2048 })
        else if r.stage = 4 then
          match s.frameIn stream r.buffer with
          | none => s
          | some f => (move id).handOver 0 {
              stream := stream, number := number, instant := f.capture, implausible := f.implausible, data := .frame r.features }
        else if g.inFlight.any (fun q => decide (q.number < number) && decide (q.stage ≤ 5)) || s.batchMoving batch then s
        else s.keyframeStage stream g r place batch marks

/-! ## Loop candidates (R37, R249, R390) -/

/-- What the verification of a candidate gives: its keyframe, its pose, the solved pose and the covariance. -/
structure Verified where
  id : Nat
  pose : Pose
  solved : Pose
  cov : List F64

/-- The first candidate that reaches LOOP_MIN_INLIERS, with the solves counted; one that is retired or whose sheet is missing is passed
over (R38, R332, R390). -/
def State.verifyLoop (s : State) (v : Edition) (keypoints : List Keypoint) : List Nat → State × Option Verified
  | [] => (s, none)
  | c :: cs =>
    match s.candidate s.map.lastInked v c with
    | none => s.verifyLoop v keypoints cs
    | some (marks, rec) =>
        let p := poseProblem s.map (cameraOf rec) (framePose rec) (correspond s.map keypoints marks)
        let r := smallSolve p s.map.smallParams s.map.inlierChi2
        let s := (s.tallySmall p s.map.smallParams r.progress).bumpSolve 10 1
        match r.progress.x.head?, r.cov with
        | some (.pose z), some cov =>
          if s.map.loopMinInliers ≤ r.inliers.length && r.progress.ended ≠ some .diverged then
            (s, some { id := c, pose := framePose rec, solved := z, cov := cov })
          else s.verifyLoop v keypoints cs
        | _, _ => s.verifyLoop v keypoints cs

/-- The loop edge of a verified candidate (R332, R390). -/
def loopEdge (m : MapSt) (keyframe : Nat) (c : Verified) : Bytes :=
  let t := mulMV (transpose3 c.solved.q.rows) (c.pose.t.sub c.solved.t)
  let r := qlog ((c.solved.q.conj.mul c.pose.q).canon)
  let floor_ (i : Nat) : F64 := if i < 3 then f64dec 1 2 else f64dec 1 3
  let sigma := (List.range 6).map (fun i => f64max (f64sqrt (c.cov.getD (covIndex 6 i i) 0)) (floor_ i))
  let scale := (fmtF16.encode .rne false (fmtF64.decode m.huberScale.toNat)).bits
  [3, 0, 1, 0] ++ le 5 keyframe ++ le 5 c.id ++ le 2 scale ++ (t.list ++ r.list ++ sigma).flatMap bytes32

/-- Chebyshev distance of two sheets in sheet coordinates. -/
def sheetGap (a b : Nat) : Nat := max (sheetX a - sheetX b).natAbs (sheetY a - sheetY b).natAbs

/-- The region of a loop edit (R390 step 1). -/
def State.loopRegion (s : State) (a b : Nat) : List Nat :=
  let near (k : Nat) : Nat := min (sheetGap k a) (sheetGap k b)
  let l := (s.map.flash.sheets.map (·.1)).filter (fun k => decide (near k ≤ s.map.loopRadius))
  (sortBy (fun x y => decide (near x < near y) || (near x == near y && decide (x < y))) l).take 256

/-- The search for a keyframe's loop candidates has ended: they are verified in order, and the first accepted forms a SOLVE
edit after the keyframe's own (R338, R390). -/
def State.loopFound (s : State) (keyframe : Nat) (hits : List SearchHit) : State :=
  let keypoints := (amGet s.vision.loops keyframe).getD []
  let s := { s with vision := { s.vision with loops := amDel s.vision.loops keyframe } }
  let v := s.view s.map.lastInked s.draftCut
  match v.find .keyframe keyframe with
  | none => s
  | some (here, _) =>
    match s.verifyLoop v keypoints ((hits.map (fun h => h.attr % 2 ^ 40)).filter (· ≠ keyframe)) with
    | (s, none) => s
    | (s, some c) =>
      let e := loopEdge s.map keyframe c
      let there := ((v.find .keyframe c.id).map (·.1)).getD here
      let work : LoopWork := { keyframe := keyframe, candidate := c.id, region := s.loopRegion here there }
      (s.deviceEdit 2 [{ table := .edge, key := edgeKey e, data := e }] s.map.flash.lastId (some work) 0 none
        (s.writersOf { table := .keyframe, key := keyframe, data := [] })).2

/-! ## The results of searches (R414, R415, R418, R422) -/

/-- A search that has ended is handed to its owner (R37, R316, R390, R421). -/
def State.searchEnded (s : State) (number : Nat) (x : Search) (e : SearchEnd) : State :=
  match x.owner with
  | .job n => s.endSearchJob n x e
  | .session i => s.sessionFound i number e.found
  | .loop k => s.loopFound k e.found

/-- SEARCH_MEMBER_RESULT: a member's survivors reach the issuing member, which merges them once all have answered; `remote`
is what another member sends (R414, R415). -/
def execSearchMemberResult (number member : Nat) (remote : Option RemoteResult) (s : State) : Answer :=
  .next <|
    match amGet s.catalogue.searches number with
    | none => s
    | some x =>
      if !x.waiting.contains member then s
      else
        match s.resultOf number member remote with
        | none => s
        | some r =>
          let x := x.take_ r
          match s.judgeSearch number x with
          | (s, some e) => s.searchEnded number x e
          | (s, none) => s

/-- SEARCH_DEADLINE: the deadline of a SEARCH job has passed: what has come is merged, with this member's lists after `own`
expansions of its generation and of its addenda graph (R418). -/
def execSearchDeadline (number : Nat) (own : Nat × Nat) (s : State) : Answer :=
  .next <|
    match amGet s.catalogue.searches number with
    | none => s
    | some x =>
      match x.owner with
      | .job n =>
        match s.job n with
        | none => s
        | some j =>
          if !s.passed (deadlineOf j.slip) then s
          else
            let c := s.cutSearch number x own
            let e := c.1.endOf c.2 true
            (c.1.leaveSearch number c.2 e).endSearchJob n c.2 e
      | _ => s

end Sys2Proof.Machine
end

