-- ==== Sys2Proof/Machine/Faults.lean ====
section
/-! DEFINITION. Faults and what they discard: carrels, the band ring, the work of a unit (R86, R113, R150, R175, R201, R202, R235,
R250, R288, R324, R395, R438, R538). -/
namespace Sys2Proof.Machine

/-! ## Discards (R113, R538) -/

/-- Jobs discarded by a fault, with the large solves and the runs they had: the generations first, then the work (R113, R171,
R395). -/
def State.discardJobs (s : State) (p : Job → Bool) : State :=
  let s := (s.faultQueues p).discardWhere p
  let lost := (s.collator.solves.filter (fun x => match x.owner with | .job n => !s.running n | .loop _ => false)).length
  (s.bumpSolve 3 lost).sweepSolves

/-- Jobs named by number discarded. -/
def State.discardNumbers (s : State) (l : List Nat) : State := s.discardJobs (fun j => l.contains j.num)

/-- A session's query discarded: the one in service, or the oldest closed one that waits for its step 4, or the one under assembly
(R324). -/
def State.discardQuery (s : State) (i : Nat) : State :=
  match s.session i with
  | none => s
  | some x =>
    match x.service, x.closed with
    | some _, _ => s.discardService i
    | none, q :: _ => s.discardClosed i q
    | none, [] => s.discardAssembling i

/-- The query of a session that a QUERY_SEQ names discarded: under assembly, in service or closed (R324, R546). -/
def State.discardSeq (s : State) (i seq : Nat) : State :=
  match s.session i with
  | none => s
  | some x =>
    if x.assembling.any (fun q => q.seq == seq) then s.discardAssembling i
    else if x.service.any (fun v => v.query.seq == seq) then s.discardService i
    else match x.closed.find? (fun q => q.seq == seq) with
      | some q => s.discardClosed i q
      | none => s

/-- Every query that a session's stage holds discarded: in service, closed, under assembly (R324). -/
def State.discardQueries (s : State) (i : Nat) : State :=
  match s.session i with
  | none => s
  | some x => (x.closed.foldl (fun s q => s.discardClosed i q) (s.discardService i)).discardAssembling i

/-- A large solve discarded by a fault (R395): a job's is answered, a loop's is run once more or withdrawn. -/
def State.faultSolve (s : State) (o : SolveOwner) : State :=
  match o with
  | .job n => s.discardNumbers [n]
  | .loop _ => s.discardSolve o

/-- The frames in flight of a graph discarded: the next is a restart (R250). -/
def State.discardFrames (s : State) (k : Nat) : State :=
  match s.graph k with
  | none => s
  | some g => (g.inFlight.foldl (fun s r => s.skipEntered k r.number 4) s).modGraph k (fun g => { g with restart := true })

/-- The unit under assembly of a stream discarded by a fault of its station: it counts as incomplete, and the chains restart
(R202, R215). -/
def State.discardAssembly (s : State) (k : Nat) : State :=
  match s.stream k with
  | none => s
  | some x =>
    let n := flag (x.frame.isSome || x.set.isSome)
    let s := s.setStream k { x.discardUnit with incomplete := satAdd 32 x.incomplete n }
    if x.desc.kind = 1 then (s.restartChains k true).modStream k (fun x => { x with expected := none, resync := true }) else s

/-- A search that a fault discards: its job is answered, its session's query discarded, its loop check dropped (R438). -/
def State.discardSearch (s : State) (number : Nat) : State :=
  match amGet s.catalogue.searches number with
  | none => s
  | some x =>
    match x.owner with
    | .session i => s.discardService i
    | .job n => (s.leaveSearch number x (s.endOf x true)).discardNumbers [n]
    | .loop k =>
      let s := s.leaveSearch number x (s.endOf x true)
      { s with vision := { s.vision with loops := amDel s.vision.loops k } }

/-- The searches in flight that have read from a shelf engine discarded: this member's own, and another's, which is told (R438; log
14). A reshelving that was writing on the engine starts its writing anew from G; the engine's slots and reads are cleared. -/
def State.loseEngine (s : State) (e : Nat) : State :=
  let s := (s.modEngine e (fun x => { x with tables := [], reads := [] })).modCat (fun c => { c with
    reshelving := c.reshelving.map (fun r =>
      if ((c.reshelve r).touched).any (fun seg => c.current.engines.getD (seg / 4096) 0 == e) then { r with since := s.now } else r) })
  (s.catalogue.served.filter (fun v => v.engines.contains e)).foldl (fun s v =>
    if v.member = s.position then s.discardSearch v.number else (s.control v.member 0x43 [v.number]).dropServed v.member v.number) s

/-! ## Carrel faults (R127, R150, R175, R250, R288) -/

/-- A tile run discarded by a fault: of the epoch that computes, or of the amendment that runs (R288). -/
def State.loseTile (s : State) : State :=
  s.modConcord (fun c => { c with
    computing := c.computing.map (fun e => { e with failedTiles := e.failedTiles + 1 }), amendFailed := c.amendFailed || c.amending })

/-- What a stage's fault discards beside jobs: frames in flight of graphs whose flow or features stage it is, a tile run of
the fusion image. -/
def State.discardStage (s : State) (h : Nat) : State :=
  let gs := s.vision.graphs.filter (fun g => (g.2.set.flow && g.2.set.flowImage == h) || (g.2.set.features && h == upkeepFeatures))
  let s := gs.foldl (fun s g => s.discardFrames g.1) s
  match s.concord.grid with
  | some g => if g.image = h then s.loseTile else s
  | none => s

/-- What an image has in flight on the mesh goes with its runs: messages and credits of its carrels, the tokens its slots hold and
the steps they run; every producer holds all its credits again (R150, R175). -/
def State.dropHandovers (s : State) (h : Nat) : State :=
  let l := s.carrelsOf h
  let mine (t : CreditTo) : Bool := match t with | .carrel c _ => l.contains c | .input k _ _ => k == h
  let s : State := { s with fabric := { s.fabric with
    mesh := s.fabric.mesh.filter (fun m => !l.contains m.src && !l.contains m.dst)
    credits := s.fabric.credits.filter (fun m => !mine m.to_) } }
  let s := l.foldl (fun s c => s.modCarrel c (fun x => { x with
    state := if x.state = .running then .ready else x.state
    ins := x.ins.map (fun p => { p with held := [] })
    outs := x.outs.map (fun p => { p with credits := List.range p.slots }) })) s
  s.modImage h (fun x => { x with inCredits := inputCredits x.content })

/-- A carrel halts: the jobs that hold its stage are discarded with what they have in flight, and the slot is free to be loaded
elsewhere (R127, R175). -/
def State.stopCarrel (s : State) (c : Nat) : State :=
  let x := s.carrel c
  let s := match x.bound with
    | none => s
    | some b => ((((s.discardNumbers ((s.runsOf b.handle).map (fun (r : Run) => r.job))).discardStage b.handle).endUnbindings).dropHandovers
        b.handle).unplace x
  s.modCarrel c (fun y => { y with state := .halted, bound := none, ins := [], outs := [] })

/-- A carrel that works halted, with its record (R127, R150, R175). -/
def State.haltCarrel (s : State) (c code : Nat) : State :=
  let x := s.carrel c
  if x.state ≠ .running && x.state ≠ .ready then s
  else (s.tell [.errata { cls := 3, unit := 0x0001, inst := c, code := code, scope := 1, location := c * 2 ^ 24 }]).stopCarrel c

/-- CARREL_FAULT: a carrel meets a fault of R150: `code` is the reason in the record, `solve` the large solve whose slot it
holds, `sessions` the sessions whose image query its stage was serving. -/
def execCarrelFault (carrel code : Nat) (solve : Option SolveOwner) (sessions : List Nat) (s : State) : Answer :=
  .next <|
    let x := s.carrel carrel
    if x.state ≠ .running && x.state ≠ .ready then s
    else
      let s := s.haltCarrel carrel code
      let s := match solve with
        | some o => s.faultSolve o
        | none => s
      sessions.foldl (fun s i => s.discardQuery i) s

/-! ## The band ring (R235) -/

/-- A stream falls back to a band in its station's SRAM; with the pool full it drops its frames whole (R196, R235). -/
def State.fallBack (s : State) (k : Nat) : State :=
  match s.stream k with
  | none => s
  | some x =>
    if x.sramBand || x.poolWait || (s.remapOf x.desc).isNone then s
    else
      let number := (x.frame.map (·.number)).getD x.closedUnits
      if s.poolRoom k x.desc then
        (s.setStream k { x with sramBand := true, ringGranted := false, frame := x.frame.map (fun f => { f with bandSram := true }) }).bandEvent
          k 0 number
      else
        let y := { x with poolWait := true, ringGranted := false }
        match x.frame with
        | none => s.setStream k y
        | some f =>
          match f.buffer with
          | none => s.setStream k y
          | some b =>
            (s.setStream k { y with
              busy := satAdd 32 x.busy 1, frame := some { f with buffer := none }, buffers := setAt x.buffers b .free }).streamEvent k
                { code := 0x0821, subject := k, detail := 0, value := number % 2 ^ 32 }

end Sys2Proof.Machine
end

