-- ==== Sys2Proof/Machine/FixedQueues.lean ====
section
/-! DEFINITION. The fixed queues 0, 1 and 2 and their registers (R81, R585, R586). -/
namespace Sys2Proof.Machine

/-- The kind of a fixed queue (R81, R585). -/
def fixedKind (q : Nat) : QKind := if q = 0 then .submission else if q = 1 then .ret else .event

/-- Whether the registers of a fixed queue hold values of R585; VECTOR, COAL_COUNT and COAL_TIME do not count for queue 0. -/
def fixedFieldsOk (q : Nat) (r : FixedReg) : Bool :=
  r.ring % 4096 = 0 && decide (4 ≤ r.log2) && decide (r.log2 ≤ 16) &&
    (q = 0 || ((decide (r.vector ≤ 2047) || r.vector = noVector) && decide (r.coalTime ≤ 1000) &&
      !(decide (1 < r.coalCount) && r.coalTime = 0)))

/-- The context of a fixed queue as GO makes it; queue 2 keeps its count of events dropped since its reset (R86, R586, R614). -/
def fixedContext (q : Nat) (x : Queue) (r : FixedReg) : Queue :=
  { x with
    ringAddr := r.ring, bufAddr := 0, kind := fixedKind q, log2 := r.log2, gen := nextGen x.gen, state := .active, head := 0, tail := 0
    partner := if q = 0 then 1 else 0, vector := if q = 0 then noVector else r.vector, coalCount := if q = 0 then 0 else r.coalCount
    serving := false, coalTime := if q = 0 then 0 else r.coalTime, quota := 4096, phase := true, entryTimes := [], binding := 0
    drain := .none }

/-- A bit of a number set or cleared. -/
def putBit (v i : Nat) (b : Bool) : Nat := v - flag (v.testBit i) * 2 ^ i + flag b * 2 ^ i

/-- ERROR of a queue set or cleared (R585). -/
def State.setGoError (s : State) (q : Nat) (b : Bool) : State := s.modCirc (fun c => { c with goError := putBit c.goError q b })

/-- One GO bit acts (R586). -/
def State.goQueue (s : State) (q : Nat) : State :=
  let x := s.desk.circ.queue q
  let r := s.desk.circ.fixed.getD q {}
  if x.state ≠ .free then s.dropWrite
  else if fixedFieldsOk q r && (q ≠ 0 || (s.desk.circ.queue 1).state = .active) then
    (s.setGoError q false).modCirc (fun c => c.setQueue q (fixedContext q x r))
  else (s.setGoError q true).tell (circMistake 0x0C q)

/-- The GO bits of a value act in the order 1, 2, 0 (R586). -/
def State.goBits (s : State) (v : Nat) : State :=
  [1, 2, 0].foldl (fun s q => if v.testBit q then s.goQueue q else s) s

/-- GO bits held act once GEN_STATE reads READY or MINIMAL (R586). -/
def State.goHeldBits (s : State) : State :=
  (s.modCirc (fun c => { c with goHeld := 0 })).goBits s.desk.circ.goHeld

/-- A write of CIRC_FIXED_GO (R577, R586). -/
def State.writeGo (s : State) (value : Nat) : State :=
  if bitsOf value 31 3 ≠ 0 then s.dropWrite
  else if s.boot.gen = .ready || s.boot.gen = .minimal then s.goBits value
  else s.modCirc (fun c => { c with goHeld := c.goHeld ||| value })

/-- CIRC_FIXED_GO: a host write of the GO bits (R586). -/
def execCircFixedGo (value : BitVec 32) (s : State) : Answer :=
  .next (s.pcieAccess (.circFixedGo value) (fun s => s.writeGo value.toNat))

/-- The final return slips that wait for a queue lost with it, their places in flight freed (R614). -/
def Circ.loseWaiting (c : Circ) (rq : Nat) : Circ :=
  (c.jobs.filter (fun j => j.waiting && c.returnOf j.sq == rq)).foldl
    (fun c j => c.leave j (match j.ending with | some e => e.status == stDiscarded | none => false)) c

/-- One fixed queue reset: its call slips in flight are discarded, the return slips that wait for it are lost (R586, R614). -/
def State.resetFixed (s : State) (q : Nat) : State :=
  let x := s.desk.circ.queue q
  match x.state with
  | .free => s
  | .draining => (s.modCirc (fun c => (c.setQueue q { x with drain := .fixed }).loseWaiting q)).discardWhere (fun j => j.sq == q)
  | _ => (s.modCirc (fun c => (c.setQueue q (drainQueue x .fixed)).loseWaiting q)).discardWhere (fun j => j.sq == q)

/-- A write of CIRC_FIXED_RESET: a reset of queue 1 also resets queue 0 (R577, R586). -/
def State.writeFixedReset (s : State) (value : Nat) : State :=
  if bitsOf value 31 3 ≠ 0 then s.dropWrite
  else
    let one := value.testBit 1 && (s.desk.circ.queue 1).state ≠ .free
    [1, 2, 0].foldl (fun s q => if value.testBit q || (q = 0 && one) then s.resetFixed q else s) s

/-- CIRC_FIXED_RESET: a host write of the reset bits (R586, R614). -/
def execCircFixedReset (value : BitVec 32) (s : State) : Answer :=
  .next (s.pcieAccess (.circFixedReset value) (fun s => s.writeFixedReset value.toNat))

end Sys2Proof.Machine
end

