-- ==== Sys2Proof/Machine/LinkFrames.lean ====
section
/-! DEFINITION. The receiving side of the Jalzel links: frames, acknowledgement, replay, credits, messages (R455 to R461,
R464, R466). -/
namespace Sys2Proof.Machine

/-! ## The frame (R456) -/

/-- Bytes of a frame. -/
def frameBytes : Nat := 3400

/-! ## Acknowledgement and replay (R457, R458, R466) -/

/-- (i32)(a - b) is 0 or below: a sequence number not beyond another, modulo 2^32. -/
def notBeyond (a b : Nat) : Bool := decide (toInt 32 ((a + 2 ^ 32 - b % 2 ^ 32) % 2 ^ 32) ≤ 0)

/-- An ACK_SEQ taken: the frames that it covers are kept no longer, and messages may go on. One that acknowledges a frame
never sent retrains the link. -/
def State.takeAck (s : State) (p ack : Nat) : State :=
  let x := s.jalzel p
  if !notBeyond ack ((x.nextSeq + 2 ^ 32 - 1) % 2 ^ 32) then (s.jalzelViolation p 0x08 (x.partner.getD 0xFF)).retrain p
  else s.modJalzel p (fun x => { x with kept := x.kept.filter (fun k => !notBeyond k.seq ack) })

/-- Every kept frame sent again, in order; the first of them for the sixteenth time without its acceptance retrains the
link. -/
def State.replayKept (s : State) (p : Nat) : State :=
  let x := s.jalzel p
  match x.kept with
  | [] => s
  | k :: rest =>
    let s := (s.modJalzel p (fun x => { x with
      kept := { k with replays := k.replays + 1 } :: rest, replayed := satAdd 64 x.replayed x.kept.length })).emit
        (x.kept.map (fun k => Output.frame p 1 [k.seq]))
    if 16 ≤ k.replays + 1 then s.retrain p else s

/-- A replay request taken: its ACK_SEQ, then the frames after it once more. -/
def State.takeReplay (s : State) (p ack : Nat) : State :=
  let s := s.takeAck p ack
  if (s.jalzel p).state = .up then (s.replayKept p).pumpPort p else s

/-- A replay request sent, naming the last accepted frame. -/
def State.askReplay (s : State) (p : Nat) : State :=
  (s.modJalzel p (fun x => { x with asked := true, askedAt := s.now, requests := satAdd 64 x.requests 1 })).emit
    [.frame p 0 [(s.jalzel p).accepted]]

/-- A frame that is not accepted: one replay request stands for the expected frame. -/
def State.refuseFrame (s : State) (p : Nat) : State := if (s.jalzel p).asked then s else s.askReplay p

/-! ## Messages out of the words (R459, R460, R461, R466) -/

/-- Data words of a message kind, at most. -/
def kindWords (k : Nat) : Option Nat :=
  if k = 1 || k = 4 || k = 7 then some 0
  else if k = 2 || k = 3 || k = 6 || k = 8 || k = 9 then some 128
  else if k = 5 then some 1
  else none

/-- Words of a channel received. -/
def Jalzel.receive (x : Jalzel) (c n : Nat) : Jalzel := { x with received := modAt x.received c (fun w => (w + n) % 65536) }

/-- Words of a channel freed. -/
def Jalzel.free (x : Jalzel) (c n : Nat) : Jalzel := { x with freed := modAt x.freed c (fun w => (w + n) % 65536) }

/-- Words of a channel that the receiver holds. -/
def Jalzel.holds (x : Jalzel) (c : Nat) : Nat := (natAt x.received c + 65536 - natAt x.freed c) % 65536

/-- A message from its header word and its data words. -/
def linkMsgOf (h : Bytes) (ws : List Bytes) : LinkMsg :=
  { kind := fldB h 0 1, channel := fldB h 1 1, source := fldB h 2 1, dest := fldB h 3 1, tag := fldB h 6 2
    address := fldB h 8 8, poison := fldB h 16 16, words := ws }

/-- What a whole message comes to: kept for its taker, or dropped (R466 reasons 3 and 6). -/
def State.arriveMsg (s : State) (p : Nat) (m : LinkMsg) : State :=
  let n := m.count
  if (kindWords m.kind).isNone || decide (3 < m.channel) then
    (s.modJalzel p (fun x => (x.receive m.channel n).free m.channel n)).jalzelViolation p 0x03 m.source
  else if m.dest ≠ s.position then
    (s.modJalzel p (fun x => (x.receive m.channel n).free m.channel n)).jalzelViolation p 0x06 m.source
  else s.modJalzel p (fun x => { x.receive m.channel n with inbox := x.inbox ++ [m] })

/-- Whole messages taken out of the word stream of a port; the fuel is how many words it holds. Words beyond a message's
bounds, or beyond credit, retrain the link (R466 reasons 4 and 5). -/
def State.parseStream (p : Nat) : Nat → State → State
  | 0, s => s
  | n + 1, s =>
    match (s.jalzel p).stream with
    | [] => s
    | h :: ws =>
      let k := fldB h 4 2
      let c := fldB h 1 1
      let clear (s : State) : State := s.modJalzel p (fun x => { x with stream := [] })
      if decide (128 < k) || (kindWords (fldB h 0 1)).any (fun m => decide (m < k)) then
        (clear (s.jalzelViolation p 0x04 (fldB h 2 1))).retrain p
      else if decide (c < 4) && decide (1024 < (s.jalzel p).holds c + 1 + k) then
        (clear (s.jalzelViolation p 0x05 (fldB h 2 1))).retrain p
      else if ws.length < k then s
      else
        State.parseStream p n
          ((s.modJalzel p (fun x => { x with stream := ws.drop k })).arriveMsg p (linkMsgOf h (ws.take k)))

/-! ## JALZEL_FRAME (R456, R457, R459) -/

/-- The words of a data frame decided by the word code. -/
def frameDecisions (f : Bytes) : List (Nat × Bytes × Decision) :=
  (List.range (min 96 (fldB f 17 1))).map (fun i => (i, frameWord f i, decideWord (frameWord f i)))

/-- A data frame in sequence whose words are all clean or corrected: each corrected word is counted and reported, and the
words are delivered. A frame that had to be asked for again is recorded as corrected (R74, R76, R457, R537). -/
def State.acceptFrame (s : State) (p : Nat) (f : Bytes) : State :=
  let x := s.jalzel p
  let ds := frameDecisions f
  let s := ds.foldl (fun s d => match d.2.2 with
    | .oneByte _ _ =>
      (s.modJalzel p (fun x => { x with corrected := satAdd 64 x.corrected 1 })).tell
        [.errata { cls := 1, unit := 0x0021, inst := p, detail0 := syndromes d.2.1 }]
    | _ => s) s
  let s := if x.asked then s.tell [.errata { cls := 1, unit := 0x0021, inst := p }] else s
  let s := s.modJalzel p (fun x => { x with
    accepted := (x.accepted + 1) % 2 ^ 32, asked := false, stream := x.stream ++ ds.map (fun d => (deliver d.2.1).1) })
  State.parseStream p (s.jalzel p).stream.length s

/-- JALZEL_FRAME: a frame of 3,400 bytes arrives at a port (R456 to R460, R466). At a parked port it is a message that
wakes the device, and waits at its sender (R515 to R517). -/
def execJalzelFrame (port : Nat) (frame : Bytes) (s : State) : Answer :=
  .next <|
    let x := s.jalzel port
    if x.state ≠ .up || frame.length ≠ frameBytes then s
    else if x.parked then s.startWake 3 port
    else if !headerCrcOk frame then s.refuseFrame port
    else
      let s := s.takeAck port (fldB frame 12 4)
      if (s.jalzel port).state ≠ .up then s
      else
        let s := (s.modJalzel port (fun x => { x with credits := (List.range 4).map (fun c => fldB frame (20 + 2 * c) 2) })).pumpPort port
        let kind := fldB frame 16 1
        if kind = 2 then s.replayKept port
        else if kind ≠ 0 then s
        else
          let good := fldB frame 8 4 = ((s.jalzel port).accepted + 1) % 2 ^ 32 &&
            (frameDecisions frame).all (fun d => d.2.2 ≠ .uncorrectable)
          if good then s.acceptFrame port frame else s.refuseFrame port

/-- REPLAY_REQUEST: a frame that asks for a replay, with its ACK_SEQ (R457, R458). -/
def execReplayRequest (port ackSeq : Nat) (s : State) : Answer :=
  .next <| if (s.jalzel port).state ≠ .up || (s.jalzel port).parked then s else s.takeReplay port ackSeq

/-- REPLAY_REQUEST_TIMEOUT: 2 µs after a request the expected frame has not arrived (R457). -/
def execReplayRequestTimeout (port : Nat) (s : State) : Answer :=
  .next <|
    let x := s.jalzel port
    if x.state = .up && !x.parked && x.asked && decide (x.askedAt + 2000 ≤ s.now) then s.askReplay port else s

end Sys2Proof.Machine
end

