-- ==== Sys2Proof/Machine/Room.lean ====
section
/-! DEFINITION. The room: links that come up and go down, members that join and leave, the clerk (R6, R38, R324, R336, R361,
R364, R414, R424, R462 to R467, R479, R480, R538). -/
namespace Sys2Proof.Machine

/-! ## A new clerk (R334, R336, R339) -/

/-- Edits that are inking here. -/
def State.inkingEdits (s : State) : List Nat := (s.map.edits.filter (fun e => e.2.state = .inking)).map (·.1)

/-- Edits inked in an edition, in order. -/
def State.inkedIn (s : State) (number : Nat) : List Nat :=
  s.ordered ((s.map.edits.filter (fun e => e.2.state = .inked && e.2.inkedIn == number)).map (·.1))

/-- Edits that return from inking to pencilled (R339). -/
def State.backToPencil (s : State) (set : List Nat) : State :=
  set.foldl (fun s n => s.modEdit n (fun e => if e.state = .inking then { e with state := .pencilled } else e)) s

/-- Every member has named its last inked edition to the new clerk: the newest goes to all, and a number that nobody has
taken is dropped, its edits to be inked again (R336). -/
def State.clerkSettles (s : State) : State :=
  match s.map.asking with
  | some ([], number, edits) =>
    let s := (s.modMap (fun m => { m with asking := none, inking := none })).controlAll 0x34 (number :: edits)
    let s := if s.map.lastInked < number then s.takeEdition number edits else s
    let rest := s.inkingEdits
    if rest.isEmpty then s
    else
      let s := ((s.backToPencil rest).modMap (fun m => { m with made := none })).controlAll 0x35 (s.map.flash.highest :: rest)
      s.modMap (fun m => { m with inkWaiting := m.inkWaiting ++ [(s.position, rest)] })
  | _ => s

/-- The new clerk asks every member for its last inked edition (R336). -/
def State.clerkAsks (s : State) : State :=
  let others := s.others
  ((s.modMap (fun m => { m with asking := some (others, m.lastInked, s.inkedIn m.lastInked) })).controlAll 0x3A []).clerkSettles

/-- A member's answer to the new clerk. -/
def State.clerkHears (s : State) (member number : Nat) (edits : List Nat) : State :=
  match s.map.asking with
  | none => s
  | some (w, n, es) =>
    if !w.contains member then s
    else
      let best := if n < number then (number, edits) else (n, es)
      (s.modMap (fun m => { m with asking := some (w.filter (· ≠ member), best) })).clerkSettles

/-- Inkings that this member has asked of a clerk that has changed are asked of the new one (R336). -/
def State.askAgain (s : State) : State :=
  let set := (s.map.edits.filter (fun e =>
    e.2.state = .inking && (bitsOf e.1 58 56 == s.position || e.2.job.isSome))).map (·.1)
  if set.isEmpty then s else s.control s.clerk 0x31 set

/-! ## A member leaves (R38, R324, R364, R414, R465, R480, R538) -/

/-- Pencilled edits that touch sheets withdrawn on this member for a reason, those that depend on them for reason 2. -/
def State.withdrawTouching (s : State) (sheets : List Nat) (reason : Nat) : State :=
  let hit := (s.map.edits.filter (fun e => e.2.state = .pencilled && e.2.sheets.any sheets.contains)).map (·.1)
  let after := (s.map.edits.filter (fun e =>
    e.2.state = .pencilled && !hit.contains e.1 && (s.chain e.1).any hit.contains)).map (·.1)
  after.foldl (fun s n => s.withdrawHere n 2) (hit.foldl (fun s n => s.withdrawHere n reason) s)

/-- The sheets of a member that has left become missing (R38, R355, R364). -/
def State.loseSheets (s : State) (m : Nat) : State :=
  let sheets := s.heldBy m
  let s := s.modMap (fun x => { x with missing := union x.missing sheets })
  let s := sheets.foldl (fun s k => s.mapEvent none { code := 0x0306, subject := k, value := m }) s
  s.withdrawTouching sheets 4

/-- The searches in flight that a member that has left took part in (R414). -/
def State.searchesWithout (s : State) (m : Nat) : State :=
  (s.catalogue.searches.map (·.1)).foldl (fun s n =>
    match amGet s.catalogue.searches n with
    | none => s
    | some x =>
      if !x.asks m then s
      else
        let x := x.without m
        match s.judgeSearch n x with
        | (s, some e) => s.searchEnded n x e
        | (s, none) => s) s

/-- The jobs that wait on an answer from a member (R538): settings, definitions, policies, deletes and sessions passed on. -/
def State.waitingOn (s : State) (m : Nat) : List Nat :=
  (s.collator.settings.filter (fun e => e.2.contains m)).map (·.1) ++
    (s.catalogue.defining.filter (fun d => d.waiting.contains m)).map (·.job) ++
    (s.curator.policyWaiting.filter (fun e => e.2.contains m)).map (·.1) ++
    (s.catalogue.deleteWaiting.filter (fun d => d.remote.any (fun i => i / 2 ^ 37 == m))).filterMap (·.job) ++
    (s.sessions.opening.filter (fun e => e.2 == m)).map (·.1)

/-- The waits of discarded jobs dropped: settings, policies, sessions passed on, definitions, deletes. -/
def State.dropWaits (s : State) (jobs : List Nat) : State :=
  let s := (s.modCollator (fun c => { c with settings := c.settings.filter (fun e => !jobs.contains e.1) })).modCurator
    (fun c => { c with policyWaiting := c.policyWaiting.filter (fun e => !jobs.contains e.1) })
  let s := s.modSessions (fun t => { t with opening := t.opening.filter (fun e => !jobs.contains e.1) })
  s.modCat (fun c => { c with
    defining := c.defining.filter (fun d => !jobs.contains d.job)
    deleteWaiting := c.deleteWaiting.filter (fun d => !d.job.any jobs.contains) })

/-- What waits on a member is given up: the jobs discarded, the device's own deletes there no longer waited for. -/
def State.giveUpOn (s : State) (m : Nat) : State :=
  let jobs := s.waitingOn m
  ((s.discardNumbers jobs).dropWaits jobs |>.modCat (fun c => { c with
    deleteWaiting := c.deleteWaiting.map (fun (d : WaitingDelete) => { d with remote := d.remote.filter (fun i => i / 2 ^ 37 ≠ m) }) })).pushDeletes

/-- What this member holds for another is dropped: its searches' snapshots, its holds, its regions, its ports. -/
def State.forget (s : State) (m : Nat) : State :=
  let s := { s with net := { s.net with
    opened := s.net.opened.filter (fun o => o.source ≠ m), sessionPorts := amDel s.net.sessionPorts m } }
  let s := s.modSessions (fun t => { t with partIn := amDel t.partIn m, members := amDel t.members m })
  let s := (s.modMap (fun x => { x with
    otherHolds := x.otherHolds.filter (fun h => h.1 ≠ m), memberMax := amDel x.memberMax m
    oldCopies := (x.oldCopies.filter (fun c => c.holder ≠ m)).map (fun (c : OldCopy) => { c with members := c.members.filter (· ≠ m) })
    copiesLeft := x.copiesLeft.filter (fun c => c.1 ≠ m), arriving := x.arriving.filter (fun a => a.source ≠ m) })).settleCopies.dropEditions
  (s.catalogue.served.filter (fun v => v.member == m)).foldl (fun s v => s.dropServed m v.number) s

/-- A member has left; `clerk` is the clerk before it did. -/
def State.memberLeft (s : State) (m clerk : Nat) : State :=
  let s := (s.loseSheets m).searchesWithout m
  let s := (s.sessions.open_.map (·.1)).foldl (fun s i => s.holderDone i m true) s
  let s := (s.giveUpOn m).forget m
  let s := if s.isClerk then s.inkAck m [] [] else s
  let s := if s.isClerk && s.map.asking.isSome then s.clerkHears m 0 [] else s
  let s :=
    if clerk = s.clerk then s
    else if s.isClerk then
      let t := s.clerkAsks
      if t.stamp.state = .locking || t.stamp.state = .locked then t.setTimeState .holdover else t
    else s.askAgain
  let s := if clerk = s.clerk then s else s.modCurator (fun c => { c with moves := c.moves.map (fun (m : Move) => { m with asked := false }) })
  s.reviewBounds

/-! ## Links (R463 to R465) -/

/-- A port as it is when its link has gone: its counts stand. -/
def Jalzel.gone (x : Jalzel) : Jalzel :=
  { corrected := x.corrected, replayed := x.replayed, requests := x.requests, violations := x.violations }

/-- A link that was up goes down: MEMBER_LEFT, JALZEL_DOWN, the unit-fatal record of scope link unless it stands, and what
its member's leaving brings (R464, R465, R467, R494, R538). -/
def State.linkLost (s : State) (p : Nat) (recorded : Bool) : State :=
  let x := s.jalzel p
  match x.partner with
  | none => s.modJalzel p (·.gone)
  | some m =>
    let clerk := s.clerk
    let s := { s with net := { s.net with farTokens := s.net.farTokens.filter (fun t => t.port ≠ p) } }
    let s := (s.modJalzel p (·.gone)).tell
      ([.event 2 { code := 0x084C, subject := m, detail := p },
       .event 2 { code := 0x0849, subject := p, detail := m, value := x.retrains }, .raise (32 + p)] ++
        if recorded then [] else [.errata { cls := 3, unit := 0x0021, inst := p, scope := 3 }])
    s.memberLeft m clerk

/-- A link that was up goes down, with its record. -/
def State.linkDown (s : State) (p : Nat) : State := s.linkLost p false

/-- JALZEL_SIGNAL: signal on all eight lanes of a port that is down (R464). No port runs in minimal mode (R465). -/
def execJalzelSignal (port : Nat) (s : State) : Answer :=
  .next <|
    if (s.jalzel port).state = .down && decide (port < 7) && s.boot.gen ≠ .minimal then
      s.modJalzel port (fun x => { x with state := .training, failed := false })
    else s

/-- The device's ordering code and stepping (R1, R581). -/
def orderingCode : Nat := 0x88000026
def steppingCode : Nat := 0

/-- JALZEL_TRAINING_END: training has found the lanes, and the identity is sent, or it has failed (R455, R458, R462, R464). -/
def execJalzelTrainingEnd (port : Nat) (ok : Bool) (s : State) : Answer :=
  .next <|
    let x := s.jalzel port
    if x.state ≠ .training then s
    else if ok then
      (s.modJalzel port (fun x => { x with state := .identifying, fails := 0 })).emit
        [.frame port 3 [orderingCode, steppingCode, unle s.security.firmware, s.position, s.net.members, s.map.flash.highest]]
    else if !x.retraining then s.modJalzel port (fun x => { x with state := .down, failed := true, failedAt := s.now })
    else if 3 ≤ x.fails + 1 then s.linkDown port
    else s.modJalzel port (fun x => { x with fails := x.fails + 1 })

/-- JALZEL_TRAIN_RETRY: 100 ms after a failed training the port trains again (R464). -/
def execJalzelTrainRetry (port : Nat) (s : State) : Answer :=
  .next <|
    let x := s.jalzel port
    if x.state = .down && x.failed && decide (x.failedAt + 100000000 ≤ s.now) && s.boot.gen ≠ .minimal then
      s.modJalzel port (fun x => { x with state := .training, failed := false })
    else s

/-- JALZEL_LOSS: loss of lock or of signal takes a link down; electrical idle on a parked link is no such loss (R464, R515). -/
def execJalzelLoss (port : Nat) (s : State) : Answer :=
  .next <|
    let x := s.jalzel port
    if x.parked then s
    else
      match x.state with
      | .up => s.linkDown port
      | .training => if x.retraining then s.linkDown port else s.modJalzel port (·.gone)
      | .identifying => if x.retraining then s.linkDown port else s.modJalzel port (·.gone)
      | .refused => s.modJalzel port (·.gone)
      | .down => s

/-! ## Identity and admission (R3, R6, R462 to R465) -/

/-- Why a peer is refused, as R466 numbers it (R463). -/
def State.refusePeer (s : State) (p ordering stepping : Nat) (measurement : Bytes) (position members : Nat) : Option Nat :=
  if ordering ≠ orderingCode || stepping ≠ steppingCode || measurement ≠ s.security.firmware || members ≠ s.net.members then
    some 0x01
  else if position = s.position || !s.net.members.testBit position || decide (7 < position) ||
      (List.range 7).any (fun q => q ≠ p && (s.jalzel q).joined && (s.jalzel q).partner == some position) then some 0x02
  else none

/-- The room has formed once every position of ROOM_MEMBERS is present (R465). -/
def State.reviewRoom (s : State) : State :=
  if (maskList 8 s.net.members).all s.present.contains then { s with net := { s.net with formed := true } } else s

/-- What a member that joins is told: MAX_SHEETS, the sessions here, the pins, the editions that this member holds, the versions of its sheets
that it could not restore (R335, R357, R361, R362, R444, R546). -/
def State.greet (s : State) (m : Nat) : State :=
  let s := s.control m 0x6F [s.curator.policy.maxSheets]
  let s := s.curator.pins.foldl (fun s e => s.control m 0x6B [e.1, e.2]) s
  let s := s.control m 0x38 (s.ownEditions.filter (fun n => (s.edition n).isSome)).eraseDups
  let own := s.map.lost.filter (fun l => s.holder l.2 = some s.position)
  ((own.map (·.2)).eraseDups.foldl (fun s k =>
    s.control m 0x7B (k :: (own.filter (fun l => l.2 == k)).map (·.1))) s).tellSessions

/-- A member has joined: its sheets are back; a clerk that it displaces passes its waiting inkings on (R38, R336, R355,
R465). -/
def State.memberJoined (s : State) (m clerk : Nat) : State :=
  let back := (s.heldBy m).filter s.map.missing.contains
  let s := s.modMap (fun x => { x with missing := x.missing.filter (fun k => !back.contains k) })
  let s := back.foldl (fun s k => s.mapEvent none { code := 0x0306, subject := k, detail := 1, value := m }) s
  let s := s.greet m
  let s :=
    if clerk = s.position && !s.isClerk then
      s.map.inkWaiting.foldl (fun s e => s.control s.clerk 0x31 e.2) (s.modMap (fun x => { x with inkWaiting := [] }))
    else s
  s.reviewRoom.reviewBounds

/-- A peer admitted: the link is up, anew or after a retrain, when every kept frame is sent again. -/
def State.welcome (s : State) (p position highest : Nat) : State :=
  let x := s.jalzel p
  let clerk := s.clerk
  let s := s.modMap (fun m => { m with flash := { m.flash with highest := max m.flash.highest highest } })
  let s := (s.modJalzel p (fun x => if x.retraining then { x with state := .up, retraining := false }
    else { x.gone with state := .up, partner := some position })).tell
      [.event 2 { code := 0x084B, subject := position, detail := p },
       .event 2 { code := 0x0848, subject := p, detail := position }, .raise (32 + p)]
  if x.retraining then (s.emit (x.kept.map (fun k => Output.frame p 1 [k.seq]))).pumpPort p else s.memberJoined position clerk

/-- JALZEL_IDENTITY: the peer's identity arrives, and it is admitted or refused (R462 to R467). -/
def execJalzelIdentity (port ordering stepping : Nat) (measurement : Bytes) (position members highest : Nat) (s : State) : Answer :=
  .next <|
    let x := s.jalzel port
    if x.state ≠ .identifying then s
    else
      let s := if x.retraining && x.partner ≠ some position then
          (s.linkDown port).modJalzel port (fun x => { x with state := .identifying })
        else s
      match s.refusePeer port ordering stepping measurement position members with
      | none => s.welcome port position highest
      | some reason =>
        let s := if (s.jalzel port).retraining then s.linkDown port else s
        let s := (s.modJalzel port (fun x => { x.gone with state := .refused })).jalzelViolation port reason position
        s.tell [.event 2 { code := 0x084D, subject := position, detail := reason, value := port }, .raise (32 + port)]

/-- ROOM_FORM_TIMEOUT: 5 s after reset the room forms with the members present (R465). -/
def execRoomFormTimeout (s : State) : Answer := .next { s with net := { s.net with formed := true } }

end Sys2Proof.Machine
end

