-- ==== Sys2Proof/Machine/Handling.lean ====
section
/-! DEFINITION. Errors and their handling: records, the Errata ring, closing records, poisoned words, unit-fatal errors
(R509, R537 to R548). -/
namespace Sys2Proof.Machine

/-! ## Records (R539 to R543) -/

/-- ERRATA_RECORD: a unit reports an error that no other command reports; one corrected by Circulation is a word of its queue caches,
which it counts (R76, R537 to R544; log 167). -/
def execErrataRecord (cls unit inst code flags scope location detail0 detail1 : Nat) (s : State) : Answer :=
  .next <|
    if 4 < cls then s
    else (if cls = 1 && unit = 0x0016 then s.modCirc (fun c => { c with corrected := satAdd 32 c.corrected 1 }) else s).tell [.errata {
      cls := cls, unit := unit, inst := inst, code := code, flags := flags &&& 0x16, scope := scope, location := location
      detail0 := detail0, detail1 := detail1 }]

/-- Records that the Errata ring holds (R539). -/
def ringRecords : Nat := 65536

/-- ERRATA_RING_MOVE: the oldest record of the holding buffer moves to the Errata ring (R539). -/
def execErrataRingMove (s : State) : Answer :=
  .next <| s.modErrata fun l =>
    match l.holding with
    | [] => l
    | r :: rest =>
      if l.ring.length < ringRecords then { l with holding := rest, ring := l.ring ++ [r] }
      else { l with holding := rest, ring := l.ring.drop 1 ++ [r], overwritten := satAdd 32 l.overwritten 1 }

/-- An open handling by its SEQUENCE. -/
def State.handling (s : State) (seq : Nat) : Option Handling := s.desk.errata.handlings.find? (fun h => h.seq == seq)

/-- A handling closed: its closing record, which opens nothing and raises nothing, and ERRATA_RECORDED (R543, R556). -/
def State.closeHandling (s : State) (seq : Nat) : State :=
  match s.handling seq with
  | none => s
  | some h =>
    let l := s.desk.errata
    let n := nextSequence l.sequence
    let r : ErrRec := {
      time := s.now, seq := n, cls := h.cls, depth := l.handlings.length, flags := 8, scope := h.scope, unit := h.unit, inst := h.inst
      code := 0, orig := h.cls, location := 0, parent := seq, count := 1, detail0 := 0, detail1 := 0 }
    let s := s.modErrata (fun l => { l with
      holding := l.holding ++ [r], sequence := n, counts := countClass l.counts h.cls
      handlings := l.handlings.filter (fun x => x.seq ≠ seq) })
    if l.eventClass ≤ h.cls then
      s.event l.eventQueue { code := 0x0880, subject := n, detail := h.cls, value := h.unit + h.inst * 2 ^ 16 }
    else s

/-- HANDLING_CLOSE: firmware closes a handling whose work has been done: that of a device-fatal error ends with the device's
reset, that of a unit-fatal error not before the unit's reset (R543, R547). -/
def execHandlingClose (seq : Nat) (s : State) : Answer :=
  .next <|
    match s.handling seq with
    | none => s
    | some h => if h.cls = 4 || s.desk.errata.down.any (fun d => d.seq == seq && !d.out) then s else s.closeHandling seq

/-! ## Unit-fatal errors (R538, R547) -/

/-- A unit-fatal error recorded, or found recorded under a SEQUENCE: its handling. -/
def State.fatalHandling (s : State) (r : Report) (recorded : Nat) : Option Handling × State :=
  if recorded = 0 then
    let s := s.tell [.errata { r with cls := 3 }]
    (s.desk.errata.handlings.head?, s)
  else ((s.handling recorded).filter (fun h => h.cls == 3), s)

/-- A unit enters its reset under a record. -/
def State.takeDown (s : State) (unit inst seq : Nat) : State :=
  s.modErrata (fun l => { l with
    down := l.down.filter (fun d => d.unit ≠ unit || d.inst ≠ inst) ++ [{ unit := unit, inst := inst, seq := seq }] })

/-- The local logical ports of the physical port that a room-wide logical port belongs to; none where it is another's. -/
def State.portsBeside (s : State) (inst : Nat) : List Nat :=
  if inst / 16 = s.position then (List.range 4).map (fun i => inst % 16 / 4 * 4 + i) else []

/-- A logical port taken down by a fault; the cause in DETAIL is not stated for it (R467, R548). -/
def State.faultPort (s : State) (l : Nat) : State :=
  let s := s.modPort l (fun x => { x with stations := [], sessions := [], held := [] })
  match (s.netPort l).state with
  | .down => s
  | .training => s.modPort l (fun x => { x with state := .down })
  | .up => (s.portDown l ((Config.freeValue s.fresh).toNat % 2 ^ 16)).draw

/-- A librarian core reset: its duties go to core 7 (R508, R509). -/
def State.resetCore (s : State) (core : Nat) : State :=
  let p := s.ports
  let moved := natAt p.duties core
  { s with ports := { p with
    coreState := setAt p.coreState core 2
    duties := if core = 7 then p.duties else setAt (setAt p.duties core 0) 7 (natAt p.duties 7 ||| moved) } }

/-- What a unit's reset clears beside the work in its scope: the state of the unit that no table of the Stack or of flash
keeps (R202, R288, R324, R395, R438, R479, R509, R547). -/
def State.clearUnit (s : State) (unit inst : Nat) : State :=
  match unit with
  | 0x0010 => (s.stationStreams inst).foldl (fun s e => s.discardAssembly e.1) s
  | 0x0011 => s.loseEngine inst
  | 0x0012 => s.modCurator (fun c => { c with moves := [] })
  | 0x0013 => if inst = 0 then (s.collator.solves.map (·.owner)).foldl (fun s o => s.faultSolve o) s else s
  | 0x0014 => (s.catalogue.searches.map (·.1)).foldl (fun s n => s.discardSearch n) s
  | 0x0015 => s.loseTile
  | 0x0016 => s.discardJobs (fun _ => true)
  | 0x0017 =>
    let s := if s.stamp.state = .locked then s.setTimeState .locking else s
    s.modStamp (fun x => { x with ops := x.ops.filter (fun o => match o with
      | .adjust (some n) _ => s.running n
      | .setInc (some n) _ => s.running n
      | .hardSet (some n) _ _ _ => s.running n
      | _ => true) })
  | 0x0019 => if inst < 8 then s.resetCore inst else s
  | 0x0020 => (s.portsBeside inst).foldl (fun s l => s.faultPort l) s
  | 0x0022 => s.discardJobs (fun _ => true)
  | 0x0023 => if inst = s.position then (s.sessions.open_.map (·.1)).foldl (fun s i => s.discardQueries i) s else s
  | _ => s

/-- The jobs that a unit has taken and not ended: each holds a request in it (R538). A station's wait on the consumers of its
buffers, not on it. -/
def State.discardTaken (s : State) (unit inst : Nat) : State :=
  if unit = 0x0010 then s else s.discardJobs (fun j => j.started && s.unitOf j.slip == some (unit, inst))

/-- The work in a scope discarded, the generations of its queues first (R113, R538, R547). -/
def State.discardScope (s : State) (unit : Nat) (w : FaultScope) : State :=
  let s := s.discardNumbers w.jobs
  let s := w.solves.foldl (fun s o => s.faultSolve o) s
  let s := w.searches.foldl (fun s n => s.discardSearch n) s
  let s := w.sessions.foldl (fun s i => s.discardQuery i) s
  let s := w.graphs.foldl (fun s k => s.discardFrames k) s
  w.streams.foldl (fun s k => if unit = 0x0002 then s.fallBack k else s.discardAssembly k) s

/-- The streams whose band ring stands in a Stack vault fall back (R235). -/
def State.bandsLost (s : State) (v : Nat) : State :=
  (s.accession.streams.filter (fun e => e.2.desc.kind = 0 && e.2.bandVault = v)).foldl (fun s e => s.fallBack e.1) s

/-- A unit-fatal error under its handling: the work in the scope is discarded and the unit goes into its reset; a carrel halts
and a Jalzel port goes down instead (R151, R464, R547). -/
def State.unitFatal (s : State) (unit inst : Nat) (h : Option Handling) (w : FaultScope) : State :=
  match h with
  | none => s
  | some h =>
    if h.cls ≠ 3 then s
    else
      let s := if unit = 0x0002 then (s.discardScope unit w).bandsLost inst else s.discardScope unit w
      if unit = 0x0001 then s.stopCarrel inst
      else if unit = 0x0021 then s.linkLost inst true
      else ((s.clearUnit unit inst).discardTaken unit inst).takeDown unit inst h.seq

/-- No work in scope. -/
def emptyScope : FaultScope := { jobs := [], sessions := [], streams := [], graphs := [], searches := [], solves := [] }

/-- UNIT_FATAL_ERROR: a unit can not go on: the record, unless an escalated one stands under `recorded`, the discard of the
work in its scope, the start of its reset (R86, R113, R202, R235, R288, R324, R395, R438, R538, R547). A record that escalates
to device-fatal is handled as R549 says. -/
def execUnitFatalError (unit inst code location detail0 recorded : Nat) (scope : FaultScope) (s : State) : Answer :=
  .next <|
    let r := s.fatalHandling { cls := 3, unit := unit, inst := inst, code := code, scope := 2, location := location, detail0 := detail0 } recorded
    r.2.unitFatal unit inst r.1 scope

/-- WATCHDOG_EXPIRY: a core's watchdog expires: source 16 + n is raised, the core is reset and its duties go to core 7. The
error is unit-fatal, so a second expiry within the handling of the first escalates (R509, R544, R545). -/
def execWatchdogExpiry (core : Nat) (s : State) : Answer :=
  .next <|
    if 8 ≤ core then s
    else
      let s := ({ s with ports := { s.ports with watchdog := modAt s.ports.watchdog core (fun n => satAdd 16 n 1) } } : State).tell
        [.raise (16 + core)]
      let r := s.fatalHandling { cls := 3, unit := 0x0019, inst := core, scope := 2 } 0
      (r.2.resetCore core).unitFatal 0x0019 core r.1 emptyScope

/-! ## Poisoned words (R546) -/

/-- A version of a sheet as its page numbers. -/
def versionOf (e : Edition) (k : Nat) : List Nat := (e.pages k).map (·.id)

/-- Pencilled edits that touch sheets held here withdrawn for a reason, those that depend on them for reason 2, and the other
members told; an edit that restores its sheet stands (R339, R364, R546). -/
def State.withdrawOwn (s : State) (sheets : List Nat) (reason : Nat) : State :=
  let hit := (s.map.edits.filter (fun e =>
    e.2.state = .pencilled && e.2.restores.isNone && e.2.sheets.any sheets.contains)).map (·.1)
  let after := (s.map.edits.filter (fun e =>
    e.2.state = .pencilled && !hit.contains e.1 && (s.chain e.1).any hit.contains)).map (·.1)
  let one (r : Nat) (s : State) (n : Nat) : State := (s.withdrawHere n r).controlAll 0x33 [n, r]
  after.foldl (one 2) (hit.foldl (one reason) s)

/-- The restoring edit of a sheet, which gives it the records of its highest shelved version (R546). -/
def State.restoringEdit (s : State) (k : Nat) : State :=
  let shelved := s.map.flash.edition.pages k
  let writes := shelved.flatMap (fun p => p.recs.map (fun r => ({ table := p.table, key := r.1, data := r.2 } : MapWrite)))
  let mend (e : Edition) : Edition := { e with sheets := amSet e.sheets k shelved }
  let s := s.modMap (fun m => { m with editions := mapIf (fun e => e.number == m.lastInked) mend m.editions })
  let t := s.tryWrites [] writes
  let r := s.nextEdit
  (r.2.modMap (fun m => { m with nextPage := t.work.next })).addEdit r.1 {
    verdict := 1, depends := 0, base := s.map.lastInked, eventQueue := 0, writes := writes, sheets := union [k] t.touched
    pages := s.trialPages t, pencilTime := s.now, restores := some k } s.map.flash.lastId

/-- A sheet held here of which a page is lost: it is missing, pencilled edits that touch it are withdrawn, and each version that
was shelved is restored from flash; a version that was not stays missing, and a restoring edit follows where that is the last
inked one (R38, R355, R546). A page keeps its number in the model when it is restored. -/
def State.loseSheet (s : State) (k : Nat) : State :=
  if s.holder k ≠ some s.position then s
  else
    let s := s.mapEvent none { code := 0x0306, subject := k, value := s.position }
    let s := s.withdrawOwn [k] 3
    let m := s.map
    let safe := versionOf m.flash.edition k ::
      (m.editions.filter (fun e => decide (e.number ≤ m.flash.edition.number))).map (fun e => versionOf e k)
    let gone := (m.editions.filter (fun e => decide (m.flash.edition.number < e.number) && !safe.contains (versionOf e k) &&
      !m.lost.contains (e.number, k))).map (·.number)
    let s := (s.versionsLost k gone).controlAll 0x7B (k :: gone)
    if gone.contains m.lastInked then s.restoringEdit k
    else s

/-- CONTEXT_LOST (R556). -/
def State.contextLost (s : State) (subject detail addr : Nat) : State :=
  s.event s.desk.errata.eventQueue { code := 0x0885, subject := subject, detail := detail, payload := addr }

/-- A session whose context is lost ends: its queries are answered `DISCARDED`, and it is free (R324, R546). -/
def State.endSession (s : State) (i addr : Nat) : State :=
  match s.session i with
  | none => s
  | some _ =>
    ((s.discardQueries i).contextLost (s.sessionId i) 0 addr).freeSession i

/-- What the owner of a region does with a poisoned stored word of it (R546). -/
def State.dealWith (s : State) (place : PoisonPlace) (addr : Nat) : State :=
  match place with
  | .sheet k => s.loseSheet k
  | .session i descriptor =>
    if descriptor then s.endSession i addr
    else s.modSession i (fun x => { x with
      mode := .lost, losses := if x.mode = .lost then x.losses else satAdd 32 x.losses 1, filter := none, history := [], inlierCache := [] })
  | .queue q => (s.discardJobs (fun j => j.sq == q)).faultQueue q
  | .frame k number => s.skipEntered k number 3
  | .grid => s.clearUnit 0x0015 0
  | .image h =>
    if h = 0 || 64 < h || (s.image h).isNone then s
    else ((s.discardNumbers ((s.runsOf h).map (fun (r : Run) => r.job))).contextLost h 1 addr).freeImage h
  | .addendum id => s.modCat (fun c => { c with unreadable := union c.unreadable [id] })
  | .tombstone => s
  | .job n => s.discardNumbers [n]
  | .query i seq => s.discardSeq i seq
  | .solve o => s.faultSolve o
  | .search n => s.discardSearch n
  | .unit u i =>
    let r := s.fatalHandling { cls := 3, unit := u, inst := i, scope := 2, location := addr } 0
    r.2.unitFatal u i r.1 emptyScope
  | .errata seq => s.modErrata (fun l =>
    if l.ring.any (fun r => r.seq == seq) then
      { l with ring := l.ring.filter (fun r => r.seq ≠ seq), lost := satAdd 32 l.lost 1 }
    else l)

/-- A poisoned word rewritten whole; what it then holds is not stated (R78, R546). -/
def State.rewrite (s : State) (w : Nat) : State :=
  if decideWord (s.fabric.stack.store.word w) = .uncorrectable then
    { s.putStackWord w (freeBytes s.fresh 32) with fresh := s.fresh + 32 }
  else s

/-- POISON_HANDLING: the owner of a region deals with a poisoned stored word, rewrites it whole and closes the handling of its
deferred record (R546). -/
def execPoisonHandling (place : PoisonPlace) (word seq : Nat) (s : State) : Answer :=
  .next <|
    match s.handling seq with
    | none => s
    | some h => if h.cls ≠ 2 then s else ((s.dealWith place (32 * word)).rewrite word).closeHandling seq

end Sys2Proof.Machine
end

