-- ==== Sys2Proof/Machine/Steps.lean ====
section
/-! DEFINITION. Steps of the carrels and what passes between them: hand-overs by the mesh and through the Stack, tokens, credits,
and the requests of the Stack vault ports (R124 to R126, R132 to R150, R163, R170, R235). -/
namespace Sys2Proof.Machine

/-! ## The end of a step (R126, R144 to R148, R150) -/

/-- Whether the hand-overs of a step can be sent now. -/
inductive SendCheck where
  | ok
  /-- an output holds no credit at all: the sequencer waits for one (R144) -/
  | waits
  /-- a buffer that the image does not declare, or a slot for which no credit is held (R126, R148) -/
  | fault
  deriving DecidableEq, Repr

/-- The outputs once a credit is spent. -/
def spendCredit (outs : List OutPort) (port slot : Nat) : List OutPort :=
  modAt outs port (fun p => { p with credits := p.credits.filter (· ≠ slot) })

/-- The hand-overs of a step held against the credits, in order (R144, R148). -/
def checkSends (b : Bytes) : List OutPort → List Send → SendCheck
  | _, [] => .ok
  | outs, d :: l =>
    match outs[d.port]? with
    | none => .fault
    | some p =>
      let e := edgeEnt b p.edge
      if p.slots ≤ d.slot || decide (e.slotBytes < d.offset + d.bytes) then .fault
      else if e.to_ = 0xFF then checkSends b outs l
      else if p.credits.isEmpty then .waits
      else if !p.credits.contains d.slot then .fault
      else checkSends b (spendCredit outs d.port d.slot) l

/-- A hand-over of an output edge as its run takes it: the bytes at their place in the output, and the token of the producer slot
(R157, R170). -/
def Run.deliver (r : Run) (edge src offset : Nat) (data : Bytes) (bad : Bool) : Run :=
  { r with outputs := r.outputs.map (fun o =>
      if o.1 = edge then
        (edge, o.2.1.take offset ++ data ++ o.2.1.drop (offset + data.length), union o.2.2.1 [src], o.2.2.2 || bad)
      else o) }

/-- A hand-over to a consumer on another member (R149): its data as writes into the region opened there, and the token once every
write is acknowledged; the token carries the producer's output, to which the credit comes back (R143, R146, R461; log 14). -/
def State.sendFar (s : State) (carrel : Nat) (serving : Bool) (d : Send) (f : FarEnd) (data : Bytes) (marks : List Bool) : State :=
  match s.portTo f.member with
  | none => s
  | some p =>
    let channel := if serving then 0 else 2
    let n := (data.length + 4095) / 4096
    let tag := (s.jalzel p).nextTag
    let s := (List.range n).foldl (fun s i =>
      let part := (data.drop (4096 * i)).take 4096
      let mark := (marks.drop (4096 * i)).take 4096
      s.request f.member true {
        kind := 3, channel := channel, source := s.position, dest := f.member, address := f.address + 4096 * i
        poison := ((List.range 128).filter (fun w => ((mark.drop (32 * w)).take 32).any id)).foldl (fun a w => a + 2 ^ w) 0
        words := (List.range ((part.length + 31) / 32)).map (fun w => takePad 32 ((part.drop (32 * w)).take 32)) }) s
    let token : LinkMsg := {
      kind := 5, channel := channel, source := s.position, dest := f.member
      words := [packB 32 [(0, 2, f.carrel), (2, 1, f.port), (3, 1, d.slot), (4, 4, d.bytes), (8, 4, d.seq), (12, 2, carrel), (14, 1, d.port)]] }
    if n = 0 then s.sendLink token
    else
      let tags := (List.range n).map (fun i => (tag + i) % 65536)
      { s with net := { s.net with farTokens := s.net.farTokens ++ [{ port := p, tags := tags, msg := token }] } }

/-- One hand-over sent at the end of a step: to a stage on another member, to an image output, by the mesh in messages of at most 4 KiB, or into the Stack range of
its edge, whose writes are acknowledged before the token goes (R132, R145, R146, R149, R170). -/
def State.sendHandover (s : State) (carrel : Nat) (i : Image) (b : Bound) (run : Option Nat) (d : Send) : State :=
  let x := s.carrel carrel
  match x.outs[d.port]? with
  | none => s
  | some p =>
    let e := edgeEnt i.content p.edge
    let r := s.readMarked carrel d.addr d.bytes
    let s := r.2
    if e.to_ = 0xFF then
      match run with
      | none => s
      | some n => { s with images := { s.images with
          runs := mapIf (fun q => q.job == n) (fun q => q.deliver p.edge b.slot d.offset r.1.1 (r.1.2.any id)) s.images.runs } }
    else
      let s := s.modCarrel carrel (fun x => { x with outs := spendCredit x.outs d.port d.slot })
      match d.far with
      | some f => s.sendFar carrel b.serving d f r.1.1 r.1.2
      | none =>
      let s := if e.medium = 1 then (s.writeScratch (i.slotPlace p.edge d.slot + d.offset) r.1.1 r.1.2).1 else s
      match i.placed.find? (fun q => q.1 == e.to_ && q.2.1 == p.dst) with
      | none => s
      | some q =>
        let m : MeshMsg := { src := carrel, dst := q.2.2, serving := b.serving, port := portOf (s.carrel q.2.2).ins p.edge b.slot
                             body := .token { slot := d.slot, bytes := d.bytes, seq := d.seq, run := run } }
        s.sendMesh (if e.medium = 1 then [m] else dataMsgs m d.slot d.offset r.1.1 r.1.2 ++ [m])

/-- The credits of the slots that an ended step has finished with (R144). -/
def usedSlots (ins : List InPort) : List (InPort × Token) :=
  ins.filterMap (fun p => match p.held with | t :: _ => some (p, t) | [] => none)

/-- STEP_END: a step ends: its operations have been performed, its hand-overs are sent, one token of each input is used up and its
credit goes back, its counts are taken, and the next step starts where every input holds a further token. A step that would
send waits for a credit; an access outside the grant, an undeclared buffer or a slot without a credit halts the carrel
(R45 to R62, R117, R118, R124, R126, R127, R144 to R150, R163, R173). -/
def execStepEnd (carrel cycles : Nat) (ops : List StepOp) (sends : List Send) (s : State) : Answer :=
  .next <|
    let x := s.carrel carrel
    match x.bound with
    | none => s
    | some b =>
      match s.image b.handle with
      | none => s
      | some i =>
        if x.state ≠ .running then s
        else
          match checkSends i.content x.outs sends with
          | .waits => s
          | .fault => s.haltCarrel carrel 0
          | .ok =>
            let run := x.run
            let r := s.runOps (stageEnt i.content b.stage).kind
              { carrel := carrel, bound := b, image := i.content, base := i.base, seedOffset := BitVec.ofNat 64 (s.seedOf run) } ops
            if r.2.fault then r.1.haltCarrel carrel 0
            else
              let s := sends.foldl (fun s d => s.sendHandover carrel i b run d) r.1
              let s := (s.modCarrel carrel (fun x => x.stepEnded cycles)).returnCredits b (usedSlots x.ins)
              let s := (s.countStep b run r.2.events).settleInputs carrel
              match run with
              | none => s
              | some n => s.endExpired n

/-- Whether a token names a slot of the buffer whose credit its producer can have held: no token for it is held (R148). -/
def InPort.admits (p : InPort) (t : Token) : Bool := decide (t.slot < p.slots) && !p.held.any (fun h => h.slot == t.slot)

/-- A credit put back at a carrel's output (R144). -/
def putCredit (slot : Nat) (l : List Nat) : List Nat :=
  if l.contains slot then l else insertBy (fun a b => decide (a < b)) slot l

/-- A credit taken by a producing carrel. -/
def State.takeCredit (s : State) (carrel port slot : Nat) : State :=
  s.modCarrel carrel (fun x => { x with outs := modAt x.outs port (fun p => { p with credits := putCredit slot p.credits }) })

/-- CREDIT_RETURN: a credit on its way reaches its producer, a carrel's output or Circulation for an image input, which may then
send the next input (R134, R144, R170). -/
def execCreditReturn (target : CreditTo) (slot : Nat) (s : State) : Answer :=
  .next <|
    let m : CreditMsg := { to_ := target, slot := slot }
    if !s.fabric.credits.contains m then s
    else
      let s : State := { s with fabric := { s.fabric with credits := s.fabric.credits.erase m } }
      match target with
      | .carrel c port => s.takeCredit c port slot
      | .input h edge k =>
        (s.modImage h (fun x => { x with
          inCredits := x.inCredits.map (fun q => if q.1 = edge && q.2.1 = k then (q.1, q.2.1, putCredit slot q.2.2) else q) })).sendInputs h 256

/-! ## Arrivals (R126, R129, R136, R145, R148) -/

/-- A token taken by a carrel: one of an ended run is dropped, its credit returned; another wakes the carrel from retention while its
quadrant's clock runs, and starts a step once every input holds one. A token that names no slot its producer can hold a
credit for halts the producer (R127, R129, R148, R150, R173). -/
def State.takeToken (s : State) (carrel port : Nat) (t : Token) (source : Nat) : State :=
  let x := s.carrel carrel
  match x.bound, x.ins[port]? with
  | some b, some p =>
    if !p.admits t then s.haltCarrel source 0
    else if s.deadToken t then s.returnCredits b [(p, t)]
    else
      let st : CarrelState := if x.state = .retention && s.clockOf carrel then .ready else x.state
      (s.setCarrel carrel { x with state := st, ins := setAt x.ins port { p with held := p.held ++ [t] } }).settleInputs carrel
  | some _, none => s.haltCarrel source 0
  | none, _ => s

/-- Data of a hand-over taken by a carrel: written word by word into the slot, each word with its poison mark. A message that names a
buffer the carrel does not declare is not performed and halts the carrel that sent it (R126, R132, R145, R150). -/
def State.takeData (s : State) (carrel port slot offset : Nat) (data : Bytes) (marks : List Bool) (source : Nat) : State :=
  let x := s.carrel carrel
  match x.bound, x.ins[port]? with
  | some b, some p =>
    match s.image b.handle with
    | none => s
    | some i =>
      let e := edgeEnt i.content p.edge
      if e.medium ≠ 0 || decide (p.slots ≤ slot) || decide (e.slotBytes < offset + data.length) then s.haltCarrel source 0
      else s.writeMarked carrel (e.bufOffset + slot * e.slotBytes + offset) data marks
  | some _, none => s.haltCarrel source 0
  | none, _ => s

/-- The oldest message from a source to a carrel, which is the next to arrive (R136). -/
def State.nextMsg (s : State) (source carrel : Nat) : Option MeshMsg :=
  s.fabric.mesh.find? (fun m => m.src == source && m.dst == carrel)

/-- A message that has arrived. -/
def State.popMsg (s : State) (m : MeshMsg) : State := { s with fabric := { s.fabric with mesh := s.fabric.mesh.erase m } }

/-- INPUT_TOKEN: the token that is next on its way from `source` reaches a carrel; `sent` is a token that a ring unit sends to a stage
of a default image, whose inputs the units form themselves (R127, R129, R136, R145, R146, R148, R176; log 160). -/
def execInputToken (carrel source : Nat) (sent : Option OutsideMsg) (s : State) : Answer :=
  .next <|
    match sent, s.nextMsg source carrel with
    | none, some m =>
      (match m.body with
        | .token t => (s.popMsg m).takeToken carrel m.port t source
        | .data .. => s)
    | some o, none =>
      (match o.body with
        | .token t => if source < 256 then s else s.takeToken carrel o.port t source
        | .data .. => s)
    | _, _ => s

/-- HANDOVER_DATA: the message of data that is next on its way from `source` writes part of a slot of the consumer's SRAM; `sent` is
one of at most 64 flits that a ring unit sends (R126, R132, R136, R145, R150; log 160). -/
def execHandoverData (carrel source : Nat) (sent : Option OutsideMsg) (s : State) : Answer :=
  .next <|
    match sent, s.nextMsg source carrel with
    | none, some m =>
      (match m.body with
        | .data slot offset data marks => (s.popMsg m).takeData carrel m.port slot offset data marks source
        | .token _ => s)
    | some o, none =>
      (match o.body with
        | .data slot offset data marks =>
          if source < 256 || decide (4096 < data.length) then s else s.takeData carrel o.port slot offset data marks source
        | .token _ => s)
    | _, _ => s

/-! ## The Stack vault ports (R126, R138, R139, R143, R235) -/

/-- The Stack ranges that the image of a carrel's stage grants it, as places of the scratch region with their lengths: its own
STACK_GRANT and the edges it produces, and, to read, the edges it consumes (R126). -/
def State.grantsOf (s : State) (c : Nat) (write : Bool) : List (Nat × Nat) :=
  let x := s.carrel c
  match x.bound with
  | none => []
  | some b =>
    match s.image b.handle with
    | none => []
    | some i =>
      let edge (n : Nat) : List (Nat × Nat) :=
        let e := edgeEnt i.content n
        if e.medium = 1 then [(i.base + edgeStart i.content n, e.slots * e.slotBytes)] else []
      (i.base + grantStart i.content b.stage b.slot, (stageEnt i.content b.stage).grant) ::
        (x.outs.flatMap (fun p => edge p.edge) ++ (if write then [] else x.ins.flatMap (fun p => edge p.edge)))

/-- Whether a requester may reach `n` bytes of the Stack from an address on: a carrel's stage within its grants, a ring unit, 256 and
above, anywhere (R126). -/
def State.mayReach (s : State) (source addr n : Nat) (write : Bool) : Bool :=
  decide (256 ≤ source) ||
    (match Region.scratch.place addr with
      | none => false
      | some p => decide (p % Region.scratch.bytes + n ≤ Region.scratch.bytes) &&
          (s.grantsOf source write).any (fun g => decide (g.1 ≤ p) && decide (p + n ≤ g.1 + g.2)))

/-- Whether a request is one of 1 to 64 whole units from a 64-byte aligned address (R139). -/
def wholeUnits (addr units : Nat) : Bool := addr % 64 = 0 && decide (1 ≤ units) && decide (units ≤ 64)

/-- STACK_WRITE_REQUEST: 1 to 64 whole units written, or the bytes of them that `mask` names; each word is acknowledged, or refused
where a partial write finds it uncorrectable. A stage's request outside its grant is not performed and halts it. What is no
such run of units is no request (R78, R126, R138, R139, R143, R150). -/
def execStackWriteRequest (source addr : Nat) (data : Bytes) (mask : Option (List Bool)) (s : State) : Answer :=
  if stackLimit < addr + data.length then .fault .noSuchAddress
  else
    .next <|
      if data.length % 64 ≠ 0 || !wholeUnits addr (data.length / 64) || mask.any (fun m => m.length ≠ data.length) then s
      else if !s.mayReach source addr data.length true then s.haltCarrel source 0
      else
        let r := s.writeStackWords data (mask.getD []) 0 ((List.range (data.length / 32)).map (fun i => addr / 32 + i))
        r.1.modStack (fun m => { m with lastAck := r.2 })

/-- A Stack read of whole units (R138, R139, R143): what is delivered stands in `lastRead`. -/
def State.readUnits (s : State) (addr units : Nat) : State :=
  let r := s.readStackWords ((List.range (units * 2)).map (fun i => addr / 32 + i))
  r.2.modStack (fun m => { m with lastRead := r.1 })

/-- STACK_READ_REQUEST: 1 to 64 units read from a 64-byte aligned address, each word delivered as the word code decides; a stage's
request outside its grant is not performed and halts it. `band` names the stream whose band ring is read, which falls back
where a word is uncorrectable (R76, R77, R126, R138, R139, R143, R150, R235). -/
def execStackReadRequest (source addr units : Nat) (band : Option Nat) (s : State) : Answer :=
  if stackLimit < addr + 64 * units then .fault .noSuchAddress
  else
    .next <|
      if !wholeUnits addr units then s
      else if !s.mayReach source addr (64 * units) false then s.haltCarrel source 0
      else
        let s := s.readUnits addr units
        match band with
        | some k => if s.fabric.stack.lastRead.any (·.2) then s.fallBack k else s
        | none => s

end Sys2Proof.Machine
end

