-- ==== Sys2Proof/Machine/LinkMsgs.lean ====
section
/-! DEFINITION. Link messages as their takers take them (R36, R143, R149, R292, R336, R360, R361, R380, R410, R411, R424,
R444, R460, R461, R466, R495, R546). The manual gives CONTROL, BULK and QUEUE_POST data no layout: log 14. -/
namespace Sys2Proof.Machine

/-! ## Taking a message (R459) -/

/-- The message of a kind that may be taken from a port: the first of its channel, the lowest channel first. -/
def Jalzel.head (x : Jalzel) (kind : Nat) : Option LinkMsg :=
  ((List.range 4).filterMap (fun c => x.inbox.find? (fun m => m.channel == c))).find? (fun m => m.kind == kind)

/-- The next message of a kind taken from a port: its words are freed (R456, R459). -/
def State.takeMsg (s : State) (p kind : Nat) (k : LinkMsg → State → State) : State :=
  match (s.jalzel p).head kind with
  | none => s
  | some m => k m (s.modJalzel p (fun x => { x.free m.channel m.count with inbox := x.inbox.erase m }))

/-- The response to a request: the response channel of its class, its tag and its address (R134, R460, R461). -/
def State.respond (s : State) (m : LinkMsg) (kind poison : Nat) (words : List Bytes) : State :=
  s.sendLink {
    kind := kind, channel := m.channel / 2 * 2 + 1, source := s.position, dest := m.source, tag := m.tag, address := m.address
    poison := poison, words := words }

/-! ## Stack accesses (R461, R466, R546) -/

/-- Whether a run of bytes lies in a region opened to a member. -/
def State.openedTo (s : State) (member addr len : Nat) : Bool :=
  s.net.opened.any (fun o => o.source == member && decide (o.base ≤ addr) && decide (addr + len ≤ o.base + o.length))

/-- The bits of a list of marks. -/
def markBits (l : List Bool) : Nat := l.foldr (fun b a => 2 * a + flag b) 0

/-- READ_REQ: a read of a region opened to the peer, answered with READ_DATA whose words keep their marks; one that can not
be served is answered fully poisoned. -/
def execReadReq (port : Nat) (s : State) : Answer :=
  .next <| s.takeMsg port 1 fun m s =>
    let addr := bitsOf m.address 34 0
    let units := bitsOf m.address 47 40
    let blank := List.replicate (2 * min 64 units) (zeros 32)
    if units = 0 || decide (64 < units) || addr % 64 ≠ 0 || !s.openedTo m.source addr (64 * units) then
      (s.jalzelViolation port 0x07 m.source).respond m 2 (2 ^ 128 - 1) blank
    else if s.unitDown 0x0002 (vaultOfWord (addr / 32)) then s.respond m 2 (2 ^ 128 - 1) blank
    else
      let r := s.readStackWords ((List.range (2 * units)).map (fun i => addr / 32 + i))
      r.2.respond m 2 (markBits (r.1.map (·.2))) (r.1.map (·.1))

/-- A response matched with the request that waits for it; one that matches none is dropped. -/
def State.matchTag (s : State) (p : Nat) (m : LinkMsg) (write : Bool) (k : State → State) : State :=
  if (s.jalzel p).open_.any (fun r => r.tag == m.tag && r.write == write) then
    k (s.modJalzel p (fun x => { x with open_ := x.open_.filter (fun r => !(r.tag == m.tag && r.write == write)) }))
  else s.jalzelViolation p 0x0A m.source

/-- READ_DATA: the data of an earlier request, each word with its mark. -/
def execReadData (port : Nat) (s : State) : Answer :=
  .next <| s.takeMsg port 2 fun m s => s.matchTag port m false fun s =>
    s.modJalzel port (fun x => { x with
      lastRead := ((List.range m.words.length).zip m.words).map (fun e => (e.2, m.poison.testBit e.1)) })

/-- A word of a peer's write: whole, or its first word under a byte mask; a marked word keeps its mark. The state after, and whether
the write was performed (R78). -/
def State.linkWrite (s : State) (w : Nat) (d : Bytes) (mask : List Bool) (poison : Bool) : State × Bool :=
  if poison then ((s.putStackWord w d).modStack (fun m => { m with store := m.store.poison w }), true)
  else s.writeStackWord w d mask

/-- WRITE: a write into a region opened to the peer, acknowledged once it is visible; `masked` says that it writes a part of
one word, whose byte mask stands in bits 63:32 of the second data word. A partial write of an uncorrectable word is not performed, and
the WRITE_ACK carries the poison mark in place of an acknowledgement (R77, R78; log 186). -/
def execWrite (port : Nat) (masked : Bool) (s : State) : Answer :=
  .next <| s.takeMsg port 3 fun m s =>
    let addr := bitsOf m.address 34 0
    let ws := if masked then m.words.take 1 else m.words
    let bits := fldB (m.words.getD 1 []) 4 4
    let mask := if masked then (List.range 32).map (fun i => bits.testBit i) else List.replicate 32 true
    if addr % 32 ≠ 0 || !s.openedTo m.source addr (32 * ws.length) then s.jalzelViolation port 0x07 m.source
    else
      let r := ((List.range ws.length).zip ws).foldl (fun (a : State × Bool) e =>
        let b := a.1.linkWrite (addr / 32 + e.1) e.2 mask (m.poison.testBit e.1)
        (b.1, a.2 && b.2)) (s, true)
      r.1.respond m 4 (flag (!r.2)) []

/-- A write acknowledged: a token whose every write is acknowledged now goes (R146, R149). -/
def State.ackTokens (s : State) (port tag : Nat) : State :=
  let l := s.net.farTokens.map (fun t => if t.port = port then { t with tags := t.tags.filter (· ≠ tag) } else t)
  (l.filter (fun t => t.tags.isEmpty)).foldl (fun s t => s.sendLink t.msg)
    { s with net := { s.net with farTokens := l.filter (fun t => !t.tags.isEmpty) } }

/-- WRITE_ACK: a peer's acknowledgement of a write (R143, R146). -/
def execWriteAck (port : Nat) (s : State) : Answer :=
  .next <| s.takeMsg port 4 fun m s => s.matchTag port m true fun s => s.ackTokens port m.tag

/-! ## Hand-overs, parts, the Bell (R145, R149, R292, R495) -/

/-- TOKEN: a hand-over token for a carrel: carrel, port, slot, bytes, sequence and the producer's carrel and output in its word.
One that names a slot its producer holds no credit for is a fault of the producer's stage, which the producer's member is told
(R144 to R150; log 14). -/
def execToken (port : Nat) (s : State) : Answer :=
  .next <| s.takeMsg port 5 fun m s =>
    let w := m.words.headD []
    let t : Token := {
      slot := fldB w 3 1, bytes := fldB w 4 4, seq := fldB w 8 4
      far := some { member := m.source, carrel := fldB w 12 2, port := fldB w 14 1, address := 0 } }
    match (s.carrel (fldB w 0 2)).ins[fldB w 2 1]? with
    | some p => if p.admits t then s.takeToken (fldB w 0 2) (fldB w 2 1) t 256 else s.control m.source 0x77 [fldB w 12 2]
    | none => s.control m.source 0x77 [fldB w 12 2]

/-- QUEUE_POST: a query part for its home device, or an answer for the member whose port it leaves by; one that carries a
poisoned word is not used (R292, R466, R546). -/
def execQueuePost (port : Nat) (s : State) : Answer :=
  .next <| s.takeMsg port 6 fun m s =>
    let q := m.address
    let b := m.words.flatten
    if m.poison ≠ 0 then s
    else if q % 2 = 1 && decide (524288 ≤ q) && decide (q < 1048576) && fldB b 0 1 / 16 = s.position then s.postedAnswer b
    else if hostResident q || decide (1048575 < q) || (s.desk.circ.queue q).state ≠ .active then
      s.jalzelViolation port 0x09 m.source
    else s.postedPart m.source b

/-- BELL: a remote source raised; a number outside the sources of the sender is dropped and counted (R495). -/
def execBell (port : Nat) (s : State) : Answer :=
  .next <| s.takeMsg port 7 fun m s =>
    let n := m.address
    if decide (256 ≤ n) && decide (n ≤ 511) && (n - 256) / 32 = m.source then s.tell [.raise n]
    else (s.modBell (fun b => { b with remoteBad := satAdd 32 b.remoteBad 1 })).tell
      [.errata { cls := 0, unit := 0x0018, detail0 := m.source }]

/-! ## BULK -/

/-- Bytes of a run that comes in order: those at offset 0 begin it anew. -/
def bulkRun (old : Bytes) (offset : Nat) (b : Bytes) : Bytes := old.take offset ++ b

/-- BULK: data of a unit: a codebook for the Collator or the Catalogue; the data of searches and matching go with the
commands that they are for. -/
def execBulk (port : Nat) (s : State) : Answer :=
  .next <| s.takeMsg port 8 fun m s =>
    let unit := m.address / 2 ^ 32
    let off := m.address % 2 ^ 32
    if unit = 0x13 then s.modCollator (fun c => { c with bookIn := bulkRun c.bookIn off m.words.flatten })
    else if unit = 0x14 && decide (off < 2 ^ 31) then s.modCat (fun c => { c with bookIn := bulkRun c.bookIn off m.words.flatten })
    else s

/-! ## CONTROL -/

/-- Another member's answer on a delete passed on to it: 0 newly deleted, 1 already, 2 never assigned (R410, R423). -/
def State.deleteAnswered (s : State) (member id result : Nat) : State :=
  let waits (d : WaitingDelete) : Bool := d.remote.contains id && id / 2 ^ 37 == member
  match s.catalogue.deleteWaiting.find? waits with
  | none => s
  | some d =>
    let e := { d with
      remote := d.remote.erase id, fresh := d.fresh + flag (result = 0), already := d.already + flag (result = 1)
      never := d.never + flag (decide (1 < result)) }
    (s.modCat (fun c => { c with deleteWaiting := c.deleteWaiting.erase d })).runDelete e

/-- Another member's answer on a session passed on to it: a refusal's code, or 0 and the SESSION_ID (R361). -/
def State.openAnswered (s : State) (job member code id : Nat) : State :=
  if amGet s.sessions.opening job ≠ some member then s
  else
    (s.modSessions (fun t => { t with opening := amDel t.opening job })).finish job
      (if code = 0 then endWith [] 0 id else refusal code)

/-- The session ports that a member names, sixteen to a word (R444). -/
def State.hearPorts (s : State) (member : Nat) (first : Bool) (count : Nat) (words : List Nat) : State :=
  let ports := (words.flatMap (fun w => (List.range 16).map (fun i => bitsOf w (16 * i + 15) (16 * i)))).take count
  let old := if first then [] else amGetD s.net.sessionPorts member []
  { s with net := { s.net with sessionPorts := amSet s.net.sessionPorts member (old ++ ports) } }

/-- A number that has been assigned in the room (R334). -/
def State.knowNumber (s : State) (number : Nat) : State :=
  s.modMap (fun m => { m with flash := { m.flash with highest := max m.flash.highest number } })

/-- A number dropped by the clerk: the edits that it names return to pencilled (R336, R339). -/
def State.numberDropped (s : State) (number : Nat) (rest : List Nat) : State :=
  (s.backToPencil rest).modMap (fun m => { m with made := none, flash := { m.flash with highest := max m.flash.highest number } })

/-- The map's messages. -/
def State.controlMap (s : State) (src code : Nat) (a : List Nat) : State :=
  let n := natAt a 0
  match code with
  | 0x35 => if src = s.clerk then s.numberDropped n (a.drop 1) else s
  | 0x38 => s.modMap (fun m => { m with otherHolds := m.otherHolds ++ (a.filter (fun n => !m.otherHolds.contains (src, n))).map (fun n => (src, n)) })
  | 0x39 => (s.modMap (fun m => { m with otherHolds := m.otherHolds.filter (fun h => h.1 ≠ src || !a.contains h.2) })).dropEditions
  | 0x3A => s.control src 0x3B (s.map.lastInked :: s.map.flash.highest :: s.inkedIn s.map.lastInked)
  | 0x3B => (s.knowNumber (natAt a 1)).clerkHears src n (a.drop 2)
  | 0x3C => s.knowNumber n
  | 0x68 =>
    let s := s.takeRoomPolicy (natAt a 2) (natAt a 3) (natAt a 4 = 1)
    if n = s.position then s.policyTaken (natAt a 1) s.position else s.control n 0x69 [natAt a 1]
  | 0x69 => s.policyTaken n src
  | 0x6A => (s.acceptRoomPolicy src n (natAt a 1) (natAt a 2) (natAt a 3 = 1)).control src 0x69 [n]
  | 0x6B => s.setPin n (natAt a 1)
  | 0x6C => s.dropPin n
  | 0x6D => s.switchHolder n (natAt a 1)
  | 0x6E => s.clerkMaySwitch src n (natAt a 1) (natAt a 2)
  | 0x6F => (s.modMap (fun m => { m with memberMax := amSet m.memberMax src n })).reviewBounds
  | 0x74 => { s with net := { s.net with
      opened := s.net.opened.filter (fun o => o.source ≠ src) ++ [{ source := src, base := copyBase src, length := natAt a 1 }] } }
  | 0x76 => s.takeCredit n (natAt a 1) (natAt a 2)
  | 0x77 => s.haltCarrel n 0
  | 0x75 => s.takeCopy src n
  | 0x78 => s.copyLeft src n
  | 0x79 => s.copyAnswered src n (natAt a 1 = 1)
  | 0x7A => s.copyAgain n
  | 0x7B => s.hearLost src n (a.drop 1)
  | _ => s

/-- The messages of the Catalogue, the Collator and the session stage. -/
def State.controlUnits (s : State) (src code : Nat) (a : List Nat) : State :=
  let n := natAt a 0
  let book := natAt a 2 = 1
  let setting := if book then s.collator.bookIn else le 32 (natAt a 3) ++ le 32 (natAt a 4)
  match code with
  | 0x42 => s.dropServed src n
  | 0x43 => s.discardSearch n
  | 0x50 => s.runDelete { job := none, asker := some src, asked := n, ids := [n], durable := natAt a 1 = 1, fresh := 0, already := 0, never := 0 }
  | 0x51 => s.deleteAnswered src n (natAt a 1)
  | 0x60 =>
    let s := s.takeSetting book setting
    if n = s.position then s.settingTaken (natAt a 1) s.position else s.control n 0x62 [natAt a 1]
  | 0x61 => (s.acceptSetting n (natAt a 1) book setting).control n 0x62 [natAt a 1]
  | 0x62 => s.settingTaken n src
  | 0x64 => s.control src 0x65 [n, flag (s.catalogue.holdsNone (natAt a 1))]
  | 0x65 => s.definitionAnswer n src (natAt a 1 = 1)
  | 0x66 =>
    (s.define (natAt a 1) { half := natAt a 2 = 1, dim := natAt a 3, book := some s.catalogue.bookIn }).control src 0x65 [n, 1]
  | 0x70 =>
    if s.reference.state ≠ .normal then s.control src 0x71 [n, stRefusedDegraded, 0]
    else
      match s.openHere ((a.drop 1).flatMap (le 32)) with
      | .inl code => s.control src 0x71 [n, code, 0]
      | .inr (id, s) => s.control src 0x71 [n, 0, id]
  | 0x71 => s.openAnswered n src (natAt a 1) (natAt a 2)
  | 0x72 => s.modSessions (fun t => { t with members := amSet t.members src (n, natAt a 1) })
  | 0x73 => s.hearPorts src (n = 1) (natAt a 1) (a.drop 2)
  | _ => s

/-- CONTROL: a message of the room, the clerk, a Curator, the Catalogue, the Collator or a session stage. Those that a
command of their own carries (notices, inkings, searches, matching, timekeeping) are taken with that command. -/
def execControl (port : Nat) (s : State) : Answer :=
  .next <| s.takeMsg port 9 fun m s =>
    let a := m.words.map unle
    (s.controlMap m.source m.address a).controlUnits m.source m.address a

end Sys2Proof.Machine
end

