-- ==== Sys2Proof/Machine/Service.lean ====
section
/-! DEFINITION. Reference service, its opcodes and those of the Errata log (R34, R201, R215, R224, R255, R289, R364, R395, R439,
R551 to R556, R616). -/
namespace Sys2Proof.Machine

/-! ## Causes (R548, R551) -/

/-- Shelf engines out of service (R548). -/
def State.enginesOut (s : State) : Nat := (s.desk.errata.down.filter (fun d => d.unit == 0x0011 && d.out)).length

/-- An element whose consequence is reference service is out of service: a Stack vault, the Catalogue controller, the
Concordance unit, the large path, five shelf engines (R548, R551). -/
def State.elementCause (s : State) : Bool :=
  s.desk.errata.down.any (fun d => d.out && (d.unit == 0x0002 || d.unit == 0x0014 || d.unit == 0x0015 || (d.unit == 0x0013 && d.inst == 0)))
    || decide (5 ≤ s.enginesOut)

/-- A restoration of this member's sheets has not ended: the last inked edition does not read one yet (R546, R551). -/
def State.restoring (s : State) : Bool :=
  s.map.lost.any (fun e => e.1 == s.map.lastInked && s.holder e.2 == some s.position)

/-- Every cause has cleared (R551). -/
def State.mayLeave (s : State) : Bool := !s.reference.hostCause && !s.elementCause && !s.restoring

/-- The reference service changed. -/
def State.modReference (s : State) (f : Reference → Reference) : State := { s with reference := f s.reference }

/-- A cause has arisen: entry begins; one that arises during exit returns the member to ACTIVE; another extends the stay
(R551, R552, R554). -/
def State.referenceCause (s : State) (c : Option RefCause) : State :=
  s.modReference fun r =>
    match r.state with
    | .normal => { r with state := .entering, cause := c }
    | .exiting => { r with state := .active }
    | _ => r

/-- A cause has cleared: with none left, exit begins (R551, R554). -/
def State.referenceReview (s : State) : State :=
  if s.reference.state = .active && s.mayLeave then s.modReference (fun r => { r with state := .exiting }) else s

/-! ## Entry (R552, R553) -/

/-- Upkeep work in flight discarded (R552 step 2). -/
def State.discardUpkeep (s : State) : State :=
  let jobs := (s.desk.circ.jobs.filter (fun j => s.stops j.slip && j.ending.isNone)).map (·.num)
  let s := (s.discardNumbers jobs).dropWaits jobs
  let s := (s.collator.solves.map (·.owner)).foldl (fun s o => s.discardSolve o) s
  let s := (s.vision.graphs.map (·.1)).foldl (fun s k => s.discardFrames k) s
  (s.catalogue.searches.filter (fun e => match e.2.owner with
    | .loop _ => true
    | _ => false)).foldl (fun s e => s.discardSearch e.1) s

/-- The units enter their reference states (R201, R224, R289, R364, R439, R553). -/
def State.unitsStop (s : State) : State :=
  let s := (s.accession.streams.map (·.1)).foldl (fun s k => s.modStream k (·.discardUnit)) s
  let s := if s.concord.state = .running then s.stopFusion none else s
  let s := s.modCat (fun c => { c with reshelving := none, reshelveWaiting := [] })
  s.modCurator (fun c => { c with moves := c.moves.filter (fun m => m.kind ≠ .sheet) })

/-- REFERENCE_ENTRY: the steps of entry from the second on; an entry that has begun ends ACTIVE (R34, R552, R553, R556). -/
def execReferenceEntry (s : State) : Answer :=
  .next <|
    if s.reference.state ≠ .entering then s
    else
      let s := s.discardUpkeep.unitsStop
      let s := s.withdrawOwn (s.heldBy s.position) 5
      let c := s.reference.cause
      let jobs := s.reference.enterJobs
      let s := (s.modReference (fun r => { r with state := .active, enteredAt := s.now, enterJobs := [] })).event s.desk.errata.eventQueue
        { code := 0x0881, subject := flag c.isNone, detail := c.elim 0 (·.unit), value := c.elim 0 (·.inst), payload := c.elim 0 (·.seq) }
      (jobs.foldl (fun s n => s.finish n (endWith [])) s).referenceReview

/-! ## Exit (R554) -/

/-- REFERENCE_EXIT: every cause has cleared: graphs and chains restart, stations and the Catalogue go on, the member is in
normal service (R201, R215, R255, R554, R556). -/
def execReferenceExit (s : State) : Answer :=
  .next <|
    let r := s.reference
    if (r.state ≠ .exiting && r.state ≠ .active) || !s.mayLeave then s
    else
      let s := (s.vision.graphs.map (·.1)).foldl (fun s k => s.modGraph k (fun g => { g with restart := true })) s
      let s := (s.accession.streams.filter (fun e => e.2.desc.kind = 1)).foldl (fun s e =>
        (s.restartChains e.1 true).modStream e.1 (fun x => { x with expected := none, resync := true })) s
      let s := (s.modReference (fun r => { r with state := .normal, cause := none, exitJobs := [] })).pushDeletes.tryReshelving.event
        s.desk.errata.eventQueue { code := 0x0882, value := sat 32 ((s.now - r.enteredAt) / 1000000) }
      r.exitJobs.foldl (fun s n => s.finish n (endWith [])) s

/-- ENTER_REFERENCE (0x0881) (R551, R555). -/
def execEnterReference (job : Nat) (s : State) : Answer :=
  .next <| s.begin job 0x0881 fun j s =>
    if fld j.slip 32 32 ≠ 0 then s.finish j.num (refusal stMalformed)
    else
      let s := (s.modReference (fun r => { r with hostCause := true })).referenceCause none
      if s.reference.state = .entering then s.modReference (fun r => { r with enterJobs := r.enterJobs ++ [j.num] })
      else s.finish j.num (endWith [])

/-- EXIT_REFERENCE (0x0882): the host's cause is cleared, also where an element's cause stands (R555). -/
def execExitReference (job : Nat) (s : State) : Answer :=
  .next <| s.begin job 0x0882 fun j s =>
    if fld j.slip 32 32 ≠ 0 then s.finish j.num (refusal stMalformed)
    else
      let s := s.modReference (fun r => { r with hostCause := false })
      if s.elementCause then s.finish j.num (refusal stNotPermitted)
      else if s.reference.state = .normal then s.finish j.num (endWith [])
      else (s.modReference (fun r => { r with exitJobs := r.exitJobs ++ [j.num] })).referenceReview

/-! ## Reading the records (R541, R555, R616) -/

/-- The 64 bytes of a record; one of the Vault carries its START_SERIAL (R541). -/
def ErrRec.bytes (r : ErrRec) (serial : Nat) : Bytes :=
  packB 64 [(0, 8, r.time), (8, 4, r.seq), (12, 1, r.cls), (13, 1, r.depth), (14, 1, r.flags), (15, 1, r.scope), (16, 2, r.unit),
    (18, 2, r.inst), (20, 2, r.code), (22, 1, r.orig), (24, 8, r.location), (32, 4, r.parent), (36, 4, r.count), (40, 8, r.detail0),
    (48, 8, r.detail1), (56, 4, serial)]

/-- (i32)(a - b) as a number. -/
def seqDiff (a b : Nat) : Int := toInt 32 ((a + 2 ^ 32 - b % 2 ^ 32) % 2 ^ 32)

/-- Records of the ring from a SEQUENCE on: those written, the continuation, the records overwritten since (R616); no record has
SEQUENCE 0 (R539). -/
def ErrataLog.read (l : ErrataLog) (start room : Nat) : Bytes × Nat × Nat × Nat :=
  let rs := (l.ring.filter (fun r => decide (0 ≤ seqDiff r.seq start))).take room
  let gone := match l.ring with
    | [] => 0
    | r :: _ => min ((seqDiff r.seq start).toNat - flag (decide (r.seq < start))) l.overwritten
  (rs.flatMap (fun r => r.bytes 0), rs.length, (rs.getLast?.elim start (fun r => nextSequence r.seq)), gone)

/-- Device-fatal records of the Vault from a START_SERIAL on (R616). -/
def Vault.read (v : Vault) (start room : Nat) : Bytes × Nat × Nat × Nat :=
  let rs := (sortBy (fun (a b : FatalRec) => decide (a.serial < b.serial) || (a.serial == b.serial && decide (a.record.seq < b.record.seq)))
    (v.fatal.filter (fun r => decide (start ≤ r.serial)))).take room
  (rs.flatMap (fun r => r.record.bytes r.serial), rs.length, (rs.getLast?.elim start (fun r => r.serial + 1)), 0)

/-- READ_ERRATA (0x0880) (R555, R616). -/
def execReadErrata (job : Nat) (s : State) : Answer :=
  .next <| s.begin job 0x0880 fun j s =>
    let source := fld j.slip 36 1
    if decide (1 < source) || fld j.slip 37 27 ≠ 0 then s.finish j.num (refusal stMalformed)
    else if dataLenOf j.slip < 64 then s.finish j.num (refusalNotStarted stTooLarge)
    else
      let room := dataLenOf j.slip / 64
      let r := if source = 0 then s.desk.errata.read (fld j.slip 32 4) room else s.vault.read (fld j.slip 32 4) room
      s.finish j.num (endWith [] 0 (r.2.1 + r.2.2.1 % 2 ^ 32 * 2 ^ 32 + r.2.2.2 * 2 ^ 64) [(0, r.1)])

/-- REFERENCE_STATE as R592 numbers it. -/
def RefState.code : RefState → Nat
  | .normal => 0
  | .entering => 1
  | .active => 2
  | .exiting => 3

/-- QUERY_ERRORS (0x0883) (R555). -/
def execQueryErrors (job : Nat) (s : State) : Answer :=
  .next <| s.begin job 0x0883 fun j s =>
    if fld j.slip 32 32 ≠ 0 then s.finish j.num (refusal stMalformed)
    else if dataLenOf j.slip < 64 then s.finish j.num (refusalNotStarted stTooLarge)
    else
      let l := s.desk.errata
      let n (i : Nat) : Nat := natAt l.counts i
      s.finish j.num (endWith [] 0 0 [(0, packB 64 [(0, 4, n 0), (4, 4, n 1), (8, 4, n 2), (12, 4, n 3), (16, 4, n 4), (20, 4, l.escalations),
        (24, 4, l.lost), (28, 4, l.overwritten), (32, 4, (l.down.filter (·.out)).length), (36, 4, l.handlings.length),
        (40, 1, s.reference.state.code)])])

/-- SET_ERRATA (0x0884) (R555). -/
def execSetErrata (job : Nat) (s : State) : Answer :=
  .next <| s.begin job 0x0884 fun j s =>
    let c := fld j.slip 32 1
    let q := fld j.slip 36 4
    if decide (4 < c) || fld j.slip 33 3 ≠ 0 || fld j.slip 40 24 ≠ 0 || !s.eventQueueOk q then s.finish j.num (refusal stMalformed)
    else (s.modErrata (fun l => { l with eventClass := c, eventQueue := q })).finish j.num (endWith [])

end Sys2Proof.Machine
end

