-- ==== Sys2Proof/Machine/Power.lean ====
section
/-! DEFINITION. Clocks, operating points, the power cap, the core rail, thermal limits (R512, R513, R518 to R522, R534, R582,
R597, R607, R609). -/
namespace Sys2Proof.Machine

/-- Power changed. -/
def State.modPower (s : State) (f : Power → Power) : State := { s with power := f s.power }

/-- Quadrant `q`. -/
def State.quadrant (s : State) (q : Nat) : Quadrant := s.power.quadrants.getD q {}

/-- Quadrant `q` changed. -/
def State.modQuadrant (s : State) (q : Nat) (f : Quadrant → Quadrant) : State :=
  s.modPower (fun p => { p with quadrants := modAt p.quadrants q f })

/-- The device is awake and no thermal trip stands. -/
def State.runs (s : State) : Bool := s.power.sleep = .awake && !s.power.tripped

/-! ## SMB_ALERT_N (R607) -/

/-- A cause of SMB_ALERT_N stands (R607). -/
def State.alertCause (s : State) : Bool := s.power.throttled || s.boot.gen = .minimal || s.power.railFault

/-- A cause of SMB_ALERT_N begins. -/
def State.alertBegins (s : State) : State :=
  if s.power.alert then s else (s.modPower (fun p => { p with alert := true })).emit [.pin .smbAlert false]

/-- A cause of SMB_ALERT_N has ended: it is released once none stands. -/
def State.alertReview (s : State) : State :=
  if s.power.alert && !s.alertCause then (s.modPower (fun p => { p with alert := false })).emit [.pin .smbAlert true] else s

/-! ## Partner violations (R609) -/

/-- INSTANCE of the management ports within unit 0x0030 (R598). -/
def smbusPort : Nat := 0x100
def avsPort : Nat := 0x101
def spiPort : Nat := 0x102
def testPort : Nat := 0x103

/-- A partner violation of a management or test port: counted, and recorded once per port and reason in a reporting window
(R609, R613). -/
def State.portViolation (s : State) (port reason : Nat) : State :=
  let key := port * 256 + reason
  let s := { s with ports := { s.ports with violations := amSet s.ports.violations key (amGetD s.ports.violations key 0 + 1) } }
  s.report { family := 0x0030, subject := port, reason := reason } (fun _ =>
    [.errata { cls := 0, unit := 0x0030, inst := port, code := reason, flags := 4 }])

/-! ## Quadrant clocks (R512, R513) -/

/-- A carrel that lets its quadrant's clock stop (R513). -/
def CarrelState.still : CarrelState → Bool
  | .off => true
  | .retired => true
  | .retention => true
  | _ => false

/-- A quadrant whose clock runs though all its carrels are still and no change of its operating point is in progress (R513). -/
def State.quadrantStill (s : State) (q : Nat) : Bool :=
  let x := s.quadrant q
  x.clockOn && x.wanted.isNone && s.fabric.carrels.all (fun e => quadrantOf e.1 ≠ q || e.2.state.still)

/-- QUADRANT_CLOCK_STOP: a quadrant of QUADRANT_SLEEP whose carrels have all been still for 1 ms, and no change of whose
operating point is in progress, loses its clock; one that QUADRANT_SLEEP keeps running stands at that bound (R358, R513). -/
def execQuadrantClockStop (q : Nat) (s : State) : Answer :=
  .next <|
    let mask := s.curator.policy.quadrantSleep
    let s := if (List.range 4).any (fun k => !mask.testBit k && s.quadrantStill k) then s else s.unpinBound 6
    if !s.quadrantStill q then s
    else if !mask.testBit q then (if q < 4 then s.pinBound 6 else s)
    else
      s.modQuadrant q (fun x => { x with clockOn := false, pllLocked := false })

/-- QUADRANT_CLOCK_START: a carrel of a quadrant whose clock stands still must wake: its PLL is started (R513). -/
def execQuadrantClockStart (q : Nat) (s : State) : Answer :=
  .next <|
    let x := s.quadrant q
    if s.runs && s.boot.gen ≠ .minimal && !x.clockOn then s.modQuadrant q (fun x => { x with starting := true }) else s

/-! ## Operating points (R518, R597) -/

/-- The core rail window of a point in mV (R518). -/
def railWindow : Nat → Nat × Nat
  | 0 => (700, 750)
  | 1 => (660, 700)
  | 2 => (620, 650)
  | 3 => (590, 610)
  | 4 => (570, 580)
  | _ => (570, 570)

/-- The highest of the points that quadrants with a running clock stand at or are to follow to. -/
def State.topPoint (s : State) : Option Nat :=
  match (s.power.quadrants.filter (·.clockOn)).map (fun x => x.wanted.elim x.point (min x.point)) with
  | [] => none
  | a :: l => some (minOf a l)

/-- A voltage lies in the window of the highest point that runs; with no quadrant running, at 0.57 V or above (R518). -/
def State.railOk (s : State) (mv : Nat) : Bool :=
  match s.topPoint with
  | none => decide (570 ≤ mv) && decide (mv ≤ 750)
  | some p => decide ((railWindow p).1 ≤ mv) && decide (mv ≤ (railWindow p).2)

/-- A voltage command over AVSBus (R597). -/
def State.sendAvs (s : State) (mv : Nat) : State := (s.modPower (fun p => { p with avsPending := some mv })).emit [.avs mv]

/-- The clock of a quadrant follows to the point that it waits for, where the rail suffices (R518). -/
def Quadrant.follow (x : Quadrant) (mv : Nat) : Quadrant :=
  match x.wanted with
  | some p => if (railWindow p).1 ≤ mv then { x with point := p, wanted := none } else x
  | none => x

/-- OPERATING_POINT_CHANGE: a quadrant moves to the point that it waits for, after the rail where it must rise first; or, its
clock lowered before, the rail follows. `mv` is the least voltage of the window at which the speed monitors pass (R518). -/
def execOperatingPointChange (q mv : Nat) (s : State) : Answer :=
  .next <|
    let x := s.quadrant q
    if !s.runs || !x.clockOn || s.power.avsPending.isSome || !s.railOk mv then s
    else if x.wanted.isSome then
      if mv ≤ s.power.coreMv then s.modQuadrant q (·.follow s.power.coreMv) else s.sendAvs mv
    else if mv ≠ s.power.coreMv then s.sendAvs mv
    else s

/-- AVS_STEP_COMPLETE: the core regulator acknowledges the voltage, and the clocks that wait for it follow (R518, R597). -/
def execAvsStepComplete (s : State) : Answer :=
  .next <|
    match s.power.avsPending with
    | none => s
    | some mv => s.modPower (fun p => { p with
        coreMv := mv, avsPending := none, avsFailures := 0, quadrants := p.quadrants.map (·.follow mv) })

/-- A voltage step failed: the last acknowledged voltage stands, and no point is raised above it (R609). -/
def State.avsFailed (s : State) (reason : Nat) : State :=
  (s.modPower (fun p => { p with
    avsPending := none, avsFailures := 0, quadrants := p.quadrants.map (fun x => { x with wanted := none }) })).portViolation avsPort reason

/-- AVS_STEP_TIMEOUT: a transaction is left without response or fails its CRC, the third time in a row a violation of reason
0x04, the times before sent again; or a step has not completed within 20 µs, reason 0x05 (R609). -/
def execAvsStepTimeout (noResponse : Bool) (s : State) : Answer :=
  .next <|
    if noResponse then
      if 3 ≤ s.power.avsFailures + 1 then s.avsFailed 0x04
      else
        let s := s.modPower (fun p => { p with avsFailures := p.avsFailures + 1 })
        match s.power.avsPending with
        | some mv => s.emit [.avs mv]
        | none => s
    else if s.power.avsPending.isSome then s.avsFailed 0x05
    else s

/-! ## The power cap (R519, R520, R582) -/

/-- The limit in W (R519). -/
def State.powerLimit (s : State) : Nat := if s.curator.policy.powerCapW = 0 then 420 else s.curator.policy.powerCapW

/-- The first of the quadrants that `before` puts first; ties go to the lower number. -/
def firstQuadrant (before : Nat → Nat → Bool) : List Nat → Option Nat
  | [] => none
  | q :: l =>
    match firstQuadrant before l with
    | none => some q
    | some r => if before r q then some r else some q

/-- The quadrant to step down: one without a serving stage at the highest point, then one with (R519). -/
def State.downQuadrant (s : State) : Option Nat :=
  let can := (List.range 4).filter (fun q => (s.quadrant q).clockOn && decide ((s.quadrant q).point < 5))
  let higher (a b : Nat) : Bool := decide ((s.quadrant a).point < (s.quadrant b).point)
  match firstQuadrant higher (can.filter (fun q => !s.servingQuadrant q)) with
  | some q => some q
  | none => firstQuadrant higher (can.filter s.servingQuadrant)

/-- The quadrant to step up: a serving one at the lowest point, then any other (R519). -/
def State.upQuadrant (s : State) : Option Nat :=
  let can := (List.range 4).filter (fun q =>
    (s.quadrant q).clockOn && decide (0 < (s.quadrant q).point) && (s.quadrant q).wanted.isNone)
  let lower (a b : Nat) : Bool := decide ((s.quadrant b).point < (s.quadrant a).point)
  match firstQuadrant lower (can.filter s.servingQuadrant) with
  | some q => some q
  | none => firstQuadrant lower (can.filter (fun q => !s.servingQuadrant q))

/-- A quadrant's clock lowered by one point (R518, R519, R521). -/
def State.stepDown (s : State) (q : Nat) : State :=
  s.modQuadrant q (fun x => { x with point := min 5 (x.point + 1), wanted := none })

/-- The hottest sensor: its number and its reading; the lowest number among equals (R582). -/
def State.hottest (s : State) : Nat × Int :=
  let t (i : Nat) : Int := (s.power.sensors.getD i {}).temp
  match firstQuadrant (fun a b => decide (t b < t a)) (List.range 8) with
  | none => (0, 0)
  | some i => (i, t i)

/-- The point of a quadrant as it is reported: 0xF with its clock stopped (R582). -/
def Quadrant.shown (x : Quadrant) : Nat := if x.clockOn then x.point else 0xF

/-- The PWR registers refreshed (R582). -/
def State.refreshPower (s : State) (mv : Nat) : State :=
  let h := s.hottest
  s.modPower (fun p => { p with regs := {
    points := (List.range 4).foldl (fun a q => a + (s.quadrant q).shown * 16 ^ q) 0
    power := sat 16 p.power, hottest := ofInt 16 h.2, sensor := h.1, coreMv := sat 16 mv, limiterEvents := p.limiterEvents
    throttle := (List.range 8).foldl (fun a i => a + flag (p.sensors.getD i {}).holds * 2 ^ i) 0
    capW := s.powerLimit } })

/-- The step of R519 that an interval brings: down above 98 % of the limit; up after 100 intervals below 90 % of it, not while
a throttle stands (R519, R521). -/
def State.powerStep (s : State) : State :=
  let limit := 16 * s.powerLimit
  if 98 * limit < 100 * s.power.power then
    let s := s.modPower (fun p => { p with lowIntervals := 0 })
    match s.downQuadrant with
    | none => s
    | some q => s.stepDown q
  else if 100 * s.power.power < 90 * limit then
    if s.power.lowIntervals + 1 < 100 then s.modPower (fun p => { p with lowIntervals := p.lowIntervals + 1 })
    else
      let s := s.modPower (fun p => { p with lowIntervals := 0 })
      if s.power.throttled then s
      else
        match s.upQuadrant with
        | none => s
        | some q => s.modQuadrant q (fun x => { x with wanted := some (x.point - 1) })
  else s.modPower (fun p => { p with lowIntervals := 0 })

/-- Quadrants whose clock runs below P0. -/
def State.belowTop (s : State) : Bool := s.power.quadrants.any (fun x => x.clockOn && decide (0 < x.point))

/-- Whether the cap holds the loop at its bound: BOUND_PINNED 0x01 (R358, R519). -/
def State.reviewCap (s : State) (waiting : Bool) : State :=
  if s.curator.policy.powerCapW ≠ 0 && s.belowTop && waiting then (if s.power.throttled then s else s.pinBound 1)
  else s.unpinBound 1

/-- POWER_LOOP_INTERVAL: the power of the 1 ms just ended in units of 1/16 W, the core rail's reading in mV, and whether work
waits: the PWR block is refreshed and the loop acts (R519, R582, R597). -/
def execPowerLoopInterval (power mv : Nat) (waiting : Bool) (s : State) : Answer :=
  .next <|
    if !s.runs then s
    else
      let s := s.modPower (fun p => { p with power := power })
      if s.boot.gen = .minimal then s.refreshPower mv
      else ((s.powerStep.reviewCap waiting).reviewConflict 5).refreshPower mv

/-- FAST_LIMITER_TRIP: the limiter begins an intervention: source 25 is raised, it counts, and POWER_LIMITED opens a reporting
window (R520, R535, R613). -/
def execFastLimiterTrip (s : State) : Answer :=
  .next <|
    if !s.runs || s.power.limiterOn then s
    else
      ((s.modPower (fun p => { p with limiterOn := true, limiterEvents := satAdd 32 p.limiterEvents 1 })).tell [.raise 25]).report
        { family := 0x0872, subject := 0, reason := 0 } (fun n => [.event 2 { code := 0x0872, value := sat 32 n }])

/-- FAST_LIMITER_RELEASE: power is back below the limit (R520). -/
def execFastLimiterRelease (s : State) : Answer := .next (s.modPower (fun p => { p with limiterOn := false }))

/-! ## Thermal limits (R521, R522) -/

/-- `t` °C in units of 1/256 °C. -/
def degrees (t : Int) : Int := 256 * t

/-- Whole °C of a reading. -/
def wholeDegrees (t : Int) : Int := t / 256

/-- The quadrants of a sensor: its own, or every one for a sensor of the ring (R521). -/
def quadrantsOf (i : Nat) : List Nat := if i < 4 then [i] else List.range 4

/-- THERMAL_THROTTLE (R535). -/
def State.throttleEvent (s : State) (i detail : Nat) (t : Int) : State :=
  s.event 2 { code := 0x0871, subject := i, detail := detail, value := ofInt 32 (wholeDegrees t) }

/-- A sensor changed. -/
def State.modSensor (s : State) (i : Nat) (f : Sensor → Sensor) : State :=
  s.modPower (fun p => { p with sensors := modAt p.sensors i f })

/-- A sensor with a reading taken; `hot` counts the readings in a row at 110 °C or above (R521). -/
def Sensor.read (x : Sensor) (t : Int) : Sensor := { x with temp := t, hot := if degrees 110 ≤ t then x.hot + 1 else 0 }

/-- One sensor's reading acted on: from 100 °C on it holds a throttle, whose first step falls at its entry and whose next ones
each 1 ms, ten readings, until it reads below 98 °C; reaching 105 °C takes every quadrant to P5 (R521). -/
def State.readSensor (s : State) (i : Nat) (t : Int) : State :=
  let x := s.power.sensors.getD i {}
  let down (s : State) : State := (quadrantsOf i).foldl (fun s q => s.stepDown q) s
  let s := s.modSensor i (·.read t)
  let s :=
    if x.holds then
      if t < degrees 98 then s.modSensor i (fun x => { x with holds := false, ticks := 0 })
      else if 9 ≤ x.ticks then down (s.modSensor i (fun x => { x with ticks := 0 }))
      else s.modSensor i (fun x => { x with ticks := x.ticks + 1 })
    else if degrees 100 ≤ t then
      let s := s.modSensor i (fun x => { x with holds := true, ticks := 0 })
      let s := (s.modPower (fun p => { p with throttled := true })).alertBegins
      (down (s.tell [.raise 24])).throttleEvent i 1 t
    else s
  if decide (degrees 105 ≤ t) && decide (x.temp < degrees 105) then
    (s.modPower (fun p => { p with quadrants := p.quadrants.map (fun x => { x with point := 5, wanted := none }) })).tell
      [.errata { cls := 1, unit := 0x0030, inst := 0x10 + i }]
  else s

/-- The throttle ends once every sensor has been below 98 °C for 10 ms, 100 readings; source 24 is raised
then too (R494, R521). -/
def State.coolDown (s : State) : State :=
  if !s.power.throttled then s
  else if s.power.sensors.all (fun x => decide (x.temp < degrees 98)) then
    if s.power.coolReads + 1 < 100 then s.modPower (fun p => { p with coolReads := p.coolReads + 1 })
    else
      let h := s.hottest
      (((s.modPower (fun p => { p with throttled := false, coolReads := 0 })).tell [.raise 24]).throttleEvent h.1 0 h.2).alertReview
  else s.modPower (fun p => { p with coolReads := 0 })

/-- THERMAL_SENSOR_READ: the eight sensors are read, every 100 µs, in units of 1/256 °C; in sleep one that reaches 100 °C wakes
the device (R516, R521, R522). -/
def execThermalSensorRead (temps : List Int) (s : State) : Answer :=
  .next <|
    if temps.length ≠ 8 || s.power.tripped then s
    else
      match s.power.sleep with
      | .awake =>
        (((List.range 8).foldl (fun s i => s.readSensor i (temps.getD i 0)) s).coolDown).reviewConflict 5
      | _ =>
        let s := (List.range 8).foldl (fun s i => s.modSensor i (·.read (temps.getD i 0))) s
        if temps.any (fun t => decide (degrees 100 ≤ t)) then s.startWake 2 0 else s

/-! ## Reports (R534) -/

/-- n / d in fp32. -/
def f32Ratio (n : Int) (d : Nat) : Nat := (f32div (f32ofInt n) (f32ofInt d)).toNat

/-- QUERY_POWER (0x0871) (R534). -/
def execQueryPower (job : Nat) (s : State) : Answer :=
  .next <| s.begin job 0x0871 fun j s =>
    if fld j.slip 32 32 ≠ 0 then s.finish j.num (refusal stMalformed)
    else if dataLenOf j.slip < 64 then s.finish j.num (refusalNotStarted stTooLarge)
    else
      let p := s.power
      s.finish j.num (endWith [] 0 0 [(0, packB 64 ((List.range 4).map (fun q => (q, 1, (s.quadrant q).shown)) ++
        [(4, 4, f32Ratio p.power 16), (8, 4, f32Ratio s.hottest.2 256), (12, 4, f32Ratio p.coreMv 1000), (16, 4, p.limiterEvents)]))])

/-- DEVICE_INFO (0x0872): the places of its fields are the device's own (R534). -/
def execDeviceInfo (job : Nat) (s : State) : Answer :=
  .next <| s.begin job 0x0872 fun j s =>
    if fld j.slip 32 32 ≠ 0 then s.finish j.num (refusal stMalformed)
    else if dataLenOf j.slip < 64 then s.finish j.num (refusalNotStarted stTooLarge)
    else
      s.finish j.num (endWith [] 0 0 [(0, takePad 64
        (Config.deviceInfo orderingCode steppingCode s.security.firmware s.boot.bootMode s.boot.position))])

end Sys2Proof.Machine
end

