-- ==== Sys2Proof/Machine/Security.lean ====
section
/-! DEFINITION. Identity, owners and attestation (R557 to R573). -/
namespace Sys2Proof.Machine

/-- DEVICE_ID: bytes 0 to 15 of the digest of the attestation public key (R564). -/
def deviceId : Bytes := (digest Config.attestKey).take 16

/-! ## The header of a signed item (R559) -/

/-- The fields of the header that every kind of item shares: magic, format, length, device, stepping, reserved bytes. -/
def itemHeaderOk (magic : Nat) (b : Bytes) : Bool :=
  fldB b 0 4 = magic && fldB b 4 2 = 1 && fldB b 8 4 = b.length && b.length % 64 = 0 && deviceOk b && fldB b 18 2 = 0 &&
    allZero ((b.drop 44).take 20)

/-- TARGET_ID is the device's own or zero (R559, R560). -/
def itemTargetOk (b : Bytes) : Bool :=
  let t := takePad 16 ((b.drop 24).take 16)
  allZero t || t == deviceId

/-! ## Owner records (R566 to R568) -/

/-- An owner record's LENGTH (R566). -/
def ownerRecordBytes : Nat := 3072

def ownerAction (b : Bytes) : Nat := fldB b 64 1
def ownerNewKey (b : Bytes) : Bytes := (b.drop 68).take 68
def ownerSession (b : Bytes) : Bytes := (b.drop 136).take 32
def ownerRecordSeq (b : Bytes) : Nat := fldB b 40 4

/-- The signature of an owner record by the signer that its action accepts (R566). SIGNER of an ENROL, whose signer no key
code names, is 2, the owner's (DEDUCED). -/
def Vault.ownerVerifies (v : Vault) (b : Bytes) : Bool :=
  match ownerAction b with
  | 1 => signerOf b = 2 && verifiesUnder (ownerNewKey b) b
  | 2 => signerOf b = 2 && v.verifies b
  | 4 => signerOf b = 2 && v.verifies b
  | _ => v.verifies b

/-- Every field of an owner record in range (R559, R566). -/
def ownerRecordOk (b : Bytes) : Bool :=
  itemHeaderOk 0x5A4F574E b && fldB b 6 2 = 0 && fldB b 20 4 = 0 && decide (1 ≤ ownerAction b) && decide (ownerAction b ≤ 4)

/-- Whether an owner-signed image is loaded or is being placed (R567). -/
def State.ownerImage (s : State) : Bool := s.images.table.any (fun e => e.2.ownerSigned && e.2.state ≠ .partial_)

/-- Whether an owner record is accepted once its signature and its fields stand (R566, R567). -/
def State.ownerAccepted (s : State) (b : Bytes) : Bool :=
  let v := s.vault
  let a := ownerAction b
  takePad 16 ((b.drop 24).take 16) == deviceId && (if a = 1 then !v.owned else v.owned) &&
    (if a ≠ 1 && signerOf b = 2 then decide (v.ownerSeq < ownerRecordSeq b) else true) && (a = 4 || !s.ownerImage)

/-- The effect of an accepted owner record on the Vault (R566, R567). -/
def Vault.takeOwner (v : Vault) (b : Bytes) : Vault :=
  match ownerAction b with
  | 1 => { v with owned := true, ownerKey := ownerNewKey b, ownerSerial := (v.ownerSerial + 1) % 2 ^ 32, ownerSeq := ownerRecordSeq b }
  | 2 => { v with ownerKey := ownerNewKey b, ownerSerial := (v.ownerSerial + 1) % 2 ^ 32, ownerSeq := 0, sessionRoot := none }
  | 3 => { v with owned := false, ownerKey := [], ownerSeq := 0, sessionRoot := none }
  | _ => { v with sessionRoot := some (ownerSession b), ownerSeq := ownerRecordSeq b }

/-- OWNER_RECORD (0x0891): `buf` is what the read of the data buffer returns (R566 to R568). -/
def execOwnerRecord (job : Nat) (buf : BufRead) (s : State) : Answer :=
  .next <| s.beginRead job 0x0891 buf fun j b s =>
    if dataLenOf j.slip ≠ ownerRecordBytes then s.finish j.num (refusal stMalformed)
    else if !s.vault.ownerVerifies b then s.finish j.num (refusal stNotPermitted)
    else if !ownerRecordOk b then s.finish j.num (refusal stMalformed)
    else if !s.ownerAccepted b then s.finish j.num (refusal stNotPermitted)
    else
      let v := s.vault.takeOwner b
      ({ s with vault := v } : State).finish j.num (endWith [] 0 v.ownerSerial)

/-! ## Attestation (R571 to R573) -/

/-- Bytes that ATTEST writes (R572). -/
def attestBytes : Nat := 13184

/-- Leaf indices of a block (R573). -/
def leafBlock : Nat := 4096

/-- The report (R572). -/
def State.attestReport (s : State) (nonce leaf : Nat) : Bytes :=
  let v := s.vault
  let q := s.security
  let mode := if s.boot.gen = .minimal then 1 else if s.reference.state ≠ .normal then 2 else 0
  let time := if s.stamp.state = .unset then 0 else s.now
  packB 8 [(0, 4, 0x5A415454), (4, 1, 1), (5, 1, mode), (6, 1, s.boot.position), (7, 1, flag v.owned)] ++ takePad 16 deviceId ++
    packB 56 [(0, 8, leaf), (8, 32, nonce), (40, 8, time), (48, 4, v.startSerial), (52, 4, v.floor % 2 ^ 31 + flag v.root0Revoked * 2 ^ 31)] ++
    takePad 32 q.bootRom ++ takePad 32 (if s.boot.gen = .minimal then q.lastFirmware else q.firmware) ++ takePad 32 q.config ++
    takePad 32 q.images ++ (if v.owned then digest v.ownerKey else zeros 32) ++ packB 16 [(0, 4, v.ownerSerial)]

/-- What ATTEST writes: the report, its signature, the certificate (R572). -/
def State.attestOutput (s : State) (nonce leaf : Nat) : Bytes :=
  let r := s.attestReport nonce leaf
  r ++ takePad 9920 (takePad 9893 (Config.attestSign leaf r)) ++ takePad 3008 Config.deviceCert

/-- ATTEST (0x0890): `writeOk` says whether a write of the Vault, if one is needed, succeeds (R572, R573). -/
def execAttest (job : Nat) (writeOk : Bool) (s : State) : Answer :=
  .next <| s.begin job 0x0890 fun j s =>
    let leaf := s.security.nextLeaf
    let sign (s : State) : State :=
      ({ s with security := { s.security with nextLeaf := leaf + 1 } } : State).finish j.num
        (endWith [] 0 leaf [(0, s.attestOutput (fld j.slip 32 32) leaf)])
    if dataLenOf j.slip < attestBytes then s.finish j.num (refusalNotStarted stTooLarge)
    else if 2 ^ 40 ≤ leaf then s.finish j.num (refusal stNoResource)
    else if leaf < s.security.blockEnd then sign s
    else if !writeOk then s.finish j.num (refusal stDiscarded)
    else
      sign { s with vault := { s.vault with attestReserved := leaf + leafBlock }
                    security := { s.security with blockEnd := leaf + leafBlock } }

end Sys2Proof.Machine
end

