-- ==== Sys2Proof/Machine/Reset.lean ====
section
/-! DEFINITION. Reset kinds, start attempts and their failure, thermal trip, device-fatal errors (R295, R470, R512, R521, R523 to
R529, R549, R579, R598, R600 to R602, R608, R611). -/
namespace Sys2Proof.Machine

/-- The boot state changed. -/
def State.modBoot (s : State) (f : Boot → Boot) : State := { s with boot := f s.boot }

/-- The Vault changed (R562). -/
def State.modVault (s : State) (f : Vault → Vault) : State := { s with vault := f s.vault }

/-- POR_N is high and no thermal trip stands: the device is not held in reset (R521, R601). -/
def State.released (s : State) : Bool := !s.ports.porLow && !s.power.tripped

/-! ## What a reset keeps (R524) -/

/-- A time operation without its job, which a reset ends. -/
def TimeOp.orphan : TimeOp → TimeOp
  | .adjust _ o => .adjust none o
  | .setInc _ i => .setInc none i
  | .hardSet _ a b c => .hardSet none a b c

/-- The Datestamp unit over a reset other than power-on: the counter and its settings stand; what was LOCKED locks again
(R470, R524). -/
def Stamp.afterReset (x : Stamp) : Stamp :=
  { x with
    ops := x.ops.map (·.orphan), keeperLocked := false
    state := if x.state = .locked then .locking else x.state }

/-- Reservations not on a page that has ended; they stand over a reset too, for identifiers under them may be assigned (R409,
R524). -/
def Catalogue.reservations (c : Catalogue) : List LogRec :=
  (c.logPages.flatMap (·.recs) ++ c.logOpen).filter (fun r => match r with
    | .reserve _ => true
    | _ => false)

/-- Insertions and deletes whose records have not reached the NAND (R409). -/
def Catalogue.unwritten (c : Catalogue) : Nat :=
  ((c.logOpen ++ c.logPages.flatMap (·.recs)).filter (fun r => match r with
    | .reserve _ => false
    | _ => true)).length

/-- The Catalogue as its flash keeps it: the log, the generation of the metadata, the definitions of its collections, the blocks;
the channels are found anew (R409, R424, R433, R524). -/
def Catalogue.onFlash (c : Catalogue) : Catalogue :=
  { ({} : Catalogue) with
    collections := c.collections, logNand := c.logNand ++ c.reservations, logCount := c.logCount, shelved := c.shelved, skipped := c.skipped
    lostRecords := c.unwritten
    engines := c.engines.map (fun e => ({ blocks := e.blocks, filling := e.filling } : Engine)) }

/-- The device with everything cleared that a power-on or a device-level reset clears; what waits outside as commands stands
(R295, R470, R524, R579). -/
def State.cleared (s : State) (power : Bool) : State :=
  { State.reset with
    pending := s.pending
    desk := { State.reset.desk with out := s.desk.out }
    stamp := if power then {} else s.stamp.afterReset
    boot := { bootMode := s.boot.bootMode, position := s.boot.position, norVerified := s.boot.norVerified }
    vault := s.vault
    security := { lastFirmware := s.security.lastFirmware }
    power := { coreMv := if power then 750 else if s.power.sleep = .awake then s.power.coreMv else s.power.wakeMv, alert := s.power.alert, tripped := !power && s.power.tripped }
    ports := { tap := s.ports.tap, porLow := s.ports.porLow }
    map := { flash := s.map.flash }
    catalogue := s.catalogue.onFlash
    sessions := { nextIndex := s.sessions.nextIndex }
    fresh := s.fresh }

/-! ## Attempts (R527, R529, R532) -/

/-- The newest attempt record changed. -/
def State.modAttempt (s : State) (f : Attempt → Attempt) : State :=
  s.modVault fun v => { v with attempts := match v.attempts with
    | [] => []
    | a :: l => f a :: l }

/-- The newest attempt record. -/
def State.attempt (s : State) : Attempt := s.vault.attempts.headD { serial := 0 }

/-- A step of the start begins (R528). -/
def State.stepTo (s : State) (n : Nat) : State :=
  (s.modBoot (fun b => { b with step := n })).modAttempt (fun a => { a with step := n })

/-- The NOR device that an attempt uses, from LAST_GOOD and CONSECUTIVE_FAILURES; A where there is no LAST_GOOD (R527). -/
def Vault.norSource (v : Vault) : Nat :=
  let good := if v.lastGood = 1 then 1 else 0
  if v.failures = 1 then 1 - good else good

/-- The newest attempt closed with its outcome (R529, R532). -/
def State.closeAttempt (s : State) (outcome detail : Nat) : State :=
  let first := (s.desk.errata.ring ++ s.desk.errata.holding).head?
  s.modAttempt fun a => { a with
    outcome := outcome, detail := detail, step := s.boot.step, time := if s.stamp.state = .unset then 0 else s.now
    elapsedMs := sat 32 ((s.now - s.boot.releasedAt) / 1000000)
    errataClass := if a.errataClass = 0xFFFF then first.elim 0xFFFF (·.cls) else a.errataClass
    errataUnit := if a.errataClass = 0xFFFF then first.elim 0 (·.unit) else a.errataUnit }

/-- CONSECUTIVE_FAILURES incremented, up to 255 (R527, R529). -/
def State.countFailure (s : State) : State := s.modVault (fun v => { v with failures := satAdd 8 v.failures 1 })

/-- Minimal mode entered: of the librarian cores only core 0 runs (R528 step 1, R530, R578). -/
def State.enterMinimal (s : State) : State :=
  ((s.modBoot (fun b => { b with gen := .minimal, colophonDue := true, window := true })).modBell
    (fun b => (List.range 8).foldl (fun b n => if n = 0 then b else b.modCore n (fun c => { c with sleeping := true })) b)).alertBegins

/-- Step 1 of a start: an attempt found unfinished is marked as failed; with three failures the device enters minimal mode;
otherwise START_SERIAL is incremented and an attempt record opened. `named` is the class and unit of a device-fatal error before
it (R527, R528, R529, R549, R573). -/
def State.beginStart (s : State) (kind : Nat) (named : Option (Nat × Nat)) : State :=
  let s := if s.vault.attempts.isEmpty || s.attempt.outcome ≠ 0 then s
    else (s.modAttempt (fun a => { a with outcome := 0x10, detail := 0 })).countFailure
  let s := s.modBoot (fun b => { b with releasedAt := s.now })
  let s := { s with security := { s.security with nextLeaf := s.vault.attestReserved, blockEnd := s.vault.attestReserved } }
  let s :=
    if 3 ≤ s.vault.failures then s.enterMinimal
    else
      let source := if s.boot.bootMode = 1 then 2 else s.vault.norSource
      let v := s.vault
      let serial := (v.startSerial + 1) % 2 ^ 32
      let a : Attempt := {
        serial := serial, source := source, resetKind := kind
        errataClass := named.elim 0xFFFF (·.1), errataUnit := named.elim 0 (·.2) }
      (s.modVault (fun v => { v with startSerial := serial, attempts := (a :: v.attempts).take 8 })).modBoot
        (fun b => { b with source := source })
  s.alertReview

/-- A device-level reset, where the device is not held in reset (R523, R524). -/
def State.deviceResetWith (s : State) (named : Option (Nat × Nat)) : State :=
  if s.released then (s.cleared false).beginStart 1 named else s

/-- A device-level reset that no error precedes. -/
def State.deviceReset (s : State) : State := s.deviceResetWith none

/-- A start is under way (R528). -/
def State.starting (s : State) : Bool := s.released && (s.boot.gen = .starting || s.boot.gen = .waitImage)

/-- A start attempt fails: its reason recorded, counted, a device-level reset (R529). -/
def State.failStart (s : State) (reason detail : Nat) : State := ((s.closeAttempt reason detail).countFailure).deviceReset

/-! ## Resets (R523, R598, R600 to R602, R608) -/

/-- An instruction that drives balls (R608). -/
def tapDrives : TapInst → Bool
  | .extest => true
  | .extestPulse => true
  | .extestTrain => true
  | .clamp => true
  | .highz => true
  | _ => false

/-- The instruction after Test-Logic-Reset, which a ball-driving one enters as POR_N rises; IEEE 1149.1 gives IDCODE (R608). -/
def tapRisen (t : TapInst) : TapInst := if tapDrives t then .idcode else t

/-- THERMTRIP_N released by a power-on reset (R601). -/
def State.releaseTrip (s : State) : State := if s.power.tripped then s.emit [.pin .thermtrip true] else s

/-- POWER_ON_RESET: POR_N driven low, none; or POR_N risen, with the straps sampled then: the start begins (R523, R526, R601, R602,
R608, R611). -/
def execPowerOnReset (straps : Option Straps) (s : State) : Answer :=
  .next <|
    let s := s.releaseTrip.cleared true
    match straps with
    | none => ({ s with ports := { s.ports with porLow := true } } : State).alertReview
    | some x =>
      let s := { s with ports := { s.ports with porLow := false, tap := tapRisen s.ports.tap } }
      (s.modBoot (fun b => { b with
        bootMode := x.bootMode, position := x.position, coldWait := x.cold })).beginStart 0 none

/-- AON_RAIL_LOW: the always-on rail falls below 0.68 V: a power-on reset; the straps, sampled as POR_N rises, stand (R598, R602). -/
def execAonRailLow (s : State) : Answer :=
  .next <|
    let s := s.releaseTrip.cleared true
    if s.ports.porLow then s.alertReview else s.beginStart 0 none

/-- DEVICE_LEVEL_RESET (R523, R524). -/
def execDeviceLevelReset (s : State) : Answer := .next s.deviceReset

/-- Work of queues dropped without return slips (R525). -/
def State.dropJobs (s : State) (p : Job → Bool) : State :=
  let gone := (s.desk.circ.jobs.filter p).map (·.num)
  let s := s.modCirc (fun c => { c with jobs := c.jobs.filter (fun j => !p j), waiting := c.waiting.filter (fun n => !gone.contains n) })
  let s := (s.dropWaits gone).sweepSolves
  { s with images := { s.images with runs := s.images.runs.filter (fun r => s.running r.job) } }

/-- A host-resident queue over a function-level reset (R525). -/
def Queue.functionReset (x : Queue) : Queue :=
  if x.state = .free then x else { x with state := .free, gen := nextGen x.gen, drain := .none }

/-- The Bell over a function-level reset: messages waiting for masked vectors are lost, the table is cleared (R112, R525). -/
def Bell.functionReset (b : Bell) : Bell :=
  let waits (x : BellSource) : Bool := x.pending && (match x.place.vector? with
    | some v => (b.vectorEntry v).pending
    | none => false)
  let b := (b.sources.filter (fun e => waits e.2)).foldl (fun b e => b.setSource e.1 { e.2 with pending := false, moved := false }) b
  { b with msix := [], vectorsAwake := false }

/-- A function-level reset (R525, R579). -/
def State.functionReset (s : State) : State :=
  if !s.released then s
  else
    let s := s.dropJobs (fun _ => true)
    let s := (s.modCirc (fun c => { c with
      queues := c.queues.map (fun e => (e.1, if hostResident e.1 then e.2.functionReset else e.2))
      fixed := [{}, {}, {}], goHeld := 0, goError := 0 })).modBell (·.functionReset)
    { s with ports := { s.ports with
      linkSpeed := 0, linkWidth := 0, flit := false, dState := 0, aerCorrectable := 0, aerUncorrectable := 0, tags := 0
      heldHigh := s.ports.heldHigh.filter (fun e => e.1 / 0x10000 ≠ 4) } }

/-- FUNCTION_LEVEL_RESET (R523, R525). -/
def execFunctionLevelReset (s : State) : Answer := .next s.functionReset

/-- PERST: PERST_N acts as PERST_ACTION gives (R523, R601). -/
def execPerst (s : State) : Answer := .next (if s.boot.perstAction then s.functionReset else s.deviceReset)

/-- THERMAL_TRIP: a sensor has stayed at 110 °C or above for 1 ms, ten readings: every fast clock stops, THERMTRIP_N is asserted, and the device is held in reset until a power-on reset (R521,
R601). -/
def execThermalTrip (s : State) : Answer :=
  .next <|
    if s.released && s.power.sensors.any (fun x => decide (10 ≤ x.hot)) then
      (((s.cleared false).modPower (fun p => { p with tripped := true })).emit [.pin .thermtrip false]).alertReview
    else s

/-! ## Device-fatal errors (R512, R549, R598) -/

/-- A device-fatal error recorded now, or found recorded under a SEQUENCE. -/
def State.fatalRecord (s : State) (r : Report) (recorded : Nat) : Option ErrRec × State :=
  let newest (s : State) : List ErrRec := ((s.desk.errata.ring ++ s.desk.errata.holding).filter (fun e => e.cls == 4)).reverse
  if recorded = 0 then
    let s := s.tell [.errata { r with cls := 4, scope := 4 }]
    ((newest s).head?, s)
  else ((newest s).find? (fun e => e.seq == recorded), s)

/-- DISCARDED return slips for all work in flight, as far as the return queues take them (R549 step 2). -/
def State.discardAll (s : State) : State :=
  let s := s.discardWhere (fun _ => true)
  s.desk.circ.jobs.foldl (fun s j =>
    match s.job j.num with
    | some j =>
      (match j.ending with
      | some e =>
        let rq := s.desk.circ.returnOf j.sq
        if s.desk.circ.path rq = .write && !j.waiting then s.writeFinal j e rq else s
      | none => s)
    | none => s) s

/-- A device-fatal error handled: kept in the Vault, the work in flight discarded, a device-level reset, which ends a start
attempt (R529, R549). -/
def State.deviceFatal (s : State) (r : Report) (recorded : Nat) : State :=
  if !s.released then s
  else
    let x := s.fatalRecord r recorded
    match x.1 with
    | none => x.2
    | some e =>
      let s := x.2.modVault (fun v => { v with fatal := ({ serial := v.startSerial, record := e } :: v.fatal).take 8 })
      let s := if e.unit = 0x0016 || e.unit = 0x0022 then s else s.discardAll
      let named := some (e.cls, e.unit)
      if s.starting then ((s.closeAttempt 0x0D e.cls).countFailure).deviceResetWith named else s.deviceResetWith named

/-- DEVICE_FATAL_ERROR: the error is recorded, unless it stands recorded under `recorded`, and handled (R549). -/
def execDeviceFatalError (unit inst code location detail0 recorded : Nat) (s : State) : Answer :=
  .next (s.deviceFatal { cls := 4, unit := unit, inst := inst, code := code, scope := 4, location := location, detail0 := detail0 } recorded)

/-- A rail fault handled (R598, R607). -/
def State.handleRail (s : State) (rail : Nat) : State :=
  let s := ((s.tell [.raise 25]).modPower (fun p => { p with railFault := true, railWaiting := none })).alertBegins
  s.deviceFatal { cls := 4, unit := 0x0030, inst := rail, scope := 4 } 0

/-- RAIL_FAULT: a rail other than the always-on one leaves its range while a fast clock runs; in sleep the device wakes before it
is handled (R598). -/
def execRailFault (rail : Nat) (s : State) : Answer :=
  .next <|
    if !s.released || decide (8 < rail) || rail = 7 || (s.boot.gen = .starting && s.boot.step = 1) then s
    else
      match s.power.sleep with
      | .awake => s.handleRail rail
      | _ => (s.modPower (fun p => { p with railWaiting := some rail })).startWake 2 0

/-- REFERENCE_LOST: the reference count is out of range for four periods: the counter stops, the state enters HOLDOVER, a
device-fatal error follows, whose INSTANCE is not stated (R512, R549). -/
def execReferenceLost (s : State) : Answer :=
  .next <|
    if s.stamp.refLost || s.ports.porLow then s
    else
      let s := s.modStamp (fun x => { x with refLost := true })
      let s := if s.stamp.state = .locked || s.stamp.state = .locking then s.setTimeState .holdover else s
      s.draw.deviceFatal { cls := 4, unit := 0x0030, inst := (Config.freeValue s.fresh).toNat % 2 ^ 16, scope := 4 } 0

/-- REFERENCE_RETURN: the count is in range for 64 periods: the counter advances again and the PLLs start (R512). -/
def execReferenceReturn (s : State) : Answer := .next (s.modStamp (fun x => { x with refLost := false }))

end Sys2Proof.Machine
end

