-- ==== Sys2Proof/Machine/Start.lean ====
section
/-! DEFINITION. The start sequence, minimal mode, the colophon and the boot flash (R176, R337, R338, R409, R433, R489, R526 to R535,
R557 to R560, R571, R581, R586). -/
namespace Sys2Proof.Machine

/-! ## Firmware images (R528 step 5, R533, R558 to R560) -/

/-- The fields of a firmware image's header but for its device and its version (R559). -/
def firmwareFormOk (b : Bytes) : Bool :=
  fldB b 0 4 = 0x5A465257 && fldB b 4 2 = 1 && bitsOf (fldB b 6 2) 15 2 = 0 && fldB b 8 4 = b.length && b.length % 64 = 0 &&
    fldB b 18 2 = 0 && allZero ((b.drop 40).take 24)

/-- A firmware image's signature, by a root, and the device that it is bound to (R557, R558, R560). -/
def Vault.firmwareVerifies (v : Vault) (b : Bytes) : Bool := decide (signerOf b ≤ 1) && v.verifies b && itemTargetOk b

/-- SECURITY_VERSION of an image (R559). -/
def imageVersionOf (b : Bytes) : Nat := fldB b 20 4

/-- Why an image fails its start attempt: the reason and DETAIL of R533. What verifies and is no firmware image is none. -/
def Vault.imageFault (v : Vault) (source : Nat) (b : Bytes) : Option (Nat × Nat) :=
  if !v.firmwareVerifies b then some (0x03, signerOf b)
  else if !firmwareFormOk b then some (0x02, source)
  else if !deviceOk b || decide (imageVersionOf b < v.floor) then some (0x04, imageVersionOf b)
  else none

/-- The attempt waits for the host push (R528, R578). -/
def State.awaitPush (s : State) : State :=
  (s.modBoot (fun b => { b with gen := .waitImage, window := true, source := 2, waitAt := s.now })).modAttempt (fun a => { a with source := 2 })

/-- Step 5 begins: under host push the attempt waits (R526, R528). -/
def State.beginImageStep (s : State) : State := if s.boot.source = 2 then (s.stepTo 5).awaitPush else s.stepTo 5

/-- Whether a NOR device holds a verified image noted (R534). -/
def State.noteNor (s : State) (device : Nat) (ok : Bool) : State :=
  s.modBoot (fun b => { b with norVerified := setAt b.norVerified device ok })

/-- Step 5 ends: the image read, verified, kept; or the attempt fails, or under BOOT_MODE 2 waits for the host push (R526, R528,
R529, R533, R560, R571, R606). -/
def State.endImageStep (s : State) (item : Option Bytes) (badHeader : Bool) : State :=
  let source := s.boot.source
  match item with
  | none =>
    if source = 2 then s.failStart 0x0E 0
    else (if badHeader then s.portViolation spiPort 0x06 else s).failStart 0x02 source
  | some b =>
    let m := measurementOf b
    let s := { s.modAttempt (fun a => { a with measurement := unle (m.take 8) }) with
               security := { s.security with lastFirmware := m } }
    match s.vault.imageFault source b with
    | some (reason, detail) =>
      let s := if source < 2 then s.noteNor source false else s
      if source ≠ 2 && s.boot.bootMode = 2 && (reason = 0x03 || reason = 0x04) then s.awaitPush
      else s.failStart reason detail
    | none =>
      let s := if source < 2 then s.noteNor source true else s
      let flags := fldB b 6 2
      ({ s with security := { s.security with firmware := m } } : State).modBoot (fun x => { x with
        gen := .starting, raiseFloor := flags.testBit 0, revokeRoot0 := flags.testBit 1 && signerOf b = 1
        imageVersion := imageVersionOf b }) |>.stepTo 6

/-! ## The configuration record (R443, R489, R526, R528 step 7) -/

/-- The byte offset of the first header field of a configuration record that is out of range (R533, R559). -/
def configHeaderBad (b : Bytes) : Option Nat :=
  let checks : List (Nat × Bool) :=
    [(0, fldB b 0 4 = 0x5A434647), (4, fldB b 4 2 = 1), (6, fldB b 6 2 = 0), (8, fldB b 8 4 = b.length && b.length % 64 = 0),
     (12, fldB b 12 4 = 0x88000026), (16, (fldB b 16 2).testBit 0), (18, fldB b 18 2 = 0), (20, fldB b 20 4 = 0),
     (40, fldB b 40 4 = 0), (44, allZero ((b.drop 44).take 20))]
  (checks.find? (fun c => !c.2)).map (·.1)

/-- The settings that a configuration record carries hold values of R451, R452 and R489. -/
def State.configFieldsOk (s : State) (f : ConfigFields) : Bool :=
  decide (f.members < 256) && s.timingOk f.timing && f.timing.length = 64 && f.addresses.all addressOk &&
    f.ports.all (fun p => decide (p.port ≤ 3) && decide (p.breakout ≤ 2) && decide (p.medium ≤ 1))

/-- A configuration record applied: its timing only in an attempt that a power-on reset began (R443, R462, R489, R526). -/
def State.applyConfig (s : State) (f : ConfigFields) : State :=
  let s := { s with net := { s.net with members := f.members } }
  let s := s.modBoot (fun b => { b with perstAction := f.perstAction })
  let s := if s.attempt.resetKind = 0 then s.applyTiming (timingOf f.timing) else s
  let s := f.ports.foldl (fun s p => s.applyPort p.port
    { breakout := p.breakout, medium := p.medium, autoneg := p.autoneg, exceptionQueue := p.exceptionQueue, job := none }) s
  f.addresses.foldl (fun s b => s.applyAddress b) s

/-- Step 7 ends: the record verified and applied (R528, R533, R558, R568, R571). A record that is not there fails as one whose
signature does; the offset of a setting that no field of the record's reading names as bad is free. -/
def State.endConfigStep (s : State) (item : Option Bytes) (f : ConfigFields) : State :=
  match item with
  | none => if s.boot.source = 2 then s.failStart 0x0E 0 else s.failStart 0x08 0
  | some b =>
    if !s.vault.verifies b || !itemTargetOk b then s.failStart 0x08 (signerOf b)
    else
      match configHeaderBad b with
      | some o => s.failStart 0x09 o
      | none =>
        match f.bad with
        | some o => s.failStart 0x09 o
        | none =>
          if !s.configFieldsOk f then s.draw.failStart 0x09 ((Config.freeValue s.fresh).toNat % 2 ^ 32)
          else (({ s with security := { s.security with config := measurementOf b } } : State).applyConfig f).stepTo 8

/-! ## The default images (R176, R528 step 8, R571) -/

/-- The handles of the default images (R176). -/
def defaultHandles : List Nat := [0xF001, 0xF002, 0xF003]

/-- CARRELS of each default image (R176). -/
def defaultCarrels (h : Nat) : Nat := if h = 0xF001 then 24 else if h = 0xF002 then 16 else 64

/-- A default image is signed by a root, runs here, takes the carrels of R176's table and spills nothing (R154, R176, R558). -/
def Vault.defaultOk (v : Vault) (h : Nat) (b : Bytes) : Bool :=
  decide (signerOf b ≤ 1) && v.verifies b && deviceOk b && imageFormOk b && imgCarrels b = defaultCarrels h &&
    decide (imageSpill b = 0)

/-- A default image as it stands in the table (R176). -/
def defaultEntry (serving : Bool) (b : Bytes) : Image :=
  { state := .loaded, serving := serving, budget := imgCarrels b, sq := 0, content := b, received := b.length, default_ := true
    measurement := measurementOf b, counters := List.replicate (imgStages b) {}, steps := List.replicate (imgStages b) 0 }

/-- Step 8 ends: the default images verified and put into the table, the features image with a copy of each class; IMAGES extended
in increasing handle order from zero (R176, R528, R533, R571). -/
def State.endDefaultsStep (s : State) (images : List (Nat × Bytes)) : State :=
  match defaultHandles.find? (fun h => match images.find? (fun e => e.1 == h) with
    | none => true
    | some e => !s.vault.defaultOk h e.2) with
  | some h => s.failStart 0x0A h
  | none =>
    let s := { s with security := { s.security with images := zeros 32 } }
    (defaultHandles.foldl (fun s h =>
      match images.find? (fun e => e.1 == h) with
      | none => s
      | some e =>
        let s := (s.setImage h (defaultEntry (h = 0xF001) e.2)).extendImages h (measurementOf e.2)
        if h = 0xF001 then s.setImage upkeepFeatures (defaultEntry false e.2) else s) s).stepTo 9

/-! ## The flash channels (R433, R437) -/

/-- A chip enable whose parameter page meets R433. -/
def chipMeets (c : ChipEnable) : Bool :=
  decide (50 ≤ c.revision) && c.nvLpddr4 && c.dataBytes = 16384 && decide (1872 ≤ c.spareBytes) && decide (1 ≤ c.luns) &&
    decide (c.luns ≤ 8) && decide (1 ≤ c.planes) && decide (c.planes ≤ 6) && decide (c.dieBits ≤ 2 ^ 41)

/-- Why a chip enable is not taken into service: a reason of R437. -/
def chipFault (c : ChipEnable) : Option Nat :=
  if c.idChanged then some 0x08
  else if c.crcBad then some 0x01
  else if !chipMeets c then some 0x02
  else none

/-- NAND that a channel addresses: 2 TiB (R433). -/
def channelBytes : Nat := 2 ^ 41

/-- LUNs taken into service in increasing chip enable and LUN while they stay within 2 TiB; every later one is left unused
(R433). -/
def takeLuns : Nat → Bool → List (Nat × Nat × ChipEnable) → List Lun
  | _, _, [] => []
  | taken, full, (ce, lun, c) :: l =>
    let size := c.blocks * c.pages * 16384
    let unused := full || decide (channelBytes < taken + size)
    { ce := ce, lun := lun, blocks := c.blocks, pages := c.pages, unused := unused } ::
      takeLuns (if unused then taken else taken + size) unused l

/-- A channel taken into service as discovery has found it (R433, R437). -/
def State.takeChannel (s : State) (e : Nat) (f : ChannelFound) : State :=
  let fitted := ((List.range 8).zip f.ces).filterMap (fun p => p.2.map (fun c => (p.1, c)))
  if fitted.isEmpty then s
  else
    let good := fitted.filter (fun p => (chipFault p.2).isNone)
    let s := fitted.foldl (fun s p => match chipFault p.2 with
      | some r => s.shelfViolation e r p.1 0 0
      | none => s) s
    let s := (List.range (4 - f.rate)).foldl (fun s _ => s.shelfViolation e 0x03 0 0 0) s
    s.modEngine e (fun x => { x with
      rate := f.rate
      ceBad := (List.range 8).filter (fun i => !good.any (fun p => p.1 == i))
      luns := if f.rate = 0 then []
        else takeLuns 0 false (good.flatMap (fun p => (List.range p.2.luns).map (fun l => (p.1, l, p.2)))) })

/-! ## Restoration (R337, R338, R409, R528 step 10) -/

/-- The map restored from its flash: the highest shelved edition; edit serials go on above those reserved; higher editions are
lost; a sheet that can not be restored is missing (R38, R337, R338, R355, R528). -/
def State.restoreMap (s : State) (bad : List Nat) : State :=
  let f := s.map.flash
  let ids := f.edition.sheets.flatMap (fun e => e.2.map (·.id))
  let gone := bad.filter (fun k => s.holder k == some s.position)
  let s := s.modMap (fun m => { m with
    editions := [f.edition], lastInked := f.edition.number, lastShelved := f.edition.number, lastSerial := f.reserved
    nextPage := ids.foldl max 0 + 1, lost := gone.map (fun k => (f.edition.number, k)) })
  let s := if f.edition.number < f.highest then
      s.mapEvent none { code := 0x0305, value := f.highest - f.edition.number, payload := f.edition.number + 1 }
    else s
  gone.foldl (fun s k => (s.mapEvent none { code := 0x0306, subject := k, value := s.position }).tell
    [.errata { cls := 0, unit := 0x0012, detail0 := k }]) s

/-- An entry of the log taken back into the addenda: its back links come from the entries that link to it (R408, R409). -/
def Catalogue.replayEntry (c : Catalogue) (x : Addendum) : Catalogue :=
  { c with
    addEnd := x.pos + 1
    addenda := if x.pos < c.current.base then c.addenda
      else mapIf (fun (a : Addendum) => x.forward.contains a.pos && decide (a.back.length < 16))
        (fun a => { a with back := a.back ++ [x.pos] }) c.addenda ++ [x] }

/-- A record of the log replayed: entries beyond the generation's base, deletes beyond those folded into it, the highest
reservation (R406, R409, R410). -/
def Catalogue.replay (c : Catalogue) : LogRec → Catalogue
  | .entry a => c.replayEntry { a with back := [] }
  | .delete id =>
    let x := c.deletes + 1
    { c with deletes := x, pendingDeletes := if c.current.folded < x then c.pendingDeletes ++ [(id, x)] else c.pendingDeletes }
  | .reserve last => { c with reserved := max c.reserved last, nextId := max c.nextId (last + 1) }

/-- The Catalogue restored: the generation of the metadata and the log replayed on it. Identifiers between the last one that is
known assigned and the end of those reserved are never assigned (R398, R409, R528). -/
def State.restoreCatalogue (s : State) (ok : Bool) : State :=
  let s := s.modCat fun c =>
    let c := { c with current := c.shelved, nextId := c.shelved.counter, addEnd := c.shelved.base }
    let d := c.logNand.foldl Catalogue.replay c
    let last := (d.addenda.map (fun (a : Addendum) => a.id % 2 ^ 37) ++ d.current.nodes.map (fun (e : Nat × Node) => e.1 % 2 ^ 37)).foldl max 0
    { d with
      skipped := if last + 1 < d.nextId then d.skipped ++ [(last + 1, d.nextId - 1)] else d.skipped
      unreadable := if ok then [] else d.current.nodes.map (·.1) }
  if ok then s else s.tell [.errata { cls := 0, unit := 0x0014 }]

/-! ## The steps (R528) -/

/-- START_STEP_END: the step of the start under way ends and the next begins; `d` is what it has met outside (R526 to R529, R533,
R558, R563, R571, R611). -/
def execStartStepEnd (d : StartData) (s : State) : Answer :=
  .next <|
    if !s.starting then s
    else
      match s.boot.step with
      | 1 => if s.boot.coldWait then s else s.stepTo 2
      | 2 => if s.power.ringPll && s.power.libPll then
          ({ s with security := { s.security with bootRom := le 32 Config.bootRomDigest.toNat } } : State).stepTo 3
        else s
      | 3 => s.stepTo 4
      | 4 => s.beginImageStep
      | 5 => match d with
        | .image item badHeader => if s.boot.source = 2 && !s.boot.accepted then s else s.endImageStep item badHeader
        | _ => s
      | 6 => (s.modBoot (fun b => { b with window := true })).stepTo 7
      | 7 => match d with
        | .config item fields => s.endConfigStep item fields
        | _ => s
      | 8 => match d with
        | .defaults images => s.endDefaultsStep images
        | _ => s
      | 9 =>
        if !s.net.formed then s
        else
          (match d with
          | .channels found => ((List.range 64).zip found).foldl (fun (s : State) (p : Nat × ChannelFound) => s.takeChannel p.1 p.2) s
          | _ => s).stepTo 10
      | 10 => match d with
        | .restore bad ok => ((s.restoreMap bad).restoreCatalogue ok).stepTo 11
        | _ => s
      | _ => s

/-- START_COMPLETE: READY: the attempt is closed with outcome 1, CONSECUTIVE_FAILURES cleared, LAST_GOOD set to the NOR device
started from, the flags of the image act, GO bits held act, START_COMPLETE goes to queue 2 (R528, R529, R535, R560, R586). -/
def execStartComplete (s : State) : Answer :=
  .next <|
    if !s.starting || s.boot.step ≠ 11 then s
    else
      let s := s.closeAttempt 0x01 0
      let b := s.boot
      let s := s.modVault (fun v => { v with
        failures := 0, lastGood := if b.source < 2 then b.source else v.lastGood
        floor := if b.raiseFloor then max v.floor b.imageVersion else v.floor
        root0Revoked := v.root0Revoked || b.revokeRoot0 })
      let s := (s.modBoot (fun b => { b with gen := .ready, completed := true })).goHeldBits
      s.event 2 { code := 0x0874, subject := s.vault.startSerial, detail := b.source, value := s.attempt.elapsedMs }

/-- START_FAILURE: a step fails for a reason of R533 (R529). -/
def execStartFailure (reason detail : Nat) (s : State) : Answer := .next (if s.starting then s.failStart reason detail else s)

/-- START_TIMEOUT: READY is not reached within 120 s (R529, R533). -/
def execStartTimeout (s : State) : Answer :=
  .next (if s.starting && decide (s.boot.releasedAt + 120000000000 ≤ s.now) then s.failStart 0x0B s.boot.step else s)

/-- BOOT_GO_TIMEOUT: under host push BOOT_GO is not accepted within 10 s (R529, R533, R581). -/
def execBootGoTimeout (s : State) : Answer :=
  .next <|
    if s.starting && s.boot.gen = .waitImage && !s.boot.accepted && decide (s.boot.waitAt + 10000000000 ≤ s.now) then s.failStart 0x0E 0
    else s

/-- COLD_START_WAIT_END: the thermal monitor reads 0 °C (R611). -/
def execColdStartWaitEnd (s : State) : Answer := .next (s.modBoot (fun b => { b with coldWait := false }))

/-! ## Minimal mode (R530 to R532, R534, R535) -/

/-- COLOPHON_POSTED: in minimal mode, once queue 2 is up (R530, R535). -/
def execColophonPosted (s : State) : Answer :=
  .next <|
    if s.boot.gen = .minimal && s.boot.colophonDue && (s.desk.circ.queue 2).state = .active then
      (s.modBoot (fun b => { b with colophonDue := false, completed := true })).event 2
        { code := 0x0873, subject := s.vault.startSerial, detail := s.vault.failures, value := s.attempt.outcome }
    else s

/-- An attempt record (R532). -/
def Attempt.bytes (a : Attempt) : Bytes :=
  packB 64 [(0, 4, a.serial), (4, 1, a.outcome), (5, 1, a.step), (6, 1, a.source), (7, 1, a.resetKind), (8, 8, a.time),
    (16, 4, a.detail), (20, 2, a.errataClass), (22, 2, a.errataUnit), (24, 8, a.measurement), (32, 4, a.elapsedMs)]

/-- The colophon (R532). -/
def State.colophon (s : State) : Bytes :=
  let v := s.vault
  packB 64 [(0, 4, 0x5A434C50), (4, 1, 1), (5, 1, flag (s.boot.gen = .minimal)), (6, 1, v.failures), (7, 1, s.boot.bootMode),
    (8, 4, v.startSerial), (12, 1, if v.lastGood = 3 then 0xFF else v.lastGood), (13, 1, v.attempts.length)] ++
    takePad 512 (v.attempts.flatMap (·.bytes))

/-- READ_COLOPHON (0x0878) (R532, R534). -/
def execReadColophon (job : Nat) (s : State) : Answer :=
  .next <| s.begin job 0x0878 fun j s =>
    if fld j.slip 32 32 ≠ 0 then s.finish j.num (refusal stMalformed)
    else if dataLenOf j.slip < 576 then s.finish j.num (refusalNotStarted stTooLarge)
    else s.finish j.num (endWith [] 0 0 [(0, s.colophon)])

/-- CONSECUTIVE_FAILURES cleared and a device-level reset (R531). -/
def State.retryStart (s : State) : State :=
  if s.released then (s.modVault (fun v => { v with failures := 0 })).deviceReset else s

/-- RETRY_START (0x0879): no return slip is written (R531, R534). -/
def execRetryStart (job : Nat) (s : State) : Answer :=
  .next <| s.begin job 0x0879 fun j s =>
    if fld j.slip 32 32 ≠ 0 then s.finish j.num (refusal stMalformed) else s.retryStart

/-- A file for a boot device: the image, of the LENGTH in its header, and what follows it, the record (R534, R559). -/
def bootFile (b : Bytes) : Bytes × Bytes := (b.take (fldB b 8 4), b.drop (fldB b 8 4))

/-- WRITE_BOOT_FLASH (0x087A): the file is verified before anything is erased; LAST_GOOD's device is not written while the other
holds no verified image (R534, R557 to R560, R568). -/
def execWriteBootFlash (job : Nat) (buf : BufRead) (s : State) : Answer :=
  .next <| s.beginRead job 0x087A buf fun j b s =>
    let d := fld j.slip 32 1
    let f := bootFile b
    let v := s.vault
    if decide (1 < d) || fld j.slip 33 31 ≠ 0 then s.finish j.num (refusal stMalformed)
    else if !v.firmwareVerifies f.1 then s.finish j.num (refusal stNotPermitted)
    else if !firmwareFormOk f.1 then s.finish j.num (refusal stMalformed)
    else if !deviceOk f.1 || decide (imageVersionOf f.1 < v.floor) then s.finish j.num (refusal stNotPermitted)
    else if !f.2.isEmpty && (!v.verifies f.2 || !itemTargetOk f.2) then s.finish j.num (refusal stNotPermitted)
    else if !f.2.isEmpty && (configHeaderBad f.2).isSome then s.finish j.num (refusal stMalformed)
    else if v.lastGood = d && !s.boot.norVerified.getD (1 - d) false then s.finish j.num (refusal stNotPermitted)
    else ((s.noteNor d true).emit [.bootFlash d b]).finish j.num (endWith [] 0 b.length)

end Sys2Proof.Machine
end

