-- ==== Sys2Proof/Machine/Units.lean ====
section
/-! DEFINITION. Units back from their reset, or out of service (R508, R509, R547, R548, R551, R556). -/
namespace Sys2Proof.Machine

/-- The entry of a unit in its reset or out of service. -/
def ErrataLog.downOf (l : ErrataLog) (unit inst : Nat) : Option DownUnit := l.down.find? (fun d => d.unit == unit && d.inst == inst)

/-- The entry of a unit replaced. -/
def State.setDown (s : State) (d : DownUnit) : State :=
  s.modErrata (fun l => { l with down := mapIf (fun (e : DownUnit) => e.unit == d.unit && e.inst == d.inst) (fun _ => d) l.down })

/-- A librarian core runs again: its duties come back from core 7 (R508, R509). -/
def State.coreBack (s : State) (core : Nat) : State :=
  let p := s.ports
  { s with ports := { p with
    coreState := setAt p.coreState core 0
    duties := if core = 7 then p.duties
      else setAt (setAt p.duties core (2 ^ core)) 7 (putBit (natAt p.duties 7) core false) } }

/-- A unit resumes: a core its duties, an Ethernet port its training (R509, R547, R548). -/
def State.unitBack (s : State) (unit inst : Nat) : State :=
  if unit = 0x0019 && decide (inst < 8) then s.coreBack inst
  else if unit = 0x0020 then
    (s.portsBeside inst).foldl (fun s l => if s.portGiven l then s.modPort l (fun x => { x with state := .training }) else s) s
  else s

/-- UNIT_RECOVERED: the unit leaves the list, resumes, and the causes of reference service are looked at again (R547, R551, R556). -/
def State.recovered (s : State) (d : DownUnit) (micros : Nat) : State :=
  let s := s.modErrata (fun l => { l with down := l.down.filter (fun e => !(e.unit == d.unit && e.inst == d.inst)) })
  (s.unitBack d.unit d.inst).event s.desk.errata.eventQueue
    { code := 0x0884, subject := d.unit, detail := d.inst, value := sat 32 micros, payload := d.seq }

/-- REFERENCE_CAUSE set on a record (R541). -/
def State.markCause (s : State) (seq : Nat) : State :=
  let mark := mapIf (fun (e : ErrRec) => e.seq == seq) (fun (e : ErrRec) => { e with flags := e.flags ||| 16 })
  s.modErrata (fun l => { l with holding := mark l.holding, ring := mark l.ring })

/-- Librarian cores out of service. -/
def State.coresOut (s : State) : Nat := (s.desk.errata.down.filter (fun d => d.unit == 0x0019 && d.out)).length

/-- Elements whose loss is device-fatal (R548). -/
def fatalElement (unit inst : Nat) : Bool :=
  unit = 0x0012 || unit = 0x0016 || unit = 0x0018 || (unit = 0x0013 && inst = 1) || unit = 0x0022 || unit = 0x001B || unit = 0x001A ||
    unit = 0x0017

/-- Sessions whose contexts stand in a Stack vault (R25). -/
def State.contextsIn (s : State) (v : Nat) : List (Nat × Session) := s.sessions.open_.filter (fun e => e.2.slot / 1024 == v)

/-- The consequence of an element out of service (R548): `sheets` are those with pages in a Stack vault. -/
def State.outOfService (s : State) (d : DownUnit) (sheets : List Nat) : State :=
  let cause (s : State) : State := (s.referenceCause (some { unit := d.unit, inst := d.inst, seq := d.seq })).markCause d.seq
  let fatal (s : State) : State := s.deviceFatal { cls := 4, unit := d.unit, inst := d.inst, scope := 4 } 0
  if fatalElement d.unit d.inst then fatal s
  else if d.unit = 0x0019 then
    let s := { s with ports := { s.ports with coreState := setAt s.ports.coreState d.inst 3 } }
    if 2 ≤ s.coresOut then fatal s else s
  else if d.unit = 0x0002 then
    let s := cause s
    let s := sheets.foldl (fun s k => s.loseSheet k) s
    ((s.contextsIn d.inst).foldl (fun s e => s.endSession e.1 e.2.address) s).reviewBounds
  else if d.unit = 0x0014 || d.unit = 0x0015 || d.unit = 0x0013 || (d.unit = 0x0011 && decide (5 ≤ s.enginesOut)) then cause s
  else s

/-- UNIT_RECOVERED: a unit's reset ends: it resumes after `micros`; or, after a second reset that fails, it is out of service
(R547, R548, R556). -/
def execUnitRecovered (unit inst : Nat) (ok : Bool) (micros : Nat) (sheets : List Nat) (s : State) : Answer :=
  .next <|
    match s.desk.errata.downOf unit inst with
    | none => s
    | some d =>
      if d.out then s
      else if ok then (s.recovered d micros).closeHandling d.seq
      else if d.tries = 0 then s.setDown { d with tries := 1, triedAt := s.now }
      else
        let d := { d with tries := d.tries + 1, out := true, triedAt := s.now }
        let s := ((s.setDown d).event s.desk.errata.eventQueue
          { code := 0x0883, subject := d.unit, detail := d.inst, value := d.tries, payload := d.seq }).closeHandling d.seq
        s.outOfService d sheets

/-- UNIT_RESET_RETRY: every 60 s the reset of a unit out of service is tried again (R547, R551). -/
def execUnitResetRetry (unit inst : Nat) (ok : Bool) (micros : Nat) (s : State) : Answer :=
  .next <|
    match s.desk.errata.downOf unit inst with
    | none => s
    | some d =>
      if !d.out || decide (s.now < d.triedAt + 60000000000) then s
      else if ok then ((s.recovered d micros).reviewBounds).referenceReview
      else s.setDown { d with tries := d.tries + 1, triedAt := s.now }

end Sys2Proof.Machine
end

