-- ==== Sys2Proof/Machine/Registers.lean ====
section
/-! DEFINITION. The setup window: every register as it reads, and what a write does (R87, R490, R574 to R592). -/
namespace Sys2Proof.Machine

/-! ## Codes -/

/-- STATE of GEN_STATE (R581). -/
def GenState.code : GenState → Nat
  | .starting => 1
  | .waitImage => 2
  | .ready => 3
  | .minimal => 4

/-- STATE of a carrel (R590). -/
def CarrelState.code : CarrelState → Nat
  | .off => 0
  | .idle => 1
  | .loading => 2
  | .ready => 3
  | .running => 4
  | .retention => 5
  | .halted => 6
  | .retired => 7

/-- A word of fields: lowest bit, value. -/
def wordOf (fs : List (Nat × Nat)) : Nat := fs.foldl (fun a f => a + f.2 * 2 ^ f.1) 0

/-- A word of bits. -/
def wordOfBits (n : Nat) (f : Nat → Bool) : Nat := (List.range n).foldl (fun a i => a + flag (f i) * 2 ^ i) 0

/-- The index of an offset in an array of `n` registers at `base`, `step` bytes apart. -/
def arrayIndex (o base step n : Nat) : Option Nat :=
  if base ≤ o && decide (o < base + step * n) && (o - base) % step = 0 then some ((o - base) / step) else none

/-! ## Reads, by block (R581 to R592) -/

/-- GEN (R581). -/
def State.readGen (s : State) (o : Nat) : Nat :=
  let b := s.boot
  if o = 0x00 then orderingCode
  else if o = 0x04 then wordOf [(0, steppingCode), (8, 1)]
  else if o = 0x08 then b.gen.code
  else if o = 0x0C then wordOf [(0, b.bootMode), (4, b.position), (8, flag b.perstAction)]
  else if o = 0x20 then b.imageAddr
  else if o = 0x28 then b.imageLen
  else if o = 0x30 then b.configAddr
  else if o = 0x38 then b.configLen
  else if o = 0x40 then wordOf [(0, flag b.accepted), (1, flag b.badArgs)]
  else if o = 0x48 then b.badWrites
  else 0

/-- PWR (R582). -/
def State.readPwr (s : State) (o : Nat) : Nat :=
  let r := s.power.regs
  if o = 0x00 then r.points
  else if o = 0x04 then r.power
  else if o = 0x08 then wordOf [(0, r.hottest), (16, r.sensor)]
  else if o = 0x0C then r.coreMv
  else if o = 0x10 then r.limiterEvents
  else if o = 0x14 then r.throttle
  else if o = 0x18 then r.capW
  else 0

/-- STAMP (R490, R582). -/
def State.readStamp (s : State) (o : Nat) : Nat :=
  let x := s.stamp
  if o = 0x00 then x.seconds.toNat
  else if o = 0x08 then x.latchNanos.toNat
  else if o = 0x0C then x.latchFraction.toNat
  else if o = 0x10 then wordOf [(0, s.reportedTimeState.code), (8, flag (x.r ≠ 0)), (16, s.clerk), (24, x.timing.source)]
  else if o = 0x18 then ofInt 64 x.offset
  else 0

/-- BELL_CORE_STATE of a core (R583). -/
def BellCore.register (c : BellCore) : Nat :=
  wordOf [(0, c.threshold), (4, c.stack.length), (8, flag c.sleeping),
    (9, match c.stack with | [] => 0 | e :: _ => flag e.entry), (10, match c.stack with | [] => 0 | e :: _ => flag e.exit)]

/-- A word of a source record (R584). -/
def sourceWord (x : BellSource) : Nat → Nat
  | 0 => sourceWord0 x
  | 1 => wordOf [(0, x.stormLimit), (16, x.holdMs)]
  | 2 => x.windowUs
  | _ => 0

/-- BELL (R583, R584). -/
def State.readBell (s : State) (o : Nat) : Nat :=
  let b := s.desk.bell
  if 0x4000 ≤ o then
    (if o % 4 = 0 && decide (o < 0x4000 + 16 * 3072) then sourceWord (b.source (1024 + (o - 0x4000) / 16)) (o % 16 / 4) else 0)
  else if o = 0x08 then b.stormFloor
  else if o = 0x100 then b.spurious
  else if o = 0x104 then b.fallbacks
  else if o = 0x108 then b.badComplete
  else if o = 0x10C then b.raiseBad
  else if o = 0x110 then b.remoteBad
  else
    match arrayIndex o 0x10 4 8, arrayIndex o 0x200 4 128 with
    | some n, _ => (b.core n).register
    | _, some j => wordOfBits 32 (fun i => (b.source (32 * j + i)).stormed)
    | _, _ => 0

/-- CIRC (R585). -/
def State.readCirc (s : State) (o : Nat) : Nat :=
  let c := s.desk.circ
  if o < 0x60 then
    let r := c.fixed.getD (o / 0x20) {}
    if o % 0x20 = 0 then r.ring
    else if o % 0x20 = 8 then wordOf [(0, r.log2), (16, r.vector)]
    else if o % 0x20 = 0xC then wordOf [(0, r.coalCount), (16, r.coalTime)]
    else 0
  else if o = 0x84 then
    wordOf ([0, 1, 2].map (fun q => (2 * q, (c.queue q).state.code)) ++ [(8, c.goError)])
  else if o = 0x88 then c.jobs.length
  else if o = 0x8C then (c.queues.filter (fun e => e.2.state ≠ .free)).length
  else 0

/-- PCIE, the pending-bit array and the MSI-X table (R588). -/
def State.readPcie (s : State) (o : Nat) : Nat :=
  let p := s.ports
  let b := s.desk.bell
  if 0x8000 ≤ o then
    (let e := b.vectorEntry ((o - 0x8000) / 16)
    if o % 16 = 0 then e.addr % 2 ^ 32
    else if o % 16 = 4 then e.addr / 2 ^ 32
    else if o % 16 = 8 then e.data
    else if o % 16 = 12 then flag e.masked
    else 0)
  else if 0x7F00 ≤ o then
    (if o % 4 = 0 then wordOfBits 32 (fun i => (b.vectorEntry (8 * (o - 0x7F00) + i)).pending) else 0)
  else if o = 0x00 then wordOf [(0, p.linkSpeed), (4, p.linkWidth), (10, flag p.flit), (11, p.dState)]
  else if o = 0x04 then p.aerCorrectable
  else if o = 0x08 then p.aerUncorrectable
  else if o = 0x0C then p.tags
  else 0

/-- NET_PORT_STATE of a local logical port (R589). -/
def State.netRegister (s : State) (l : Nat) : Nat :=
  let k := s.phys (l / 4)
  let x := s.netPort l
  let st := if !s.portGiven l then 0 else match x.state with
    | .down => 1
    | .training => 2
    | .up => 3
  wordOf [(0, st), (8, if st = 3 then breakoutRate k.breakout else 0), (16, k.breakout), (18, k.medium), (19, flag k.autoneg)]

/-- LINK_STATE of a Jalzel port (R589). -/
def Jalzel.register (x : Jalzel) : Nat :=
  wordOf [(0, x.state.code), (3, flag x.parked), (8, x.partner.getD 0xFF), (16, sat 16 x.retrains)]

/-- LINK (R589). -/
def State.readLink (s : State) (o : Nat) : Nat :=
  if o = 0x20 then wordOf [(0, s.position), (8, s.clerk)]
  else if o = 0x24 then
    wordOf [(0, wordOfBits 8 (fun m => s.present.contains m)), (8, s.net.members), (16, flag s.net.formed)]
  else
    match arrayIndex o 0 4 7 with
    | some p => (s.jalzel p).register
    | none => 0

/-- An accession station (R590). -/
def State.readStation (s : State) (k o : Nat) : Nat :=
  let l := (s.stationStreams k).map (·.2.desc)
  let count (kind : Nat) : Nat := (l.filter (fun d => d.kind == kind)).length
  if o = 0 then l.foldl (fun a d => a + (if d.kind = 0 then d.pixelRate else 0)) 0 / 1000
  else if o = 4 then wordOf [(0, l.length), (8, count 0), (16, count 2)]
  else if o = 8 then l.foldl (fun a d => a + (if d.kind = 1 then d.channels else 0)) 0
  else 0

/-- A shelf engine (R590). -/
def State.readEngine (s : State) (k o : Nat) : Nat :=
  let e := s.engine k
  if o = 0 then
    wordOf [(0, e.rate), (3, flag (!e.luns.isEmpty && !s.unitDown 0x0011 k)), (4, flag (e.luns.any (·.unused))),
      (8, wordOfBits 8 (fun c => e.luns.any (fun l => l.ce == c && l.inService && !l.unused))),
      (16, (e.luns.filter (fun l => !l.inService && !l.unused)).length), (24, (e.luns.filter (·.unused)).length)]
  else if o = 4 then e.spare
  else if o = 8 then e.retired
  else if o = 0xC then e.violations
  else 0

/-- STACK (R590). -/
def State.readStackBlock (s : State) (o : Nat) : Nat :=
  let m := s.fabric.stack
  if o = 0 then wordOfBits 64 (fun v => s.unitOut 0x0002 v)
  else
    match arrayIndex o 0x100 4 64, arrayIndex o 0x200 4 64 with
    | some v, _ => amGetD m.corrected v 0
    | _, some v => amGetD m.uncorrectable v 0
    | _, _ => 0

/-- CARREL_STATE (R590). -/
def Carrel.register (x : Carrel) : Nat :=
  wordOf [(0, x.state.code), (3, x.bound.elim 0 (fun b => flag b.serving)), (16, x.bound.elim 0 (·.handle))]

/-- CARREL (R590). -/
def State.readCarrelBlock (s : State) (o : Nat) : Nat :=
  match arrayIndex o 0 4 256, arrayIndex o 0x400 4 8, arrayIndex o 0x800 8 256, arrayIndex o 0x1000 4 256 with
  | some c, _, _, _ => (s.carrel c).register
  | _, some j, _, _ => wordOfBits 32 (fun i => (s.carrel (32 * j + i)).state = .retired)
  | _, _, some c, _ => (s.carrel c).busy
  | _, _, _, some c => (s.carrel c).corrected
  | _, _, _, _ => 0

/-- CURATOR (R591). -/
def State.readCurator (s : State) (o : Nat) : Nat :=
  if o = 0 then s.map.lastInked
  else if o = 8 then wordOf [(0, s.ownPencilled), (16, (s.map.edits.filter (fun e => e.2.inDraft)).length)]
  else if o = 0xC then wordOfBits 9 (fun c => s.curator.conflicts.any (fun x => x.code == c))
  else 0

/-- COLLATOR (R591). -/
def State.readCollator (s : State) (o : Nat) : Nat :=
  let l := s.collator.solves
  let small := s.sessions.open_.filter (fun e => match e.2.service with
    | some v => v.step == .solving
    | none => false)
  if o = 0 then wordOf [(0, (l.filter (·.progress.isSome)).length), (8, s.solveCarrels), (16, small.length)]
  else if o = 4 then (l.filter (·.progress.isNone)).length
  else 0

/-- CATALOGUE (R591). -/
def State.readCatalogue (s : State) (o : Nat) : Nat :=
  let c := s.catalogue
  if o = 0 then c.current.number
  else if o = 4 then wordOf [(0, c.fill), (31, flag c.reshelving.isSome)]
  else if o = 8 then
    let holder := (List.range 64).find? (fun e => (s.engine e).total ≠ 0 && (s.engine e).spare == s.spareMin)
    wordOf [(0, s.spareMin), (8, holder.getD 0)]
  else 0

/-- CONCORD (R591). -/
def State.readConcord (s : State) (o : Nat) : Nat :=
  let c := s.concord
  if o = 0 then wordOf [(0, c.state.code), (8, c.bindings.length), (17, (c.bindings.filter (fun b => b.2.quarantined)).length)]
  else if o = 8 then c.lastEpoch
  else 0

/-- SESSION (R591). U_max stands once the device is READY: before that no bounds are in force, and the register reads its Reset
value (R357, R579, R591; DEDUCED). -/
def State.readSession (s : State) (o : Nat) : Nat :=
  let l := s.sessions.open_
  if o = 0 then l.length
  else if o = 4 then s.admitted
  else if o = 8 then (if s.boot.gen = .ready then s.uMax else 0)
  else if o = 0xC then (l.filter (fun e => e.2.mode == .lost)).length
  else if o = 0x10 then s.sessions.notOpen
  else 0

/-- ERRATA (R592). -/
def State.readErrata (s : State) (o : Nat) : Nat :=
  let l := s.desk.errata
  if o = 0 then l.sequence
  else if o = 4 then wordOf [(0, s.reference.state.code), (8, flag s.reference.hostCause), (9, flag s.elementCause)]
  else if o = 0x24 then l.lost
  else if o = 0x28 then l.overwritten
  else
    match arrayIndex o 0x10 4 5 with
    | some k => natAt l.counts k
    | none => 0

/-- VAULT (R592). -/
def State.readVault (s : State) (o : Nat) : Nat :=
  let v := s.vault
  if o = 0 then wordOf [(0, flag v.owned), (1, flag v.root0Revoked), (8, v.failures), (16, v.lastGood)]
  else if o = 4 then v.startSerial
  else if o = 8 then v.floor
  else if o = 0xC then v.ownerSerial
  else if o = 0x10 then v.attestReserved
  else 0

/-- LIB_CORE_STATE of a core (R592). -/
def State.coreRegister (s : State) (n : Nat) : Nat :=
  let st := natAt s.ports.coreState n
  wordOf [(0, if st = 0 && (s.desk.bell.core n).sleeping then 1 else st), (8, natAt s.ports.duties n), (16, natAt s.ports.watchdog n)]

/-- The 64-bit registers (R581, R582, R585, R590 to R592). -/
def is64 (o : Nat) : Bool :=
  [0x20, 0x30, 0x20000, 0x20018, 0x40000, 0x40020, 0x40040, 0xB0000, 0x100000, 0x130008, 0x160010].contains o ||
    (arrayIndex o 0xC0800 8 256).isSome

/-- The 64-bit registers with an RW field (R581, R585). -/
def isRw64 (o : Nat) : Bool := [0x20, 0x30, 0x40000, 0x40020, 0x40040].contains o

/-- A register as it reads, by its offset; an offset that nothing maps, and a WO field, read zero (R577, R581 to R592). -/
def State.register (s : State) (o : Nat) : Nat :=
  let i := o % 0x10000
  match o / 0x10000 with
  | 0x00 => s.readGen i
  | 0x01 => s.readPwr i
  | 0x02 => s.readStamp i
  | 0x03 => s.readBell i
  | 0x04 => s.readCirc i
  | 0x05 => s.readPcie i
  | 0x06 => match arrayIndex i 0 4 16 with
    | some l => s.netRegister l
    | none => 0
  | 0x07 => s.readLink i
  | 0x08 => s.readStation (i / 0x2000) (i % 0x2000)
  | 0x0A => s.readEngine (i / 0x400) (i % 0x400)
  | 0x0B => s.readStackBlock i
  | 0x0C => s.readCarrelBlock i
  | 0x10 => s.readCurator i
  | 0x11 => s.readCollator i
  | 0x12 => s.readCatalogue i
  | 0x13 => s.readConcord i
  | 0x14 => s.readSession i
  | 0x15 => s.readErrata i
  | 0x16 => s.readVault i
  | 0x17 => match arrayIndex i 0 4 8 with
    | some n => s.coreRegister n
    | none => 0
  | _ => 0

/-! ## Accesses (R575 to R578) -/

/-- Blocks that answer in minimal mode (R578). -/
def answersMinimal (o : Nat) : Bool := [0x00, 0x01, 0x02, 0x03, 0x04, 0x05, 0x16].contains (o / 0x10000)

/-- Whether a block answers in the present device state (R578). -/
def State.answers (s : State) (o : Nat) : Bool := s.boot.gen ≠ .minimal || answersMinimal o

/-- An aligned access of 32 or 64 bits in the setup window (R574, R575). -/
def accessOk (o width : Nat) : Bool := (width = 32 || width = 64) && o % (width / 8) = 0 && decide (o < 2 ^ 24)

/-- The MSI-X table and the pending-bit array, which take the accesses that PCIe lays down (R580, R588). -/
def msixArea (o : Nat) : Bool := decide (0x57F00 ≤ o) && decide (o < 0x60000)

/-- A read of STAMP_SECONDS latches STAMP_NANOSECONDS and STAMP_FRACTION (R490). -/
def State.latchStamp (s : State) : State := s.modStamp (fun x => { x with latchNanos := x.nanos, latchFraction := x.fraction })

/-- A read of bits 31:0 of the register at `o` latches bits 63:32 (R576); of STAMP_SECONDS, the counter's other fields too
(R490). -/
def State.latchHigh (s : State) (o : Nat) : State :=
  let s := if o = 0x20000 then s.latchStamp else s
  { s with ports := { s.ports with latched := amSet s.ports.latched o (s.register o / 2 ^ 32) } }

/-- The value that a read returns, and the state after it (R575 to R578). -/
def State.readRegister (s : State) (o width : Nat) : Nat × State :=
  if !accessOk o width || !s.answers o then (0, s)
  else if msixArea o then
    (if width = 32 then (s.register o, s) else (s.register o + s.register (o + 4) * 2 ^ 32, s))
  else if width = 64 then
    (if is64 o then (s.register o, if o = 0x20000 then s.latchStamp else s) else (0, s))
  else if is64 o then (s.register o % 2 ^ 32, s.latchHigh o)
  else if 4 ≤ o && is64 (o - 4) then
    match amGet s.ports.latched (o - 4) with
    | some v => (v, { s with ports := { s.ports with latched := amDel s.ports.latched (o - 4) } })
    | none => (s.register (o - 4) / 2 ^ 32, s)
  else (s.register o, s)

/-- A read carried out: its value goes to the host. From offset 0x100_0000 on it is a read of the doorbell window (R90, R587;
log 165). -/
def State.answerRead (s : State) (o width : Nat) : State :=
  if 2 ^ 24 ≤ o then s.emit [.read o (s.doorbellBytes (o - 2 ^ 24) (width / 8))]
  else
    let r := s.readRegister o width
    r.2.emit [.read o r.1]

/-- REGISTER_LOW_HALF_READ: a read of a register; one of bits 31:0 of a 64-bit register latches its upper half, which the next read
of that half returns (R575 to R578). A read of the doorbell window, for which the table has no row, is this command at an offset from
0x100_0000 on (R90, R587; log 165). -/
def execRegisterLowHalfRead (offset width : Nat) (s : State) : Answer :=
  .next (s.pcieAccess (.registerLowHalfRead offset width) (fun s => s.answerRead offset width))

/-- STAMP_SECONDS_READ: a 64-bit read of STAMP_SECONDS latches the counter's other two fields (R490, R582). -/
def execStampSecondsRead (s : State) : Answer :=
  .next (s.pcieAccess .stampSecondsRead (fun s => s.answerRead 0x20000 64))

/-! ## Writes (R576, R577, R580 to R588) -/

/-- A write of BOOT_GO: accepted where R581 holds, otherwise BAD_ARGS (R577, R581). -/
def State.writeBootGo (s : State) (value : Nat) : State :=
  let b := s.boot
  if 1 < value || b.accepted then s.dropWrite
  else if value = 0 then s
  else if b.gen = .waitImage && b.imageAddr % 64 = 0 && b.configAddr % 64 = 0 && decide (64 ≤ b.imageLen) &&
      decide (b.imageLen ≤ 64 * 2 ^ 20) && b.imageLen % 64 = 0 && decide (64 ≤ b.configLen) && decide (b.configLen ≤ 64 * 2 ^ 10) &&
      b.configLen % 64 = 0 then s.modBoot (fun b => { b with accepted := true, badArgs := false })
  else s.modBoot (fun b => { b with badArgs := true })

/-- BOOT_GO: a write of BOOT_GO (R581). -/
def execBootGo (value : BitVec 32) (s : State) : Answer :=
  .next (s.pcieAccess (.bootGo value) (fun s => s.writeBootGo value.toNat))

/-- A write of DEVICE_RESET (R523, R577, R581). -/
def State.writeKey (s : State) (value : Nat) : State := if value = 0xA5 then s.deviceReset else s.dropWrite

/-- DEVICE_RESET: a write of DEVICE_RESET (R581). -/
def execDeviceReset (value : BitVec 32) (s : State) : Answer :=
  .next (s.pcieAccess (.deviceReset value) (fun s => s.writeKey value.toNat))

/-- A fixed queue's registers changed, while the queue is free (R580, R586). -/
def State.writeFixed (s : State) (q : Nat) (f : FixedReg → FixedReg) : State :=
  if (s.desk.circ.queue q).state = .free then s.modCirc (fun c => { c with fixed := modAt c.fixed q f }) else s.dropWrite

/-- The BOOT registers change only while GEN_STATE reads WAIT_IMAGE and no BOOT_GO has been accepted (R580, R581). -/
def State.bootOpen (s : State) : Bool := s.boot.gen = .waitImage && !s.boot.accepted

/-- A BOOT register changed (R580, R581). -/
def State.writeBoot (s : State) (f : Boot → Boot) : State := if s.bootOpen then s.modBoot f else s.dropWrite

/-- A write of a 64-bit register (R581, R585). -/
def State.write64 (s : State) (o value : Nat) : State :=
  if o = 0x20 then s.writeBoot (fun b => { b with imageAddr := value })
  else if o = 0x30 then s.writeBoot (fun b => { b with configAddr := value })
  else if isRw64 o then s.writeFixed ((o - 0x40000) / 0x20) (fun r => { r with ring := value })
  else s.dropWrite

/-- Whether a 64-bit register may be written now (R580). -/
def State.mayWrite64 (s : State) (o : Nat) : Bool :=
  if o < 0x40000 then s.bootOpen else (s.desk.circ.queue ((o - 0x40000) / 0x20)).state = .free

/-- A word of a vector's table entry written; clearing the mask unmasks the vector (R112, R588). -/
def State.writeVector (s : State) (v word value : Nat) : State :=
  let set (f : MsixEntry → MsixEntry) : State := s.modBell (fun b => b.setVector v (f (b.vectorEntry v)))
  match word with
  | 0 => set (fun e => { e with addr := e.addr / 2 ^ 32 * 2 ^ 32 + value })
  | 1 => set (fun e => { e with addr := value * 2 ^ 32 + e.addr % 2 ^ 32 })
  | 2 => set (fun e => { e with data := value })
  | _ => if value.testBit 0 then set (fun e => { e with masked := true }) else s.unmaskVector v

/-- A write of 32 bits to the MSI-X table or the pending-bit array, which is RO (R577, R588). -/
def State.writeMsix (s : State) (o value : Nat) : State :=
  if o < 0x58000 then s.dropWrite else s.writeVector ((o - 0x58000) / 16) (o % 16 / 4) value

/-- A write of BELL_STORM_FLOOR (R577, R583). -/
def State.writeFloor (s : State) (value : Nat) : State :=
  if value = 0 || decide (0xFFFF < value) then s.dropWrite else s.modBell (fun b => { b with stormFloor := value })

/-- A write of 32 bits to a word of BELL_STORMED or to a fixed queue's sizes (R577, R583, R586). -/
def State.writeArrays (s : State) (o value : Nat) : State :=
  match arrayIndex o 0x30200 4 128, arrayIndex o 0x40008 0x20 3, arrayIndex o 0x4000C 0x20 3 with
  | some j, _, _ => s.clearStormed false j value
  | _, some q, _ =>
    if bitsOf value 15 5 ≠ 0 then s.dropWrite
    else s.writeFixed q (fun r => { r with log2 := bitsOf value 4 0, vector := bitsOf value 31 16 })
  | _, _, some q =>
    if bitsOf value 15 8 ≠ 0 || bitsOf value 31 26 ≠ 0 then s.dropWrite
    else s.writeFixed q (fun r => { r with coalCount := bitsOf value 7 0, coalTime := bitsOf value 25 16 })
  | _, _, _ => s.dropWrite

/-- A write of 32 bits to a 32-bit register (R577, R580 to R586). -/
def State.write32 (s : State) (o value : Nat) : State :=
  if o = 0x10 then s.writeKey value
  else if o = 0x28 then s.writeBoot (fun b => { b with imageLen := value })
  else if o = 0x38 then s.writeBoot (fun b => { b with configLen := value })
  else if o = 0x3C then s.writeBootGo value
  else if o = 0x30000 then s.raiseWord value
  else if o = 0x30008 then s.writeFloor value
  else if o = 0x40080 then s.writeGo value
  else if o = 0x40090 then s.writeFixedReset value
  else if decide (0x34000 ≤ o) && decide (o < 0x40000) then s.writeSource (1024 + (o - 0x34000) / 16) (o % 16 / 4) value
  else s.writeArrays o value

/-- The held upper halves changed (R576). -/
def State.holdHigh (s : State) (l : List (Nat × Nat)) : State := { s with ports := { s.ports with heldHigh := l } }

/-- A write of bits 31:0 of a 64-bit register: a held upper half takes effect with it (R576). -/
def State.writeLow (s : State) (o value : Nat) : State :=
  let high := (amGet s.ports.heldHigh o).getD (s.register o / 2 ^ 32)
  (s.holdHigh (amDel s.ports.heldHigh o)).write64 o (high * 2 ^ 32 + value)

/-- A write carried out (R575 to R578). `whole` is whether every byte of it is enabled. -/
def State.writeRegister (s : State) (o width value : Nat) (whole : Bool) : State :=
  if !s.answers o then s
  else if !whole || !accessOk o width then s.dropWrite
  else if msixArea o then
    (if width = 32 then s.writeMsix o (value % 2 ^ 32) else (s.writeMsix o (value % 2 ^ 32)).writeMsix (o + 4) (value / 2 ^ 32))
  else if width = 64 then (if isRw64 o then (s.holdHigh (amDel s.ports.heldHigh o)).write64 o value else s.dropWrite)
  else if isRw64 o then s.writeLow o (value % 2 ^ 32)
  else if 4 ≤ o && isRw64 (o - 4) then
    (if s.mayWrite64 (o - 4) then s.holdHigh (amSet s.ports.heldHigh (o - 4) (value % 2 ^ 32)) else s.dropWrite)
  else s.write32 o (value % 2 ^ 32)

/-- REGISTER_WRITE: a host write in the setup window (R575 to R588). -/
def execRegisterWrite (offset width : Nat) (value : BitVec 64) (whole : Bool) (s : State) : Answer :=
  .next (s.pcieAccess (.registerWrite offset width value whole) (fun s => s.writeRegister offset width value.toNat whole))

end Sys2Proof.Machine
end

