-- ==== Sys2Proof/Machine/Steering.lean ====
section
/-! DEFINITION. Receive steering: checks, address resolution, flow rules, receive queues (R440 to R447, R451, R454, R515,
R516). -/
namespace Sys2Proof.Machine

/-! ## Destination addresses (R443, R444) -/

/-- The MAC address that carries a multicast group. -/
def groupMac (a : Nat) : Nat :=
  if a / 2 ^ 32 = 0xFFFF then 0x01005E000000 + a % 2 ^ 23 else 0x333300000000 + a % 2 ^ 32

/-- The MAC address of the solicited-node group of an IPv6 address. -/
def solicitedMac (a : Nat) : Nat := 0x3333FF000000 + a % 2 ^ 24

/-- The MAC addresses of IEEE 1588-2019: its two layer-2 groups and those of its UDP groups. -/
def ptpMacs : List Nat :=
  [0x011B19000000, 0x0180C200000E, 0x01005E000181, 0x01005E00006B, 0x333300000181, 0x33330000006B]

/-- Whether a port takes frames for a destination MAC address (R444). -/
def LogPort.takesMac (x : LogPort) (dst : Nat) : Bool :=
  dst = x.mac || dst = 2 ^ 48 - 1 || (x.groups.map groupMac).contains dst ||
    ((x.unicast.filter (fun a => a / 2 ^ 32 ≠ 0xFFFF)).map solicitedMac).contains dst || ptpMacs.contains dst

/-! ## Address resolution (R443, R444 order 2) -/

/-- An ARP request that is well formed: its target, or none. -/
def arpTarget (f : Bytes) (p : Parsed) : Option Nat :=
  let o := p.body
  if decide (o + 28 ≤ f.length) && fldBE f o 2 = 1 && fldBE f (o + 2) 2 = 0x0800 && fldBE f (o + 4) 2 = 0x0604 then
    some (mapped4 (fldBE f (o + 24) 4))
  else none

/-- The ARP reply of a port. -/
def arpReply (mac : Nat) (f : Bytes) (p : Parsed) : Bytes :=
  let o := p.body
  be 6 p.src ++ be 6 mac ++ (f.drop 12).take (o - 12) ++ be 2 1 ++ be 2 0x0800 ++ be 2 0x0604 ++ be 2 2 ++ be 6 mac ++
    (f.drop (o + 24)).take 4 ++ (f.drop (o + 8)).take 10

/-- Whether a packet is a Neighbour Solicitation. -/
def isSolicit (f : Bytes) (p : Parsed) : Bool :=
  p.ip = 6 && fldBE f (p.body + 6) 1 = 58 && fldBE f (p.body + 40) 1 = 135

/-- The target of a well-formed Neighbour Solicitation. -/
def solicitTarget (f : Bytes) (p : Parsed) : Option Nat :=
  let o := p.body
  let n := fldBE f (o + 4) 2
  let icmp := (f.drop (o + 40)).take n
  let pseudo := (f.drop (o + 8)).take 32 ++ be 4 n ++ be 4 58
  let t := fldBE f (o + 48) 16
  if decide (24 ≤ n) && icmp.length = n && fldBE f (o + 7) 1 = 255 && fldBE icmp 1 1 = 0 && !isMulticast t &&
      fold16 (onesSum (pseudo ++ icmp)) = 0xFFFF then some t
  else none

/-- The Neighbour Advertisement of a port for one of its addresses: solicited unless the asker has no address. -/
def advertise (mac t : Nat) (f : Bytes) (p : Parsed) : Bytes :=
  let free := p.srcAddr = 0
  let dst := if free then 0xFF020000000000000000000000000001 else p.srcAddr
  let head (c : Nat) : Bytes :=
    be 2 0x8800 ++ be 2 c ++ be 4 (if free then 0x20000000 else 0x60000000) ++ be 16 t ++ be 2 0x0201 ++ be 6 mac
  let sum := inetSum (be 16 t ++ be 16 dst ++ be 4 32 ++ be 4 58 ++ head 0)
  be 6 (if free then 0x333300000001 else p.src) ++ be 6 mac ++ (f.drop 12).take (p.body - 12) ++ be 4 0x60000000 ++ be 2 32 ++
    be 1 58 ++ be 1 255 ++ be 16 t ++ be 16 dst ++ head sum

/-! ## Receive queues (R446, R447) -/

/-- Ring slots that are free. -/
def Queue.room (x : Queue) : Nat := x.slots - 1 - x.used

/-- The receive entry of a packet's first slot (R447). -/
def receiveEntry (time port rule slots checks : Nat) (f : Bytes) (p : Parsed) : Entry :=
  pack 256 [(0, 2, f.length), (2, 1, slots), (3, 1, port), (4, 4, rule), (8, 2, if p.udp then p.payload else 0),
    (10, 2, if p.tags = 0 then 0 else p.vlan), (12, 1, checks), (16, 8, time)]

/-- Further slots of a packet (R447): CONT set, every other field zero. -/
def contEntry : Entry := pack 256 [(15, 1, 2)]

/-- Entries written one after the other. -/
def State.writeEntries (s : State) (q : Nat) : List Entry → State
  | [] => s
  | e :: es =>
    let r := writeEntry s.now q (s.desk.circ.queue q) e false
    (((s.modCirc (fun c => c.setQueue q r.1)).emit [r.2.1]).tell r.2.2).writeEntries q es

/-- A packet written to a receive queue, or dropped and counted in RX_QUEUE_FULL (R447, R614). -/
def State.receivePacket (s : State) (l q rule checks : Nat) (a : Arrival) (p : Parsed) : State :=
  let x := s.desk.circ.queue q
  let n := (a.frame.length + 2047) / 2048
  if x.kind ≠ .receive || x.state ≠ .active || decide (x.room < n) then
    s.modPort l (fun y => { y with rxQueueFull := satAdd 64 y.rxQueueFull 1 })
  else
    let first := 2048 * (x.slots - x.tail)
    let data := Output.buffer (x.bufAddr + 2048 * x.tail) (a.frame.take first) ::
      (if first < a.frame.length then [Output.buffer x.bufAddr (a.frame.drop first)] else [])
    (s.emit data).writeEntries q (receiveEntry a.time a.port rule n checks a.frame p :: List.replicate (n - 1) contEntry)

/-- Bytes in a queue of frames. -/
def arrivalBytes (l : List Arrival) : Nat := l.foldl (fun n a => n + a.frame.length) 0

/-- Capacity of a port's queue for one kind of destination (R446). -/
def fifoBytes : Nat := 128 * 1024

/-- A frame put into the queue of its kind of destination, or dropped whole (R446). -/
def State.enqueue (s : State) (l : Nat) (a : Arrival) (get : LogPort → List Arrival) (put : LogPort → List Arrival → LogPort) :
    State :=
  s.modPort l (fun x =>
    if fifoBytes < arrivalBytes (get x) + a.frame.length then { x with rxDrops := satAdd 64 x.rxDrops 1 }
    else put x (get x ++ [a]))

/-! ## Steering (R444, R445) -/

/-- The session ports of the room (R444). -/
def State.sessionPortList (s : State) : List Nat := s.ownPorts ++ s.net.sessionPorts.flatMap (·.2)

/-- Whether a packet is a query part for a session port (R444 order 4). -/
def State.isPart (s : State) (p : Parsed) (data : Bytes) : Bool :=
  p.udp && s.sessionPortList.contains p.dstPort && fldB data 0 2 = 0x5A53 && decide (4 ≤ data.length) && fldB data 3 1 = 3

/-- The flow rule that takes a packet: the lowest that qualifies (R445). -/
def State.ruleFor (s : State) (port : Nat) (p : Parsed) : Option (Nat × FlowRule) :=
  s.net.rules.find? (fun r => p.udp && r.2.udpPort == p.dstPort && (r.2.port == 0xFF || r.2.port == port) &&
    (!r.2.matchAddr || r.2.source == p.srcAddr))

/-- Where a packet goes (R444). -/
inductive Steer where
  | datestamp | station | session | rule (number queue : Nat) | other
  deriving DecidableEq, Repr

/-- The order of R444 for a frame that the port does not answer itself. A port without an address takes no IP packet
(R443). -/
def State.steer (s : State) (l : Nat) (a : Arrival) (p : Parsed) : Steer :=
  let data := p.data a.frame
  let ports := p.udp || p.fragment && decide (p.payload ≠ 0)
  if p.etherType = 0x88F7 then .datestamp
  else if p.ip = 0 || (s.netPort l).unicast.isEmpty then .other
  else if p.udp && (p.dstPort = 319 || p.dstPort = 320) then .datestamp
  else if ports && (s.takerOf a.port p data).isSome then .station
  else if s.isPart p data then .session
  else
    match s.ruleFor a.port p with
    | some r => .rule r.1 r.2.queue
    | none => .other

/-- A frame that no destination takes: the exception queue, or dropped and counted (R444 order 6). -/
def State.exception (s : State) (l checks : Nat) (a : Arrival) (p : Parsed) : State :=
  let q := (s.phys (l / 4)).exceptionQueue
  if q = 0 || (p.ip ≠ 0 && (s.netPort l).unicast.isEmpty) then s.modPort l (fun x => { x with unclaimed := satAdd 64 x.unclaimed 1 })
  else s.receivePacket l q 0xFFFFFFFF checks a p

/-- A frame in sleep (R515 step 3, R516): held for orders 4 and 5, or dropped. -/
def State.steerAsleep (s : State) (l : Nat) (a : Arrival) (p : Parsed) : State :=
  let wake (s : State) : State := if s.power.wakeEthernet then s.startWake 4 a.port else s
  if p.udp && s.power.wakeEthernet && s.power.wakePort ≠ 0 && p.dstPort = s.power.wakePort then wake s
  else
    let hold : Bool := match s.steer l a p with
      | .session => true
      | .rule _ _ => true
      | _ => false
    if hold then wake (s.enqueue l a (·.held) (fun x h => { x with held := h }))
    else s.modPort l (fun x => { x with unclaimed := satAdd 64 x.unclaimed 1 })

/-- A frame passed to its destination (R444 to R447, R454). -/
def State.passFrame (s : State) (l : Nat) (a : Arrival) : State :=
  let p := parseFrame a.frame
  let checks := flag (p.ip == 4 && p.headerBad) + 2 * flag p.checksumBad
  let to_ := s.steer l a p
  if checks ≠ 0 then (if to_ = .other then s.exception l checks a p else s)
  else
    match to_ with
    | .datestamp => s
    | .station => s.enqueue l a (·.stations) (fun x h => { x with stations := h })
    | .session => s.enqueue l a (·.sessions) (fun x h => { x with sessions := h })
    | .rule n q => s.receivePacket l q n 0 a p
    | .other => s.exception l 0 a p

/-- Frames held in sleep pass to their destinations (R517 step 4). -/
def State.passHeld (s : State) : State :=
  (List.range 16).foldl (fun s l =>
    let h := (s.netPort l).held
    h.foldl (fun s a => s.passFrame l a) (s.modPort l (fun x => { x with held := [] }))) s

/-- Address resolution of a port: the answer, or the violation of a malformed request; none where the frame asks for no
address of the port (R443, R444 order 2, R454). -/
def State.resolve (s : State) (l : Nat) (f : Bytes) (p : Parsed) : Option State :=
  let x := s.netPort l
  let answer (t : Option Nat) (reply : Nat → Bytes) : Option State :=
    match t with
    | none => some (s.netViolation l 0x09 p.src)
    | some a => if x.unicast.contains a then some (s.sendFrame l (reply a)) else none
  if p.etherType = 0x0806 then
    if decide (p.body + 8 ≤ f.length) && fldBE f (p.body + 6) 2 ≠ 1 then none else answer (arpTarget f p) (fun _ => arpReply x.mac f p)
  else if isSolicit f p && !p.lengthBad then answer (solicitTarget f p) (fun t => advertise x.mac t f p)
  else none

/-- ETH_FRAME_RECEIVE: a frame arrives on a local logical port: `frame` runs from the destination MAC address to the end of
the payload, `fcsOk` says whether its FCS is right, `corrected` and `bad` count the FEC codewords corrected and
uncorrectable in it (R441 to R447, R454, R515). -/
def execEthFrameReceive (port : Nat) (frame : Bytes) (fcsOk : Bool) (corrected bad : Nat) (s : State) : Answer :=
  .next <|
    if (s.netPort port).state ≠ .up then s
    else
      let s := s.modPort port (fun x => { x with
        rx := satAdd 64 x.rx 1, fecCorrected := satAdd 64 x.fecCorrected corrected, fecBad := satAdd 64 x.fecBad bad })
      let x := s.netPort port
      let p := parseFrame frame
      let a : Arrival := { time := s.now, port := s.roomPort port, frame := frame }
      let source := if p.ip = 0 then p.src else p.srcAddr
      if !fcsOk || bad ≠ 0 then s.netViolation port 0x01 0
      else if decide (frame.length < 60) || decide (9212 < frame.length) then s.netViolation port 0x02 p.src
      else if p.tags ≠ 2 && p.etherType = 0x8808 then s.netViolation port 0x04 p.src
      else if p.tags = 2 || (p.tags = 1 && p.vlan % 4096 ≠ x.vlan) then s.netViolation port 0x03 p.src
      else if !x.takesMac p.dst then s.modPort port (fun x => { x with macFiltered := satAdd 64 x.macFiltered 1 })
      else if p.lengthBad then s.netViolation port 0x07 source
      else
        match s.resolve port frame p with
        | some s => s
        | none =>
          let s := if p.ip = 4 && p.headerBad then s.netViolation port 0x05 source else s
          let s := if p.checksumBad then s.netViolation port 0x06 source else s
          let s := if p.extension then s.netViolation port 0x08 source else s
          match s.power.sleep with
          | .awake => s.passFrame port a
          | _ => s.steerAsleep port a p

/-- The lowest free rule number. -/
def freeRule (l : List (Nat × FlowRule)) : Option Nat := (List.range 4096).find? (fun n => (amGet l n).isNone)

/-- ADD_FLOW (0x0842) (R445, R451). -/
def execAddFlow (job : Nat) (s : State) : Answer :=
  .next <| s.begin job 0x0842 fun j s =>
    let q := fld j.slip 32 4
    let u := fld j.slip 36 2
    let l := fld j.slip 38 1
    if !s.receiveQueue q || (l ≠ 0xFF && decide (127 < l)) || decide (1 < fld j.slip 39 1) || fld j.slip 56 8 ≠ 0 then
      s.finish j.num (refusal stMalformed)
    else if u = 319 || u = 320 || s.accession.streams.any (fun e => e.2.desc.udpPort == u) || s.sessionPortList.contains u then
      s.finish j.num (refusal stNotPermitted)
    else
      match freeRule s.net.rules with
      | none => s.finish j.num (refusal stNoResource)
      | some n =>
        let r : FlowRule := {
          queue := q, udpPort := u, port := l, matchAddr := fld j.slip 39 1 = 1, source := unbe (le 16 (fld j.slip 40 16)) }
        ({ s with net := { s.net with rules := amSet s.net.rules n r } } : State).finish j.num (endWith [] 0 n)

end Sys2Proof.Machine
end

