-- ==== Sys2Proof/Machine/Wake.lean ====
section
/-! DEFINITION. Sleep and wake, and the locks of the PLLs (R512 to R518, R534, R535). -/
namespace Sys2Proof.Machine

/-! ## Sleep (R514, R515, R534) -/

/-- The PARAMS of SLEEP in range (R534). -/
def sleepFieldsOk (j : Slip) : Bool :=
  decide (fld j 32 1 ≤ 3) && fld j 33 1 = 0 && decide (fld j 34 2 ≤ 0x1FF) && fld j 38 2 = 0 && fld j 48 16 = 0

/-- A session is open on this member, or on another as it tells (R361, R514). -/
def State.sessionAnywhere (s : State) : Bool :=
  !s.sessions.open_.isEmpty || s.sessions.members.any (fun m => m.2.1 ≠ 0)

/-- What keeps the device from sleep; `locked` is whether a follower is LOCKED to this member (R514). -/
def State.keptAwake (s : State) (job : Nat) (locked : Bool) : Bool :=
  s.desk.circ.jobs.any (fun j => j.num ≠ job) || !s.accession.streams.isEmpty ||
    s.vision.graphs.any (fun g => g.2.state == .running) || s.concord.state = .running || s.concord.state = .stopping ||
    s.catalogue.reshelving.isSome || !s.collator.solves.isEmpty || s.ownPencilled ≠ 0 ||
    (!(s.heldBy s.position).isEmpty && s.sessionAnywhere) || (s.isClerk && !s.others.isEmpty && locked)

/-- Every carrel but the retired ones off, its stage in the Stack (R515 step 1). -/
def State.carrelsOff (s : State) : State :=
  s.fabric.carrels.foldl (fun s e => if e.2.state = .retired then s else (s.unplace e.2).setCarrel e.1 (e.2.cleared .off)) s

/-- Every Jalzel link that is up parked (R515 step 2). -/
def State.parkLinks (s : State) : State :=
  { s with net := { s.net with jalzel := s.net.jalzel.map (fun x => if x.state = .up then { x with parked := true } else x) } }

/-- A LOCKING or LOCKED Datestamp enters HOLDOVER (R515 step 5). -/
def State.holdTime (s : State) : State :=
  if s.stamp.state = .locking || s.stamp.state = .locked then s.setTimeState .holdover else s

/-- The wake settings of a SLEEP (R534). -/
def Power.settings (p : Power) (j : Slip) : Power :=
  { p with
    wakeEthernet := (fld j 32 1).testBit 0, wakeAlarm := (fld j 32 1).testBit 1, captureMask := fld j 34 2
    wakePort := fld j 36 2, wakeAt := fld j 40 8 }

/-- The fast clocks stopped, and the core rail sent to 0.55 V (R515 step 7). -/
def State.clocksOff (s : State) : State :=
  (s.modPower (fun p => { p with
    ringPll := false, libPll := false, sleep := .asleep, sleptAt := s.now, wakeMv := p.coreMv, avsPending := some 550
    quadrants := p.quadrants.map (fun x => { x with clockOn := false, pllLocked := false, starting := false, wanted := none }) })).emit
    [.avs 550]

/-- A queue's message for what it has not signalled (R111). -/
def State.signal (s : State) (q : Nat) : State :=
  let x := s.desk.circ.queue q
  if x.state = .active && !x.entryTimes.isEmpty && x.vector ≠ noVector then
    (s.modCirc (fun c => c.setQueue q { x with entryTimes := [] })).tell [.raise (2048 + x.vector)]
  else s

/-- SLEEP (0x0870): refused as R514 gives; otherwise the device goes to sleep, its return slip and message written before the
clocks stop
(R514, R515, R534). -/
def execSleep (job : Nat) (locked : Bool) (s : State) : Answer :=
  .next <| s.begin job 0x0870 fun j s =>
    if !sleepFieldsOk j.slip then s.finish j.num (refusal stMalformed)
    else if s.keptAwake j.num locked then s.finish j.num (refusal stNotPermitted)
    else
      let s := ((s.carrelsOff.parkLinks.holdTime).modPower (fun p => p.settings j.slip)).finish j.num (endWith [])
      ((s.complete j.num).signal (s.desk.circ.returnOf j.sq)).clocksOff

/-! ## Wake (R516, R517) -/

/-- Whether a wake source is enabled: 0 PCIe, 1 SMBus, 2 thermal or rail, 3 Jalzel, 4 Ethernet, 5 capture, 6 alarm (R516). -/
def State.wakeEnabled (s : State) (source port : Nat) : Bool :=
  match source with
  | 0 => true
  | 1 => true
  | 2 => true
  | 3 => true
  | 4 => s.power.wakeEthernet
  | 5 => s.power.captureMask.testBit port
  | 6 => s.power.wakeAlarm && decide (s.power.wakeAt ≤ s.now)
  | _ => false

/-- DETAIL of DEVICE_AWAKE: the input or the port of a source that has one (R535). -/
def wakePortOf (source port : Nat) : Nat := if source = 3 || source = 4 || source = 5 then port else 0

/-- WAKE_EVENT: an enabled source wakes the sleeping device (R516, R517). -/
def execWakeEvent (source port : Nat) (s : State) : Answer :=
  .next (if s.wakeEnabled source port then s.startWake source (wakePortOf source port) else s)

/-- A held PCIe access carried out (R516, R517 step 4). -/
def State.runHeld (s : State) (c : Instr) : State :=
  if !s.boot.window then s
  else match c with
  | .doorbellWrite offset data => s.doorbells offset data
  | .bellRaise word => s.raiseWord word.toNat
  | .bellStormedClear _ word value => s.clearStormed false word value.toNat
  | .msixUnmask vector => s.unmaskVector vector
  | .bellSourceRecordWrite source word value => s.writeSource source word value.toNat
  | .circFixedGo value => s.writeGo value.toNat
  | .circFixedReset value => s.writeFixedReset value.toNat
  | .bootGo value => s.writeBootGo value.toNat
  | .deviceReset value => s.writeKey value.toNat
  | .registerWrite offset width value whole => s.writeRegister offset width value.toNat whole
  | .registerLowHalfRead offset width => s.answerRead offset width
  | .stampSecondsRead => s.answerRead 0x20000 64
  | _ => s

/-- The capture events held in sleep, in stamp order, with their inputs. -/
def Stamp.heldEdges (x : Stamp) : List (Nat × HeldEdge) :=
  sortBy (fun a b => decide (a.2.stamp < b.2.stamp))
    ((List.range 9).flatMap (fun i => (x.captures.getD i {}).held.map (fun e => (i, e))))

/-- Capture events held in sleep written in stamp order (R517). -/
def State.writeHeldEdges (s : State) : State :=
  let l := s.stamp.heldEdges
  l.foldl (fun s e => s.captureEvent e.1 e.2) (s.modStamp (fun x => { x with captures := x.captures.map (fun c => { c with held := [] }) }))

/-- After a wake the Datestamp locks again (R517). -/
def State.lockAgain (s : State) : State := if s.stamp.state = .holdover then s.setTimeState .locking else s

/-- Steps 4 and 5 of a wake: the held accesses in arrival order, the held frames, DEVICE_AWAKE; then the capture events and a
rail fault that waits. A reset that a held write brings ends the wake (R516, R517, R535, R598). -/
def State.wakeUp (s : State) (source port : Nat) : State :=
  let held := s.heldAccess
  let s := held.foldl (fun s c => s.runHeld c) { s with heldAccess := [] }
  if s.power.sleep = .awake then s
  else
    let s := (s.modPower (fun p => { p with sleep := .awake })).passHeld
    let s := s.event 2 { code := 0x0870, subject := source, detail := port, value := sat 32 ((s.now - s.power.sleptAt) / 1000000) }
    let s := s.lockAgain.writeHeldEdges
    match s.power.railWaiting with
    | some rail => s.handleRail rail
    | none => s

/-! ## PLLs (R512, R513, R517, R518) -/

/-- The clock of a quadrant whose PLL has locked: at its point, or, where the rail stands too low for it, at the highest that the
rail allows, with its point to follow (R518). -/
def Quadrant.locked (x : Quadrant) (mv : Nat) : Quadrant :=
  let p := ((List.range 6).find? (fun p => decide (x.point ≤ p) && decide ((railWindow p).1 ≤ mv))).getD 5
  { x with clockOn := true, pllLocked := true, starting := false, point := p, wanted := if p = x.point then x.wanted else some x.point }

/-- Whether a PLL may lock: the reference is there, the device is released and not asleep, and step 1 of the start is over
(R512, R515, R528). -/
def State.pllMayLock (s : State) : Bool :=
  !s.stamp.refLost && s.released && s.power.sleep ≠ .asleep && (s.boot.gen = .minimal || decide (2 ≤ s.boot.step))

/-- A wake ends its second step once the ring and librarian PLLs have locked (R517). -/
def State.wakeIfLocked (s : State) : State :=
  match s.power.sleep with
  | .waking source port => if s.power.ringPll && s.power.libPll then s.wakeUp source port else s
  | _ => s

/-- PLL_LOCK: a PLL locks and its clock is no longer gated: quadrant PLL 0 to 3, ring PLL 4, librarian PLL 5 (R512, R517). -/
def execPllLock (pll : Nat) (s : State) : Answer :=
  .next <|
    if !s.pllMayLock then s
    else if pll < 4 then
      (if (s.quadrant pll).starting then s.modQuadrant pll (·.locked s.power.coreMv) else s)
    else if pll = 4 then (s.modPower (fun p => { p with ringPll := true })).wakeIfLocked
    else if pll = 5 then (s.modPower (fun p => { p with libPll := true })).wakeIfLocked
    else s

/-- PARKED_LINK_RETRAIN: a parked Jalzel link has been trained again after a wake, and what waited for it is sent (R517 step 7). -/
def execParkedLinkRetrain (port : Nat) (s : State) : Answer :=
  .next <|
    if s.power.sleep = .awake && (s.jalzel port).parked then (s.modJalzel port (fun x => { x with parked := false })).pumpPort port
    else s

end Sys2Proof.Machine
end

