-- ==== Sys2Proof/Machine/Package.lean ====
section
/-! DEFINITION. The SMBus port and the test port (R536, R607 to R609). -/
namespace Sys2Proof.Machine

/-! ## SMBus (R536, R607, R609) -/

/-- A command to the SMBus port: ignored where its PEC is wrong, reason 0x01, or its transaction is of the wrong type, reason
0x02; the port answers with NACK (R536, R609). -/
def State.smbus (s : State) (pecOk rightType : Bool) (k : State → State) : State :=
  if !rightType then (s.portViolation smbusPort 0x02).emit [.smbusNack]
  else if !pecOk then (s.portViolation smbusPort 0x01).emit [.smbusNack]
  else k s

/-- The state bits that SMBus command 0x01 returns (R536). -/
def State.smbusState (s : State) : Nat :=
  (if s.power.tripped then 4
  else if s.power.sleep ≠ .awake then 2
  else match s.boot.gen with
    | .minimal => 3
    | .ready => 1
    | _ => 0) + 8 * flag (s.reference.state ≠ .normal)

/-- SMB_READ_STATUS: command 0x01 (R536). -/
def execSmbReadStatus (pecOk rightType : Bool) (s : State) : Answer :=
  .next (s.smbus pecOk rightType fun s => s.emit [.smbus (le 1 s.smbusState)])

/-- SMB_WAKE: command 0x02 (R516, R536). -/
def execSmbWake (pecOk rightType : Bool) (s : State) : Answer :=
  .next (s.smbus pecOk rightType fun s => s.startWake 1 0)

/-- SMB_DEVICE_RESET: command 0x03, ignored unless its data byte is 0xA5 (R523, R536). -/
def execSmbDeviceReset (data : Byte) (pecOk rightType : Bool) (s : State) : Answer :=
  .next (s.smbus pecOk rightType fun s => if data = 0xA5 then s.deviceReset else s)

/-- SMB_RETRY_START: command 0x04, ignored unless its data byte is 0xA5 (R531, R536). -/
def execSmbRetryStart (data : Byte) (pecOk rightType : Bool) (s : State) : Answer :=
  .next (s.smbus pecOk rightType fun s => if data = 0xA5 then s.retryStart else s)

/-- SMB_READ_TEMPERATURE: command 0x10: the hottest sensor in units of 1/256 °C (R536). -/
def execSmbReadTemperature (pecOk rightType : Bool) (s : State) : Answer :=
  .next (s.smbus pecOk rightType fun s => s.emit [.smbus (le 2 (ofInt 16 s.hottest.2))])

/-- SMB_READ_POWER: command 0x11: the power of the last 1 ms in units of 1/16 W (R536). -/
def execSmbReadPower (pecOk rightType : Bool) (s : State) : Answer :=
  .next (s.smbus pecOk rightType fun s => s.emit [.smbus (le 2 (sat 16 s.power.power))])

/-- The colophon offset set. -/
def State.setColophon (s : State) (o : Nat) : State := { s with ports := { s.ports with colophonOffset := o } }

/-- SMB_COLOPHON_OFFSET: command 0x20; an offset is a multiple of 32 (R536). -/
def execSmbColophonOffset (offset : BitVec 16) (pecOk rightType : Bool) (s : State) : Answer :=
  .next (s.smbus pecOk rightType fun s => if offset.toNat % 32 = 0 then s.setColophon offset.toNat else s)

/-- SMB_COLOPHON_READ: command 0x21: 32 bytes of the colophon from the offset, which advances by 32 (R532, R536). -/
def execSmbColophonRead (pecOk rightType : Bool) (s : State) : Answer :=
  .next (s.smbus pecOk rightType fun s =>
    let o := s.ports.colophonOffset
    (s.emit [.smbus (takePad 32 (s.colophon.drop o))]).setColophon ((o + 32) % 65536))

/-- The 7-bit SMBus address (R536). -/
def State.smbusAddress (s : State) : Nat := 0x58 + s.position

/-- SMB_ALERT_RESPONSE: a read of the Alert Response Address while SMB_ALERT_N is asserted: the device answers with its address
and releases it (R607). -/
def execSmbAlertResponse (s : State) : Answer :=
  .next <|
    if s.power.alert then
      (s.modPower (fun p => { p with alert := false })).emit [.smbus (le 1 (2 * s.smbusAddress)), .pin .smbAlert true]
    else s

/-- SMBUS_SCL_TIMEOUT: SMB_SCL is held low beyond 25 ms: a violation of reason 0x03, and the port is reset (R609). -/
def execSmbusSclTimeout (s : State) : Answer := .next (s.portViolation smbusPort 0x03)

/-! ## The test port (R608, R609) -/

/-- TAP_INSTRUCTION_LOAD: an instruction loaded; one that drives balls takes effect only while POR_N is low, and otherwise loads
BYPASS (R608, R609). -/
def execTapInstructionLoad (inst : TapInst) (s : State) : Answer :=
  .next <|
    if tapDrives inst && !s.ports.porLow then
      (({ s with ports := { s.ports with tap := .bypass } } : State).portViolation testPort 0x07)
    else { s with ports := { s.ports with tap := inst } }

end Sys2Proof.Machine
end

