-- ==== Sys2Proof/Machine/Ptp.lean ====
section
/-! DEFINITION. HARD_SET, and the PTP messages that reach the device (R474 to R483, R492). -/
namespace Sys2Proof.Machine

/-! ## HARD_SET (R474, R475, R480) -/

/-- While a step of the counter is forbidden: a stream is open, or fusion runs or stops (R474). -/
def State.stepForbidden (s : State) : Bool :=
  !s.accession.streams.isEmpty || s.concord.state = .running || s.concord.state = .stopping

/-- HARD_SET (0x0853) (R70, R468, R474, R475, R480, R488). -/
def execHardSet (job : Nat) (s : State) : Answer :=
  .next <| s.begin job 0x0853 fun j s =>
    let sec := fld j.slip 32 8
    let ns := fld j.slip 40 4
    if fld j.slip 48 16 ≠ 0 then s.finish j.num (refusal stMalformed)
    else if s.hostTimeRefused || s.stepForbidden then s.finish j.num (refusal stNotPermitted)
    else if decide (999999999 < ns) || sec * 1000000000 + ns = 0 then s.finish j.num (refusal stMalformed)
    else s.queueTimeOp (.hardSet (some j.num) (BitVec.ofNat 64 sec) (BitVec.ofNat 32 ns) (BitVec.ofNat 32 (fld j.slip 44 4)))

/-! ## PTP messages (R481 to R483, R492) -/

/-- messageType, sequenceId and sourcePortIdentity of a message. -/
def ptpType (m : Bytes) : Nat := fldB m 0 1 % 16
def ptpSeq (m : Bytes) : Nat := fldBE m 30 2
def ptpSource (m : Bytes) : Nat := fldBE m 20 10

/-- The port identity of a local logical port. -/
def ownPortIdentity (port : Nat) : Nat := Config.clockIdentity * 65536 + port + 1

/-- The transport of the profile in force (R482). -/
def Timing.wire (t : Timing) : Nat := if t.profile = 2 then 0 else t.transport

/-- Messages of the delay mechanism that the profile does not use (R482). -/
def Timing.foreign (t : Timing) (kind : Nat) : Bool :=
  if t.profile = 0 then kind = 2 || kind = 3 || kind = 10 else kind = 1 || kind = 9

/-- Whether a response or Follow_Up matches no request or Sync (R492 reason 4). -/
def Stamp.unmatched (x : Stamp) (port : Nat) (m : Bytes) : Bool :=
  let k := ptpType m
  if k = 8 then amGet x.openSeq (port * 16) ≠ some (ptpSeq m + 65536 * ptpSource m)
  else if k = 9 then amGet x.openSeq (port * 16 + 1) ≠ some (ptpSeq m) || fldBE m 44 10 ≠ ownPortIdentity port
  else if k = 10 then amGet x.openSeq (port * 16 + 2) ≠ some (ptpSeq m) || fldBE m 44 10 ≠ ownPortIdentity port
  else false

/-- The reason for which a message is a violation, the first that applies (R492); `delay` is the path delay that firmware
computes from an exchange that the message completes. -/
def Stamp.ptpFault (x : Stamp) (port : Nat) (m : Bytes) (transport : Nat) (delay : Option Int) : Option Nat :=
  let k := ptpType m
  let serve : Bool := x.role port = 2
  if decide (m.length < 34) || fldB m 1 1 % 16 ≠ 2 || decide (m.length < fldBE m 2 2) then some 1
  else if fldB m 4 1 ≠ x.timing.domain then some 2
  else if transport ≠ x.timing.wire || x.timing.foreign k then some 3
  else if x.unmatched port m then some 4
  else if k = 11 && (decide (255 ≤ fldBE m 61 2) || ptpSource m / 65536 = Config.clockIdentity) then some 5
  else if (k = 0 || k = 11) && serve then some 6
  else if delay.any (fun d => decide (d < 0) || decide (1000000 < d)) then some 7
  else if k = 12 || k = 13 then some 9
  else none

/-- A PTP violation counted and, first of its reason on its port in a reporting window, reported (R491, R492, R613). -/
def State.ptpViolation (s : State) (port reason source : Nat) : State :=
  (s.modStamp (fun x => { x with violations := satAdd 32 x.violations 1 })).report
    { family := 0x0855, subject := port, reason := reason }
    (fun prev => [.event s.stamp.timing.eventQueue { code := 0x0855, subject := port, detail := reason, value := sat 32 prev },
      .errata { cls := 0, unit := 0x0017, inst := 0, code := reason, flags := 4, detail0 := source % 2 ^ 64 }])

/-- A time of day from the parent, in ns, as it stands now (R474, R477, R492 reason 8). -/
def State.hearTimeOfDay (s : State) (port source tod : Nat) : State :=
  let off : Int := (s.now : Int) - tod
  if !s.isClerk || (s.stamp.timing.source ≠ 2 && s.stamp.timing.source ≠ 3) then s
  else if s.stamp.state = .unset then
    if s.stepForbidden then (s.slewOffset (off * 2 ^ 16)).timeOfDaySet
    else s.queueTimeOp (.hardSet none (BitVec.ofNat 64 (tod / 1000000000)) (BitVec.ofNat 32 (tod % 1000000000)) 0)
  else if s.stamp.state = .locked && decide (1000000000 < off.natAbs) then
    (s.ptpViolation port 8 source).event s.stamp.timing.eventQueue
      { code := 0x0852, detail := s.stamp.timing.source, payload := ofInt 64 off }
  else s

/-- The time of day that a Sync or Follow_Up gives for the Sync's arrival at `at_`, carried on to now: originTimestamp,
correctionField and the path delay. -/
def State.todOf (s : State) (m : Bytes) (at_ : Nat) : Nat :=
  fldBE m 34 6 * 1000000000 + fldBE m 40 4 + fldBE m 8 8 / 65536 + s.stamp.pathDelay + (s.now - at_)

/-- A Sync interval in ns from its base-2 logarithm in seconds. -/
def syncNs (log : Int) : Nat := if 0 ≤ log then 1000000000 * 2 ^ log.toNat else 1000000000 / 2 ^ log.natAbs

/-- A message that is no violation, handled (R477, R481 to R483, R617). -/
def State.hearPtp (s : State) (port : Nat) (m : Bytes) (delay : Option Int) : State :=
  let x := s.stamp
  let k := ptpType m
  let src := ptpSource m
  let answer (kind : Nat) (follow : Option Nat) : PtpOut := {
    kind := kind, seq := ptpSeq m, stamp := some (s.now, x.fraction.toNat / 65536), follow := follow }
  let s := match delay with
    | some d => s.modStamp (fun x => { x with pathDelay := d.toNat })
    | none => s
  if k = 11 then
    let data := fldBE m 47 16 * 2 ^ 80 + src
    if x.role port ≠ 1 then s
    else if x.parentData.any (fun d => decide (d < data) && x.parent ≠ src / 65536) then s
    else s.modStamp (fun x => { x with parent := src / 65536, parentData := some data })
  else if k = 0 then
    if x.role port ≠ 1 || x.parent ≠ src / 65536 then s
    else
      let s := s.modStamp (fun x => { x with
        openSeq := amSet x.openSeq (port * 16) (ptpSeq m + 65536 * src), lastSync := s.now
        ptpUntil := s.now + 4 * syncNs (toInt 8 (fldB m 33 1)) })
      if (fldB m 6 1).testBit 1 then s else s.hearTimeOfDay port src (s.todOf m s.now)
  else if k = 8 then s.hearTimeOfDay port src (s.todOf m x.lastSync)
  else if k = 1 then (if x.role port = 2 then s.queuePtp port (answer 9 none) else s)
  else if k = 2 then s.queuePtp port (answer 3 (some 10))
  else s

/-- PTP_MESSAGE: a message reaches a local logical port in PTP use, over layer 2, IPv4 or IPv6 as `transport` says; an event
message is stamped (R481 to R483, R492, R494). `delay` is the path delay in ns of an exchange that it completes. -/
def execPtpMessage (port : Nat) (msg : Bytes) (transport : Nat) (delay : Option Int) (s : State) : Answer :=
  .next <|
    let x := s.stamp
    if decide (15 < port) || x.role port = 0 || (s.net.ports.getD port {}).state ≠ .up then s
    else
      let s := if ptpType msg ≤ 3 then s.tell [.raise 81] else s
      match x.ptpFault port msg transport delay with
      | some r => s.ptpViolation port r (ptpSource msg)
      | none => s.hearPtp port msg delay

end Sys2Proof.Machine
end

