-- ==== Sys2Proof/Machine/Dispatch.lean ====
section
/-! DEFINITION. The dispatch: one arm per command, each one call of its meaning. -/
namespace Sys2Proof.Machine

/-- The effect of a command on everything but the queue of waiting commands. -/
def exec (i : Instr) (s : State) : Host.Outcome State Fault Refusal :=
  match i with
  | .callSlipFetch read => Sys2Proof.Machine.execCallSlipFetch read s
  | .fenceRelease job => Sys2Proof.Machine.execFenceRelease job s
  | .doorbellWrite offset data => Sys2Proof.Machine.execDoorbellWrite offset data s
  | .createQueue job => Sys2Proof.Machine.execCreateQueue job s
  | .destroyQueue job => Sys2Proof.Machine.execDestroyQueue job s
  | .resetQueue job => Sys2Proof.Machine.execResetQueue job s
  | .queryQueue job => Sys2Proof.Machine.execQueryQueue job s
  | .setCoalescing job => Sys2Proof.Machine.execSetCoalescing job s
  | .queueDrainEnd q => Sys2Proof.Machine.execQueueDrainEnd q s
  | .jobComplete job => Sys2Proof.Machine.execJobComplete job s
  | .returnStallRelease q => Sys2Proof.Machine.execReturnStallRelease q s
  | .returnStalledTimer q => Sys2Proof.Machine.execReturnStalledTimer q s
  | .eventsLost q => Sys2Proof.Machine.execEventsLost q s
  | .coalesceTimeout q => Sys2Proof.Machine.execCoalesceTimeout q s
  | .wordWriteBack place => Sys2Proof.Machine.execWordWriteBack place s
  | .carrelWake carrel => Sys2Proof.Machine.execCarrelWake carrel s
  | .stageLoad carrel handle stage slot => Sys2Proof.Machine.execStageLoad carrel handle stage slot s
  | .stageLoadEnd carrel sourceBad => Sys2Proof.Machine.execStageLoadEnd carrel sourceBad s
  | .inputToken carrel source sent => Sys2Proof.Machine.execInputToken carrel source sent s
  | .handoverData carrel source sent => Sys2Proof.Machine.execHandoverData carrel source sent s
  | .stepEnd carrel cycles ops sends => Sys2Proof.Machine.execStepEnd carrel cycles ops sends s
  | .creditReturn target slot => Sys2Proof.Machine.execCreditReturn target slot s
  | .stageUnbind carrel => Sys2Proof.Machine.execStageUnbind carrel s
  | .carrelGate carrel => Sys2Proof.Machine.execCarrelGate carrel s
  | .carrelFault carrel code solve sessions => Sys2Proof.Machine.execCarrelFault carrel code solve sessions s
  | .carrelRelease carrel testPass => Sys2Proof.Machine.execCarrelRelease carrel testPass s
  | .carrelRetire carrel => Sys2Proof.Machine.execCarrelRetire carrel s
  | .stackReadRequest source addr units band => Sys2Proof.Machine.execStackReadRequest source addr units band s
  | .stackWriteRequest source addr data mask => Sys2Proof.Machine.execStackWriteRequest source addr data mask s
  | .stackRefresh vault => Sys2Proof.Machine.execStackRefresh vault s
  | .loadImage job buf => Sys2Proof.Machine.execLoadImage job buf s
  | .partialImageTimeout handle => Sys2Proof.Machine.execPartialImageTimeout handle s
  | .unloadImage job => Sys2Proof.Machine.execUnloadImage job s
  | .bindImage job => Sys2Proof.Machine.execBindImage job s
  | .unbindImage job => Sys2Proof.Machine.execUnbindImage job s
  | .queryImage job => Sys2Proof.Machine.execQueryImage job s
  | .runImage job inputs => Sys2Proof.Machine.execRunImage job inputs s
  | .runEnd job => Sys2Proof.Machine.execRunEnd job s
  | .runDeadline job => Sys2Proof.Machine.execRunDeadline job s
  | .openStream job buf => Sys2Proof.Machine.execOpenStream job buf s
  | .closeStream job => Sys2Proof.Machine.execCloseStream job s
  | .queryStream job => Sys2Proof.Machine.execQueryStream job s
  | .videoPacket port => Sys2Proof.Machine.execVideoPacket port s
  | .samplePacket port => Sys2Proof.Machine.execSamplePacket port s
  | .pointPacket port => Sys2Proof.Machine.execPointPacket port s
  | .frameMarkerGrace stream => Sys2Proof.Machine.execFrameMarkerGrace stream s
  | .framePeriodTimeout stream => Sys2Proof.Machine.execFramePeriodTimeout stream s
  | .pointSetTimeout stream => Sys2Proof.Machine.execPointSetTimeout stream s
  | .frameBufferRelease stream buffer => Sys2Proof.Machine.execFrameBufferRelease stream buffer s
  | .streamSilent stream => Sys2Proof.Machine.execStreamSilent stream s
  | .setChain job buf => Sys2Proof.Machine.execSetChain job buf s
  | .setChannel job => Sys2Proof.Machine.execSetChannel job s
  | .queryChannels job => Sys2Proof.Machine.execQueryChannels job s
  | .loadRemap job buf => Sys2Proof.Machine.execLoadRemap job buf s
  | .dropRemap job => Sys2Proof.Machine.execDropRemap job s
  | .defineGraph job => Sys2Proof.Machine.execDefineGraph job s
  | .startGraph job => Sys2Proof.Machine.execStartGraph job s
  | .stopGraph job => Sys2Proof.Machine.execStopGraph job s
  | .queryGraph job => Sys2Proof.Machine.execQueryGraph job s
  | .undefineGraph job => Sys2Proof.Machine.execUndefineGraph job s
  | .frameStageEnd stream number field features place batch marks poisoned => Sys2Proof.Machine.execFrameStageEnd stream number field features place batch marks poisoned s
  | .frameEnd stream number => Sys2Proof.Machine.execFrameEnd stream number s
  | .pairWaitTimeout stream number => Sys2Proof.Machine.execPairWaitTimeout stream number s
  | .setGrid job buf => Sys2Proof.Machine.execSetGrid job buf s
  | .startFusion job => Sys2Proof.Machine.execStartFusion job s
  | .stopFusion job => Sys2Proof.Machine.execStopFusion job s
  | .bindSensor job buf => Sys2Proof.Machine.execBindSensor job buf s
  | .unbindSensor job => Sys2Proof.Machine.execUnbindSensor job s
  | .quarantineSensor job => Sys2Proof.Machine.execQuarantineSensor job s
  | .releaseSensor job => Sys2Proof.Machine.execReleaseSensor job s
  | .queryFusion job => Sys2Proof.Machine.execQueryFusion job s
  | .querySensors job => Sys2Proof.Machine.execQuerySensors job s
  | .readTracks job => Sys2Proof.Machine.execReadTracks job s
  | .openSession job buf => Sys2Proof.Machine.execOpenSession job buf s
  | .closeSession job => Sys2Proof.Machine.execCloseSession job s
  | .querySession job => Sys2Proof.Machine.execQuerySession job s
  | .setSession job => Sys2Proof.Machine.execSetSession job s
  | .seedPose job buf => Sys2Proof.Machine.execSeedPose job buf s
  | .submitQuery job buf => Sys2Proof.Machine.execSubmitQuery job buf s
  | .queryPart port => Sys2Proof.Machine.execQueryPart port s
  | .queryAssemblyTimeout index => Sys2Proof.Machine.execQueryAssemblyTimeout index s
  | .queryServe index keypoints place => Sys2Proof.Machine.execQueryServe index keypoints place s
  | .remoteMatchRequest source session seq edition cut sheets camera pose keypoints => Sys2Proof.Machine.execRemoteMatchRequest source session seq edition cut sheets camera pose keypoints s
  | .remoteMatchAnswer index member seq matches_ missing => Sys2Proof.Machine.execRemoteMatchAnswer index member seq matches_ missing s
  | .smallSolveEnd index => Sys2Proof.Machine.execSmallSolveEnd index s
  | .bestEffortTimeout index => Sys2Proof.Machine.execBestEffortTimeout index s
  | .sessionExpired index => Sys2Proof.Machine.execSessionExpired index s
  | .pencilEdit job buf => Sys2Proof.Machine.execPencilEdit job buf s
  | .inkEdit job => Sys2Proof.Machine.execInkEdit job s
  | .withdrawEdit job => Sys2Proof.Machine.execWithdrawEdit job s
  | .queryEdit job => Sys2Proof.Machine.execQueryEdit job s
  | .holdEdition job => Sys2Proof.Machine.execHoldEdition job s
  | .releaseEdition job => Sys2Proof.Machine.execReleaseEdition job s
  | .readSheet job => Sys2Proof.Machine.execReadSheet job s
  | .queryMap job => Sys2Proof.Machine.execQueryMap job s
  | .pencilNotice edit verdict depends base restores batch carried sheets anchors holders => Sys2Proof.Machine.execPencilNotice edit verdict depends base restores batch carried sheets anchors holders s
  | .withdrawalNotice edit reason => Sys2Proof.Machine.execWithdrawalNotice edit reason s
  | .inkNumberRequest request => Sys2Proof.Machine.execInkNumberRequest request s
  | .inkingSet number edits carried => Sys2Proof.Machine.execInkingSet number edits carried s
  | .inkingAck member missing noPage => Sys2Proof.Machine.execInkingAck member missing noPage s
  | .publish number edits => Sys2Proof.Machine.execPublish number edits s
  | .shelvingEnd edition member => Sys2Proof.Machine.execShelvingEnd edition member s
  | .editRecordExpiry edit => Sys2Proof.Machine.execEditRecordExpiry edit s
  | .setPolicy job buf => Sys2Proof.Machine.execSetPolicy job buf s
  | .pinSheet job => Sys2Proof.Machine.execPinSheet job s
  | .unpinSheet job => Sys2Proof.Machine.execUnpinSheet job s
  | .queryCurator job => Sys2Proof.Machine.execQueryCurator job s
  | .sheetMoveEnd sheet => Sys2Proof.Machine.execSheetMoveEnd sheet s
  | .curatorMoveStart kind object dest => Sys2Proof.Machine.execCuratorMoveStart kind object dest s
  | .boundPinnedRepeat code => Sys2Proof.Machine.execBoundPinnedRepeat code s
  | .solve job buf => Sys2Proof.Machine.execSolve job buf s
  | .solveMap job buf => Sys2Proof.Machine.execSolveMap job buf s
  | .setSolver job buf => Sys2Proof.Machine.execSetSolver job buf s
  | .setCodebook job buf => Sys2Proof.Machine.execSetCodebook job buf s
  | .queryCollator job => Sys2Proof.Machine.execQueryCollator job s
  | .solveIterationEnd solve => Sys2Proof.Machine.execSolveIterationEnd solve s
  | .solveEnd solve => Sys2Proof.Machine.execSolveEnd solve s
  | .solveDeadline solve phase => Sys2Proof.Machine.execSolveDeadline solve phase s
  | .loopSolveRelease edit => Sys2Proof.Machine.execLoopSolveRelease edit s
  | .search job buf => Sys2Proof.Machine.execSearch job buf s
  | .insert job buf => Sys2Proof.Machine.execInsert job buf s
  | .delete job buf => Sys2Proof.Machine.execDelete job buf s
  | .reshelve job => Sys2Proof.Machine.execReshelve job s
  | .setCollection job buf => Sys2Proof.Machine.execSetCollection job buf s
  | .queryCatalogue job => Sys2Proof.Machine.execQueryCatalogue job s
  | .setShelfPolicy job => Sys2Proof.Machine.execSetShelfPolicy job s
  | .searchRequest issuer number remote => Sys2Proof.Machine.execSearchRequest issuer number remote s
  | .searchMemberResult number member remote => Sys2Proof.Machine.execSearchMemberResult number member remote s
  | .searchDeadline number own => Sys2Proof.Machine.execSearchDeadline number own s
  | .nandReadEnd engine block page retries failed trailer => Sys2Proof.Machine.execNandReadEnd engine block page retries failed trailer s
  | .nandProgramEnd engine block ok => Sys2Proof.Machine.execNandProgramEnd engine block ok s
  | .nandEraseEnd engine block ok => Sys2Proof.Machine.execNandEraseEnd engine block ok s
  | .nandBusyTimeout engine ce lun => Sys2Proof.Machine.execNandBusyTimeout engine ce lun s
  | .ethFrameReceive port frame fcsOk corrected bad => Sys2Proof.Machine.execEthFrameReceive port frame fcsOk corrected bad s
  | .txEntryFetch queue entry frame => Sys2Proof.Machine.execTxEntryFetch queue entry frame s
  | .setPort job => Sys2Proof.Machine.execSetPort job s
  | .setAddress job buf => Sys2Proof.Machine.execSetAddress job buf s
  | .addFlow job => Sys2Proof.Machine.execAddFlow job s
  | .removeFlow job => Sys2Proof.Machine.execRemoveFlow job s
  | .queryPort job => Sys2Proof.Machine.execQueryPort job s
  | .queryJalzel job => Sys2Proof.Machine.execQueryJalzel job s
  | .portTrainingEnd port ok => Sys2Proof.Machine.execPortTrainingEnd port ok s
  | .portTrainRetry port => Sys2Proof.Machine.execPortTrainRetry port s
  | .portSignalLoss port => Sys2Proof.Machine.execPortSignalLoss port s
  | .jalzelSignal port => Sys2Proof.Machine.execJalzelSignal port s
  | .jalzelTrainingEnd port ok => Sys2Proof.Machine.execJalzelTrainingEnd port ok s
  | .jalzelTrainRetry port => Sys2Proof.Machine.execJalzelTrainRetry port s
  | .jalzelLoss port => Sys2Proof.Machine.execJalzelLoss port s
  | .jalzelFrame port frame => Sys2Proof.Machine.execJalzelFrame port frame s
  | .replayRequest port ackSeq => Sys2Proof.Machine.execReplayRequest port ackSeq s
  | .replayRequestTimeout port => Sys2Proof.Machine.execReplayRequestTimeout port s
  | .readReq port => Sys2Proof.Machine.execReadReq port s
  | .readData port => Sys2Proof.Machine.execReadData port s
  | .write port masked => Sys2Proof.Machine.execWrite port masked s
  | .writeAck port => Sys2Proof.Machine.execWriteAck port s
  | .token port => Sys2Proof.Machine.execToken port s
  | .queuePost port => Sys2Proof.Machine.execQueuePost port s
  | .bell port => Sys2Proof.Machine.execBell port s
  | .bulk port => Sys2Proof.Machine.execBulk port s
  | .control port => Sys2Proof.Machine.execControl port s
  | .jalzelIdentity port ordering stepping measurement position members highest => Sys2Proof.Machine.execJalzelIdentity port ordering stepping measurement position members highest s
  | .setTiming job buf => Sys2Proof.Machine.execSetTiming job buf s
  | .adjustTime job => Sys2Proof.Machine.execAdjustTime job s
  | .setIncrement job => Sys2Proof.Machine.execSetIncrement job s
  | .hardSet job => Sys2Proof.Machine.execHardSet job s
  | .queryTime job => Sys2Proof.Machine.execQueryTime job s
  | .setPulse job => Sys2Proof.Machine.execSetPulse job s
  | .setCapture job => Sys2Proof.Machine.execSetCapture job s
  | .ptpMessage port msg transport delay => Sys2Proof.Machine.execPtpMessage port msg transport delay s
  | .ptpSend port kind seq => Sys2Proof.Machine.execPtpSend port kind seq s
  | .servoInterval offset inc adjust => Sys2Proof.Machine.execServoInterval offset inc adjust s
  | .timekeeperExchange offset delay keeperLocked => Sys2Proof.Machine.execTimekeeperExchange offset delay keeperLocked s
  | .ppsEdge stamp secondsOff => Sys2Proof.Machine.execPpsEdge stamp secondsOff s
  | .captureEdge input rising stamp fine => Sys2Proof.Machine.execCaptureEdge input rising stamp fine s
  | .pulseEdge output => Sys2Proof.Machine.execPulseEdge output s
  | .raiseMessage source => Sys2Proof.Machine.execRaiseMessage source s
  | .bellRaise word => Sys2Proof.Machine.execBellRaise word s
  | .stormWindowEnd source => Sys2Proof.Machine.execStormWindowEnd source s
  | .stormHoldExpiry source => Sys2Proof.Machine.execStormHoldExpiry source s
  | .bellStormedClear firmware word value => Sys2Proof.Machine.execBellStormedClear firmware word value s
  | .stormLimitAdapt core number => Sys2Proof.Machine.execStormLimitAdapt core number s
  | .msixUnmask vector => Sys2Proof.Machine.execMsixUnmask vector s
  | .claim core => Sys2Proof.Machine.execClaim core s
  | .thresholdWrite core value => Sys2Proof.Machine.execThresholdWrite core value s
  | .thresholdExit core value => Sys2Proof.Machine.execThresholdExit core value s
  | .complete core source => Sys2Proof.Machine.execComplete core source s
  | .bellSourceRecordWrite source word value => Sys2Proof.Machine.execBellSourceRecordWrite source word value s
  | .inServiceTimeout core source => Sys2Proof.Machine.execInServiceTimeout core source s
  | .coreWake core => Sys2Proof.Machine.execCoreWake core s
  | .watchdogExpiry core => Sys2Proof.Machine.execWatchdogExpiry core s
  | .sleep job locked => Sys2Proof.Machine.execSleep job locked s
  | .wakeEvent source port => Sys2Proof.Machine.execWakeEvent source port s
  | .parkedLinkRetrain port => Sys2Proof.Machine.execParkedLinkRetrain port s
  | .quadrantClockStop q => Sys2Proof.Machine.execQuadrantClockStop q s
  | .quadrantClockStart q => Sys2Proof.Machine.execQuadrantClockStart q s
  | .pllLock pll => Sys2Proof.Machine.execPllLock pll s
  | .powerLoopInterval power mv waiting => Sys2Proof.Machine.execPowerLoopInterval power mv waiting s
  | .operatingPointChange q mv => Sys2Proof.Machine.execOperatingPointChange q mv s
  | .thermalSensorRead temps => Sys2Proof.Machine.execThermalSensorRead temps s
  | .powerOnReset straps => Sys2Proof.Machine.execPowerOnReset straps s
  | .startStepEnd d => Sys2Proof.Machine.execStartStepEnd d s
  | .startFailure reason detail => Sys2Proof.Machine.execStartFailure reason detail s
  | .readColophon job => Sys2Proof.Machine.execReadColophon job s
  | .retryStart job => Sys2Proof.Machine.execRetryStart job s
  | .writeBootFlash job buf => Sys2Proof.Machine.execWriteBootFlash job buf s
  | .queryPower job => Sys2Proof.Machine.execQueryPower job s
  | .deviceInfo job => Sys2Proof.Machine.execDeviceInfo job s
  | .smbReadStatus pecOk rightType => Sys2Proof.Machine.execSmbReadStatus pecOk rightType s
  | .smbWake pecOk rightType => Sys2Proof.Machine.execSmbWake pecOk rightType s
  | .smbDeviceReset data pecOk rightType => Sys2Proof.Machine.execSmbDeviceReset data pecOk rightType s
  | .smbRetryStart data pecOk rightType => Sys2Proof.Machine.execSmbRetryStart data pecOk rightType s
  | .smbReadTemperature pecOk rightType => Sys2Proof.Machine.execSmbReadTemperature pecOk rightType s
  | .smbReadPower pecOk rightType => Sys2Proof.Machine.execSmbReadPower pecOk rightType s
  | .smbColophonOffset offset pecOk rightType => Sys2Proof.Machine.execSmbColophonOffset offset pecOk rightType s
  | .smbColophonRead pecOk rightType => Sys2Proof.Machine.execSmbColophonRead pecOk rightType s
  | .errataRecord cls unit inst code flags scope location detail0 detail1 => Sys2Proof.Machine.execErrataRecord cls unit inst code flags scope location detail0 detail1 s
  | .poisonHandling place word seq => Sys2Proof.Machine.execPoisonHandling place word seq s
  | .handlingClose seq => Sys2Proof.Machine.execHandlingClose seq s
  | .unitFatalError unit inst code location detail0 recorded scope => Sys2Proof.Machine.execUnitFatalError unit inst code location detail0 recorded scope s
  | .unitRecovered unit inst ok micros sheets => Sys2Proof.Machine.execUnitRecovered unit inst ok micros sheets s
  | .unitResetRetry unit inst ok micros => Sys2Proof.Machine.execUnitResetRetry unit inst ok micros s
  | .deviceFatalError unit inst code location detail0 recorded => Sys2Proof.Machine.execDeviceFatalError unit inst code location detail0 recorded s
  | .readErrata job => Sys2Proof.Machine.execReadErrata job s
  | .enterReference job => Sys2Proof.Machine.execEnterReference job s
  | .exitReference job => Sys2Proof.Machine.execExitReference job s
  | .queryErrors job => Sys2Proof.Machine.execQueryErrors job s
  | .setErrata job => Sys2Proof.Machine.execSetErrata job s
  | .ownerRecord job buf => Sys2Proof.Machine.execOwnerRecord job buf s
  | .attest job writeOk => Sys2Proof.Machine.execAttest job writeOk s
  | .bootGo value => Sys2Proof.Machine.execBootGo value s
  | .deviceReset value => Sys2Proof.Machine.execDeviceReset value s
  | .circFixedGo value => Sys2Proof.Machine.execCircFixedGo value s
  | .circFixedReset value => Sys2Proof.Machine.execCircFixedReset value s
  | .registerWrite offset width value whole => Sys2Proof.Machine.execRegisterWrite offset width value whole s
  | .registerLowHalfRead offset width => Sys2Proof.Machine.execRegisterLowHalfRead offset width s
  | .railFault rail => Sys2Proof.Machine.execRailFault rail s
  | .tapInstructionLoad inst => Sys2Proof.Machine.execTapInstructionLoad inst s
  | .avsStepTimeout noResponse => Sys2Proof.Machine.execAvsStepTimeout noResponse s
  | .unstartedDeadline job => Sys2Proof.Machine.execUnstartedDeadline job s
  | .unitAvailable => Sys2Proof.Machine.execUnitAvailable s
  | .epochCloseTimed => Sys2Proof.Machine.execEpochCloseTimed s
  | .epochCloseLimit => Sys2Proof.Machine.execEpochCloseLimit s
  | .epochComputeEnd => Sys2Proof.Machine.execEpochComputeEnd s
  | .amendmentEnd => Sys2Proof.Machine.execAmendmentEnd s
  | .autoInkTimeout => Sys2Proof.Machine.execAutoInkTimeout s
  | .largeSolveAdmit => Sys2Proof.Machine.execLargeSolveAdmit s
  | .deleteFold => Sys2Proof.Machine.execDeleteFold s
  | .addendaLogFlush => Sys2Proof.Machine.execAddendaLogFlush s
  | .generationSwitched => Sys2Proof.Machine.execGenerationSwitched s
  | .roomFormTimeout => Sys2Proof.Machine.execRoomFormTimeout s
  | .timeSourceLost => Sys2Proof.Machine.execTimeSourceLost s
  | .slewPinnedTimeout => Sys2Proof.Machine.execSlewPinnedTimeout s
  | .referenceLost => Sys2Proof.Machine.execReferenceLost s
  | .referenceReturn => Sys2Proof.Machine.execReferenceReturn s
  | .msixDelivery => Sys2Proof.Machine.execMsixDelivery s
  | .avsStepComplete => Sys2Proof.Machine.execAvsStepComplete s
  | .fastLimiterTrip => Sys2Proof.Machine.execFastLimiterTrip s
  | .fastLimiterRelease => Sys2Proof.Machine.execFastLimiterRelease s
  | .thermalTrip => Sys2Proof.Machine.execThermalTrip s
  | .deviceLevelReset => Sys2Proof.Machine.execDeviceLevelReset s
  | .functionLevelReset => Sys2Proof.Machine.execFunctionLevelReset s
  | .perst => Sys2Proof.Machine.execPerst s
  | .startComplete => Sys2Proof.Machine.execStartComplete s
  | .startTimeout => Sys2Proof.Machine.execStartTimeout s
  | .bootGoTimeout => Sys2Proof.Machine.execBootGoTimeout s
  | .coldStartWaitEnd => Sys2Proof.Machine.execColdStartWaitEnd s
  | .colophonPosted => Sys2Proof.Machine.execColophonPosted s
  | .smbAlertResponse => Sys2Proof.Machine.execSmbAlertResponse s
  | .smbusSclTimeout => Sys2Proof.Machine.execSmbusSclTimeout s
  | .errataRingMove => Sys2Proof.Machine.execErrataRingMove s
  | .referenceEntry => Sys2Proof.Machine.execReferenceEntry s
  | .referenceExit => Sys2Proof.Machine.execReferenceExit s
  | .stampSecondsRead => Sys2Proof.Machine.execStampSecondsRead s
  | .aonRailLow => Sys2Proof.Machine.execAonRailLow s
  | .datestampTick => Sys2Proof.Machine.execDatestampTick s
  | .functionBackInD0 => Sys2Proof.Machine.execFunctionBackInD0 s

end Sys2Proof.Machine
end

