-- ==== Sys2Proof/Safety.lean ====
section
/-! DEFINITION. What counts as a safe run. -/
namespace Sys2Proof

/-- A step that answers a state. -/
def Machine.Completes (o : Host.Outcome Machine.State Machine.Fault Machine.Refusal) : Prop :=
  match o with
  | .next _ => True
  | .fault _ => False
  | .refused _ => False

/-- `n` steps from a state all answer a state. -/
def Machine.Safe (n : Nat) (s : Machine.State) : Prop := Machine.Completes (core.run n s)

/-- The commands that are accesses of the host over PCIe (R578). -/
def Instr.isPcieAccess : Instr → Bool
  | .doorbellWrite _ _ => true
  | .bellRaise _ => true
  | .bellStormedClear _ _ _ => true
  | .msixUnmask _ => true
  | .bellSourceRecordWrite _ _ _ => true
  | .circFixedGo _ => true
  | .circFixedReset _ => true
  | .bootGo _ => true
  | .deviceReset _ => true
  | .registerWrite _ _ _ _ => true
  | .registerLowHalfRead _ _ => true
  | .stampSecondsRead => true
  | _ => false

/-- An access of the host to the setup window itself. -/
def Instr.atWindow : Instr → Bool
  | .circFixedGo _ => true
  | .circFixedReset _ => true
  | .bootGo _ => true
  | .deviceReset _ => true
  | .registerWrite _ _ _ _ => true
  | .registerLowHalfRead _ _ => true
  | .stampSecondsRead => true
  | _ => false

/-- A command that reads or writes words of the Stack by their addresses. -/
def Instr.atStack : Instr → Bool
  | .stackWriteRequest _ _ _ _ => true
  | .stackReadRequest _ _ _ _ => true
  | .wordWriteBack _ => true
  | .write _ _ => true
  | _ => false

/-- The commands by which a unit takes up the job of a call slip: the job's number and the opcode that its slip must bear. -/
def Instr.ofJob : Instr → Option (Nat × Nat)
  | .loadImage job _ => some (job, 0x0101)
  | .unloadImage job => some (job, 0x0102)
  | .bindImage job => some (job, 0x0103)
  | .unbindImage job => some (job, 0x0104)
  | .queryImage job => some (job, 0x0105)
  | .runImage job _ => some (job, 0x0110)
  | .openSession job _ => some (job, 0x0201)
  | .closeSession job => some (job, 0x0202)
  | .querySession job => some (job, 0x0203)
  | .setSession job => some (job, 0x0204)
  | .seedPose job _ => some (job, 0x0205)
  | .submitQuery job _ => some (job, 0x0210)
  | .pencilEdit job _ => some (job, 0x0301)
  | .inkEdit job => some (job, 0x0302)
  | .withdrawEdit job => some (job, 0x0303)
  | .queryEdit job => some (job, 0x0304)
  | .holdEdition job => some (job, 0x0305)
  | .releaseEdition job => some (job, 0x0306)
  | .readSheet job => some (job, 0x0307)
  | .queryMap job => some (job, 0x0308)
  | .solve job _ => some (job, 0x0401)
  | .solveMap job _ => some (job, 0x0402)
  | .setSolver job _ => some (job, 0x0403)
  | .setCodebook job _ => some (job, 0x0404)
  | .queryCollator job => some (job, 0x0405)
  | .search job _ => some (job, 0x0501)
  | .insert job _ => some (job, 0x0502)
  | .delete job _ => some (job, 0x0503)
  | .reshelve job => some (job, 0x0504)
  | .setCollection job _ => some (job, 0x0505)
  | .queryCatalogue job => some (job, 0x0506)
  | .setShelfPolicy job => some (job, 0x0507)
  | .setGrid job _ => some (job, 0x0601)
  | .startFusion job => some (job, 0x0602)
  | .stopFusion job => some (job, 0x0603)
  | .bindSensor job _ => some (job, 0x0604)
  | .unbindSensor job => some (job, 0x0605)
  | .quarantineSensor job => some (job, 0x0606)
  | .releaseSensor job => some (job, 0x0607)
  | .queryFusion job => some (job, 0x0608)
  | .querySensors job => some (job, 0x0609)
  | .readTracks job => some (job, 0x0610)
  | .defineGraph job => some (job, 0x0701)
  | .startGraph job => some (job, 0x0702)
  | .stopGraph job => some (job, 0x0703)
  | .queryGraph job => some (job, 0x0704)
  | .loadRemap job _ => some (job, 0x0705)
  | .dropRemap job => some (job, 0x0706)
  | .undefineGraph job => some (job, 0x0707)
  | .createQueue job => some (job, 0x0801)
  | .destroyQueue job => some (job, 0x0802)
  | .resetQueue job => some (job, 0x0803)
  | .queryQueue job => some (job, 0x0804)
  | .setCoalescing job => some (job, 0x0805)
  | .openStream job _ => some (job, 0x0820)
  | .closeStream job => some (job, 0x0821)
  | .queryStream job => some (job, 0x0822)
  | .setChain job _ => some (job, 0x0824)
  | .setChannel job => some (job, 0x0825)
  | .queryChannels job => some (job, 0x0826)
  | .setPolicy job _ => some (job, 0x0830)
  | .pinSheet job => some (job, 0x0831)
  | .unpinSheet job => some (job, 0x0832)
  | .queryCurator job => some (job, 0x0833)
  | .setPort job => some (job, 0x0840)
  | .setAddress job _ => some (job, 0x0841)
  | .addFlow job => some (job, 0x0842)
  | .removeFlow job => some (job, 0x0843)
  | .queryPort job => some (job, 0x0844)
  | .queryJalzel job => some (job, 0x0845)
  | .setTiming job _ => some (job, 0x0850)
  | .adjustTime job => some (job, 0x0851)
  | .setIncrement job => some (job, 0x0852)
  | .hardSet job => some (job, 0x0853)
  | .queryTime job => some (job, 0x0854)
  | .setPulse job => some (job, 0x0855)
  | .setCapture job => some (job, 0x0856)
  | .sleep job _ => some (job, 0x0870)
  | .queryPower job => some (job, 0x0871)
  | .deviceInfo job => some (job, 0x0872)
  | .readColophon job => some (job, 0x0878)
  | .retryStart job => some (job, 0x0879)
  | .writeBootFlash job _ => some (job, 0x087A)
  | .readErrata job => some (job, 0x0880)
  | .enterReference job => some (job, 0x0881)
  | .exitReference job => some (job, 0x0882)
  | .queryErrors job => some (job, 0x0883)
  | .setErrata job => some (job, 0x0884)
  | .attest job _ => some (job, 0x0890)
  | .ownerRecord job _ => some (job, 0x0891)
  | _ => none

/-- Accesses are held only while the device is not awake, and only PCIe accesses are held (R516). -/
def Machine.State.HeldInOrder (s : Machine.State) : Prop :=
  (s.power.sleep = .awake → s.heldAccess = []) ∧ s.heldAccess.all Instr.isPcieAccess = true

namespace Machine

/-! ## Jobs as statements speak of them (R95, R105 to R107) -/

/-- Job `j`, number `n`, is in flight with opcode `op` and may start now: no fence holds it, every earlier call slip of its queue
has started or ended, its deadline has not passed, and the unit of its opcode serves (R23). -/
abbrev State.Startable (s : State) (n op : Nat) (j : Job) : Prop :=
  s.job n = some j ∧ opcodeOf j.slip = op ∧ s.desk.circ.canStart j = true ∧ s.passed (deadlineOf j.slip) = false ∧
  s.serves j.slip = true

/-- The state with another context for queue `q`, and nothing else changed. -/
def State.withQueue (s : State) (q : Nat) (x : Queue) : State :=
  { s with desk := { s.desk with circ := s.desk.circ.setQueue q x } }

/-- Bell source `n`. -/
abbrev State.source (s : State) (n : Nat) : BellSource := s.desk.bell.source n

/-- The state with another Bell source `n`, and nothing else changed. -/
def State.withSource (s : State) (n : Nat) (x : BellSource) : State :=
  { s with desk := { s.desk with bell := s.desk.bell.setSource n x } }

/-- The state with another Bell and more output, and nothing else changed. -/
def State.withBell (s : State) (b : Bell) (o : List Output) : State := { s with desk := { s.desk with bell := b, out := s.desk.out ++ o } }

/-- The context of queue `q`. -/
abbrev State.queue (s : State) (q : Nat) : Queue := s.desk.circ.queue q

/-- The state with the jobs of number `n` changed by `f`, and nothing else changed. -/
def State.withJob (s : State) (n : Nat) (f : Job → Job) : State :=
  { s with desk := { s.desk with circ := { s.desk.circ with
      jobs := s.desk.circ.jobs.map (fun i => if i.num = n then f i else i) } } }

/-- The state with job `n` taken by its unit, and nothing else changed. -/
def State.took (s : State) (n : Nat) : State := s.withJob n (fun i => { i with started := true })

/-- The state with job `n` taken by its unit and ended as `e`, and nothing else changed; an ending that stands is kept. -/
def State.ended (s : State) (n : Nat) (e : Ending) : State :=
  s.withJob n (fun i => { i with started := true, ending := some (i.ending.getD e) })

/-- A command completes: it answers a next state, and `p` holds of that state. -/
def Leads (c : Instr) (s : State) (p : State → Prop) : Prop := ∃ t, exec c s = .next t ∧ p t

/-- Job `n`, which stood in flight as `j`, has been taken and has ended as `e`. -/
abbrev State.Answers (t : State) (n : Nat) (j : Job) (e : Ending) : Prop :=
  t.job n = some { j with started := true, ending := some e }

/-- The taps that a SET_CHAIN brings (R220). -/
def tapsOf (j : Slip) (b : Bytes) : List F32 := (List.range (fld j 36 2)).map (fun i => BitVec.ofNat 32 (fldB b (4 * i) 4))

/-- The first frame that waits for the stations at local logical port `l` is `a`, a packet of stream `n`, which is of kind `kind`;
its station works, the device is in normal service, and the packet is no fragment (R180, R200, R201). -/
abbrev State.PacketFor (s : State) (l kind n : Nat) (x : Stream) (a : Arrival) : Prop :=
  (s.netPort l).stations.head? = some a ∧
  s.takerOf a.port (parseFrame a.frame) ((parseFrame a.frame).data a.frame) = some n ∧ s.stream n = some x ∧ x.desc.kind = kind ∧
  s.unitWorks 0x0010 (stationOf n) = true ∧ s.reference.state = .normal ∧ (parseFrame a.frame).fragment = false

/-- A frame that arrives on local logical port `l` in order: the port is up, the length is in range, the frame is no PAUSE frame, its
tag is the port's, its destination is one that the port takes, the checks of R443 and R454 pass, and the port answers none of it
itself. -/
abbrev State.GoodFrame (s : State) (l : Nat) (f : Bytes) : Prop :=
  l < 16 ∧ s.net.ports.length = 16 ∧ (s.netPort l).state = .up ∧ 60 ≤ f.length ∧ f.length ≤ 9212 ∧ (parseFrame f).etherType ≠ 0x8808 ∧
  ((parseFrame f).tags = 0 ∨ (parseFrame f).tags = 1 ∧ (parseFrame f).vlan % 4096 = (s.netPort l).vlan) ∧
  (s.netPort l).takesMac (parseFrame f).dst = true ∧ (parseFrame f).lengthBad = false ∧ (parseFrame f).headerBad = false ∧
  (parseFrame f).checksumBad = false ∧ (parseFrame f).extension = false ∧ (s.resolve l f (parseFrame f)).isNone = true

/-- The frame as it waits for its destination. -/
abbrev State.arrival (s : State) (l : Nat) (f : Bytes) : Arrival := { time := s.now, port := s.roomPort l, frame := f }

/-- What comes next to carrel `c` from a source (R136, R137): the oldest message to it on the mesh, which leaves the mesh, or what a
ring unit sends it (log 160). -/
abbrev State.Arrives (s : State) (c source : Nat) (sent : Option OutsideMsg) (port : Nat) (body : MeshBody) (s0 : State) : Prop :=
  match sent with
  | none => ∃ m, s.nextMsg source c = some m ∧ m.body = body ∧ m.port = port ∧
      s0 = { s with fabric := { s.fabric with mesh := s.fabric.mesh.erase m } }
  | some o => s.nextMsg source c = none ∧ 256 ≤ source ∧ o.body = body ∧ o.port = port ∧ s0 = s

/-- Every token that carrel `c` holds belongs to a run that goes on, or to none (R173). -/
abbrev State.tokensLive (s : State) (c : Nat) : Prop := ∀ p ∈ (s.carrel c).ins, ∀ t ∈ p.held, s.deadToken t = false

/-- The filter that the solve of a query of ranges brings about; none where it leaves fewer than four inliers, gives no pose, or fails
the gate (R307, R309, R392). -/
def State.rangeUpdate (s : State) (x : Session) (v : Service) (f : Filter) : Option Filter :=
  let r := (v.settings s.map).rangeSolve f v.query.ranges
  (if r.inliers < 4 then none else r.pose).bind (fun z => f.update z.1 (fullOf 6 z.2) (f32ToF64 x.desc.gate))

/-- Frame `number` of a graph is the one in its stage: the first of the frames in flight that have reached it (R249). -/
abbrev Graph.inStage (g : Graph) (stage number : Nat) : Prop :=
  (g.inFlight.find? (fun q => q.stage == stage)).map (·.number) = some number

/-- The motion that a frame adds to its graph's sum (R251). -/
def FrameRun.meanMotion (r : FrameRun) : Nat :=
  r.field.elim 0 (fun v => if v.valid = 0 then 0 else v.motion / v.valid)

/-- The scratch region has room for the working set of a large solve on a problem (R394; log 68). -/
def State.solveRoom (s : State) (p : Problem) : Bool :=
  (s.scratchRoom ((Config.solveScratch p.blocks.length p.residuals.length p.lay.entries + 63) / 64 * 64)).isSome

/-- Every large solve that serves a job serves one that runs. -/
def State.solvesRunning (s : State) : Bool :=
  s.collator.solves.all (fun x => match x.owner with | .job n => s.running n | .loop _ => true)

/-- The newest attempt record, if there is one, is closed. -/
def Vault.settled (v : Vault) : Bool := v.attempts.head?.all (fun a => a.outcome ≠ 0)

/-- Port `p` after its taker has taken message `m`, whose words are freed (R456, R459). -/
abbrev State.messageTaken (s : State) (p : Nat) (m : LinkMsg) : State :=
  s.modJalzel p (fun x => { x.free m.channel m.count with inbox := x.inbox.erase m })

/-- Port `p` is the link to `m`, it is up and not parked, no message waits on it, and `n` words on channel `c` have credit and places. -/
abbrev State.LinkFree (s : State) (p m c n : Nat) : Prop :=
  p < 7 ∧ s.net.jalzel.length = 7 ∧ s.portTo m = some p ∧ (s.jalzel p).state = .up ∧ (s.jalzel p).parked = false ∧
  (s.jalzel p).waiting = [] ∧ c < 4 ∧ n ≤ (s.jalzel p).creditLeft c ∧ (s.jalzel p).kept.length + (n + 95) / 96 ≤ 128

end Machine

end Sys2Proof
end

