-- ==== Sys2Proof/Certificates/Slice0/Obligations.lean ====
section
/-! DEFINITION. The statements for the provers: each says what some commands do, from the rules that its docstring names. -/
open Sys2Proof Sys2Proof.Machine

/-- A step carries out the command at the front of the queue on the state with the queue's rest. -/
def Obligations.StepRunsFront : Prop :=
  ∀ (c : Instr) (rest : List Instr) (s : State), step { s with pending := c :: rest } = exec c { s with pending := rest }

/-- The model's choice (log 16): on an empty queue the block idles, a step changing nothing. -/
def Obligations.IdleStep : Prop := ∀ s : State, s.pending = [] → step s = .next s

/-- The queue is first in, first out: a step that answers a state has taken the front command and nothing else, whichever of the
commands it was, and adds none. -/
def Obligations.QueueTakenInOrder : Prop :=
  ∀ (s t : State) (c : Instr) (rest : List Instr), s.pending = c :: rest → step s = .next t → t.pending = rest

/-- An invariant of every step: accesses are held only while the device is not awake, and only accesses over PCIe are held (R516,
R517). -/
def Obligations.HeldAccessesInOrder : Prop := ∀ s t : State, s.HeldInOrder → step s = .next t → t.HeldInOrder

/-- CREATE_QUEUE, DESTROY_QUEUE, RESET_QUEUE, QUERY_QUEUE and SET_COALESCING carried out: a free host-resident queue is made
active with its next generation, and its RESULT is that GEN; a queue that is destroyed or reset drains with its next generation
and its work discarded; a query's RESULT is bytes 16 to 31 of the context; coalescing is set at once, and a message that it makes due is sent. Nothing else changes
(R86, R102, R103, R111).
Choices of the model in it: logs 31 and 37. -/
def Obligations.QueueOpcodes : Prop :=
  (∀ (s : State) (n : Nat) (j : Job), s.Startable n 0x0801 j → createFieldsOk s.desk.circ j.slip = true →
    (s.queue (queueNamed j.slip)).state = .free → fixedOrStack (queueNamed j.slip) = false →
    ∃ y : Queue, exec (.createQueue n) s = .next ((s.withQueue (queueNamed j.slip) y).ended n (endWith [] 0 y.gen)) ∧
      y.state = .active ∧ y.gen = nextGen (s.queue (queueNamed j.slip)).gen ∧ y.kind.code = fld j.slip 36 1 ∧
      y.log2 = fld j.slip 37 1 ∧ y.ringAddr = fld j.slip 40 8 ∧ y.vector = fld j.slip 38 2 ∧ y.coalCount = fld j.slip 56 1 ∧
      y.coalTime = fld j.slip 54 2 ∧ y.head = 0 ∧ y.tail = 0 ∧ y.phase = true ∧
      y.quota = (if fld j.slip 52 2 = 0 then 4096 else fld j.slip 52 2)) ∧
  (∀ (s : State) (n : Nat) (j : Job), s.Startable n 0x0802 j → fixedOrStack (queueNamed j.slip) = false →
    ((s.queue (queueNamed j.slip)).state = .active ∨ (s.queue (queueNamed j.slip)).state = .halted) →
    ((s.queue (queueNamed j.slip)).kind = .ret → s.desk.circ.isPartner (queueNamed j.slip) = false) →
    ∃ t, exec (.destroyQueue n) s = .next t ∧
      t.queue (queueNamed j.slip) = { s.queue (queueNamed j.slip) with
        gen := nextGen (s.queue (queueNamed j.slip)).gen, state := .draining, drain := .destroy n } ∧
      (∀ i ∈ t.desk.circ.jobs, i.sq = queueNamed j.slip → i.ending.isSome) ∧
      (∀ q, q ≠ queueNamed j.slip → t.queue q = s.queue q)) ∧
  (∀ (s : State) (n : Nat) (j : Job), s.Startable n 0x0803 j → fixedOrStack (queueNamed j.slip) = false →
    ((s.queue (queueNamed j.slip)).state = .active ∨ (s.queue (queueNamed j.slip)).state = .halted) →
    ∃ t, exec (.resetQueue n) s = .next t ∧
      t.queue (queueNamed j.slip) = { s.queue (queueNamed j.slip) with
        gen := nextGen (s.queue (queueNamed j.slip)).gen, state := .draining, drain := .reset n } ∧
      (∀ i ∈ t.desk.circ.jobs, i.sq = queueNamed j.slip → i.ending.isSome) ∧
      (∀ q, q ≠ queueNamed j.slip → t.queue q = s.queue q)) ∧
  (∀ (s : State) (n : Nat) (j : Job), s.Startable n 0x0804 j → fixedOrStack (queueNamed j.slip) = false →
    exec (.queryQueue n) s = .next (s.ended n (endWith [] 0 (contextHigh (s.queue (queueNamed j.slip)))))) ∧
  (∀ (s : State) (n : Nat) (j : Job), s.Startable n 0x0805 j → coalescingOk j.slip = true →
    fixedOrStack (queueNamed j.slip) = false →
    ((s.queue (queueNamed j.slip)).state = .active ∨ (s.queue (queueNamed j.slip)).state = .halted) →
    ((s.queue (queueNamed j.slip)).state = .halted ∨ (s.queue (queueNamed j.slip)).kind.deviceProduced = false ∨
      fld j.slip 38 2 = noVector ∨ (s.queue (queueNamed j.slip)).unsignalled < max (fld j.slip 56 1) 1) →
    exec (.setCoalescing n) s = .next ((s.withQueue (queueNamed j.slip) { s.queue (queueNamed j.slip) with
      vector := fld j.slip 38 2, coalCount := fld j.slip 56 1, coalTime := fld j.slip 54 2 }).ended n (endWith []))) ∧
  (∀ (s : State) (n : Nat) (j : Job), s.Startable n 0x0805 j → coalescingOk j.slip = true →
    fixedOrStack (queueNamed j.slip) = false → (s.queue (queueNamed j.slip)).state = .active →
    (s.queue (queueNamed j.slip)).kind.deviceProduced = true → fld j.slip 38 2 ≠ noVector →
    max (fld j.slip 56 1) 1 ≤ (s.queue (queueNamed j.slip)).unsignalled →
    (s.source (2048 + fld j.slip 38 2)).stormed = false → (s.source (2048 + fld j.slip 38 2)).effLimit = 0 →
    Leads (.setCoalescing n) s fun t => t.Answers n j (endWith []) ∧
      t.queue (queueNamed j.slip) = { s.queue (queueNamed j.slip) with
        vector := fld j.slip 38 2, coalCount := fld j.slip 56 1, coalTime := fld j.slip 54 2, entryTimes := [] } ∧
      (t.source (2048 + fld j.slip 38 2)).pending = true ∧ ∀ q, q ≠ queueNamed j.slip → t.queue q = s.queue q)

/-- Call slips read and started: a slip read is a job of its queue and slot, answered at once where a check of R115 fails, and
the queue's head moves past it; a slot that can not be read halts its queue; a fence lets its slip start once no earlier slip of
its queue is in flight; a deadline that passes before the start answers PARTIAL_DEADLINE (R82, R86, R95, R106, R107).
Choices of the model in it: logs 58, 59, 162, 163 and 169. -/
def Obligations.SlipsReadAndStarted : Prop :=
  (∀ (s : State) (q : Nat) (slip : Slip), s.power.sleep = .awake → s.desk.circ.nextFetch (s.boot.gen = .minimal) = some q →
    (s.queue q).kind = .submission →
    Leads (.callSlipFetch (some slip)) s fun t =>
      (∃ e, t.desk.circ.jobs = s.desk.circ.jobs ++ [{
          num := s.desk.circ.read, sq := q, slot := (s.queue q).head, gen := (s.queue q).gen, slip := slip, ending := e
          held := fenceOf slip && e.isNone && s.desk.circ.jobs.any (fun i => i.sq == q) }] ∧
        e = (s.judge q slip).map (fun r => refusalByCirculation r.1 r.2.1)) ∧
      t.queue q = { s.queue q with head := ((s.queue q).head + 1) % (s.queue q).slots }) ∧
  (∀ (s : State) (q : Nat), s.power.sleep = .awake → s.desk.circ.nextFetch (s.boot.gen = .minimal) = some q →
    (s.queue q).kind = .submission →
    Leads (.callSlipFetch none) s fun t => t.queue q = { s.queue q with state := .halted } ∧ t.desk.circ.jobs = s.desk.circ.jobs) ∧
  (∀ (s : State) (n : Nat) (j : Job), s.job n = some j → j.held = true → s.desk.circ.earlier j = [] →
    exec (.fenceRelease n) s = .next (s.withJob n (fun i => { i with held := false }))) ∧
  (∀ (s : State) (n : Nat) (j : Job), s.job n = some j → j.started = false → s.passed (deadlineOf j.slip) = true →
    exec (.unstartedDeadline n) s = .next (s.withJob n (fun i =>
      { i with ending := some (i.ending.getD (refusalByCirculation stPartialDeadline 0)) })))

/-- Doorbells and draining queues: an accepted doorbell moves the tail of a ring that the host fills and the head of one that the
device fills; a read of a doorbell returns HEAD or TAIL, GEN and STATE, and zero for a Stack-resident queue, and changes nothing; a
queue whose discarded slips have all been written becomes empty and active again, or free, and the RESET_QUEUE or DESTROY_QUEUE that
asked for it ends with the queue's GEN; a fixed queue that is reset becomes free, and one that a fault has taken stays as it is
(R81, R86, R87, R88, R89, R90).
Choices of the model in it: log 165. -/
def Obligations.DoorbellsAndDrains : Prop :=
  (∀ (s : State) (q v : Nat), s.boot.window = true → s.power.sleep = .awake → hostResident q = true → q ≠ 0 →
    (s.queue q).state = .active → v < 2 ^ 24 → bitsOf v 23 16 = (s.queue q).gen → bitsOf v 15 0 < (s.queue q).slots →
    (s.queue q).moves (bitsOf v 15 0) = true →
    exec (.doorbellWrite (8 * q) (le 8 v)) s = .next (s.withQueue q (if (s.queue q).kind.deviceProduced
      then { s.queue q with
        head := bitsOf v 15 0
        entryTimes := (s.queue q).entryTimes.drop
          ((s.queue q).entryTimes.length - { s.queue q with head := bitsOf v 15 0 }.used) }
      else { s.queue q with tail := bitsOf v 15 0 }))) ∧
  (∀ (s : State) (q : Nat), s.boot.window = true → s.power.sleep = .awake → hostResident q = true →
    ∃ v, exec (.registerLowHalfRead (2 ^ 24 + 8 * q) 64) s = .next (s.emit [.read (2 ^ 24 + 8 * q) v]) ∧
      v % 2 ^ 16 = (if (s.queue q).kind.deviceProduced then (s.queue q).tail else (s.queue q).head) % 2 ^ 16 ∧
      ((s.queue q).head < 2 ^ 16 → (s.queue q).tail < 2 ^ 16 → (s.queue q).gen < 2 ^ 8 →
        v / 2 ^ 16 = (s.queue q).gen + (s.queue q).state.code * 2 ^ 8)) ∧
  (∀ (s : State) (q : Nat), s.boot.window = true → s.power.sleep = .awake → 524288 ≤ q → q < 2 ^ 20 →
    exec (.registerLowHalfRead (2 ^ 24 + 8 * q) 64) s = .next (s.emit [.read (2 ^ 24 + 8 * q) 0])) ∧
  (∀ (s : State) (q n : Nat), (s.queue q).state = .draining → (s.queue q).drain = .reset n → s.desk.circ.drained q (.reset n) = true →
    exec (.queueDrainEnd q) s = .next ((s.withQueue q { s.queue q with
      state := .active, drain := .none, head := 0, tail := 0, phase := true, entryTimes := [] }).finish n
        (endWith [] 0 (s.queue q).gen))) ∧
  (∀ (s : State) (q n : Nat), (s.queue q).state = .draining → (s.queue q).drain = .destroy n →
    s.desk.circ.drained q (.destroy n) = true →
    exec (.queueDrainEnd q) s =
      .next ((s.withQueue q { s.queue q with state := .free, drain := .none }).finish n (endWith [] 0 (s.queue q).gen))) ∧
  (∀ (s : State) (q : Nat), (s.queue q).state = .draining → (s.queue q).drain = .fixed → s.desk.circ.drained q .fixed = true →
    exec (.queueDrainEnd q) s = .next (s.withQueue q { s.queue q with state := .free, drain := .none })) ∧
  (∀ (s : State) (q : Nat), q < 3 → (s.queue q).state = .draining → (s.queue q).drain = .fault →
    exec (.queueDrainEnd q) s = .next s) ∧
  (∀ (s : State) (q : Nat), 3 ≤ q → (s.queue q).state = .draining → (s.queue q).drain = .fault → s.desk.circ.drained q .fault = true →
    exec (.queueDrainEnd q) s = .next (s.withQueue q (if (s.queue q).kind.deviceProduced
      then { s.queue q with state := .active, drain := .none }
      else { s.queue q with state := .active, drain := .none, head := 0, tail := 0 })))

/-- Return slips and the entries that the device writes: a job that has ended leaves, and its final return slip is written with
the phase of the pass at the tail of its return queue, which moves on by one; one that waited is written once there is room; a
stall that lasts is reported; dropped events are told of once a slot is free; entries whose message has waited COAL_TIME bring it
about (R84, R94, R98, R100, R109, R110, R111).
Choices of the model in it: logs 22, 24 and 163. -/
def Obligations.ReturnsWritten : Prop :=
  (∀ (s : State) (n : Nat) (j : Job) (e : Ending), s.job n = some j → j.ending = some e → j.waiting = false →
    s.desk.circ.path (s.desk.circ.returnOf j.sq) = .write → s.desk.circ.returnOf j.sq ≠ j.sq →
    Leads (.jobComplete n) s fun t => t.job n = none ∧
      t.queue (s.desk.circ.returnOf j.sq) = (writeEntry s.now (s.desk.circ.returnOf j.sq) (s.queue (s.desk.circ.returnOf j.sq))
        (returnEntry j e (s.queue j.sq).head true) (immediateOf j.slip)).1 ∧
      Output.entry (s.desk.circ.returnOf j.sq)
        ((s.queue (s.desk.circ.returnOf j.sq)).ringAddr + (s.queue (s.desk.circ.returnOf j.sq)).tail * 32)
        (withPhase (returnEntry j e (s.queue j.sq).head true) (s.queue (s.desk.circ.returnOf j.sq)).phase) ∈ t.desk.out) ∧
  (∀ (s : State) (q : Nat) (j : Job) (e : Ending), (s.queue q).state = .active → (s.queue q).kind = .ret →
    (s.queue q).full = false → s.desk.circ.firstWaiting q = some j → j.ending = some e → j.sq ≠ q →
    Leads (.returnStallRelease q) s fun t => t.job j.num = none ∧
      Output.entry q ((s.queue q).ringAddr + (s.queue q).tail * 32)
        (withPhase (returnEntry j e (s.queue j.sq).head true) (s.queue q).phase) ∈ t.desk.out) ∧
  (∀ (s : State) (q since : Nat), s.desk.circ.stalled q = true → amGet s.desk.circ.stalls q = some since →
    since + 100000000 ≤ s.now →
    ∃ count, exec (.returnStalledTimer q) s = .next ((s.modCirc (fun c => { c with
      stalls := amSet c.stalls q (since + 100000000) })).event 2 { code := 0x0004, subject := q, value := count }) ∧
      count = (s.desk.circ.waiting.filter (fun n => (s.job n).elim false (fun j => s.desk.circ.returnOf j.sq == q))).length) ∧
  (∀ (s : State) (q : Nat), (s.queue q).state = .active → (s.queue q).kind = .event → (s.queue q).lost ≠ 0 →
    (s.queue q).full = false →
    Leads (.eventsLost q) s fun t =>
      Output.entry q ((s.queue q).ringAddr + (s.queue q).tail * 32)
        (withPhase (eventEntry s.now { code := 0x0005, subject := q, value := min (s.queue q).lost (2 ^ 32 - 1) })
          (s.queue q).phase) ∈ t.desk.out ∧
      ((s.queue q).vector = noVector → (t.queue q).lost = 0 ∧ (t.queue q).tail = ((s.queue q).tail + 1) % (s.queue q).slots)) ∧
  (∀ (s : State) (q a : Nat) (l : List Nat), (s.queue q).state = .active → (s.queue q).kind.deviceProduced = true →
    hostResident q = true → (s.queue q).vector ≠ noVector → (s.queue q).coalTime ≠ 0 → (s.queue q).entryTimes = a :: l →
    a + (s.queue q).coalTime * 1000 ≤ s.now →
    exec (.coalesceTimeout q) s =
      .next ((s.withQueue q { s.queue q with entryTimes := [] }).tell [.raise (2048 + (s.queue q).vector)]))

/-- Raises: a raise message makes its source pending and counts in its window, the first opening the window; one more than
STORM_LIMIT storms it, which ends its pending state, and while it is stormed messages are only counted; a raise word of a host
source does the same while the device is awake (R493, R494, R496, R505). -/
def Obligations.RaisesPend : Prop :=
  (∀ (s : State) (n : Nat), raisable n = true → (s.source n).stormed = false → (s.source n).openAt = none →
    exec (.raiseMessage n) s = .next (s.withSource n { s.source n with
      pending := true, pendingAt := if (s.source n).pending then (s.source n).pendingAt else s.now, openAt := some s.now, count := 1 })) ∧
  (∀ (s : State) (n o : Nat), raisable n = true → (s.source n).stormed = false → (s.source n).openAt = some o →
    s.now < o + (s.source n).windowUs * 1000 → ((s.source n).effLimit = 0 ∨ (s.source n).count < (s.source n).effLimit) →
    exec (.raiseMessage n) s = .next (s.withSource n { s.source n with
      pending := true, pendingAt := if (s.source n).pending then (s.source n).pendingAt else s.now
      count := (s.source n).count + 1 })) ∧
  (∀ (s : State) (n : Nat), raisable n = true → (s.source n).stormed = true →
    exec (.raiseMessage n) s =
      .next (s.withSource n { s.source n with dropped := min ((s.source n).dropped + 1) (2 ^ 32 - 1) })) ∧
  (∀ (s : State) (n o : Nat), raisable n = true → (s.source n).stormed = false → (s.source n).openAt = some o →
    s.now < o + (s.source n).windowUs * 1000 → (s.source n).effLimit ≠ 0 → (s.source n).effLimit ≤ (s.source n).count →
    Leads (.raiseMessage n) s fun t => (t.source n).stormed = true ∧ (t.source n).pending = false) ∧
  (∀ (s : State) (word : BitVec 32), s.boot.window = true → s.power.sleep = .awake → 1024 ≤ word.toNat → word.toNat ≤ 2047 →
    exec (.bellRaise word) s = .next (s.tell [.raise word.toNat]))

/-- The storm guard. A source's window ends STORM_WINDOW_US after it opened, and not before; a stormed source is released
STORM_HOLD_MS after it was stormed where that is not 0, or when its bit is cleared, by firmware or, for host and vector sources, by the
host: it is pending then if a message was dropped, BELL_RELEASED is written, and its next window opens with its next message. Where
the oldest deliverable source of a target has waited more than 1 ms, the limits of the sources that share the target are halved, to no
less than a quarter of the set value nor than BELL_STORM_FLOOR; otherwise they are doubled back, to no more than the set value, 1 s
after they last changed, and left alone until then (R505, R506, R583).
Choices of the model in it: log 24. -/
def Obligations.StormGuard : Prop :=
  (∀ (s : State) (n o : Nat), (s.source n).openAt = some o → o + (s.source n).windowUs * 1000 ≤ s.now →
    exec (.stormWindowEnd n) s = .next (s.withSource n { s.source n with openAt := none, count := 0 })) ∧
  (∀ (s : State) (n : Nat), (∀ o, (s.source n).openAt = some o → s.now < o + (s.source n).windowUs * 1000) →
    exec (.stormWindowEnd n) s = .next s) ∧
  (∀ (s : State) (n : Nat), ((s.source n).holdMs = 0 ∨ (s.source n).stormed = false ∨
      s.now < (s.source n).stormedAt + (s.source n).holdMs * 1000000) →
    exec (.stormHoldExpiry n) s = .next s) ∧
  (∀ (s : State) (n : Nat), (s.source n).holdMs ≠ 0 → (s.source n).stormed = true →
    (s.source n).stormedAt + (s.source n).holdMs * 1000000 ≤ s.now →
    exec (.stormHoldExpiry n) s = .next ((s.withSource n { s.source n with
      stormed := false, dropped := 0, pending := decide (0 < (s.source n).dropped), pendingAt := s.now, openAt := none, count := 0
      releasedAt := some s.now }).event 2
        { code := 0x0861, subject := n, detail := 0, value := min (s.source n).dropped (2 ^ 32 - 1) })) ∧
  (∀ (s : State) (firmware : Bool) (w i : Nat), i < 32 → 32 * w + i < 4096 → (s.source (32 * w + i)).stormed = true →
    (firmware = true ∨ s.boot.window = true ∧ s.power.sleep = .awake ∧ 1024 ≤ 32 * w + i) →
    exec (.bellStormedClear firmware w (BitVec.ofNat 32 (2 ^ i))) s = .next ((s.withSource (32 * w + i) { s.source (32 * w + i) with
      stormed := false, dropped := 0, pending := decide (0 < (s.source (32 * w + i)).dropped), pendingAt := s.now
      openAt := none, count := 0, releasedAt := some s.now }).event 2
        { code := 0x0861, subject := 32 * w + i, detail := 1, value := min (s.source (32 * w + i)).dropped (2 ^ 32 - 1) })) ∧
  (∀ (s : State) (firmware : Bool) (w : Nat) (v : BitVec 32), (firmware = true ∨ s.boot.window = true ∧ s.power.sleep = .awake) →
    Leads (.bellStormedClear firmware w v) s fun t =>
      ∀ n, 1024 ≤ n → n < 2048 → n / 32 = w → (t.source n).stormed = ((s.source n).stormed && !v.getLsbD (n % 32))) ∧
  (∀ (s : State) (core : Bool) (number : Nat) (target : BellTarget) (e : Nat × Nat),
    target = (if core then .core number else .vector number) → e ∈ s.desk.bell.candidates (fun p => p = target) →
    (s.source e.1).pendingAt + 1000000 < s.now →
    Leads (.stormLimitAdapt core number) s fun t =>
      (∀ n, (t.source n).effLimit = if n ≠ 0 ∧ n < 4096 ∧ (s.source n).target = target then halved (s.source n) s.desk.bell.stormFloor
        else (s.source n).effLimit) ∧
      (∀ n, (t.source n).stormLimit = (s.source n).stormLimit) ∧ t.desk.circ.jobs = s.desk.circ.jobs ∧
      ((∃ n, n ≠ 0 ∧ n < 4096 ∧ (s.source n).target = target ∧ floorHolds (s.source n) s.desk.bell.stormFloor = true) →
        ∃ p ∈ t.curator.pinned, p.code = 0x12)) ∧
  (∀ (s : State) (core : Bool) (number since : Nat) (target : BellTarget), target = (if core then .core number else .vector number) →
    (∀ e ∈ s.desk.bell.candidates (fun p => p = target), s.now ≤ (s.source e.1).pendingAt + 1000000) →
    amGet s.desk.bell.adaptAt target.code = some since → since + 1000000000 ≤ s.now →
    Leads (.stormLimitAdapt core number) s fun t =>
      (∀ n, (t.source n).effLimit = if n ≠ 0 ∧ n < 4096 ∧ (s.source n).target = target then doubled (s.source n)
        else (s.source n).effLimit) ∧
      (∀ n, (t.source n).stormLimit = (s.source n).stormLimit) ∧ t.desk.circ = s.desk.circ ∧ t.desk.out = s.desk.out) ∧
  (∀ (s : State) (core : Bool) (number : Nat) (target : BellTarget), target = (if core then .core number else .vector number) →
    (∀ e ∈ s.desk.bell.candidates (fun p => p = target), s.now ≤ (s.source e.1).pendingAt + 1000000) →
    (∀ since, amGet s.desk.bell.adaptAt target.code = some since → s.now < since + 1000000000) →
    exec (.stormLimitAdapt core number) s = .next s) ∧
  (∀ (x : BellSource) (floor : Nat), x.stormLimit ≠ 0 → x.effLimit ≤ x.stormLimit →
    halved x floor ≤ x.effLimit ∧ (min x.effLimit (x.stormLimit / 4) ≤ halved x floor) ∧ (min x.effLimit floor ≤ halved x floor) ∧
      x.effLimit ≤ doubled x ∧ doubled x ≤ x.stormLimit ∧ (2 * x.effLimit ≤ x.stormLimit → doubled x = 2 * x.effLimit) ∧
      (x.stormLimit / 4 ≤ x.effLimit / 2 → floor ≤ x.effLimit / 2 → halved x floor = x.effLimit / 2))

/-- Claims: the source picked is of the highest priority among those deliverable at the core, and of the lowest number among equal
priorities; a claim takes it, ends its pending state, pushes it with the threshold of that moment, and returns its number, or 0
where no source is deliverable; COMPLETE pops the innermost source and claims the next (R498, R501). -/
def Obligations.ClaimsTakeTheHighest : Prop :=
  (∀ (l : List (Nat × Nat)) (n p : Nat), l.Pairwise (fun a b => a.1 < b.1) → pickHighest l = some (n, p) →
    (n, p) ∈ l ∧ ∀ e ∈ l, e.2 ≤ p ∧ (e.2 = p → n ≤ e.1)) ∧
  (∀ (s : State) (core n p : Nat), core < 8 → (s.desk.bell.settle.core core).stack.length < 15 →
    s.desk.bell.settle.pickCore core = some (n, p) → n ≠ 0 →
    exec (.claim core) s = .next (s.withBell
      ((s.desk.bell.settle.setSource n { s.desk.bell.settle.source n with pending := false, moved := false }).modCore core (fun c =>
        { c with stack := { source := n, priority := p, saved := c.threshold, entry := true, exit := false, since := s.now } :: c.stack }))
      [.bellPort core n])) ∧
  (∀ (s : State) (core : Nat), core < 8 → s.desk.bell.settle.pickCore core = none →
    Leads (.claim core) s fun t => t.desk.out = s.desk.out ++ [.bellPort core 0] ∧ t.desk.bell.sources = s.desk.bell.settle.sources ∧
      t.desk.bell.cores = s.desk.bell.settle.cores) ∧
  (∀ (s : State) (core source : Nat) (e : InService) (l : List InService), core < 8 →
    (s.desk.bell.core core).stack = e :: l → e.source = source →
    ∃ b n, (s.desk.bell.modCore core (fun c => { c with stack := l })).claim s.now core = (b, n) ∧
      exec (.complete core source) s = .next (s.withBell b [.bellPort core n])) ∧
  (∀ (s : State) (core source : Nat) (e : InService) (l : List InService), core < 8 →
    (s.desk.bell.core core).stack = e :: l → e.source ≠ source →
    Leads (.complete core source) s fun t => Output.bellPort core 0 ∈ t.desk.out ∧ (t.desk.bell.core core).stack = e :: l)

/-- Thresholds and the cores: a THRESHOLD write sets the threshold and clears the innermost entry flag; with EXIT set it restores the
saved threshold and sets the innermost exit flag; a sleeping core with a deliverable source is woken, and in minimal mode none is; a source in
service for more than 10 ms is recorded once (R500, R501, R503, R510, R530).
Choices of the model in it: log 24. -/
def Obligations.CoresAndThresholds : Prop :=
  (∀ (s : State) (core value : Nat), core < 8 →
    exec (.thresholdWrite core value) s = .next (s.withBell (s.desk.bell.modCore core (fun c => { c with
      threshold := value % 16, stack := match c.stack with
        | [] => []
        | e :: l => { e with entry := false } :: l })) [])) ∧
  (∀ (s : State) (core value : Nat) (e : InService) (l : List InService), core < s.desk.bell.cores.length → core < 8 →
    (s.desk.bell.core core).stack = e :: l →
    exec (.thresholdExit core value) s = .next (s.withBell (s.desk.bell.modCore core (fun c => { c with
      threshold := e.saved, stack := { e with exit := true } :: l })) [])) ∧
  (∀ (s : State) (core : Nat) (n p : Nat), s.boot.gen ≠ .minimal → (s.desk.bell.settle.core core).sleeping = true →
    s.desk.bell.settle.pickCore core = some (n, p) →
    Leads (.coreWake core) s fun t => t.desk.bell.cores = modAt s.desk.bell.settle.cores core (fun c => { c with sleeping := false }) ∧
      t.desk.circ = s.desk.circ) ∧
  (∀ (s : State) (core : Nat), s.boot.gen = .minimal →
    Leads (.coreWake core) s fun t => t.desk.bell.cores = s.desk.bell.settle.cores ∧ t.desk.circ = s.desk.circ) ∧
  (∀ (s : State) (core source : Nat) (e : InService), e ∈ (s.desk.bell.core core).stack → e.source = source → e.told = false →
    e.since + 10000000 < s.now →
    ∃ b, exec (.inServiceTimeout core source) s =
        .next ((s.withBell b []).tell [.errata { cls := 0, unit := 0x0019, inst := core, detail1 := source }]) ∧
      (∀ i ∈ (b.core core).stack, i.source = source → i.since + 10000000 < s.now → i.told = true) ∧
      ((b.core core).stack.map (fun i => { i with told := false }) =
        (s.desk.bell.core core).stack.map (fun i => { i with told := false })) ∧ b.sources = s.desk.bell.sources) ∧
  (∀ (s : State) (core source : Nat), (∀ e ∈ (s.desk.bell.core core).stack, e.source = source → e.told = false →
      s.now ≤ e.since + 10000000) →
    exec (.inServiceTimeout core source) s = .next s)

/-- Vectors: the deliverable vector source of the highest priority sends its MSI-X message and stops being pending; with its vector
masked the vector's pending bit is set and the source stays pending; at a sleeping function PME is signalled instead; an unmasked
vector sends the message that waited; writes of a host or vector source's record set its fields (R112, R499, R503, R584, R588).
Choices of the model in it: log 18. -/
def Obligations.VectorsDeliver : Prop :=
  (∀ (s : State) (n p v : Nat), pickHighest (s.desk.bell.settle.candidates s.desk.bell.settle.sendable) = some (n, p) →
    (s.desk.bell.settle.source n).place = .vector v → s.desk.bell.settle.vectorsAwake = true →
    (s.desk.bell.settle.vectorEntry v).masked = false →
    exec .msixDelivery s = .next (s.withBell
      (s.desk.bell.settle.setSource n { s.desk.bell.settle.source n with pending := false, moved := false })
      [.msix v (s.desk.bell.settle.vectorEntry v).addr (s.desk.bell.settle.vectorEntry v).data])) ∧
  (∀ (s : State) (n p v : Nat), pickHighest (s.desk.bell.settle.candidates s.desk.bell.settle.sendable) = some (n, p) →
    (s.desk.bell.settle.source n).place = .vector v → s.desk.bell.settle.vectorsAwake = true →
    (s.desk.bell.settle.vectorEntry v).masked = true →
    exec .msixDelivery s = .next (s.withBell
      (s.desk.bell.settle.setVector v { s.desk.bell.settle.vectorEntry v with pending := true }) [])) ∧
  (∀ (s : State) (n p v : Nat), pickHighest (s.desk.bell.settle.candidates s.desk.bell.settle.sendable) = some (n, p) →
    (s.desk.bell.settle.source n).place = .vector v → s.desk.bell.settle.vectorsAwake = false →
    exec .msixDelivery s = .next (s.withBell s.desk.bell.settle [.pme])) ∧
  (∀ (s : State) (v : Nat), s.boot.window = true → s.power.sleep = .awake → v < 2048 →
    (s.desk.bell.vectorEntry v).pending = true →
    Leads (.msixUnmask v) s fun t =>
      t.desk.out = s.desk.out ++ [.msix v (s.desk.bell.vectorEntry v).addr (s.desk.bell.vectorEntry v).data] ∧
      t.desk.circ = s.desk.circ) ∧
  (∀ (s : State) (v : Nat), s.boot.window = true → s.power.sleep = .awake → v < 2048 →
    (s.desk.bell.vectorEntry v).pending = false →
    exec (.msixUnmask v) s =
      .next (s.withBell (s.desk.bell.setVector v { s.desk.bell.vectorEntry v with masked := false, pending := false }) [])) ∧
  (∀ (s : State), Leads .functionBackInD0 s fun t => t.desk.bell.vectorsAwake = true ∧ t.ports.dState = 0 ∧ t.desk.circ = s.desk.circ) ∧
  (∀ (s : State) (n : Nat) (value : BitVec 32), s.boot.window = true → s.power.sleep = .awake → 1024 ≤ n → n < 4096 →
    recordWriteBad n 1 value.toNat = false →
    exec (.bellSourceRecordWrite n 1 value) s = .next (s.withSource n { s.source n with
      stormLimit := bitsOf value.toNat 15 0, effLimit := bitsOf value.toNat 15 0, holdMs := bitsOf value.toNat 31 16 })) ∧
  (∀ (s : State) (n : Nat) (value : BitVec 32), s.boot.window = true → s.power.sleep = .awake → 1024 ≤ n → n < 4096 →
    recordWriteBad n 2 value.toNat = false → (s.source n).openAt = none →
    exec (.bellSourceRecordWrite n 2 value) s = .next (s.withSource n { s.source n with windowUs := bitsOf value.toNat 19 0 })) ∧
  (∀ (s : State) (n : Nat) (value : BitVec 32), s.boot.window = true → s.power.sleep = .awake → 1024 ≤ n → n < 2048 →
    recordWriteBad n 0 value.toNat = false →
    exec (.bellSourceRecordWrite n 0 value) s = .next (s.withSource n { s.source n with
      priority := bitsOf value.toNat 3 0, wake := value.toNat.testBit 4, fallback := bitsOf value.toNat 7 5
      target := if value.toNat.testBit 20 then .vector (bitsOf value.toNat 19 8) else .core (bitsOf value.toNat 19 8) })) ∧
  (∀ (s : State) (n : Nat) (value : BitVec 32), s.boot.window = true → s.power.sleep = .awake → 2048 ≤ n → n < 4096 →
    recordWriteBad n 0 value.toNat = false →
    exec (.bellSourceRecordWrite n 0 value) s = .next (s.withSource n { s.source n with
      priority := bitsOf value.toNat 3 0, wake := value.toNat.testBit 4, fallback := bitsOf value.toNat 7 5 }))

/-- The power states of a carrel: woken, an off carrel is idle with every SRAM word zero and a carrel in retention is ready, or
running where every input has come; gated, a ready one goes to retention and an idle one off; unbound, a ready one is idle and
cleared; released after its halt it is idle, or retired where the test failed or it has worn; retired, it stays retired. The
other carrels keep theirs (R127 to R130, R148, R151).
Choices of the model in it: logs 47 and 64. -/
def Obligations.CarrelPowerStates : Prop :=
  (∀ (s : State) (c : Nat), c < 256 → s.clockOf c = true → (s.carrel c).state = .off →
    Leads (.carrelWake c) s fun t => (t.carrel c).state = .idle ∧ (t.carrel c).bound = none ∧
      (∀ w, dataOf ((t.carrel c).sram.word w) = List.replicate 32 0) ∧ (∀ d, d ≠ c → t.carrel d = s.carrel d) ∧ t.desk = s.desk) ∧
  (∀ (s : State) (c : Nat) (b : Bound), c < 256 → s.clockOf c = true → (s.carrel c).state = .retention → (s.carrel c).bound = some b →
    s.tokensLive c →
    Leads (.carrelWake c) s fun t =>
      t.carrel c = { s.carrel c with state := if (s.carrel c).ready then .running else .ready } ∧
      (∀ d, d ≠ c → t.carrel d = s.carrel d) ∧ t.desk = s.desk) ∧
  (∀ (s : State) (c : Nat), (s.carrel c).state = .ready → s.heldByJob c = false →
    exec (.carrelGate c) s = .next (s.setCarrel c { s.carrel c with state := .retention })) ∧
  (∀ (s : State) (c : Nat), (s.carrel c).state = .ready → s.heldByJob c = true →
    exec (.carrelGate c) s = .next s ∧ exec (.stageUnbind c) s = .next s) ∧
  (∀ (s : State) (c : Nat), (s.carrel c).state = .idle →
    exec (.carrelGate c) s = .next (s.setCarrel c { s.carrel c with
      state := .off, bound := none, ins := [], outs := [], sram := {}, writeBack := [], refused := [] })) ∧
  (∀ (s : State) (c : Nat), (s.carrel c).state = .ready → s.heldByJob c = false →
    Leads (.stageUnbind c) s fun t => (t.carrel c).state = .idle ∧ (t.carrel c).bound = none ∧ (t.carrel c).sram = {} ∧
      (∀ d, d ≠ c → t.carrel d = s.carrel d) ∧ t.desk = s.desk) ∧
  (∀ (s : State) (c : Nat) (pass : Bool), (s.carrel c).state = .halted →
    Leads (.carrelRelease c pass) s fun t =>
      (t.carrel c).state = (if pass && !(s.carrel c).worn then .idle else .retired) ∧ (t.carrel c).bound = none ∧
      (t.carrel c).sram = {} ∧ (∀ d, d ≠ c → t.carrel d = s.carrel d) ∧ t.desk = s.desk) ∧
  (∀ (s : State) (c : Nat), c < 256 →
    Leads (.carrelRetire c) s fun t => (t.carrel c).state = .retired ∧ (∀ d, d ≠ c → t.carrel d = s.carrel d) ∧ t.desk = s.desk)

/-- Steps and hand-overs. A credit comes back to the output that sent for it, once; the next message on its way reaches its carrel: a
token is held at its input, wakes a carrel from retention and starts the step once every input holds one, a token of an ended run
is dropped and its credit goes back, a token that its producer can hold no credit for halts the producer, and data go into the slot
of the declared buffer or, where there is none, halt their sender. A step that ends uses up one token of each input, whose credits go
back, and sends its data and then its token, spending the credit; one that would send waits while its output holds no credit, and
one that names a slot without a credit, or no buffer, halts; a carrel fault halts the carrel (R126, R127, R129, R134, R136, R144 to
R148, R150, R173).
Choices of the model in it: logs 36, 65, 150, 155, 160 and 161. -/
def Obligations.StepsAndHandovers : Prop :=
  (∀ (s : State) (c port slot : Nat) (b : Bound), (s.carrel c).bound = some b →
    { to_ := .carrel c port, slot := slot } ∈ s.fabric.credits →
    Leads (.creditReturn (.carrel c port) slot) s fun t =>
      t.carrel c = { s.carrel c with outs := modAt (s.carrel c).outs port (fun p => { p with credits := putCredit slot p.credits }) } ∧
      t.fabric.credits = s.fabric.credits.erase { to_ := .carrel c port, slot := slot } ∧ t.fabric.mesh = s.fabric.mesh ∧
      (∀ d, d ≠ c → t.carrel d = s.carrel d) ∧ t.desk = s.desk) ∧
  (∀ (s : State) (h edge k slot : Nat) (x : Image), { to_ := .input h edge k, slot := slot } ∈ s.fabric.credits →
    s.image h = some x → (∀ r ∈ s.images.runs, r.handle ≠ h) →
    Leads (.creditReturn (.input h edge k) slot) s fun t =>
      t.image h = some { x with
        inCredits := x.inCredits.map (fun q => if q.1 = edge ∧ q.2.1 = k then (q.1, q.2.1, putCredit slot q.2.2) else q) } ∧
      t.fabric.credits = s.fabric.credits.erase { to_ := .input h edge k, slot := slot } ∧ t.fabric.carrels = s.fabric.carrels) ∧
  (∀ (s : State) (to_ : CreditTo) (slot : Nat), { to_ := to_, slot := slot } ∉ s.fabric.credits →
    exec (.creditReturn to_ slot) s = .next s) ∧
  (∀ (s s0 : State) (c source port : Nat) (sent : Option OutsideMsg) (tok : Token) (b : Bound) (p : InPort),
    s.Arrives c source sent port (.token tok) s0 → (s.carrel c).bound = some b → (s.carrel c).ins[port]? = some p →
    p.admits tok = true → s.deadToken tok = false → s.tokensLive c → (s.carrel c).state = .running →
    Leads (.inputToken c source sent) s fun t =>
      t.carrel c = { s.carrel c with ins := setAt (s.carrel c).ins port { p with held := p.held ++ [tok] } } ∧
      t.fabric.mesh = s0.fabric.mesh ∧ (∀ d, d ≠ c → t.carrel d = s.carrel d) ∧ t.desk = s.desk) ∧
  (∀ (s s0 : State) (c source port : Nat) (sent : Option OutsideMsg) (tok : Token) (b : Bound) (p : InPort) (x : Carrel),
    s.Arrives c source sent port (.token tok) s0 → (s.carrel c).bound = some b → (s.carrel c).ins[port]? = some p →
    p.admits tok = true → s.deadToken tok = false → s.tokensLive c →
    ((s.carrel c).state = .ready ∨ (s.carrel c).state = .retention ∧ s.clockOf c = true) →
    x = { s.carrel c with ins := setAt (s.carrel c).ins port { p with held := p.held ++ [tok] } } →
    Leads (.inputToken c source sent) s fun t =>
      t.carrel c = { x with state := if x.ready then .running else .ready } ∧ t.fabric.mesh = s0.fabric.mesh ∧
      (∀ d, d ≠ c → t.carrel d = s.carrel d) ∧ t.desk = s.desk) ∧
  (∀ (s s0 : State) (c source port : Nat) (sent : Option OutsideMsg) (tok : Token) (b : Bound) (p : InPort) (m : CreditMsg),
    s.Arrives c source sent port (.token tok) s0 → (s.carrel c).bound = some b → (s.carrel c).ins[port]? = some p →
    p.admits tok = true → s.deadToken tok = true → tok.far = none → s.creditOf b p tok.slot = some m →
    exec (.inputToken c source sent) s = .next { s0 with fabric := { s0.fabric with credits := s0.fabric.credits ++ [m] } }) ∧
  (∀ (s s0 : State) (c source port : Nat) (sent : Option OutsideMsg) (tok : Token) (b : Bound),
    s.Arrives c source sent port (.token tok) s0 → (s.carrel c).bound = some b →
    (∀ p, (s.carrel c).ins[port]? = some p → p.slots ≤ tok.slot ∨ ∃ h ∈ p.held, h.slot = tok.slot) →
    ((s.carrel source).state = .running ∨ (s.carrel source).state = .ready) →
    Leads (.inputToken c source sent) s fun t => (t.carrel source).state = .halted ∧ (t.carrel source).bound = none) ∧
  (∀ (s s0 : State) (c source port slot offset : Nat) (sent : Option OutsideMsg) (data : Bytes) (marks : List Bool) (b : Bound)
      (p : InPort) (i : Image) (e : EdgeEnt),
    s.Arrives c source sent port (.data slot offset data marks) s0 → (sent = none ∨ data.length ≤ 4096) →
    (s.carrel c).bound = some b → (s.carrel c).ins[port]? = some p → s.image b.handle = some i → edgeEnt i.content p.edge = e →
    e.medium = 0 → slot < p.slots → offset + data.length ≤ e.slotBytes →
    exec (.handoverData c source sent) s = .next (s0.writeMarked c (e.bufOffset + slot * e.slotBytes + offset) data marks)) ∧
  (∀ (s s0 : State) (c source port slot offset : Nat) (sent : Option OutsideMsg) (data : Bytes) (marks : List Bool) (b : Bound)
      (i : Image),
    s.Arrives c source sent port (.data slot offset data marks) s0 → (sent = none ∨ data.length ≤ 4096) →
    (s.carrel c).bound = some b → s.image b.handle = some i →
    (∀ p, (s.carrel c).ins[port]? = some p → (edgeEnt i.content p.edge).medium ≠ 0 ∨ p.slots ≤ slot ∨
      (edgeEnt i.content p.edge).slotBytes < offset + data.length) →
    ((s.carrel source).state = .running ∨ (s.carrel source).state = .ready) →
    Leads (.handoverData c source sent) s fun t => (t.carrel source).state = .halted ∧ (t.carrel source).bound = none) ∧
  (∀ (s : State) (c cycles : Nat) (b : Bound) (i : Image), (s.carrel c).state = .running → (s.carrel c).bound = some b →
    s.image b.handle = some i → (s.carrel c).run = none → s.tokensLive c →
    (∀ p ∈ (s.carrel c).ins, ∀ t ∈ p.held, t.far = none) →
    Leads (.stepEnd c cycles [] []) s fun t =>
      t.carrel c = { (s.carrel c).stepEnded cycles with state := if ((s.carrel c).stepEnded cycles).ready then .running else .ready } ∧
      (t.carrel c).ins = (s.carrel c).ins.map (fun p => { p with held := p.held.drop 1 }) ∧
      (t.carrel c).busy = ((s.carrel c).busy + cycles) % 2 ^ 64 ∧
      t.fabric.credits = s.fabric.credits ++ (usedSlots (s.carrel c).ins).filterMap (fun q => s.creditOf b q.1 q.2.slot) ∧
      t.fabric.mesh = s.fabric.mesh ∧ t.desk = s.desk) ∧
  (∀ (s : State) (c cycles : Nat) (b : Bound) (i : Image) (d : Send) (p : OutPort) (e : EdgeEnt) (q : Nat × Nat × Nat),
    (s.carrel c).state = .running → (s.carrel c).bound = some b → s.image b.handle = some i → (s.carrel c).run = none →
    (s.carrel c).outs[d.port]? = some p → edgeEnt i.content p.edge = e → e.to_ ≠ 0xFF → e.medium = 0 → d.far = none →
    d.slot < p.slots → d.slot ∈ p.credits → d.offset + d.bytes ≤ e.slotBytes →
    i.placed.find? (fun q => q.1 == e.to_ && q.2.1 == p.dst) = some q →
    Leads (.stepEnd c cycles [] [d]) s fun t =>
      t.fabric.mesh = s.fabric.mesh ++ (dataMsgs
          { src := c, dst := q.2.2, serving := b.serving, port := portOf (s.carrel q.2.2).ins p.edge b.slot
            body := .token { slot := d.slot, bytes := d.bytes, seq := d.seq, run := none } }
          d.slot d.offset (s.readMarked c d.addr d.bytes).1.1 (s.readMarked c d.addr d.bytes).1.2 ++
        [{ src := c, dst := q.2.2, serving := b.serving, port := portOf (s.carrel q.2.2).ins p.edge b.slot
           body := .token { slot := d.slot, bytes := d.bytes, seq := d.seq, run := none } }]) ∧
      (t.carrel c).outs = setAt (s.carrel c).outs d.port { p with credits := p.credits.filter (· ≠ d.slot) }) ∧
  (∀ (s : State) (c cycles : Nat) (b : Bound) (i : Image) (ops : List StepOp) (d : Send) (l : List Send) (p : OutPort),
    (s.carrel c).state = .running → (s.carrel c).bound = some b → s.image b.handle = some i → (s.carrel c).outs[d.port]? = some p →
    (edgeEnt i.content p.edge).to_ ≠ 0xFF → d.slot < p.slots → d.offset + d.bytes ≤ (edgeEnt i.content p.edge).slotBytes →
    p.credits = [] →
    exec (.stepEnd c cycles ops (d :: l)) s = .next s) ∧
  (∀ (s : State) (c cycles : Nat) (b : Bound) (i : Image) (ops : List StepOp) (d : Send) (l : List Send),
    (s.carrel c).state = .running → (s.carrel c).bound = some b → s.image b.handle = some i →
    (∀ p, (s.carrel c).outs[d.port]? = some p → p.slots ≤ d.slot ∨ (edgeEnt i.content p.edge).slotBytes < d.offset + d.bytes ∨
      ((edgeEnt i.content p.edge).to_ ≠ 0xFF ∧ p.credits ≠ [] ∧ d.slot ∉ p.credits)) →
    Leads (.stepEnd c cycles ops (d :: l)) s fun t => (t.carrel c).state = .halted ∧ (t.carrel c).bound = none) ∧
  (∀ (s : State) (c code : Nat) (sessions : List Nat), (s.carrel c).state = .running →
    ∃ t, exec (.carrelFault c code none sessions) s = .next t ∧ (t.carrel c).state = .halted ∧ (t.carrel c).bound = none)

/-- The Stack under the word code: 1 to 64 whole aligned units written are read back as written, unpoisoned, and no other word
changes; a request that is no such run of units is none; a stage's request outside its grant is not performed and halts the stage,
while a ring unit reaches every address; an access beyond the 35-bit addresses is refused as no address; a refresh changes nothing; a
corrected word is written back where no write has reached it (R72, R76, R78, R126, R138, R139, R141, R143).
Choices of the model in it: log 2. -/
def Obligations.StackReadsBack : Prop :=
  (∀ (s : State) (source addr : Nat) (data : Bytes), s.fabric.stack.store.wf = true → addr % 64 = 0 → data.length % 64 = 0 →
    64 ≤ data.length → data.length ≤ 4096 → addr + data.length ≤ 2 ^ 35 →
    (256 ≤ source ∨ s.mayReach source addr data.length true = true) → Leads (.stackWriteRequest source addr data none) s fun t =>
      (∀ i, i < data.length / 32 → dataOf (t.fabric.stack.store.word (addr / 32 + i)) = (data.drop (32 * i)).take 32 ∧
        decideWord (t.fabric.stack.store.word (addr / 32 + i)) = .clean) ∧
      (∀ w, w < addr / 32 ∨ addr / 32 + data.length / 32 ≤ w → t.fabric.stack.store.word w = s.fabric.stack.store.word w) ∧
      t.fabric.stack.lastAck = List.replicate (data.length / 32) true ∧ t.fabric.stack.store.wf = true ∧ t.desk = s.desk) ∧
  (∀ (s : State) (source addr units : Nat), addr % 64 = 0 → 1 ≤ units → units ≤ 64 → addr + 64 * units ≤ 2 ^ 35 →
    (256 ≤ source ∨ s.mayReach source addr (64 * units) false = true) →
    (∀ i, i < 2 * units → decideWord (s.fabric.stack.store.word (addr / 32 + i)) = .clean) →
    exec (.stackReadRequest source addr units none) s = .next (s.modStack (fun m => { m with
      lastRead := (List.range (2 * units)).map (fun i => (dataOf (s.fabric.stack.store.word (addr / 32 + i)), false)) }))) ∧
  (∀ (s : State) (source addr units : Nat) (data : Bytes) (mask : Option (List Bool)) (band : Option Nat),
    (s.carrel source).state = .running → source < 256 → addr % 64 = 0 → 1 ≤ units → units ≤ 64 → addr + 64 * units ≤ 2 ^ 35 →
    data.length = 64 * units → (∀ m, mask = some m → m.length = data.length) →
    (s.mayReach source addr (64 * units) true = false →
      Leads (.stackWriteRequest source addr data mask) s fun t =>
        (t.carrel source).state = .halted ∧ t.fabric.stack.store.data = s.fabric.stack.store.data) ∧
    (s.mayReach source addr (64 * units) false = false →
      Leads (.stackReadRequest source addr units band) s fun t =>
        (t.carrel source).state = .halted ∧ t.fabric.stack.lastRead = s.fabric.stack.lastRead)) ∧
  (∀ (s : State) (source addr units : Nat) (band : Option Nat), addr + 64 * units ≤ 2 ^ 35 →
    (addr % 64 ≠ 0 ∨ units = 0 ∨ 64 < units) → exec (.stackReadRequest source addr units band) s = .next s) ∧
  (∀ (s : State) (source addr : Nat) (data : Bytes) (mask : Option (List Bool)), addr + data.length ≤ 2 ^ 35 →
    (addr % 64 ≠ 0 ∨ data.length % 64 ≠ 0 ∨ data.length = 0 ∨ 4096 < data.length) →
    exec (.stackWriteRequest source addr data mask) s = .next s) ∧
  (∀ (s : State) (source addr units : Nat) (band : Option Nat), 2 ^ 35 < addr + 64 * units →
    exec (.stackReadRequest source addr units band) s = .fault .noSuchAddress) ∧
  (∀ (s : State) (source addr : Nat) (data : Bytes) (mask : Option (List Bool)), 2 ^ 35 < addr + data.length →
    exec (.stackWriteRequest source addr data mask) s = .fault .noSuchAddress) ∧
  (∀ (s : State) (vault : Nat), exec (.stackRefresh vault) s = .next s) ∧
  (∀ (s : State) (w p : Nat) (v : Byte), w ∈ s.fabric.stack.writeBack →
    decideWord (s.fabric.stack.store.word w) = .oneByte p v →
    exec (.wordWriteBack (.stack w)) s = .next (s.modStack (fun m => { m with
      store := m.store.putWord w (fixWord (m.store.word w) p v), writeBack := m.writeBack.filter (· ≠ w) }))) ∧
  (∀ (s : State) (place : WordPlace), Leads (.wordWriteBack place) s fun t => t.desk = s.desk)

/-- Images are loaded piece by piece: a first piece takes the lowest free handle, the last one is checked and placed or refused;
a partial image without a further piece for 10 s is freed; a slot is loaded into an idle carrel and is ready there, with a credit for
each hand-over slot; the last slot ends the LOAD_IMAGE with the load's RESULT, every STACK_GRANT word zero; the first failure of a slot
is tried again on another carrel, and the second ends the load; a default image or one that a queue is bound to is not unloaded (R127,
R165 to R168, R176).
Choices of the model in it: logs 12, 48, 150, 154 and 156. -/
def Obligations.ImagesLoaded : Prop :=
  (∀ (s : State) (n h : Nat) (j : Job) (b : Bytes), s.Startable n 0x0101 j → fld j.slip 32 2 = 0 → pieceOk j.slip = true →
    fld j.slip 36 4 = 0 → fld j.slip 35 1 = 0 → s.freeHandle = some h →
    exec (.loadImage n (some b)) s = .next ((s.setImage h {
      state := .partial_, serving := fld j.slip 34 1 = 1, budget := fld j.slip 40 2, sq := j.sq
      content := takePad (dataLenOf j.slip) b, received := dataLenOf j.slip, pieceAt := s.now }).ended n (endWith [] 0 h))) ∧
  (∀ (s : State) (n h : Nat) (j : Job) (b : Bytes) (x y : Image), s.Startable n 0x0101 j → fld j.slip 32 2 = h → h ≠ 0 →
    s.image h = some x → pieceOk j.slip = true → x.follows j = true → fld j.slip 35 1 = 1 →
    y = { x with
      content := x.content ++ takePad (dataLenOf j.slip) b, received := x.received + dataLenOf j.slip, pieceAt := s.now } →
    y.received = imgLen y.content →
    Leads (.loadImage n (some b)) s fun t => match (s.setImage h y).placeFailure y with
      | some code => t.Answers n j (refusal code) ∧ t.images.table = amDel (amSet s.images.table h y) h ∧
          (code ≠ stNoResource → t.desk = (s.ended n (refusal code)).desk)
      | none => t.desk = (s.took n).desk ∧ t.image h = some { y with
          state := .placing n, ownerSigned := signerOf y.content = 2, measurement := measurementOf y.content
          base := ((s.setImage h y).scratchRoom (imgStackBytes y.content)).getD 0, inCredits := inputCredits y.content
          counters := List.replicate (imgStages y.content) {}, steps := List.replicate (imgStages y.content) 0 }) ∧
  (∀ (s : State) (h : Nat) (x : Image), s.image h = some x → x.state = .partial_ →
    x.pieceAt + 10000000000 ≤ s.now →
    Leads (.partialImageTimeout h) s fun t => t.images.table = amDel s.images.table h ∧ t.desk = s.desk) ∧
  (∀ (s : State) (c h stage slot : Nat) (i : Image), s.image h = some i → c < 256 → (s.carrel c).state = .idle →
    (s.carrel c).bound = none → s.takes h i (stage, slot) = true → (stage, slot, c) ∉ i.failed →
    s.spillIn (bayOf c) + spilledBytes i.content stage slot ≤ 64 * 2 ^ 20 → s.taken i.serving < s.share i.serving →
    (∀ e ∈ s.fabric.carrels, e.2.bound ≠ some { handle := h, stage := stage, slot := slot, serving := i.serving }) →
    exec (.stageLoad c h stage slot) s = .next (s.setCarrel c { s.carrel c with
      state := .loading, bound := some { handle := h, stage := stage, slot := slot, serving := i.serving } })) ∧
  (∀ (s : State) (c n : Nat) (b : Bound) (i : Image), (s.carrel c).state = .loading → (s.carrel c).bound = some b →
    s.image b.handle = some i → i.state = .placing n → s.running n = true →
    (∀ e ∈ slotSections i.content b.stage b.slot, digest (sectionBytes i.content e) = e.digest) →
    Leads (.stageLoadEnd c false) s fun t => (t.carrel c).state = .ready ∧ (t.carrel c).bound = some b ∧
      (t.carrel c).ins = (boundPorts i.content b.stage b.slot).1 ∧ (t.carrel c).outs = (boundPorts i.content b.stage b.slot).2 ∧
      ({ i with placed := i.placed ++ [(b.stage, b.slot, c)] }.complete = false → t.desk = s.desk) ∧
      ({ i with placed := i.placed ++ [(b.stage, b.slot, c)] }.complete = true →
        t.desk = (s.finish n (endWith i.codes 0 (loadResult b.handle i.content))).desk ∧
        t.security.images = digest (s.security.images ++ i.measurement ++ le 2 b.handle) ∧
        ∀ r ∈ scratchRuns i.base (grantsEnd i.content), ∀ w, r.1 ≤ w → w < r.2 →
          dataOf (t.fabric.stack.store.word w) = List.replicate 32 0)) ∧
  (∀ (s : State) (c n : Nat) (b : Bound) (i : Image), (s.carrel c).state = .loading → (s.carrel c).bound = some b →
    s.image b.handle = some i → i.state = .placing n → s.running n = true → (∀ f ∈ i.failed, ¬(f.1 = b.stage ∧ f.2.1 = b.slot)) →
    Leads (.stageLoadEnd c true) s fun t => (t.carrel c).state = .idle ∧ (t.carrel c).bound = none ∧ t.desk = s.desk ∧
      t.image b.handle = some { i with failed := i.failed ++ [(b.stage, b.slot, c)] }) ∧
  (∀ (s : State) (c n : Nat) (b : Bound) (i : Image), (s.carrel c).state = .loading → (s.carrel c).bound = some b →
    s.image b.handle = some i → i.state = .placing n → s.running n = true → (∃ f ∈ i.failed, f.1 = b.stage ∧ f.2.1 = b.slot) →
    Leads (.stageLoadEnd c true) s fun t => (t.carrel c).bound = none ∧ t.images.table = amDel s.images.table b.handle ∧
      t.desk = (s.finish n (refusal stDiscarded)).desk) ∧
  (∀ (s : State) (n : Nat) (j : Job) (x : Image), s.Startable n 0x0102 j → s.image (fld j.slip 32 2) = some x →
    x.default_ = false → x.state = .loaded → x.queues = [] → s.handleNamed (fld j.slip 32 2) = false →
    Leads (.unloadImage n) s fun t => t.images.table = amDel s.images.table (fld j.slip 32 2) ∧
      t.desk = (s.ended n (endWith [])).desk) ∧
  (∀ (s : State) (n : Nat) (j : Job) (x : Image), s.Startable n 0x0102 j → s.image (fld j.slip 32 2) = some x →
    (x.default_ = true ∨ x.queues ≠ []) → exec (.unloadImage n) s = .next (s.ended n (refusal stNotPermitted)))

/-- Images bound and run: a binding adds the queue; an unbinding ends once no run from the queue is in flight; a query reports the
image; a run enters the pipeline with its seed offset and the time of its start, an input going on its edge as one hand-over where
its credits are held; it ends with its counts, its flags and its outputs once every output edge has delivered its hand-over, is
discarded where a word of them is poisoned, and ends at its deadline without output once none of its steps runs (R144, R145, R165, R168
to R174, R546).
Choices of the model in it: logs 13, 158, 160 and 161. -/
def Obligations.ImagesRun : Prop :=
  (∀ (s : State) (n q h : Nat) (j : Job) (x : Image), s.Startable n 0x0103 j → fld j.slip 32 4 = q → fld j.slip 36 2 = h →
    s.image h = some x → x.default_ = false → x.state = .loaded → (s.queue q).kind = .submission → (s.queue q).state ≠ .free →
    (s.queue q).serving = x.serving → (imgStateful x.content = true → ∀ r ∈ x.queues, r = q) →
    exec (.bindImage n) s = .next ((s.setImage h { x with
      queues := if x.queues.contains q then x.queues else x.queues ++ [q] }).ended n (endWith []))) ∧
  (∀ (s : State) (n q h : Nat) (j : Job) (x : Image), s.Startable n 0x0104 j → fld j.slip 32 4 = q → fld j.slip 36 2 = h →
    s.image h = some x → q ∈ x.queues → x.unbinding = [] → (s.took n).runsFrom h q = false →
    Leads (.unbindImage n) s fun t => t.image h = some { x with queues := x.queues.filter (· ≠ q), unbinding := [] } ∧
      t.desk = (s.ended n (endWith [])).desk) ∧
  (∀ (s : State) (n q h : Nat) (j : Job) (x : Image), s.Startable n 0x0104 j → fld j.slip 32 4 = q → fld j.slip 36 2 = h →
    s.image h = some x → q ∈ x.queues → x.unbinding = [] → (s.took n).runsFrom h q = true →
    Leads (.unbindImage n) s fun t => t.image h = some { x with unbinding := [(q, n)] } ∧ t.desk = (s.took n).desk) ∧
  (∀ (s : State) (n h : Nat) (j : Job) (x : Image), s.Startable n 0x0105 j → fld j.slip 32 2 = h → s.image h = some x →
    x.state = .loaded → 64 + 32 * imgStages x.content ≤ dataLenOf j.slip →
    exec (.queryImage n) s = .next (s.ended n (endWith [] 0 0 [(0, takePad 32 x.measurement ++
      packB 32 [(0, 2, h), (2, 2, x.queues.length), (4, 2, spilledStages x.content)] ++
      (List.range (imgStages x.content)).flatMap (stageRecord x))]))) ∧
  (∀ (s : State) (n h : Nat) (j : Job) (x : Image), s.Startable n 0x0105 j → fld j.slip 32 2 = h → s.image h = some x →
    x.state = .loaded → dataLenOf j.slip < 64 + 32 * imgStages x.content →
    exec (.queryImage n) s = .next (s.ended n (refusalNotStarted stTooLarge))) ∧
  (∀ (s : State) (n h : Nat) (j : Job) (x : Image) (b : Bytes), s.Startable n 0x0110 j → fld j.slip 32 2 = h →
    s.image h = some x → x.state = .loaded → x.complete = true → (s.runsOf h).length < x.places → fld j.slip 34 6 = 0 → fld j.slip 48 16 = 0 →
    dataLenOf j.slip = edgeBytes (inputEdges x.content) + edgeBytes (outputEdges x.content) → j.sq ∈ x.queues →
    (∀ p ∈ x.unbinding, p.1 ≠ j.sq) →
    Leads (.runImage n (some b)) s fun t => t.job n = some { j with started := true } ∧ ∃ r ∈ t.images.runs, r.job = n ∧ r.handle = h ∧
      r.sq = j.sq ∧ r.seedOffset = fld j.slip 40 8 ∧ r.startAt = s.now ∧ r.steps = 0 ∧ r.expired = false ∧
      r.outputs.map (·.1) = outputNumbers x.content ∧
      ∀ i ∈ r.inputs, i ∈ cutInputs x.content (inputNumbers x.content) (takePad (dataLenOf j.slip) b)) ∧
  (∀ (s : State) (n h edge k : Nat) (j : Job) (x : Image) (b : Bytes) (e : EdgeEnt), s.Startable n 0x0110 j → fld j.slip 32 2 = h →
    s.image h = some x → x.state = .loaded → x.complete = true → fld j.slip 34 6 = 0 → fld j.slip 48 16 = 0 →
    dataLenOf j.slip = edgeBytes (inputEdges x.content) + edgeBytes (outputEdges x.content) → j.sq ∈ x.queues →
    (∀ p ∈ x.unbinding, p.1 ≠ j.sq) → (∀ r ∈ s.images.runs, r.handle ≠ h) → inputNumbers x.content = [edge] →
    edgeEnt x.content edge = e → e.medium = 0 → x.inputSlot edge = some k →
    Leads (.runImage n (some b)) s fun t =>
      t.fabric.mesh = s.fabric.mesh ++ (fanPairs e.fan 1 (endWidth x.content e.to_)).flatMap (fun p =>
        match x.placed.find? (fun q => q.1 == e.to_ && q.2.1 == p.2) with
        | none => []
        | some q =>
          let m : MeshMsg := { src := 256, dst := q.2.2, serving := x.serving, port := portOf (s.carrel q.2.2).ins edge 0
                               body := .token { slot := k, bytes := e.slotBytes, seq := x.inSeq, run := some n } }
          dataMsgs m k 0 (takePad e.slotBytes (takePad (dataLenOf j.slip) b)) [] ++ [m]) ∧
      t.image h = some (x.spendInput edge k) ∧ ∃ r ∈ t.images.runs, r.job = n ∧ r.inputs = []) ∧
  (∀ (s : State) (n h : Nat) (j : Job) (x : Image) (b : BufRead), s.job n = some j → fld j.slip 32 2 = h →
    s.image h = some x → (x.places ≤ (s.runsOf h).length ∨ x.state = .loaded ∧ x.complete = false) →
    exec (.runImage n b) s = .next s) ∧
  (∀ (s : State) (n : Nat) (r : Run) (x : Image), s.images.runs.find? (fun r => r.job == n) = some r →
    s.image r.handle = some x → (r.expired = true ∨ ∃ o ∈ r.outputs, outputDone x.content o = false) →
    exec (.runEnd n) s = .next s) ∧
  (∀ (s : State) (n : Nat) (r : Run) (x : Image), s.images.runs.find? (fun r => r.job == n) = some r →
    s.image r.handle = some x → r.expired = false → (∀ o ∈ r.outputs, outputDone x.content o = true) →
    (∃ o ∈ r.outputs, o.2.2.2 = true) →
    exec (.runEnd n) s = .next (({ s with images := { s.images with
      runs := s.images.runs.filter (fun i => i.job ≠ n) } } : State).finish n
        (endWith (stDiscarded :: x.codes) (runFlags r.events true)))) ∧
  (∀ (s : State) (n : Nat) (r : Run) (x : Image), s.images.runs.find? (fun r => r.job == n) = some r →
    s.image r.handle = some x → r.expired = false → (∀ o ∈ r.outputs, outputDone x.content o = true) →
    (∀ o ∈ r.outputs, o.2.2.2 = false) →
    exec (.runEnd n) s = .next (({ s with images := { s.images with
      runs := s.images.runs.filter (fun i => i.job ≠ n) } } : State).finish n
        (endWith x.codes (runFlags r.events false) (runResult s r)
          [(edgeBytes (inputEdges x.content), r.outputs.flatMap (fun o => takePad (up64 o.2.1.length) o.2.1))]))) ∧
  (∀ (s : State) (n : Nat) (j : Job) (r : Run) (x : Image), s.images.runs.find? (fun r => r.job == n) = some r →
    s.job n = some j → s.passed (deadlineOf j.slip) = true → s.image r.handle = some x →
    (∀ e ∈ s.fabric.carrels, e.2.stepOf n = false) →
    exec (.runDeadline n) s = .next (({ s with images := { s.images with
      runs := s.images.runs.filter (fun i => i.job ≠ n) } } : State).finish n
        (endWith (stPartialDeadline :: x.codes) (runFlags r.events true) (runResult s r)))) ∧
  (∀ (s : State) (n : Nat) (j : Job) (r : Run), s.images.runs.find? (fun r => r.job == n) = some r →
    s.job n = some j → s.passed (deadlineOf j.slip) = true → (∃ e ∈ s.fabric.carrels, e.2.stepOf n = true) →
    exec (.runDeadline n) s = .next { s with images := { s.images with
      runs := s.images.runs.map (fun q => if q.job = n then { q with expired := true, inputs := [] } else q) } }) ∧
  (∀ (s : State) (n : Nat) (j : Job), s.job n = some j → s.passed (deadlineOf j.slip) = false →
    exec (.runDeadline n) s = .next s)

/-- Streams: an accepted descriptor opens a stream with its fresh state and reserves its bytes; a stream that no consumer holds is
closed; a query reports its counters; silence is reported once; a set's buffer returns when the Concordance unit has taken it
(R181, R182, R190, R195, R198, R199).
Choices of the model in it: logs 50 and 168. -/
def Obligations.StreamsOpened : Prop :=
  (∀ (s : State) (n k : Nat) (j : Job) (b : Bytes) (d : StreamDesc), s.Startable n 0x0820 j → fld j.slip 32 2 = k →
    paramsClear j.slip [(32, 2)] = true → k ≤ 1023 → dataLenOf j.slip = 64 → s.stream k = none → b.length = 64 →
    d = streamDescOf b → s.streamDescOk b = true → d.udpPort ≠ 319 → d.udpPort ≠ 320 →
    (∀ e ∈ s.accession.streams, e.2.desc.same d = false) → s.streamRoom k d = true →
    s.frameStoreUsed + s.streamBytes d ≤ frameStoreBytes →
    exec (.openStream n (some b)) s =
      .next ((s.setStream k (s.freshStream d)).draw.draw.ended n (endWith [] 0 (kib (s.streamBytes d))))) ∧
  (∀ (s : State) (n k : Nat) (j : Job) (x : Stream), s.Startable n 0x0821 j → fld j.slip 32 2 = k →
    paramsClear j.slip [(32, 2)] = true → k ≤ 1023 → s.stream k = some x → x.closing = none →
    (∀ e ∈ x.buffers, e = .free ∨ e = .filling) → s.boundTo k = none →
    (∀ g ∈ s.vision.graphs, g.1 ≠ k ∧ g.2.set.pair ≠ some k) → (∀ c ∈ x.channels, c.pending = []) →
    Leads (.closeStream n) s fun t => t.desk = (s.ended n (endWith [])).desk ∧
      t.accession.streams = amDel (amSet s.accession.streams k { x.discardUnit with closing := some n }) k ∧
      t.vision = s.vision) ∧
  (∀ (s : State) (n k : Nat) (j : Job) (x : Stream), s.Startable n 0x0822 j → fld j.slip 32 2 = k →
    paramsClear j.slip [(32, 2)] = true → k ≤ 1023 → s.stream k = some x → 64 ≤ dataLenOf j.slip →
    exec (.queryStream n) s = .next (s.ended n (endWith [] 0 0 [(0, packB 64 [(0, 8, x.packets), (8, 8, x.units),
      (16, 4, x.incomplete), (20, 4, x.busy), (24, 4, x.late), (28, 4, x.lost), (32, 4, x.violations), (36, 4, x.degraded),
      (40, 8, x.lastArrival), (48, 1, x.lastReason)])]))) ∧
  (∀ (s : State) (k : Nat) (x : Stream), s.stream k = some x → x.silent = false → x.closing = none →
    max x.lastArrival x.openedAt + x.desc.silence ≤ s.now →
    exec (.streamSilent k) s =
      .next ((s.setStream k { x with silent := true }).event x.desc.eventQueue { code := 0x0822, subject := k })) ∧
  (∀ (s : State) (k b : Nat) (x : Stream) (p : PointSet), s.stream k = some x → x.closing = none →
    x.buffers[b]? = some (.set p [.fusion]) → (∀ u ∈ s.concord.reached, u.stream = k → u.number ≠ p.number) →
    Leads (.frameBufferRelease k b) s fun t => t.stream k = some { x with buffers := modAt x.buffers b (fun _ => .free) } ∧
      t.desk = s.desk)

/-- Packets of streams: the first frame that waits at a port is taken for its stream and counted; a video packet opens a frame with
the lowest free buffer or adds its rows to the open one; samples in order and a set's parts are taken; a packet that breaks a rule
is counted as a violation with its reason; frames and sets close at their times (R183, R184, R187 to R192, R194, R195, R200).
Choices of the model in it: logs 20 and 69. -/
def Obligations.PacketsTaken : Prop :=
  (∀ (s : State) (l n : Nat) (x : Stream) (a : Arrival) (f : Frame) (r : Rtp), s.PacketFor l 0 n x a →
    r = rtpOf ((parseFrame a.frame).data a.frame) → videoFault x.desc r = none → x.frame = some f → f.rtp = r.timestamp →
    (x.ssrc = none ∨ x.ssrc = some r.ssrc) →
    Leads (.videoPacket l) s fun t => ∃ y g, t.stream n = some y ∧ y.frame = some g ∧ g.seqs = r.seq :: f.seqs ∧
      g.number = f.number ∧ y.packets = satAdd 64 x.packets 1 ∧ y.lastArrival = a.time ∧ y.silent = false ∧
      y.closedUnits = x.closedUnits) ∧
  (∀ (s : State) (l n : Nat) (x : Stream) (a : Arrival) (r : Rtp), s.PacketFor l 0 n x a →
    r = rtpOf ((parseFrame a.frame).data a.frame) → videoFault x.desc r = none → x.frame = none → x.isClosed r.timestamp = false →
    x.poolWait = false → x.sramBand = false → (x.ssrc = none ∨ x.ssrc = some r.ssrc) →
    Leads (.videoPacket l) s fun t => ∃ y g, t.stream n = some y ∧ y.frame = some g ∧ g.seqs = [r.seq] ∧
      g.rtp = r.timestamp ∧ g.number = x.closedUnits ∧ g.buffer = x.freeBuffer ∧ g.arrival = a.time ∧
      g.capture = (if x.desc.timing = 1 then (rtpCapture a.time r.timestamp).1 else subTime a.time x.desc.latency) ∧
      (x.freeBuffer = none → y.busy = satAdd 32 x.busy 1)) ∧
  (∀ (s : State) (l n reason : Nat) (x : Stream) (a : Arrival), s.PacketFor l 0 n x a →
    videoFault x.desc (rtpOf ((parseFrame a.frame).data a.frame)) = some reason →
    Leads (.videoPacket l) s fun t => ∃ y, t.stream n = some y ∧ y.violations = satAdd 32 x.violations 1 ∧
      y.lastReason = reason ∧ y.frame = x.frame) ∧
  (∀ (s : State) (l n : Nat) (x : Stream) (a : Arrival) (b : Bytes), s.PacketFor l 1 n x a →
    b = (parseFrame a.frame).data a.frame → sampleFault x.desc b = none → x.desc.preset = 0 → x.desc.timing = 0 →
    x.expected = some (fldB b 8 8) → (fldB b 29 1).testBit 1 = false →
    Leads (.samplePacket l) s fun t => ∃ y, t.stream n = some y ∧ y.expected = some (fldB b 8 8 + fldB b 26 2) ∧
      y.packets = satAdd 64 x.packets 1 ∧ y.outIndex = (x.outIndex + fldB b 26 2) % 2 ^ 32) ∧
  (∀ (s : State) (l n : Nat) (x : Stream) (a : Arrival) (b : Bytes) (q : PointSet), s.PacketFor l 2 n x a →
    b = (parseFrame a.frame).data a.frame → pointFault x.desc b = none → x.set = some q → q.set = fldB b 16 4 →
    q.parts = fldB b 22 2 → q.got = [] → q.dropped = [] → fldB b 24 2 ≤ x.desc.capacity → 1 < fldB b 22 2 →
    Leads (.pointPacket l) s fun t => ∃ y, t.stream n = some y ∧ y.set = some { q with
      got := [{ part := fldB b 20 2, format := fldB b 26 1, data := b.drop 32 }] } ∧ y.packets = satAdd 64 x.packets 1) ∧
  (∀ (s : State) (k m : Nat) (x : Stream) (f : Frame), s.stream k = some x → x.frame = some f → f.marker = some m →
    m + 50000 ≤ s.now →
    Leads (.frameMarkerGrace k) s fun t => ∃ y, t.stream k = some y ∧ y.frame = none ∧ y.closedUnits = x.closedUnits + 1) ∧
  (∀ (s : State) (k : Nat) (x : Stream) (f : Frame), s.stream k = some x → x.frame = some f →
    f.arrival + x.desc.twoPeriods ≤ s.now →
    Leads (.framePeriodTimeout k) s fun t => ∃ y, t.stream k = some y ∧ y.frame = none ∧ y.closedUnits = x.closedUnits + 1) ∧
  (∀ (s : State) (k : Nat) (x : Stream) (p : PointSet), s.stream k = some x → x.set = some p →
    p.arrival + x.desc.twoPeriods ≤ s.now →
    Leads (.pointSetTimeout k) s fun t => ∃ y, t.stream k = some y ∧ y.set = none ∧ y.closedUnits = x.closedUnits + 1)

/-- Chains and rectification tables: a chain is set with its taps while no open stream names it; a channel's settings wait for their
output; the channels' records are reported; a table is loaded with its band, and dropped while no stream names it (R206, R219 to
R223, R229, R230).
Choices of the model in it: log 51. -/
def Obligations.ChainsAndTables : Prop :=
  (∀ (s : State) (n c : Nat) (j : Job) (b : Bytes), s.Startable n 0x0824 j → fld j.slip 32 1 = c → c ≤ 15 →
    3 ≤ fld j.slip 33 1 → fld j.slip 33 1 ≤ 5 → fld j.slip 34 1 ∈ [4, 8, 16, 32, 64] → 1 ≤ fld j.slip 36 2 →
    fld j.slip 36 2 ≤ 255 → paramsClear j.slip [(32, 3), (36, 2)] = true → dataLenOf j.slip = 4 * fld j.slip 36 2 →
    b.length = dataLenOf j.slip → (tapsOf j.slip b).all f32finite = true → (tapsOf j.slip b).reverse = tapsOf j.slip b →
    s.chainNamed c = false →
    exec (.setChain n (some b)) s = .next (({ s with accession := { s.accession with
      chains := amSet s.accession.chains c ({ n := fld j.slip 33 1, d := fld j.slip 34 1, taps := tapsOf j.slip b } : Chain) } }
        : State).ended n (endWith []))) ∧
  (∀ (s : State) (n k : Nat) (j : Job) (x : Stream), s.Startable n 0x0825 j → fld j.slip 32 2 = k → s.stream k = some x →
    x.desc.kind = 1 → x.desc.preset ≠ 0 → x.closing = none → fld j.slip 34 1 < x.desc.channels → channelSetOk j.slip = true →
    exec (.setChannel n) s = .next ((s.took n).setStream k { x with
      channels := modAt x.channels (fld j.slip 34 1) (fun c => { c with pending := c.pending ++ [{
        job := n, at_ := if (fld j.slip 35 1).testBit 3 then none else some (fld j.slip 52 4), settings := channelSetOf j.slip
        late := !(fld j.slip 35 1).testBit 3 && decide (1 ≤ behind x.outIndex (fld j.slip 52 4)) &&
          decide (behind x.outIndex (fld j.slip 52 4) ≤ 2 ^ 31) }] }) })) ∧
  (∀ (s : State) (n k : Nat) (j : Job) (x : Stream), s.Startable n 0x0826 j → fld j.slip 32 2 = k → s.stream k = some x →
    x.desc.kind = 1 → 32 * x.desc.channels ≤ dataLenOf j.slip →
    exec (.queryChannels n) s = .next (s.ended n (endWith [] 0 0 [(0, x.channels.flatMap Channel.report)]))) ∧
  (∀ (s : State) (n k : Nat) (j : Job) (b : Bytes), s.Startable n 0x0705 j → fld j.slip 32 4 = k → k ≠ 0 →
    paramsClear j.slip [(32, 4)] = true → amGet s.accession.remaps k = none → s.accession.remaps.length < 256 →
    b.length = dataLenOf j.slip → remapHeaderOk b (dataLenOf j.slip) = true → (remapFrom b).band ≤ 1024 →
    s.frameStoreUsed + (remapFrom b).bytes ≤ frameStoreBytes →
    exec (.loadRemap n (some b)) s = .next (({ s with accession := { s.accession with
      remaps := amSet s.accession.remaps k (remapFrom b) } } : State).ended n
        (endWith [] 0 ((remapFrom b).band + kib (remapFrom b).ringBytes * 2 ^ 32)))) ∧
  (∀ (s : State) (n k : Nat) (j : Job), s.Startable n 0x0706 j → fld j.slip 32 4 = k → k ≠ 0 →
    paramsClear j.slip [(32, 4)] = true → (amGet s.accession.remaps k).isSome = true →
    (∀ e ∈ s.accession.streams, e.2.desc.remap ≠ k) →
    exec (.dropRemap n) s = .next (({ s with accession := { s.accession with
      remaps := amDel s.accession.remaps k } } : State).ended n (endWith [])))

/-- Frame graphs: a graph whose conditions hold is defined; started, it runs from a restart and reserves its slots; stopped with no
frame in flight it is defined again at once; its report and its end; a waiting stereo frame takes the nearest pair frame within the
tolerance, or is skipped; a frame whose stages have ended leaves (R243, R245 to R250, R252, R253).
Choices of the model in it: logs 70 and 172. -/
def Obligations.GraphsRun : Prop :=
  (∀ (s : State) (n k : Nat) (j : Job) (x : Stream) (g : GraphSet) (c : Bytes), s.Startable n 0x0701 j → fld j.slip 32 2 = k →
    g = graphSetOf j.slip → s.stream k = some x → x.desc.kind = 0 → x.closing = none → s.graph k = none →
    s.flowImage g.flowImage = some c → (g.flow = true → flowFits c g (s.planeSize x.desc).1 (s.planeSize x.desc).2 = true) →
    s.pairBad k x g = false → g.depth + 2 ≤ x.desc.buffers → s.graphFieldsOk j.slip = true → g.stagesOk = true →
    exec (.defineGraph n) s = .next ((s.setGraph k { set := g }).ended n (endWith []))) ∧
  (∀ (s : State) (n k : Nat) (j : Job) (x : Stream), s.Startable n 0x0701 j → fld j.slip 32 2 = k → s.stream k = some x →
    s.flowImage (graphSetOf j.slip).flowImage = none →
    exec (.defineGraph n) s = .next (s.ended n (refusal stNotPermitted))) ∧
  (∀ (s : State) (n k : Nat) (j : Job) (x : Stream) (g : Graph), s.Startable n 0x0702 j → fld j.slip 32 2 = k →
    paramsClear j.slip [(32, 2)] = true → s.graph k = some g → s.stream k = some x → g.state = .defined → x.closing = none →
    s.frameStoreUsed + graphBytes g.set (s.planeSize x.desc).1 (s.planeSize x.desc).2 ≤ frameStoreBytes →
    exec (.startGraph n) s = .next ((s.setGraph k { g with
      state := .running, restart := true, reference := none, lastEntered := none, framesRun := 0, msum := 0, gap := 0 }).ended n
        (endWith [] 0 (kib (graphBytes g.set (s.planeSize x.desc).1 (s.planeSize x.desc).2))))) ∧
  (∀ (s : State) (n k : Nat) (j : Job) (g : Graph), s.Startable n 0x0703 j → fld j.slip 32 2 = k →
    paramsClear j.slip [(32, 2)] = true → s.graph k = some g → g.state = .running → g.inFlight ≠ [] →
    exec (.stopGraph n) s = .next ((s.took n).setGraph k { g with state := .stopping, stopJob := some n })) ∧
  (∀ (s : State) (n k : Nat) (j : Job) (g : Graph), s.Startable n 0x0703 j → fld j.slip 32 2 = k →
    paramsClear j.slip [(32, 2)] = true → s.graph k = some g → g.state = .running → g.inFlight = [] →
    (s.stream k).any (·.closing.isSome) = false → (g.set.pair.bind s.stream).any (·.closing.isSome) = false →
    Leads (.stopGraph n) s fun t => t.job n = some { j with
        started := true, ending := some (endWith [] 0 (sat 32 g.framesRun)) } ∧
      ∃ g', t.graph k = some g' ∧ g'.state = .defined ∧ g'.reference = none ∧ g'.set = g.set) ∧
  (∀ (s : State) (n k : Nat) (j : Job) (g : Graph), s.Startable n 0x0704 j → fld j.slip 32 2 = k →
    paramsClear j.slip [(32, 2)] = true → s.graph k = some g → 64 ≤ dataLenOf j.slip →
    exec (.queryGraph n) s = .next (s.ended n (endWith [] 0 0 [(0, g.report)]))) ∧
  (∀ (s : State) (n k : Nat) (j : Job) (g : Graph), s.Startable n 0x0707 j → fld j.slip 32 2 = k →
    paramsClear j.slip [(32, 2)] = true → s.graph k = some g → g.state = .defined →
    exec (.undefineGraph n) s = .next (({ s with vision := { s.vision with
      graphs := amDel s.vision.graphs k } } : State).ended n (endWith []))) ∧
  (∀ (s : State) (k number p : Nat) (g : Graph) (r : FrameRun) (x : Stream) (f : Frame) (c : Nat × Frame), s.graph k = some g →
    g.frame number = some r → g.set.pair = some p → s.stream p = some x → s.frameIn k r.buffer = some f → g.set.stereo = true →
    r.stage = 2 → r.other = none → r.deliveredAt + x.desc.twoPeriods ≤ s.now →
    choosePair g.set.pairTol f.capture (s.pairFrames p) = some c →
    Leads (.pairWaitTimeout k number) s fun t => t.desk = s.desk ∧
      t.graph k = some (g.modFrame number (fun r => { r with other := some (c.2.number, c.1) }))) ∧
  (∀ (l : List (Nat × Frame)) (tol capture : Nat) (c : Nat × Frame), choosePair tol capture l = some c →
    c ∈ l ∧ timeGap c.2.capture capture ≤ tol * 1000 ∧
    ∀ e ∈ l, timeGap e.2.capture capture ≤ tol * 1000 → timeGap c.2.capture capture ≤ timeGap e.2.capture capture ∧
      (timeGap e.2.capture capture = timeGap c.2.capture capture → c.2.capture ≤ e.2.capture)) ∧
  (∀ (s : State) (k number : Nat) (g : Graph) (r : FrameRun), s.graph k = some g → g.frame number = some r → r.stage = 6 →
    Leads (.frameEnd k number) s fun t => ∃ g', t.graph k = some g' ∧ g'.run = satAdd 32 g.run 1 ∧
      g'.lastFrame = number % 2 ^ 32 ∧ g'.inFlight = g.inFlight.filter (fun r => r.number ≠ number))

/-- Fusion set up and asked: a grid is set while fusion does not run; a start takes the given or the next multiple of the period as
origin and opens its first epoch; a stop with nothing computing ends at once with the last epoch's number; sensors are bound,
removed, and told to be quarantined or released at the next close; reports, and the oldest retained track list after a SEQ
(R267, R279, R282 to R287). -/
def Obligations.FusionCommands : Prop :=
  (∀ (s : State) (n : Nat) (j : Job) (b : Bytes), s.Startable n 0x0601 j → dataLenOf j.slip = 64 → fld j.slip 32 32 = 0 →
    b.length = 64 → s.gridOk b = true → s.concord.state ≠ .running → s.concord.state ≠ .stopping →
    s.gridImageOk (gridSetOf b).image = true →
    exec (.setGrid n (some b)) s = .next ((s.modConcord (fun c => { c with
      grid := some (gridSetOf b), state := .set, overruns := 0, amendments := 0, failed := 0 })).ended n (endWith []))) ∧
  (∀ (s : State) (n t0 : Nat) (j : Job) (g : GridSet), s.Startable n 0x0602 j → s.concord.grid = some g → fld j.slip 40 24 = 0 →
    s.concord.state = .set → t0 = (if fld j.slip 32 8 = 0 then (s.now / g.period + 1) * g.period else fld j.slip 32 8) →
    Leads (.startFusion n) s fun t => t.desk = (s.ended n (endWith [] 0 (max 1 ((s.now - t0 + g.period - 1) / g.period)))).desk ∧
      t.concord.state = .running ∧ t.concord.origin = t0 ∧
      t.concord.openEpoch = max 1 ((s.now - t0 + g.period - 1) / g.period) ∧ t.concord.held = [] ∧ t.concord.reached = [] ∧
      t.concord.computing = none ∧ t.concord.grid = some g) ∧
  (∀ (s : State) (n : Nat) (j : Job) (e : Epoch), s.Startable n 0x0603 j → fld j.slip 32 32 = 0 → s.concord.state = .running →
    s.concord.computing = some e → s.concord.closing = none →
    exec (.stopFusion n) s = .next ((s.took n).modConcord (fun c => { c with
      state := .stopping, held := [], folded := [], reached := [], postponed := none, stopJob := some n, byReference := false }))) ∧
  (∀ (s : State) (n : Nat) (j : Job), s.Startable n 0x0603 j → fld j.slip 32 32 = 0 → s.concord.state = .running →
    s.concord.computing = none → s.concord.amending = false → s.concord.closing = none →
    Leads (.stopFusion n) s fun t => t.concord.state = .set ∧ t.concord.held = [] ∧ t.concord.last = none ∧
      t.job n = some { j with started := true, ending := some (endWith [] 0 s.concord.lastEpoch) }) ∧
  (∀ (s : State) (n k : Nat) (j : Job) (b : Bytes), s.Startable n 0x0604 j → fld j.slip 32 2 = k → k ≤ 255 →
    fld j.slip 34 30 = 0 → b.length = dataLenOf j.slip → bindingOk b (dataLenOf j.slip) = true →
    amGet s.concord.bindings k = none → s.boundTo (bindingOf b).stream = none → s.sourceMatches (bindingOf b) = true →
    exec (.bindSensor n (some b)) s = .next ((s.modConcord (fun c => { c with
      bindings := amSet c.bindings k (bindingOf b) })).ended n (endWith []))) ∧
  (∀ (s : State) (n k : Nat) (j : Job) (x : Binding), s.Startable n 0x0605 j → fld j.slip 32 2 = k → k ≤ 255 →
    fld j.slip 34 30 = 0 → amGet s.concord.bindings k = some x →
    (s.concord.state = .running → exec (.unbindSensor n) s = .next ((s.took n).modConcord (fun c => { c with
      atClose := c.atClose ++ [.unbind n k] }))) ∧
    (s.concord.state ≠ .running → (s.stream x.stream).any (·.closing.isSome) = false →
      exec (.unbindSensor n) s = .next ((s.modConcord (fun c => { c with
        bindings := amDel c.bindings k, runs := dropRuns k c.runs, held := c.held.filter (fun u => u.2.binding ≠ k)
        gathered := c.gathered.filter (fun u => u.binding ≠ k) })).ended n (endWith [])))) ∧
  (∀ (s : State) (n k : Nat) (j : Job), s.Startable n 0x0606 j → fld j.slip 32 2 = k → k ≤ 255 → fld j.slip 34 30 = 0 →
    (amGet s.concord.bindings k).isSome = true →
    exec (.quarantineSensor n) s = .next ((s.took n).modConcord (fun c => { c with atClose := c.atClose ++ [.quarantine n k] }))) ∧
  (∀ (s : State) (n k : Nat) (j : Job), s.Startable n 0x0607 j → fld j.slip 32 2 = k → k ≤ 255 → fld j.slip 34 30 = 0 →
    (amGet s.concord.bindings k).isSome = true →
    exec (.releaseSensor n) s = .next ((s.took n).modConcord (fun c => { c with atClose := c.atClose ++ [.release n k] }))) ∧
  (∀ (s : State) (n : Nat) (j : Job), s.Startable n 0x0608 j → fld j.slip 32 32 = 0 → 64 ≤ dataLenOf j.slip →
    exec (.queryFusion n) s = .next (s.ended n (endWith [] 0 0 [(0, s.concord.report)]))) ∧
  (∀ (s : State) (n : Nat) (j : Job), s.Startable n 0x0609 j → fld j.slip 32 32 = 0 →
    48 * s.concord.bindings.length ≤ dataLenOf j.slip →
    exec (.querySensors n) s = .next (s.ended n (endWith [] 0 0 [(0, s.concord.bindings.flatMap (fun e => e.2.record e.1))]))) ∧
  (∀ (s : State) (n k : Nat) (j : Job) (l : TrackList), s.Startable n 0x0610 j → fld j.slip 36 28 = 0 → 128 ≤ dataLenOf j.slip →
    s.concord.listAfter (fld j.slip 32 4) = some l → k = min l.tracks.length ((dataLenOf j.slip - 128) / 64) →
    exec (.readTracks n) s = .next (s.ended n (endWith []
      (flag (l.seq ≠ (fld j.slip 32 4 + 1) % 2 ^ 32) + 2 * flag (decide (k < l.tracks.length)) + 4 * flag l.amendment)
      (l.seq + k * 2 ^ 32) [(0, l.header ++ (l.tracks.take k).flatten)]))) ∧
  (∀ (s : State) (n : Nat) (j : Job), s.job n = some j → fld j.slip 36 28 = 0 → 128 ≤ dataLenOf j.slip →
    s.concord.listAfter (fld j.slip 32 4) = none → exec (.readTracks n) s = .next s)

/-- Epochs: a unit is held for the epoch of its instant, an implausible one is stale, and none is taken while the unit does not work;
the close of an epoch comes due at its close time, or at the limit where its grid waits for all bindings, and is made as that
Datestamp tick ends, every unit that has reached the Concordance unit by then being on time; the next epoch opens; a close that comes
due while an epoch computes is postponed until that has ended, and carries OVERRUN; a computed epoch has run its image once for each
tile from state buffer e mod 3 into buffer (e + 1) mod 3, and writes a track list with the next SEQ; a failed first computation is
made once more, a failed second writes a list without tracks and the next epoch carries RESTART; an amendment writes its list, unless
it failed (R262, R267 to R272, R274, R275, R280, R288).
Choices of the model in it: logs 75, 76 and 173. -/
def Obligations.EpochsClose : Prop :=
  (∀ s : State, s.unitWorks 0x0015 0 = false → exec .unitAvailable s = .next s) ∧
  (∀ (s : State) (g : GridSet) (u : Reached) (rest : List Reached) (b : Nat) (x : Binding), s.unitWorks 0x0015 0 = true →
    s.concord.reached = u :: rest →
    s.concord.grid = some g → s.boundTo u.stream = some (b, x) → amGet s.concord.bindings b = some x →
    s.concord.state = .running → u.implausible = true →
    Leads .unitAvailable s fun t => t.concord.reached = rest ∧ t.concord.held = s.concord.held ∧
      amGet t.concord.bindings b = some { x with stale := satAdd 32 x.stale 1 } ∧ t.desk = s.desk) ∧
  (∀ (s : State) (g : GridSet) (u : Reached) (rest : List Reached) (b e : Nat) (x : Binding), s.unitWorks 0x0015 0 = true →
    s.concord.reached = u :: rest →
    s.concord.grid = some g → s.boundTo u.stream = some (b, x) → amGet s.concord.bindings b = some x →
    s.concord.state = .running → u.implausible = false → s.concord.origin < u.instant →
    e = epochOf s.concord.origin g.period u.instant → s.concord.openEpoch ≤ e → e ≤ s.concord.openEpoch + 1 →
    Leads .unitAvailable s fun t => t.concord.reached = rest ∧ t.desk = s.desk ∧
      t.concord.held = s.concord.held ++ [(e, {
        binding := b, number := u.number, instant := u.instant, items := (x.items g u.data).1, late := false, age := 0 })] ∧
      ∃ y, amGet t.concord.bindings b = some y ∧ y.units = satAdd 32 x.units 1 ∧ y.late = x.late) ∧
  (∀ (s : State) (g : GridSet), s.concord.grid = some g → s.concord.state = .running →
    g.complete = false → s.concord.instant g s.concord.openEpoch + msNs g.closeDelayMs ≤ s.now → s.concord.computing = none →
    s.concord.amending = false → s.concord.closing = none →
    exec .epochCloseTimed s = .next (s.modConcord (fun c => { c with
      closing := some (s.concord.instant g s.concord.openEpoch + msNs g.closeDelayMs, false, false) }))) ∧
  (∀ (s : State) (g : GridSet) (e : Epoch), s.concord.grid = some g → s.concord.state = .running →
    g.complete = false → s.concord.instant g s.concord.openEpoch + msNs g.closeDelayMs ≤ s.now → s.concord.computing = some e →
    s.concord.closing = none →
    exec .epochCloseTimed s = .next (s.modConcord (fun c => { c with
      postponed := c.postponed.or (some (s.concord.instant g s.concord.openEpoch + msNs g.closeDelayMs, false)) }))) ∧
  (∀ (s : State) (g : GridSet), s.concord.grid = some g → s.concord.state = .running →
    g.complete = true → s.concord.instant g s.concord.openEpoch + msNs g.closeLimitMs ≤ s.now → s.concord.computing = none →
    s.concord.amending = false → s.concord.closing = none →
    exec .epochCloseLimit s = .next (s.modConcord (fun c => { c with
      closing := some (s.concord.instant g s.concord.openEpoch + msNs g.closeLimitMs, true, false) }))) ∧
  (∀ (s : State) (g : GridSet) (due : Nat) (byLimit overrun : Bool), s.concord.grid = some g →
    s.concord.closing = some (due, byLimit, overrun) → s.stamp.refLost = false →
    Leads .datestampTick s fun t => t.concord.openEpoch = s.concord.openEpoch + 1 ∧ t.concord.lastEpoch = s.concord.openEpoch ∧
      t.concord.reached = [] ∧ t.concord.closing = none ∧ t.concord.folded = [] ∧
      t.concord.overruns = (if overrun then satAdd 32 s.concord.overruns 1 else s.concord.overruns) ∧
      ∃ e, t.concord.computing = some e ∧ e.number = s.concord.openEpoch ∧ e.instant = s.concord.instant g s.concord.openEpoch ∧
        e.closeTime = s.now ∧ e.overrun = overrun ∧ e.byLimit = byLimit) ∧
  (∀ (s : State) (g : GridSet) (due b : Nat) (byLimit overrun : Bool) (u : Reached) (x : Binding), s.concord.grid = some g →
    s.concord.closing = some (due, byLimit, overrun) → s.stamp.refLost = false → s.concord.reached = [u] →
    s.boundTo u.stream = some (b, x) → s.concord.state = .running → u.implausible = false → s.concord.origin < u.instant →
    epochOf s.concord.origin g.period u.instant = s.concord.openEpoch →
    Leads .datestampTick s fun t => ∃ e v, t.concord.computing = some e ∧ v ∈ e.inputs ∧ v.binding = b ∧ v.number = u.number ∧
      v.instant = u.instant ∧ v.late = false) ∧
  (∀ (s : State) (g : GridSet) (e : Epoch), s.concord.grid = some g →
    s.concord.computing = some e → e.failedTiles ≠ 0 → e.retried = false →
    exec .epochComputeEnd s = .next (s.modConcord (fun c => { c with
      computing := some { e with failedTiles := 0, retried := true } }))) ∧
  (∀ (s : State) (g : GridSet) (e : Epoch), s.concord.grid = some g →
    s.concord.computing = some e → e.failedTiles ≠ 0 → e.retried = true → s.concord.state = .running →
    Leads .epochComputeEnd s fun t => t.concord.computing = none ∧ t.concord.nextRestart = true ∧
      t.concord.failed = satAdd 32 s.concord.failed 1 ∧
      ∃ l, t.concord.lists = (l :: s.concord.lists).take 8 ∧ l.seq = (s.concord.seq + 1) % 2 ^ 32 ∧ l.tracks = [] ∧
        l.amendment = false) ∧
  (∀ (s : State) (g : GridSet) (e : Epoch) (runs : List (Bytes × Bytes)), s.concord.grid = some g →
    s.concord.computing = some e → s.concord.state = .running → e.failedTiles = 0 →
    runs = (List.range 256).map (tileRun (s.gridImage g) e.number e.cells (s.concord.buffers.getD (e.number % 3) [])) →
    Leads .epochComputeEnd s fun t => t.concord.computing = none ∧
      t.concord.seq = (s.concord.seq + 1) % 2 ^ 32 ∧
      t.concord.last = some { e with partials := runs.map (·.2) } ∧
      t.concord.buffers = setAt s.concord.buffers ((e.number + 1) % 3) ((List.range 256).zip (runs.map (·.1))) ∧
      (∀ p, s.concord.postponed = some p → s.concord.closing = none → s.concord.amendUnits = [] →
        t.concord.closing = some (p.1, p.2, true)) ∧
      ∃ l, t.concord.lists = (l :: s.concord.lists).take 8 ∧ l.seq = (s.concord.seq + 1) % 2 ^ 32 ∧ l.amendment = false ∧
        l.tracks = (mergeTracks g (runs.map (·.2))).tracks) ∧
  (∀ (s : State) (g : GridSet) (e : Epoch), s.concord.grid = some g →
    s.concord.retained = some e → s.concord.state = .running → s.concord.amending = true →
    Leads .amendmentEnd s fun t => t.concord.amending = false ∧ t.concord.retained = none ∧ t.concord.amendUnits = [] ∧
      (s.concord.amendFailed = true → t.concord.lists = s.concord.lists ∧ t.concord.amendments = s.concord.amendments) ∧
      (s.concord.amendFailed = false → t.concord.amendments = satAdd 32 s.concord.amendments 1 ∧
        ∃ l, t.concord.lists = (l :: s.concord.lists).take 8 ∧ l.seq = (s.concord.seq + 1) % 2 ^ 32 ∧ l.amendment = true))

/-- Sessions opened, set and closed: an accepted descriptor opens a session with the next index of the rotation, its bucket full,
and its SESSION_ID is the RESULT; the settings of a session, its seed and its report; a session that closes is free at once where no
query of it waits, and else closes first; one that has been idle closes the same way (R290, R294 to R299, R310, R319, R569).
Choices of the model in it: logs 29, 82, 168 and 177. -/
def Obligations.SessionsOpened : Prop :=
  (∀ (s : State) (n i : Nat) (j : Job) (b r key : Bytes) (d : SessionDesc), s.Startable n 0x0201 j → dataLenOf j.slip = 256 →
    fld j.slip 32 32 = 0 → b.length = 256 → s.sessionDescOk b = true → fldB b 0 1 = s.position → s.position ∈ s.present →
    ((fldB b 5 1).testBit 0 = true → s.vault.sessionRoot = some r) →
    key = (if (fldB b 5 1).testBit 0 then kmac32 r ((b.drop 192).take 32) "HTL8800 session key"
      else if (sessionDescOf b []).host then zeros 32 else (b.drop 192).take 32) → d = sessionDescOf b key →
    (d.host = true → hostResident d.bindQueue = true ∧ (s.queue d.bindQueue).kind = .submission ∧
      (s.queue d.bindQueue).state = .active ∧ (s.queue d.bindQueue).serving = true) →
    s.sessions.open_.length < min 65536 s.curator.policy.maxSessions → s.admitted + d.rate * d.units ≤ s.uMax →
    s.sessions.index = some i →
    Leads (.openSession n (some b)) s fun t => t.session i = some {
        desc := d, slot := s.contextSlot, bucket := d.burst * 10 ^ 12, usedAt := s.now, pinHeld := (s.edition d.pin).isSome } ∧
      t.sessions.nextIndex = (i + 1) % 65536 ∧ t.Answers n j (endWith [] 0 (s.position * 65536 + i))) ∧
  (∀ (s : State) (n i : Nat) (j : Job) (x : Session), s.Startable n 0x0202 j → dataLenOf j.slip = 0 →
    paramsClear j.slip [(32, 4)] = true → s.sessionNamed (fld j.slip 32 4) = some (i, x) → x.closing = false →
    (x.service.isSome = true ∨ x.closed ≠ []) →
    exec (.closeSession n) s =
      .next ((s.took n).setSession i { x with closing := true, closeJob := some n, assembling := none })) ∧
  (∀ (s : State) (n i : Nat) (j : Job) (x : Session), s.Startable n 0x0202 j → dataLenOf j.slip = 0 →
    paramsClear j.slip [(32, 4)] = true → s.sessionNamed (fld j.slip 32 4) = some (i, x) → x.closing = false →
    x.service = none → x.closed = [] → amWf s.sessions.open_ = true →
    Leads (.closeSession n) s fun t => t.session i = none ∧ t.Answers n j (endWith [] 0 x.answers)) ∧
  (∀ (s : State) (i : Nat) (x : Session), s.session i = some x → x.closing = false → x.desc.idle ≠ 0 →
    x.usedAt + x.desc.idle * 1000000000 ≤ s.now → (x.service.isSome = true ∨ x.closed ≠ []) →
    exec (.sessionExpired i) s =
      .next ((s.event x.desc.eventQueue { code := 0x0203, subject := s.sessionId i, value := x.desc.idle }).setSession i
        { x with closing := true, closeJob := none, assembling := none })) ∧
  (∀ (s : State) (i : Nat) (x : Session), s.session i = some x → x.closing = false → x.desc.idle ≠ 0 →
    x.usedAt + x.desc.idle * 1000000000 ≤ s.now → x.service = none → x.closed = [] → amWf s.sessions.open_ = true →
    Leads (.sessionExpired i) s fun t => t.session i = none) ∧
  (∀ (s : State) (n i : Nat) (j : Job) (x : Session), s.Startable n 0x0203 j → paramsClear j.slip [(32, 4)] = true →
    s.sessionNamed (fld j.slip 32 4) = some (i, x) → 128 ≤ dataLenOf j.slip →
    exec (.querySession n) s = .next (s.ended n (endWith [] 0 0 [(0, x.report (s.sessionId i))]))) ∧
  (∀ (s : State) (n i : Nat) (j : Job) (x : Session) (d : SessionDesc), s.Startable n 0x0204 j → dataLenOf j.slip = 0 →
    paramsClear j.slip [(32, 4), (36, 8), (48, 8)] = true → s.sessionNamed (fld j.slip 32 4) = some (i, x) →
    fld j.slip 36 1 ≤ 2 → fld j.slip 37 1 ≤ 64 → fld j.slip 38 2 ≤ 450 →
    (fld j.slip 40 4 = 0 ∨ 100 ≤ fld j.slip 40 4 ∧ fld j.slip 40 4 ≤ 120000) →
    d = { x.desc with
      burst := if fld j.slip 37 1 = 0 then x.desc.burst else fld j.slip 37 1,
      units := if fld j.slip 38 2 = 0 then x.desc.units else fld j.slip 38 2,
      rate := if fld j.slip 40 4 = 0 then x.desc.rate else fld j.slip 40 4 } →
    (d.rate * d.units ≤ x.desc.rate * x.desc.units ∨
      s.admitted - x.desc.rate * x.desc.units + d.rate * d.units ≤ s.uMax) →
    Leads (.setSession n) s fun t => t.Answers n j (endWith []) ∧ ∃ y, t.session i = some y ∧ y.desc = d ∧
      y.newRead.map (·.1) = some (fld j.slip 36 1) ∧ (fld j.slip 48 8 ≠ 0 → y.newRead.map (·.2) = some (fld j.slip 48 8)) ∧
      y.filter = x.filter ∧ y.mode = x.mode) ∧
  (∀ (s : State) (n i : Nat) (j : Job) (x : Session) (b : Bytes), s.Startable n 0x0205 j → dataLenOf j.slip = 192 →
    b.length = 192 → fldB b 0 8 ≠ 0 → (poseAt b 8).ok = true → covOk b 64 6 = true → allZero (b.drop 148) = true →
    paramsClear j.slip [(32, 4)] = true → s.sessionNamed (fld j.slip 32 4) = some (i, x) →
    exec (.seedPose n (some b)) s = .next ((s.setSession i { x with
      seed := some (fldB b 0 8, { poseAt b 8 with q := (poseAt b 8).q.canon },
        (List.range 21).map (fun k => f32ToF64 (f32At b (64 + 4 * k)))) }).ended n (endWith [])))

/-- Queries: a part of an unknown or closing session is only counted; a first part with a right tag begins an assembly, and a wrong tag counts
as a violation; a submitted query that passes its checks waits for service; an assembly that takes too long, and a query without
guarantee that waits too long, are answered as malformed and for want of resources; a range query of a session that does not track
ends LOST, and one of a tracking session is solved about the prediction: accepted, it sets the filter and the misses to 0; missed, it
counts; a holder matches once the edition and every edit of the cut have come to it, and its answer for the query that
waits for it counts down (R36, R292, R294, R300 to R309, R311, R313, R316, R320, R322).
Choices of the model in it: logs 9, 79, 81 and 180. -/
def Obligations.QueriesServed : Prop :=
  (∀ (s : State) (l : Nat) (a : Arrival) (b : Bytes), (s.netPort l).sessions.head? = some a → b = (parseFrame a.frame).data a.frame →
    8 ≤ b.length → fldB b 4 4 / 65536 = s.position →
    (∀ x, s.session (fldB b 4 4 % 65536) = some x → x.closing = true ∨ x.desc.host = true) →
    Leads (.queryPart l) s fun t => t.sessions = { s.sessions with notOpen := satAdd 32 s.sessions.notOpen 1 } ∧
      t.desk = s.desk) ∧
  (∀ (s : State) (l i : Nat) (a : Arrival) (b : Bytes) (x : Session), (s.netPort l).sessions.head? = some a →
    b = (parseFrame a.frame).data a.frame → 48 ≤ b.length → b.length ≤ 8992 → s.sessionNamed (fldB b 4 4) = some (i, x) →
    x.desc.host = false → x.closing = false → (x.desc.port = 0xFF ∨ x.desc.port = a.port) →
    Leads (.queryPart l) s fun t => b.drop (b.length - 16) ≠ kmac16 x.desc.key (b.take (b.length - 16)) "HTL8800 query" →
      t.session i = some { x with violations := satAdd 32 x.violations 1, authFailures := satAdd 32 x.authFailures 1 }) ∧
  (∀ (s : State) (l i : Nat) (a : Arrival) (b : Bytes) (x : Session), (s.netPort l).sessions.head? = some a →
    b = (parseFrame a.frame).data a.frame → 48 ≤ b.length → b.length ≤ 8992 → s.sessionNamed (fldB b 4 4) = some (i, x) →
    x.desc.host = false → (x.desc.port = 0xFF ∨ x.desc.port = a.port) → x.closing = false →
    fldB b 0 2 = 0x5A53 → fldB b 2 1 = 1 → fldB b 3 1 = 3 → fldB b 25 1 ≤ 3 → (fldB b 24 1 = 1 ∨ fldB b 28 4 = 0) →
    2 ≤ fldB b 14 2 → fldB b 14 2 ≤ 256 → fldB b 12 2 < fldB b 14 2 →
    b.length = 48 + (if fldB b 12 2 = 0 then 32 else 0) + itemBytes (fldB b 24 1) * fldB b 26 2 →
    x.assembling = none →
    Leads (.queryPart l) s fun t => b.drop (b.length - 16) = kmac16 x.desc.key (b.take (b.length - 16)) "HTL8800 query" →
      ∃ q, t.session i = some { x with usedAt := s.now, assembling := some q } ∧ q.seq = fldB b 8 4 ∧
        q.got = [{ part := fldB b 12 2, body := b }] ∧ q.parts = fldB b 14 2 ∧ q.firstAt = a.time ∧ q.lastAt = a.time ∧ t.desk = s.desk) ∧
  (∀ (s : State) (n i k : Nat) (j : Job) (b c : Bytes) (x : Session) (q : Query), s.Startable n 0x0210 j →
    paramsClear j.slip [(32, 5)] = true → fld j.slip 36 1 ≤ 2 → b.length = dataLenOf j.slip →
    k = 80 + itemBytes (fldB b 24 1) * fldB b 26 2 → dataLenOf j.slip = up64 k + 256 → c = b.take k →
    s.sessionNamed (fld j.slip 32 4) = some (i, x) → x.desc.host = true → j.sq = x.desc.bindQueue → x.closing = false →
    fldB c 0 2 = 0x5A53 → fldB c 2 1 = 1 → fldB c 3 1 = 3 → fldB c 25 1 ≤ 3 → (fldB c 24 1 = 1 ∨ fldB c 28 4 = 0) →
    fldB c 12 2 = 0 → fldB c 14 2 = 1 → x.assembling = none →
    q = { seq := fldB c 8 4, parts := 1, capture := fldB c 16 8, kind := fldB c 24 1, flags := fldB c 25 1, width := fldB c 28 2,
          height := fldB c 30 2, got := [{ part := 0, body := c }], firstAt := s.now, lastAt := s.now, answer := .job n (fld j.slip 36 1), source := 0 } →
    x.desc.kinds.testBit q.kind = true → q.totalOk = true →
    (q.kind = 1 → q.width = x.desc.camera.width ∧ q.height = x.desc.camera.height) → q.capture ≠ 0 →
    timeGap q.capture s.now ≤ 2000000000 → q.finite = true → x.closed.length < (if x.service.isSome then 2 else 3) →
    Leads (.submitQuery n (some b)) s fun t => ∃ y, t.session i = some y ∧
      y.closed = x.closed ++ [{ q with guaranteed := (x.atClose s.now).2, closedAt := s.now }] ∧ y.assembling = none ∧ y.usedAt = s.now ∧ t.job n = some { j with started := true }) ∧
  (∀ (s : State) (i : Nat) (x : Session) (q : Query), s.session i = some x → x.assembling = some q →
    q.firstAt + x.desc.assemblyMs * 1000000 ≤ s.now →
    Leads (.queryAssemblyTimeout i) s fun t => ∃ y, t.session i = some y ∧ y.assembling = none ∧
      y.violations = satAdd 32 x.violations 1 ∧ y.answers = satAdd 32 x.answers 1 ∧ y.closed = x.closed) ∧
  (∀ (s : State) (i : Nat) (x : Session) (q : Query), s.session i = some x →
    x.closed.find? (fun q => !q.guaranteed && decide (q.closedAt + 10000000 ≤ s.now)) = some q → x.closing = false →
    Leads (.bestEffortTimeout i) s fun t => ∃ y, t.session i = some y ∧ y.closed = x.closed.erase q ∧
      y.violations = satAdd 32 x.violations 1 ∧ y.answers = satAdd 32 x.answers 1) ∧
  (∀ (s : State) (i : Nat) (x : Session) (q : Query) (rest : List Query) (ks : List Keypoint) (place : Bytes),
    s.unitWorks 0x0023 s.position = true →
    s.session i = some x → x.service = none → x.closed = q :: rest → x.closing = false → s.answerable q = true →
    x.lastSeq.any (seqNotAbove q.seq) = false → x.seed = none → x.newRead = none → x.mode ≠ .tracking →
    q.kind = 2 → (s.edition (if x.desc.read = 2 then x.desc.pin else s.map.lastInked)).isSome = true →
    Leads (.queryServe i ks place) s fun t => ∃ y, t.session i = some y ∧ y.closed = rest ∧ y.service = none ∧ y.mode = x.mode ∧
      y.lastSeq = some q.seq ∧ y.answers = satAdd 32 x.answers 1) ∧
  (∀ (s : State) (i : Nat) (x : Session) (q : Query) (rest : List Query) (ks : List Keypoint) (place : Bytes),
    s.unitWorks 0x0023 s.position = true →
    s.session i = some x → x.service = none → x.closed = q :: rest → x.closing = false → s.answerable q = true →
    x.lastSeq.any (seqNotAbove q.seq) = false → x.seed = none → x.newRead = none →
    s.edition (if x.desc.read = 2 then x.desc.pin else s.map.lastInked) = none →
    Leads (.queryServe i ks place) s fun t => ∃ y, t.session i = some y ∧ y.closed = rest ∧ y.service = none ∧
      y.lastSeq = x.lastSeq ∧ y.answers = satAdd 32 x.answers 1) ∧
  (∀ (s : State) (source session seq edition : Nat) (cut : List (Nat × Nat)) (sheets : List Nat) (camera pose : Bytes) (ks : List Keypoint),
    Leads (.remoteMatchRequest source session seq edition cut sheets camera pose ks) s fun t => t.sessions = s.sessions ∧
      t.map = s.map ∧ t.desk.circ.jobs = s.desk.circ.jobs ∧ ((source = s.position ∨ source ∉ s.present ∨ s.namedCut cut = none ∨ s.map.lastInked < edition) → t = s)) ∧
  (∀ (s : State) (i m seq : Nat) (ms : Bytes) (missing w : List Nat) (x : Session) (v : Service), s.session i = some x →
    x.service = some v → v.step = .matching w →
    Leads (.remoteMatchAnswer i m seq ms missing) s fun t =>
      (m ∈ w → v.query.seq = seq → t.session i = some { x with service := some { v.hear ms missing with
        step := if (w.filter (· ≠ m)).isEmpty then .solving else .matching (w.filter (· ≠ m)) } }) ∧
      ((m ∉ w ∨ v.query.seq ≠ seq) → t = s)) ∧
  (∀ (s : State) (i : Nat) (x : Session) (v : Service) (f : Filter), s.session i = some x → x.service = some v →
    x.closing = false → s.answerable v.query = true → v.step = .solving → v.predicted = some f → v.outOfOrder = false →
    v.query.kind = 2 →
    Leads (.smallSolveEnd i) s fun t =>
      (∀ g, s.rangeUpdate x v f = some g → ∃ y, t.session i = some y ∧ y.service = none ∧ y.filter = some g ∧ y.misses = 0 ∧
        y.mode = .tracking ∧ y.lastSeq = some v.query.seq) ∧
      (s.rangeUpdate x v f = none → x.misses + 1 < x.desc.missLimit → ∃ y, t.session i = some y ∧ y.service = none ∧
        y.misses = x.misses + 1 ∧ y.mode = x.mode ∧ y.lastSeq = some v.query.seq ∧ y.answers = satAdd 32 x.answers 1))

/-- Edits pencilled, asked to be inked, withdrawn: an accepted batch becomes a pencilled edit with the next serial of the member, its
number, its counts and its records as the RESULT and the output; another member's edit, and its next state, is taken from its notice; a withdrawn edit
keeps its record and enters the pending record of every session that consumed it; an INK_EDIT waits for its inking at the clerk; AUTO
edits are inked together when their time has passed; an ended edit's record is dropped after a day (R338 to R341, R345, R348, R349,
R353, R354).
Choices of the model in it: logs 14, 32 and 89. -/
def Obligations.EditsPencilled : Prop :=
  (∀ (s : State) (n base dep next : Nat) (j : Job) (b : Bytes) (t0 : Batch) (chain : List Nat) (ws : List MapWrite)
      (w : Trial), s.Startable n 0x0301 j → b.length = dataLenOf j.slip →
    batchOf (dataLenOf j.slip) b = some t0 → fld j.slip 32 8 = dep → fld j.slip 40 1 < 2 → fld j.slip 41 3 = 0 →
    fld j.slip 48 16 = 0 → s.eventQueueOk (fld j.slip 44 4) = true →
    base = (if t0.base = 0 then s.map.lastInked else t0.base) → (s.edition base).isSome = true →
    (dep = 0 ∧ chain = [] ∨ dep ≠ 0 ∧ (s.edit dep).map (·.state) = some .pencilled ∧ chain = dep :: s.chain dep) →
    t0.writes s.position (s.map.flash.lastId + 1) (s.view base chain) (fun tb id => ((s.view base chain).find tb id).isSome ||
      ((s.roomEdition s.map.lastInked).find tb id).isSome || !(s.writersOf { table := tb, key := id, data := [] }).isEmpty) = some (ws, next) →
    w = s.tryWrites chain ws → w.touched.length ≤ 256 → (∀ m ∈ ws, s.inkedAfter base m = false ∧ ∀ k ∈ s.writersOf m, k ∈ chain) →
    (∀ k ∈ w.touched, s.sheetMissing k = false ∧ s.sheetMoving k = false ∧ (s.holder k).isSome = true) → s.ownPencilled < 4096 →
    s.pagesFit (s.trialPages w) = true →
    Leads (.pencilEdit n (some b)) s fun t =>
      t.edit (s.position * 2 ^ 56 + (s.map.lastSerial + 1)) = some {
        verdict := fld j.slip 40 1, depends := dep, base := base, eventQueue := fld j.slip 44 4, writes := ws
        carried := w.carried, sheets := w.touched, pages := s.trialPages w, pencilTime := s.now
        rebase := rebaseTable (s.roomEdition base) ws } ∧
      t.map.lastSerial = s.map.lastSerial + 1 ∧ t.map.lastInked = s.map.lastInked ∧ t.map.editions = s.map.editions ∧
      t.Answers n j (endWith [] 0 (s.position * 2 ^ 56 + (s.map.lastSerial + 1) + ws.length * 2 ^ 64 + w.touched.length * 2 ^ 96)
        [(64, t0.written ws)])) ∧
  (∀ (s : State) (edit verdict dep base : Nat) (restores : Option Nat) (batch : Bytes) (carried : List Bytes) (sheets : List Nat)
      (anchors : List (Nat × Bytes × Bytes)) (holders : List (Nat × Nat)) (t0 : Batch),
    bitsOf edit 58 56 ≠ s.position → batchOf batch.length batch = some t0 →
    Leads (.pencilNotice edit verdict dep base restores batch carried sheets anchors holders) s fun t =>
      t.map.lastInked = s.map.lastInked ∧
      (s.edit edit = none → ∃ e, t.edit edit = some e ∧ e.state = .pencilled ∧ e.verdict = verdict ∧ e.depends = dep ∧ e.base = base ∧
        e.restores = restores ∧ e.sheets = sheets ∧ e.writes = t0.assigned) ∧
      (∀ d, s.edit edit = some d → d.state = .pencilled → ∃ e, t.edit edit = some e ∧ e.state = .pencilled ∧ e.verdict = d.verdict ∧
        e.depends = d.depends ∧ e.base = d.base ∧ e.writes = t0.assigned ∧ e.past = d.past ++ [d.content])) ∧
  (∀ (s : State) (n m : Nat) (j : Job) (e : Edit), s.Startable n 0x0303 j → fld j.slip 32 8 = m → fld j.slip 40 24 = 0 →
    dataLenOf j.slip = 0 → s.edit m = some e → e.state = .pencilled → (∀ x ∈ s.map.edits, x.2.job ≠ some n) →
    Leads (.withdrawEdit n) s fun t => t.Answers n j (endWith [] 0 ((e.consumers.getD []).length)) ∧
      ∃ e', t.edit m = some e' ∧ e'.state = .withdrawn ∧ e'.reason = 0 ∧ e'.endTime = s.now ∧ e'.writes = e.writes) ∧
  (∀ (s : State) (m reason : Nat) (e : Edit), s.edit m = some e → e.inDraft = true →
    Leads (.withdrawalNotice m reason) s fun t =>
      (∃ e', t.edit m = some e' ∧ e'.state = .withdrawn ∧ e'.reason = reason ∧ e'.endTime = s.now) ∧
      (∀ i x, s.session i = some x → t.session i = some (if i ∈ e.consumers.getD [] then x.revoke m else x))) ∧
  (∀ (s : State) (n m : Nat) (j : Job) (e : Edit), s.Startable n 0x0302 j → fld j.slip 32 8 = m → fld j.slip 40 24 = 0 →
    dataLenOf j.slip = 0 → s.edit m = some e → e.state = .pencilled → e.verdict = 0 → (∀ k ∈ e.sheets, s.sheetMissing k = false) →
    s.isClerk = true →
    Leads (.inkEdit n) s fun t => t.job n = some { j with started := true } ∧
      t.map.inkWaiting = s.map.inkWaiting ++ [(s.position, s.inkingSet [m])] ∧
      ∃ e', t.edit m = some e' ∧ e'.job = some n ∧ e'.writes = e.writes) ∧
  (∀ (s : State) (x : Nat × Edit), s.isClerk = true → x ∈ s.map.edits → x.2.verdict = 1 → x.2.state = .pencilled →
    x.2.pencilTime + s.curator.policy.autoInkMs * 1000000 ≤ s.now →
    Leads .autoInkTimeout s fun t => t.desk = s.desk ∧ t.map.inkWaiting = s.map.inkWaiting ++ [(s.position, s.inkingSet
      ((s.map.edits.filter (fun e => e.2.verdict == 1 && e.2.state == .pencilled)).map (·.1)))]) ∧
  (∀ (s : State) (m : Nat) (e : Edit), s.edit m = some e → e.inDraft = false → e.endTime + dayNs ≤ s.now →
    exec (.editRecordExpiry m) s = .next (s.modMap (fun x => { x with edits := amDel x.edits m }))) ∧
  (∀ (s : State) (n m : Nat) (j : Job) (e : Edit), s.Startable n 0x0304 j → fld j.slip 32 8 = m → fld j.slip 40 24 = 0 →
    64 ≤ dataLenOf j.slip → s.edit m = some e →
    exec (.queryEdit n) s = .next (s.ended n (endWith [] 0 0 [(0, packB 64 [(0, 8, m), (8, 8, e.inkedIn), (16, 8, e.depends),
      (24, 8, e.pencilTime), (32, 8, e.endTime), (40, 1, e.state.code), (41, 1, e.verdict), (42, 1, e.reason),
      (44, 4, e.sheets.length), (48, 4, e.writes.length), (52, 4, (e.consumers.getD []).length)])])))

/-- Editions: the clerk numbers the next waiting set above every number given before; a holder makes the set's sheet versions and
remembers it; with the last acknowledgement the clerk publishes; PUBLISH makes the edition the last inked one and its edits inked; an
edition is shelved once every holder has shelved it, this member's part only when it may be written; editions are held and
released; a sheet is read from an edition with its records and the edits of the cut, or waits while it is moved, and the map
reports itself (R33, R334 to R337, R347, R348, R351 to R354).
Choices of the model in it: logs 14, 26, 90, 105, 178 and 179. -/
def Obligations.EditionsPublished : Prop :=
  (∀ (s : State) (set : List Nat) (rest : List (Nat × List Nat)), s.isClerk = true → s.map.inking = none →
    s.map.inkWaiting = (s.position, set) :: rest → s.inkingSet set ≠ [] →
    Leads (.inkNumberRequest none) s fun t => t.map.flash.highest = s.map.flash.highest + 1 ∧ t.map.inkWaiting = rest ∧
      t.map.inking = some { number := s.map.flash.highest + 1, member := s.position, edits := s.ordered (s.inkingSet set)
                            waiting := ((s.setSheets (s.inkingSet set)).filterMap s.holder).eraseDups } ∧ t.desk.circ = s.desk.circ) ∧
  (∀ (s : State) (k : Inking) (r : Nat × List Nat), s.isClerk = true → s.map.inking = some k → r.1 ≠ s.position →
    exec (.inkNumberRequest (some r)) s = .next (s.modMap (fun m => { m with inkWaiting := m.inkWaiting ++ [r] }))) ∧
  (∀ (s : State) (number : Nat) (edits : List Nat) (carried : List Bytes), s.isClerk = false →
    (∀ k ∈ s.setSheets (s.ordered edits), s.holder k = some s.position → s.sheetMissing k = false ∧ s.reference.state = .normal ∨
      ∀ n ∈ s.ordered edits, ∀ e, s.edit n = some e → k ∉ e.sheets ∨ e.restores = some k) →
    s.setPages (s.ordered edits) = [] →
    Leads (.inkingSet number edits carried) s fun t => t.map.made = some (number, s.ordered edits) ∧
      t.map.madeCarried = carried.map edgeWrite ∧
      t.map.flash.highest = max s.map.flash.highest number ∧ t.map.lastInked = s.map.lastInked ∧ t.desk.circ = s.desk.circ) ∧
  (∀ (s : State) (m : Nat) (missing noPage : List Nat) (k : Inking), m ≠ s.position → s.map.inking = some k → m ∈ k.waiting →
    k.waiting.filter (· ≠ m) ≠ [] →
    exec (.inkingAck m missing noPage) s = .next (s.modMap (fun x => { x with inking := some { k with
      waiting := k.waiting.filter (· ≠ m), missing := k.missing ++ missing, noPage := k.noPage ++ noPage } }))) ∧
  (∀ (s : State) (m : Nat) (k : Inking), m ≠ s.position → s.map.inking = some k → k.waiting = [m] → k.missing = [] →
    k.noPage = [] → s.setMissing k.edits = false →
    Leads (.inkingAck m [] []) s fun t => t.map.inking = some { k with waiting := [], published := true } ∧ t.desk.circ = s.desk.circ) ∧
  (∀ (s : State) (number : Nat) (edits set : List Nat) (k : Inking), s.map.lastInked < number →
    (s.map.inking = none ∧ s.isClerk = false ∧ set = edits ∨
      s.map.inking = some k ∧ k.published = true ∧ k.number = number ∧ set = k.edits) →
    Leads (.publish number edits) s fun t => t.map.lastInked = number ∧ t.map.made = none ∧
      (∃ e ∈ t.map.editions, e.number = number) ∧
      ∀ n e, n ∈ s.ordered set → s.edit n = some e → ∃ e', t.edit n = some e' ∧ e'.state = .inked ∧ e'.inkedIn = number) ∧
  (∀ (s : State) (number : Nat) (edits : List Nat), number ≤ s.map.lastInked → exec (.publish number edits) s = .next s) ∧
  (∀ (s : State) (edition m : Nat) (x : Shelving), s.map.shelving.find? (fun x => x.edition.number == edition) = some x →
    m ∈ x.waiting → m ≠ s.position → x.waiting.filter (· ≠ m) ≠ [] →
    exec (.shelvingEnd edition m) s = .next (s.modMap (fun p => { p with
      shelving := mapIf (fun y => y.edition.number == edition) (fun y => { y with waiting := x.waiting.filter (· ≠ m) }) p.shelving }))) ∧
  (∀ (s : State) (edition m : Nat) (x : Shelving), s.map.shelving.find? (fun x => x.edition.number == edition) = some x →
    x.waiting = [m] → (m = s.position → s.mayWrite x.since (mapBytes (s.unshelved x.edition)) = true) →
    Leads (.shelvingEnd edition m) s fun t => t.map.lastShelved = max s.map.lastShelved edition ∧
      t.map.shelving = s.map.shelving.filter (fun y => y.edition.number ≠ edition) ∧
      (s.map.flash.edition.number < edition → t.map.flash.edition = x.edition)) ∧
  (∀ (s : State) (edition : Nat) (x : Shelving), s.map.shelving.find? (fun x => x.edition.number == edition) = some x →
    s.position ∈ x.waiting → s.mayWrite x.since (mapBytes (s.unshelved x.edition)) = false →
    exec (.shelvingEnd edition s.position) s = .next (s.pinBound 0x10)) ∧
  (∀ (s : State) (n e : Nat) (j : Job), s.Startable n 0x0305 j → fld j.slip 32 8 = e → fld j.slip 40 24 = 0 →
    dataLenOf j.slip = 0 → (s.edition e).isSome = true → s.map.holds.length < 8 →
    Leads (.holdEdition n) s fun t => t.map.holds = s.map.holds ++ [e] ∧ t.edition e = s.edition e ∧ t.map.lastInked = s.map.lastInked ∧
      t.Answers n j (endWith [])) ∧
  (∀ (s : State) (n e : Nat) (j : Job), s.Startable n 0x0306 j → fld j.slip 32 8 = e → fld j.slip 40 24 = 0 →
    dataLenOf j.slip = 0 → e ∈ s.map.holds →
    Leads (.releaseEdition n) s fun t => t.map.holds = s.map.holds.erase e ∧ t.map.lastInked = s.map.lastInked ∧
      t.Answers n j (endWith [])) ∧
  (∀ (s : State) (n sheet : Nat) (j : Job), s.Startable n 0x0307 j → fld j.slip 32 4 = sheet → fld j.slip 36 1 ≤ 1 →
    fld j.slip 37 3 = 0 → fld j.slip 40 8 = 0 → fld j.slip 48 16 = 0 → 64 ≤ dataLenOf j.slip →
    (s.edition s.map.lastInked).isSome = true → s.sheetMissingIn s.map.lastInked sheet = false → s.sheetMoving sheet = true →
    exec (.readSheet n) s = .next ((s.took n).putBack n)) ∧
  (∀ (s : State) (n sheet edition : Nat) (j : Job) (v : Edition) (lm kf ed : List (Nat × Bytes)) (cut touching : List Nat)
      (body head : Bytes),
    s.Startable n 0x0307 j → fld j.slip 32 4 = sheet → fld j.slip 36 1 ≤ 2 → fld j.slip 37 3 = 0 →
    (fld j.slip 36 1 ≠ 2 → fld j.slip 40 8 = 0) → fld j.slip 48 16 = 0 → 64 ≤ dataLenOf j.slip →
    edition = (if fld j.slip 36 1 = 2 then fld j.slip 40 8 else s.map.lastInked) →
    (s.edition edition).isSome = true → s.sheetMissingIn edition sheet = false → s.sheetMoving sheet = false →
    cut = (if fld j.slip 36 1 = 1 then s.draftCut else []) → v = s.view edition cut →
    touching = sortBy (fun a b => decide (a < b)) (cut.filter (fun n => (s.edit n).elim false (fun e => e.sheets.contains sheet))) →
    lm = v.inSheet .landmark sheet → kf = v.inSheet .keyframe sheet → ed = v.inSheet .edge sheet →
    body = touching.flatMap (le 8) ++ (lm ++ kf ++ ed).flatMap (·.2) →
    head = packB 64 [(0, 4, sheet), (4, 4, lm.length), (8, 4, kf.length), (12, 4, ed.length), (16, 8, edition),
      (24, 2, touching.length), (26, 1, (s.holder sheet).getD 0)] →
    exec (.readSheet n) s = .next (s.ended n (if 64 + body.length ≤ dataLenOf j.slip
      then endWith [] 0 (64 + body.length + edition * 2 ^ 64) [(0, head ++ body)]
      else endWith [] 4 (64 + body.length + edition * 2 ^ 64) [(0, head)]))) ∧
  (∀ (s : State) (n : Nat) (j : Job), s.Startable n 0x0308 j → fld j.slip 32 32 = 0 → 64 ≤ dataLenOf j.slip →
    exec (.queryMap n) s = .next (s.ended n (endWith [] 0 0 [(0, packB 64 [(0, 8, s.map.lastInked), (8, 8, s.map.lastShelved),
      (16, 8, s.map.flash.highest), (40, 1, s.clerk), (41, 1, s.map.editions.length), (44, 4, s.map.flash.sheets.length),
      (48, 4, (s.heldBy s.position).length), (52, 4, (s.map.edits.filter (fun e => e.2.inDraft)).length),
      (56, 4, s.pagesFree), (60, 4, (s.map.flash.sheets.filter (fun e => s.sheetMissing e.1)).length)])])))

/-- The Curator: a policy takes effect, and its job ends once every member present has taken the room-wide fields; sheets are pinned
and unpinned; the report; a move of a sheet starts with its copy, waits while a pencilled edit touches the sheet, copies again once a
later edition is inked, and ends with the holder switched by the clerk; a move is pinned at MOVE_MIB_S of 0; a session's context moves
to a free entry of another vault; a ready stage that no job holds moves to an idle carrel; a loop that stays at its bound reports again
(R33, R343, R356 to R358, R360 to R362).
Choices of the model in it: logs 14, 109 and 168. -/
def Obligations.CuratorCommands : Prop :=
  (∀ (s : State) (n : Nat) (j : Job) (b : Bytes), s.Startable n 0x0830 j → dataLenOf j.slip = 64 → paramsClear j.slip [] = true →
    b.length = 64 → s.policyOk b = true → s.present = [s.position] →
    Leads (.setPolicy n (some b)) s fun t => t.curator.policy = policyOf b ∧ t.curator.pins = s.curator.pins ∧
      t.Answers n j (endWith [])) ∧
  (∀ (s : State) (n : Nat) (j : Job) (b : Bytes), s.Startable n 0x0830 j → dataLenOf j.slip = 64 → paramsClear j.slip [] = true →
    b.length = 64 → s.policyOk b = true → s.isClerk = true → s.others ≠ [] →
    Leads (.setPolicy n (some b)) s fun t => t.curator.policy = policyOf b ∧ t.job n = some { j with started := true } ∧
      amGet t.curator.policyWaiting n = some s.others) ∧
  (∀ (s : State) (n sheet m : Nat) (j : Job), s.Startable n 0x0831 j → fld j.slip 32 4 = sheet → fld j.slip 36 1 = m →
    fld j.slip 37 27 = 0 → dataLenOf j.slip = 0 → s.net.members.testBit m = true → amGet s.curator.pins sheet = none →
    s.curator.pins.length < 4096 →
    Leads (.pinSheet n) s fun t => t.curator.pins = amSet s.curator.pins sheet m ∧ t.Answers n j (endWith [])) ∧
  (∀ (s : State) (n sheet : Nat) (j : Job), s.Startable n 0x0832 j → fld j.slip 32 4 = sheet → fld j.slip 36 28 = 0 →
    dataLenOf j.slip = 0 →
    Leads (.unpinSheet n) s fun t => t.curator.pins = amDel s.curator.pins sheet ∧ t.Answers n j (endWith [])) ∧
  (∀ (s : State) (n : Nat) (j : Job), s.Startable n 0x0833 j → fld j.slip 32 32 = 0 → 128 ≤ dataLenOf j.slip →
    exec (.queryCurator n) s = .next (s.ended n (endWith [] 0 0 [(0, s.curator.policy.record ++
      [s.curator.sheetMoves, s.curator.movedMib, s.curator.stageMoves, s.curator.contextMoves, s.curator.pins.length,
        s.curator.conflicts.length, s.curator.pinned.length, s.curator.policy.servingCarrels].flatMap (le 4) ++ zeros 32)]))) ∧
  (∀ (s : State) (sheet : Nat) (m : Move), s.curator.moves.find? (fun m => m.kind == .sheet && m.object == sheet) = some m →
    m.dest ∉ s.present → exec (.sheetMoveEnd sheet) s = .next (s.dropMove sheet)) ∧
  (∀ (s : State) (sheet : Nat) (m : Move), s.curator.moves.find? (fun m => m.kind == .sheet && m.object == sheet) = some m →
    m.dest ∈ s.present → (s.sheetBusy sheet = true ∨ m.asked = true) → exec (.sheetMoveEnd sheet) s = .next s) ∧
  (∀ (s : State) (sheet : Nat) (m : Move), s.curator.moves.find? (fun m => m.kind == .sheet && m.object == sheet) = some m →
    m.dest ∈ s.present → s.sheetBusy sheet = false → m.asked = false → m.copied = some s.map.lastInked →
    exec (.sheetMoveEnd sheet) s = .next ((s.modMove sheet (fun m => { m with asked := true })).control m.dest 0x75 [sheet])) ∧
  (∀ (s : State) (sheet : Nat) (m : Move), s.curator.moves.find? (fun m => m.kind == .sheet && m.object == sheet) = some m →
    m.dest ∈ s.present → s.sheetBusy sheet = false → m.asked = false → m.copied ≠ some s.map.lastInked →
    Leads (.sheetMoveEnd sheet) s fun t => t.holder sheet = s.holder sheet ∧
      t.curator = (s.modMove sheet (fun m => { m with copied := some s.map.lastInked })).curator) ∧
  (∀ (s : State) (p sheet : Nat) (m : LinkMsg) (v : Move), (s.jalzel p).head 9 = some m → m.address = 0x79 →
    m.words.map unle = [sheet, 1] → s.isClerk = true → s.holder sheet = some s.position → s.sheetBusy sheet = false →
    s.curator.moves.find? (fun v => v.kind == .sheet && v.object == sheet && v.dest == m.source && v.asked) = some v →
    v.copied = some s.map.lastInked →
    Leads (.control p) s fun t => t.holder sheet = some m.source ∧ (∀ k, k ≠ sheet → t.holder k = s.holder k) ∧
      t.curator.moves = s.curator.moves.filter (fun x => !(x.kind == .sheet && x.object == sheet)) ∧
      t.curator.sheetMoves = satAdd 32 s.curator.sheetMoves 1) ∧
  (∀ (s : State) (sheet dest : Nat), s.unitWorks 0x0012 0 = true → s.mayMoveSheet sheet dest = true → s.curator.policy.moveMibS = 0 →
    exec (.curatorMoveStart .sheet sheet dest) s = .next (s.pinBound 3)) ∧
  (∀ (s : State) (sheet dest : Nat), s.unitWorks 0x0012 0 = true → s.mayMoveSheet sheet dest = true → s.curator.policy.moveMibS ≠ 0 →
    (copyBytes (s.sheetVersions sheet)).length ≤ Region.scratch.bytes →
    Leads (.curatorMoveStart .sheet sheet dest) s fun t => t.holder sheet = s.holder sheet ∧
      t.curator.moves = s.curator.moves ++
        [{ kind := .sheet, object := sheet, dest := dest, copied := some s.map.lastInked }]) ∧
  (∀ (s : State) (i dest e : Nat) (x : Session), s.unitWorks 0x0012 0 = true → s.session i = some x → x.service = none → dest < 64 →
    s.unitOut 0x0002 dest = false → s.curator.policy.vaultMask.testBit dest = true → s.contextFree dest = some e →
    Leads (.curatorMoveStart .context i dest) s fun t => t.session i = some { x with slot := e } ∧
      t.curator.contextMoves = satAdd 32 s.curator.contextMoves 1 ∧ t.desk = s.desk) ∧
  (∀ (s : State) (src dst : Nat) (b : Bound), s.unitWorks 0x0012 0 = true → (s.carrel src).bound = some b →
    (s.carrel src).state = .ready → s.heldByJob src = false → s.spillFits b dst = true → (s.carrel dst).state = .idle → dst < 256 →
    src ≠ dst →
    Leads (.curatorMoveStart .stage src dst) s fun t => (t.carrel dst).state = .ready ∧ (t.carrel dst).bound = some b ∧
      (t.carrel dst).sram = (s.carrel src).sram ∧ (t.carrel src).state = .idle ∧ (t.carrel src).bound = none ∧
      (t.carrel src).sram = {} ∧ t.curator.stageMoves = satAdd 32 s.curator.stageMoves 1 ∧ t.desk = s.desk) ∧
  (∀ (s : State) (code : Nat) (p : Pinned), s.curator.pinned.find? (fun p => p.code == code) = some p →
    p.told + 60000000000 ≤ s.now →
    exec (.boundPinnedRepeat code) s = .next ((s.modCurator (fun c => { c with
      pinned := mapIf (fun q => q.code == code) (fun q => { q with told := s.now }) c.pinned })).event s.curator.policy.mapEventQueue
        { code := 0x0830, subject := s.position, detail := code, value := sat 32 (s.secondsSince p.since) }))

/-- The Collator: a problem that is read is queued where the scratch region has room for it, and one that can not be is refused; a
waiting solve is admitted, two at most at once; an iteration that ends leaves the iterate of the solver's rules; an ended solve
answers its job with its codes, flags and RESULT, and one whose deadline passes with PARTIAL_DEADLINE; solver settings take effect
and the counts are reported; a loop edit waits for earlier edits of its region and then starts its pose graph (R371 to R377, R380 to R390, R394).
Choices of the model in it: logs 52, 68, 95 and 184. -/
def Obligations.SolvesRun : Prop :=
  (∀ (s : State) (n : Nat) (j : Job) (b : Bytes) (q : SolveParams), s.Startable n 0x0401 j → b.length = dataLenOf j.slip →
    solveParams j.slip = some q →
    exec (.solve n (some b)) s = .next (match hostProblem q (dataLenOf j.slip) b with
      | .error code => s.ended n (refusal code)
      | .ok (p, given, at_) => match (s.took n).queueSolve {
          owner := .job n, problem := p, params := q, given := given, outAt := at_, deadline := deadlineOf j.slip
          entries := p.lay.entries } with
        | .error code => s.ended n (refusal code)
        | .ok t => t)) ∧
  (∀ (s : State) (n : Nat) (j : Job) (b : Bytes) (q : SolveParams) (p : Problem) (blocks : List Bytes) (at_ : Nat),
    s.Startable n 0x0401 j → b.length = dataLenOf j.slip → solveParams j.slip = some q →
    (hostProblem q (dataLenOf j.slip) b).toOption = some (p, blocks, at_) →
    Leads (.solve n (some b)) s fun t => if s.solveRoom p = true then
        t.desk = (s.took n).desk ∧ ∃ x, t.collator.solves = s.collator.solves ++ [x] ∧
          x.owner = .job n ∧ x.problem = p ∧ x.params = q ∧ x.given = blocks ∧ x.progress = none
      else t.Answers n j (refusal stNoResource)) ∧
  (∀ (s : State) (n : Nat) (j : Job) (b : Bytes) (q : SolveParams) (p : Problem) (edition : Nat) (cut : List Nat), s.Startable n 0x0402 j →
    b.length = dataLenOf j.slip → solveParams j.slip = some q → fldB b 0 4 = 0x5A434D50 → fldB b 4 1 ≤ 2 → fldB b 5 1 ≤ 1 →
    fldB b 6 1 ≤ 1 → (fldB b 6 1 = 1 → fldB b 4 1 ≠ 2 ∧ s.ownPencilled < 4096) → fldB b 7 1 = 0 →
    1 ≤ fldB b 8 2 → fldB b 8 2 ≤ 256 → fldB b 10 2 = 0 → s.eventQueueOk (fldB b 12 4) = true →
    (fldB b 4 1 ≠ 2 → fldB b 16 8 = 0) → allZero ((b.drop 24).take 40) = true →
    64 + (4 * fldB b 8 2 + 63) / 64 * 64 + 128 ≤ dataLenOf j.slip →
    allZero ((b.drop (64 + 4 * fldB b 8 2)).take ((4 * fldB b 8 2 + 63) / 64 * 64 - 4 * fldB b 8 2)) = true →
    edition = (if fldB b 4 1 = 2 then fldB b 16 8 else s.map.lastInked) → cut = (if fldB b 4 1 = 1 then s.draftCut else []) →
    (s.edition edition).isSome = true → (∀ k ∈ requestSheets b, s.sheetMissing k = false ∧ s.sheetMoving k = false) →
    p = (mapProblem (s.view edition cut) (requestSheets b).eraseDups (fldB b 5 1 = 1)).1 → p.covered = true →
    p.fits p.lay = true →
    Leads (.solveMap n (some b)) s fun t => if s.solveRoom p = true then
        t.desk.circ = (s.took n).desk.circ ∧ t.map.fixed = s.map.fixed ++ [(3 * n, edition)] ∧
          ∃ x, t.collator.solves = s.collator.solves ++ [x] ∧ x.owner = .job n ∧ x.problem = p ∧ x.params = q ∧ x.progress = none
      else t.Answers n j (refusal stNoResource)) ∧
  (∀ (s : State) (x : LargeSolve) (n : Nat), s.solvesRunning = true →
    s.collator.solves.find? (·.progress.isNone) = some x → x.owner = .job n → x.map = none → s.solveOf (.job n) = some x →
    (s.collator.solves.filter (·.progress.isSome)).length < 2 → s.unitWorks 0x0013 0 = true → s.reference.state = .normal →
    solverCarrels x.entries ≤ s.freeCarrels false → s.passed x.deadline = false →
    Leads .largeSolveAdmit s fun t => t.solveOf (.job n) = some { x with progress := some (x.problem.start x.params) } ∧
      t.desk = s.desk ∧ t.collator.solves.length = s.collator.solves.length) ∧
  (∀ (s : State) (o : SolveOwner) (x : LargeSolve) (g : Progress),
    s.solvesRunning = true → s.solveOf o = some x → x.progress = some g →
    Leads (.solveIterationEnd o) s fun t =>
      t.solveOf o = some { x with progress := some (x.problem.iterate x.problem.lay x.params g) } ∧ t.desk = s.desk) ∧
  (∀ (s : State) (n : Nat) (j : Job) (x : LargeSolve) (g : Progress),
    s.solvesRunning = true → s.solveOf (.job n) = some x → x.owner = .job n →
    x.map = none → x.progress = some g → g.ended.isSome = true → s.job n = some j → j.ending = none →
    let r := covarianceStage x g
    Leads (.solveEnd (.job n)) s fun t => t.solveOf (.job n) = none ∧ ∃ out, t.job n = some { j with
      ending := some (endWith r.g.codes (r.g.flags (x.problem.invalid r.g.x) false) r.g.result [(x.outAt, out)]) }) ∧
  (∀ (s : State) (n : Nat) (j : Job) (x : LargeSolve) (g : Progress),
    s.solvesRunning = true → s.solveOf (.job n) = some x → x.owner = .job n →
    x.map = none → x.progress = some g → g.ended = none → s.passed x.deadline = true → s.job n = some j → j.ending = none →
    Leads (.solveDeadline (.job n) 0) s fun t => t.solveOf (.job n) = none ∧
      ∃ e, t.job n = some { j with ending := some e } ∧ e.status = stPartialDeadline) ∧
  (∀ (s : State) (n : Nat) (j : Job) (b : Bytes), s.Startable n 0x0403 j → dataLenOf j.slip = 64 → fld j.slip 32 32 = 0 →
    b.length = 64 → solverPolicyOk b = true → s.present = [s.position] →
    Leads (.setSolver n (some b)) s fun t => t.map.policy = b ∧ t.Answers n j (endWith [])) ∧
  (∀ (s : State) (n : Nat) (j : Job) (b : Bytes), s.Startable n 0x0404 j → dataLenOf j.slip = 32768 → fld j.slip 32 32 = 0 →
    b.length = 32768 → s.present = [s.position] →
    Leads (.setCodebook n (some b)) s fun t => t.map.codebook = some b ∧ t.Answers n j (endWith [])) ∧
  (∀ (s : State) (n : Nat) (j : Job), s.Startable n 0x0405 j → fld j.slip 32 32 = 0 → 64 ≤ dataLenOf j.slip →
    exec (.queryCollator n) s = .next (s.ended n (endWith [] 0 0 [(0, s.collator.counts.flatMap (le 4))]))) ∧
  (∀ (s : State) (n : Nat) (e : Edit) (w : LoopWork) (p : Problem), s.edit n = some e → e.loop = some w → w.step = 2 →
    s.reference.state = .normal → s.loopWaits n w.region = false →
    p = (mapProblem (s.view s.map.lastInked s.draftCut) w.region false).1 → p.covered = true → p.fits p.lay = true →
    Leads (.loopSolveRelease n) s fun t => if s.solveRoom p = true then
        t.desk.circ = s.desk.circ ∧ t.edit n = some { e with loop := some { w with step := 3 } } ∧
          ∃ x, t.collator.solves = s.collator.solves ++ [x] ∧ x.owner = .loop n ∧ x.problem = p
      else t = s.loopFails n) ∧
  (∀ (s : State) (n : Nat) (e : Edit) (w : LoopWork), s.edit n = some e → e.loop = some w → s.loopWaits n w.region = true →
    exec (.loopSolveRelease n) s = .next s)

/-- Searches: one that starts keeps its query under the next number with the snapshot it has fixed, and one that breaks the rules of
its fields, asks too much or names no collection is refused; this member's round is its walk of its own snapshot, kept until it is
merged; the last member's answer ends the search with what is merged, in (d, id) order and cut to K, SHORT_RESULT where that is
fewer; a deadline ends it with PARTIAL_DEADLINE (R411 to R415, R418 to R422, R426).
Choices of the model in it: logs 101, 102 and 183. -/
def Obligations.SearchesRun : Prop :=
  (∀ (s : State) (n : Nat) (j : Job) (b : Bytes) (p : SearchParams) (y : Collection), s.Startable n 0x0501 j →
    b.length = dataLenOf j.slip → p = searchParams j.slip → searchBad j.slip = false → searchLarge j.slip = false →
    s.catalogue.coll p.coll = some y → dataLenOf j.slip = up64 (y.vecBytes + 256 + 16 * p.k) →
    (codeTable p.coll y (y.elements (b.take y.vecBytes))).finite = true → p.localOnly = true →
    s.catalogue.served.length < 1024 →
    Leads (.search n (some b)) s fun t => t.desk = (s.took n).desk ∧ t.catalogue.nextSearch = s.catalogue.nextSearch + 1 ∧
      amGet t.catalogue.searches s.catalogue.nextSearch = some {
        owner := .job n, params := p, vector := b.take y.vecBytes, list := p.list, expand := p.expand, waiting := [s.position] } ∧
      t.catalogue.served = s.catalogue.served ++
        [{ member := s.position, number := s.catalogue.nextSearch, snapshot := s.snapshot }]) ∧
  (∀ (s : State) (n : Nat) (j : Job) (b : Bytes), s.Startable n 0x0501 j → b.length = dataLenOf j.slip → searchBad j.slip = true →
    exec (.search n (some b)) s = .next (s.ended n (refusal stMalformed))) ∧
  (∀ (s : State) (n : Nat) (j : Job) (b : Bytes), s.Startable n 0x0501 j → b.length = dataLenOf j.slip → searchBad j.slip = false →
    searchLarge j.slip = true → exec (.search n (some b)) s = .next (s.ended n (refusal stTooLarge))) ∧
  (∀ (s : State) (n : Nat) (j : Job) (b : Bytes), s.Startable n 0x0501 j → b.length = dataLenOf j.slip → searchBad j.slip = false →
    searchLarge j.slip = false → s.catalogue.coll (searchParams j.slip).coll = none →
    exec (.search n (some b)) s = .next (s.ended n (refusal stNotPermitted))) ∧
  (∀ (s : State) (k : Nat) (x : Search) (v : Served) (q : Option RemoteSearch), amGet s.catalogue.searches k = some x →
    s.position ∈ x.waiting → s.servedOf s.position k = some v → v.result = none →
    Leads (.searchRequest s.position k q) s fun t => t.desk.circ = s.desk.circ ∧ t.catalogue.searches = s.catalogue.searches ∧
      ∃ w, t.servedOf s.position k = some w ∧ w.snapshot = v.snapshot ∧ w.result =
        some (s.memberRound (s.position, k) x.params x.vector v.snapshot x.list x.expand (x.expand, x.expand)).1) ∧
  (∀ (s : State) (k n : Nat) (j : Job) (x : Search) (v : Served) (r : MemberResult) (found : List SearchHit)
      (remote : Option RemoteResult), amGet s.catalogue.searches k = some x →
    x.owner = .job n → x.waiting = [s.position] → s.servedOf s.position k = some v → v.result = some r → r.member = s.position →
    (x.take_ r).widens = false → s.job n = some j → j.ending = none → found = (x.take_ r).merged.take x.params.k →
    Leads (.searchMemberResult k s.position remote) s fun t => ∃ d flags res, t.job n = some { j with
      ending := some (endWith (if found.length < x.params.k then [stShortResult] else []) flags res [(x.vector.length, d)]) } ∧
      fldB d 0 2 = found.length % 65536 ∧ (d.drop 256).take (16 * found.length) = found.flatMap hitBytes) ∧
  (∀ (s : State) (k n : Nat) (j : Job) (x : Search) (own : Nat × Nat), amGet s.catalogue.searches k = some x → x.owner = .job n →
    s.position ∉ x.waiting → s.job n = some j → j.ending = none → s.passed (deadlineOf j.slip) = true →
    Leads (.searchDeadline k own) s fun t => ∃ e, t.job n = some { j with ending := some e } ∧ e.status = stPartialDeadline)

/-- The Catalogue's vectors: an insert appends its vectors to the addenda under consecutive identifiers and answers the first; one
that finds the ring full is refused; a delete counts an identifier as deleted now, earlier, or never assigned; a reshelving starts
with its cut, a second RESHELVE joins it, and its generation, once WRITE_MIB_S lets it be written, becomes current with its jobs
ended, the nodes of the segments it writes carrying its number; the oldest pending delete is
folded unless a search holds an earlier count (R398, R404, R406, R408 to R410, R423, R425, R428 to R430, R436).
Choices of the model in it: logs 32, 99, 105 and 185. -/
def Obligations.CatalogueVectors : Prop :=
  (∀ (s : State) (job k n first : Nat) (j : Job) (b : Bytes) (y : Collection) (vs : List (Bytes × Nat)), s.Startable job 0x0502 j →
    b.length = dataLenOf j.slip → fld j.slip 32 1 = k → 2 ≤ k → k ≤ 15 → fld j.slip 33 1 = 0 → fld j.slip 34 2 = n → 1 ≤ n →
    n ≤ 4096 → fld j.slip 36 28 = 0 → s.catalogue.coll k = some y → dataLenOf j.slip = up64 (n * (y.vecBytes + 8)) →
    vs = (List.range n).map (fun i => ((b.drop (y.vecBytes * i)).take y.vecBytes, fldB b (y.vecBytes * n + 8 * i) 8)) →
    (∀ v ∈ vs, (codeTable k y (y.elements v.1)).finite = true) → s.catalogue.addenda.length + n ≤ 16777216 →
    s.catalogue.idRun n = some first →
    Leads (.insert job (some b)) s fun t =>
      t.Answers job j (endWith [] 0 (s.position * 2 ^ 37 + first + n * 2 ^ 64)) ∧
      t.catalogue.addEnd = s.catalogue.addEnd + n ∧ t.catalogue.nextId = first + n ∧
      t.catalogue.addenda.map (fun a => (a.pos, a.id, a.attr, a.coll, a.code)) =
        s.catalogue.addenda.map (fun a => (a.pos, a.id, a.attr, a.coll, a.code)) ++
        ((List.range n).zip vs).map (fun e => (s.catalogue.addEnd + e.1, s.position * 2 ^ 37 + (first + e.1) % 2 ^ 37, e.2.2, k,
          (codeTable k y (y.elements e.2.1)).code))) ∧
  (∀ (s : State) (job k n : Nat) (j : Job) (b : Bytes) (y : Collection), s.Startable job 0x0502 j →
    b.length = dataLenOf j.slip → fld j.slip 32 1 = k → 2 ≤ k → k ≤ 15 → fld j.slip 33 1 ≤ 1 → fld j.slip 34 2 = n → 1 ≤ n →
    n ≤ 4096 → fld j.slip 36 28 = 0 → s.catalogue.coll k = some y → dataLenOf j.slip = up64 (n * (y.vecBytes + 8)) →
    (∀ i < n, (codeTable k y (y.elements ((b.drop (y.vecBytes * i)).take y.vecBytes))).finite = true) →
    16777216 < s.catalogue.addenda.length + n →
    Leads (.insert job (some b)) s fun t => t.Answers job j (refusal stNoResource 1) ∧ t.catalogue = s.catalogue) ∧
  (∀ (s : State) (job i : Nat) (j : Job) (b : Bytes), s.Startable job 0x0503 j → b.length = 64 → dataLenOf j.slip = 64 →
    fld j.slip 32 2 = 0 → fld j.slip 34 2 = 1 → fld j.slip 36 28 = 0 → fldB b 0 8 = i → i < 2 ^ 40 → i / 2 ^ 37 = s.position →
    s.catalogue.liveVector i = true → s.deletesStand = false → s.catalogue.pendingDeletes.length < 65536 →
    Leads (.delete job (some b)) s fun t => t.Answers job j (endWith [] 0 1) ∧ t.catalogue.deletes = s.catalogue.deletes + 1 ∧
      t.catalogue.pendingDeletes = s.catalogue.pendingDeletes ++ [(i, s.catalogue.deletes + 1)]) ∧
  (∀ (s : State) (job i : Nat) (j : Job) (b : Bytes), s.Startable job 0x0503 j → b.length = 64 → dataLenOf j.slip = 64 →
    fld j.slip 32 2 = 0 → fld j.slip 34 2 = 1 → fld j.slip 36 28 = 0 → fldB b 0 8 = i → i < 2 ^ 40 → i / 2 ^ 37 = s.position →
    s.catalogue.liveVector i = false →
    exec (.delete job (some b)) s =
      .next (s.ended job (endWith [] 0 (if s.catalogue.assigned i = true then 2 ^ 32 else 2 ^ 64)))) ∧
  (∀ (s : State) (n : Nat) (j : Job), s.Startable n 0x0504 j → fld j.slip 32 32 = 0 → dataLenOf j.slip = 0 →
    s.catalogue.reshelving = none → s.catalogue.previous = none → s.reference.state = .normal →
    Leads (.reshelve n) s fun t => t.job n = some { j with started := true } ∧ t.catalogue.reshelving = some {
      cut := s.catalogue.addEnd, deletes := s.catalogue.deletes, bad := s.catalogue.unreadable
      jobs := s.catalogue.reshelveWaiting ++ [n], since := s.now }) ∧
  (∀ (s : State) (n : Nat) (j : Job) (r : Reshelving), s.Startable n 0x0504 j → fld j.slip 32 32 = 0 → dataLenOf j.slip = 0 →
    s.catalogue.reshelving = some r →
    Leads (.reshelve n) s fun t => t.desk = (s.took n).desk ∧
      t.catalogue = { s.catalogue with reshelving := some { r with jobs := r.jobs ++ [n] } }) ∧
  (∀ (s : State) (r : Reshelving) (n : NewNodes) (all live : List Nat) (number : Nat),
    s.catalogue.reshelving = some r → n = s.catalogue.reshelve r → number = (s.catalogue.current.number + 1) % 2 ^ 32 →
    all = sortBy (fun a b => decide (a < b)) (n.touched ++ s.rewritten n.touched) →
    live = all.filter (fun g => n.nodes.any (fun e => segmentOf e.1 == g)) →
    s.mayWrite r.since (live.length * segmentPages * 16384) = true →
    (writeSegments (stampNodes all number n.nodes) number (fun g => ((List.range 64).map s.engineFor).getD (g / 4096) 0) live s).isSome = true →
    Leads .generationSwitched s fun t => t.catalogue.current.number = number ∧ t.catalogue.current.base = r.cut ∧
      t.catalogue.current.folded = r.deletes ∧ t.catalogue.current.nodes = stampNodes all number n.nodes ∧ t.catalogue.current.entries = n.entries ∧
      t.catalogue.switches = satAdd 32 s.catalogue.switches 1 ∧
      ∀ k ∈ r.jobs, ∀ j, s.job k = some j → j.ending = none → t.job k = some { j with ending := some (endWith [] 0
        (number + n.added * 2 ^ 32 + n.removed.length * 2 ^ 64 + live.length * 2 ^ 96)) }) ∧
  (∀ (s : State) (r : Reshelving) (n : NewNodes), s.catalogue.reshelving = some r → n = s.catalogue.reshelve r →
    s.mayWrite r.since (((sortBy (fun a b => decide (a < b)) (n.touched ++ s.rewritten n.touched)).filter
      (fun g => n.nodes.any (fun e => segmentOf e.1 == g))).length * segmentPages * 16384) = false →
    exec .generationSwitched s = .next (s.pinBound 0x10)) ∧
  (∀ (s : State), s.catalogue.reshelving = none → exec .generationSwitched s = .next s) ∧
  (∀ (s : State) (i x : Nat) (rest : List (Nat × Nat)) (v : Served), s.catalogue.pendingDeletes = (i, x) :: rest →
    v ∈ s.catalogue.served → v.snapshot.deletes < x → exec .deleteFold s = .next s) ∧
  (∀ (s : State) (i x : Nat) (rest : List (Nat × Nat)), s.catalogue.pendingDeletes = (i, x) :: rest →
    (∀ v ∈ s.catalogue.served, x ≤ v.snapshot.deletes) → s.catalogue.deleteWaiting = [] →
    Leads .deleteFold s fun t => t.desk = s.desk ∧ t.catalogue.pendingDeletes = rest ∧ t.catalogue.deletes = s.catalogue.deletes ∧
      (∀ y, t.catalogue.deletedAt i y = true) ∧ t.catalogue.current = s.catalogue.current)

/-- The Catalogue's settings and report: a collection from 2 on that no held generation and no addendum uses takes its definition;
the shelf policy takes effect; the report holds the counts; a setting out of its range is refused (R424 to R427).
Choices of the model in it: log 106. -/
def Obligations.CatalogueSettings : Prop :=
  (∀ (s : State) (n k dim : Nat) (j : Job) (b : Bytes), s.Startable n 0x0505 j → b.length = 1024 * dim → fld j.slip 32 1 = k →
    2 ≤ k → k ≤ 15 → fld j.slip 33 1 ≤ 1 → fld j.slip 34 2 = dim → dim % 64 = 0 → 64 ≤ dim → dim ≤ 1024 → fld j.slip 36 28 = 0 →
    dataLenOf j.slip = 1024 * dim → (∀ i < 256 * dim, f32finite (BitVec.ofNat 32 (fldB b (4 * i) 4)) = true) →
    s.catalogue.holdsNone k = true → s.others = [] →
    Leads (.setCollection n (some b)) s fun t => t.Answers n j (endWith []) ∧
      t.catalogue.coll k = some { half := decide (fld j.slip 33 1 = 1), dim := dim, book := some b } ∧
      ∀ i, i ≠ k → t.catalogue.coll i = s.catalogue.coll i) ∧
  (∀ (s : State) (n k dim : Nat) (j : Job) (b : Bytes), s.Startable n 0x0505 j → b.length = 1024 * dim → fld j.slip 32 1 = k →
    k ≤ 15 → fld j.slip 33 1 ≤ 1 → fld j.slip 34 2 = dim → dim % 64 = 0 → 64 ≤ dim → dim ≤ 1024 → fld j.slip 36 28 = 0 →
    dataLenOf j.slip = 1024 * dim → (∀ i < 256 * dim, f32finite (BitVec.ofNat 32 (fldB b (4 * i) 4)) = true) →
    k < 2 ∨ s.catalogue.holdsNone k = false →
    exec (.setCollection n (some b)) s = .next (s.ended n (refusal stNotPermitted))) ∧
  (∀ (s : State) (n w r p q : Nat) (j : Job), s.Startable n 0x0507 j → fld j.slip 32 2 = w → fld j.slip 34 1 = r →
    fld j.slip 35 1 = p → fld j.slip 36 4 = q → 100 ≤ w → w ≤ 60000 → 10 ≤ r → r ≤ 95 → 2 ≤ p → p ≤ 20 →
    s.eventQueueOk q = true → fld j.slip 40 24 = 0 → dataLenOf j.slip = 0 →
    Leads (.setShelfPolicy n) s fun t => t.Answers n j (endWith []) ∧ t.catalogue.writeMib = w ∧ t.catalogue.reshelveAt = r ∧
      t.catalogue.sparePct = p ∧ t.catalogue.eventQueue = q ∧ t.catalogue.current = s.catalogue.current ∧
      t.catalogue.addenda = s.catalogue.addenda) ∧
  (∀ (s : State) (n : Nat) (j : Job), s.Startable n 0x0507 j →
    (fld j.slip 32 2 < 100 ∨ 60000 < fld j.slip 32 2 ∨ fld j.slip 34 1 < 10 ∨ 95 < fld j.slip 34 1 ∨ fld j.slip 35 1 < 2 ∨
      20 < fld j.slip 35 1 ∨ fld j.slip 40 24 ≠ 0 ∨ dataLenOf j.slip ≠ 0) →
    exec (.setShelfPolicy n) s = .next (s.ended n (refusal stMalformed))) ∧
  (∀ (s : State) (n : Nat) (j : Job), s.Startable n 0x0506 j → fld j.slip 32 32 = 0 → 128 ≤ dataLenOf j.slip →
    exec (.queryCatalogue n) s = .next (s.ended n (endWith [] 0 0 [(0, packB 128 [(0, 4, s.catalogue.current.number),
      (4, 1, flag s.catalogue.reshelving.isSome), (8, 8, s.catalogue.current.nodes.length), (16, 8, s.catalogue.current.base),
      (24, 8, s.catalogue.addEnd), (32, 8, s.catalogue.deletes), (40, 4, s.catalogue.pendingDeletes.length),
      (44, 4, sat 32 s.catalogue.lostRecords), (48, 8, s.catalogue.nextId), (56, 8, s.catalogue.ended),
      (64, 4, sat 32 s.catalogue.short), (68, 4, sat 32 s.catalogue.widened), (72, 4, sat 32 s.catalogue.readFailed),
      (76, 4, sat 32 s.catalogue.switches), (80, 4, sat 32 s.catalogue.blocksRetired), (84, 1, s.spareMin)])])))

/-- NAND: a read that gives its data changes no generation and no node; the nodes of its page that neither the
LDPC nor the word code gives, or all of them where the trailer does not match, become unreadable; a page of the log that reaches NAND is counted as safe; an operation that fails retires its block; a LUN that stays busy
is reset once and then taken out of service; the log writes its page 10 ms after its oldest record and not before (R409, R428, R435
to R437).
Choices of the model in it: log 30. -/
def Obligations.FlashOperations : Prop :=
  (∀ (s : State) (e b page retries k : Nat) (l : Lun), lunOfBlock (s.engine e).luns b = some (l, k) → retries ≤ 4 →
    Leads (.nandReadEnd e b page retries [] true) s fun t => t.desk = s.desk ∧ t.catalogue.current = s.catalogue.current ∧
      t.catalogue.unreadable = s.catalogue.unreadable ∧ (t.engine e).blocks = (s.engine e).blocks) ∧
  (∀ (s : State) (e b page retries k g i : Nat) (l : Lun) (failed bad : List Nat) (trailer : Bool), lunOfBlock (s.engine e).luns b = some (l, k) →
    (failed ≠ [] ∨ trailer = false) → s.catalogue.current.segmentOf e b = some (g, i) →
    bad = (s.catalogue.current.nodesIn g (i * l.pages + page)).filter (fun n => !trailer || failed.contains (n % 65536 % 6)) →
    Leads (.nandReadEnd e b page retries failed trailer) s fun t => t.catalogue.current = s.catalogue.current ∧
      (∀ n ∈ bad, n ∈ t.catalogue.unreadable) ∧
      (∀ n ∈ t.catalogue.unreadable, n ∈ s.catalogue.unreadable ∨ n ∈ bad)) ∧
  (∀ (s : State) (e b k : Nat) (l : Lun) (p : LogPage), e < 64 → s.catalogue.engines.length = 64 →
    lunOfBlock (s.engine e).luns b = some (l, k) →
    s.catalogue.logPages.find? (fun p => p.engine == e && p.block == b) = some p →
    Leads (.nandProgramEnd e b true) s fun t => t.catalogue.logSafe = s.catalogue.logSafe + p.recs.length ∧
      t.catalogue.logNand = s.catalogue.logNand ++ p.recs ∧ t.catalogue.logPages = s.catalogue.logPages.erase p ∧
      ∀ d ∈ s.catalogue.durable, d.2.1 ≤ s.catalogue.logSafe + p.recs.length → ∀ j, s.job d.1 = some j → j.ending = none →
        (∀ d' ∈ s.catalogue.durable, d'.1 = d.1 → d' = d) → t.job d.1 = some { j with ending := some d.2.2 }) ∧
  (∀ (s : State) (e b k : Nat) (l : Lun), e < 64 → s.catalogue.engines.length = 64 →
    lunOfBlock (s.engine e).luns b = some (l, k) → ((s.engine e).block b).retired = false →
    Leads (.nandProgramEnd e b false) s fun t => ((t.engine e).block b).retired = true ∧ ((t.engine e).block b).used = false ∧
      t.catalogue.blocksRetired = satAdd 32 s.catalogue.blocksRetired 1) ∧
  (∀ (s : State) (e b k : Nat) (l : Lun), lunOfBlock (s.engine e).luns b = some (l, k) →
    Leads (.nandEraseEnd e b true) s fun t => t.desk = s.desk ∧ t.catalogue.current = s.catalogue.current ∧
      (t.engine e).blocks = (s.engine e).blocks) ∧
  (∀ (s : State) (e b k : Nat) (l : Lun), e < 64 → s.catalogue.engines.length = 64 →
    lunOfBlock (s.engine e).luns b = some (l, k) → ((s.engine e).block b).retired = false →
    Leads (.nandEraseEnd e b false) s fun t => ((t.engine e).block b).retired = true ∧ ((t.engine e).block b).used = false ∧
      t.catalogue.blocksRetired = satAdd 32 s.catalogue.blocksRetired 1) ∧
  (∀ (s : State) (e ce lun : Nat) (l : Lun), e < 64 → s.catalogue.engines.length = 64 →
    (s.engine e).luns.find? (fun l => l.ce == ce && l.lun == lun) = some l → l.inService = true → l.unused = false →
    Leads (.nandBusyTimeout e ce lun) s fun t =>
      (t.engine e).violations = satAdd 32 (s.engine e).violations 1 ∧
      (t.engine e).luns.find? (fun l => l.ce == ce && l.lun == lun) =
        some (if l.retrying then { l with inService := false, retrying := false } else { l with retrying := true })) ∧
  (∀ (s : State), s.catalogue.logOpen = [] ∨ s.now < s.catalogue.logSince + 10000000 → exec .addendaLogFlush s = .next s) ∧
  (∀ (s : State) (r : LogRec) (e b p : Nat), r ∈ s.catalogue.logOpen → s.catalogue.logSince + 10000000 ≤ s.now → e < 64 →
    s.catalogue.engines.length = 64 → s.writable[s.catalogue.logCount % max s.writable.length 1]? = some e →
    (s.engine e).filling = some (b, p) → p < (s.engine e).pages b →
    Leads .addendaLogFlush s fun t => t.catalogue.logOpen = [] ∧ t.catalogue.logCount = s.catalogue.logCount + 1 ∧
      t.catalogue.logPages = s.catalogue.logPages ++ [{ engine := e, block := b, recs := s.catalogue.logOpen }] ∧
      (t.engine e).filling = some (b, p + 1) ∧
      t.desk.out = s.desk.out ++ [.flash e ((s.engine e).lunNo b) 1 ((s.engine e).row b p)
        (nandWords (s.catalogue.logOpen.flatMap (·.bytes)))])

/-- The stages of a frame, which a frame ends when it is the first to have reached it: the flow stage keeps its field, the feature
stage its first 2,048 features, the stage after them hands the frame on; a keyframe is made after a restart, or with enough valid pixels once the motion or the gap reaches its bound, and the
motion and the gap count on otherwise; a frame of a poisoned product is skipped (R249 to R252).
Choices of the model in it: logs 11, 71, 73 and 175. -/
def Obligations.FrameStagesEnd : Prop :=
  (∀ (s : State) (k number : Nat) (g : Graph) (r : FrameRun) (x : Field) (field : Option Bytes) (features : List Keypoint)
      (place batch : Bytes) (marks : List Nat), s.graph k = some g → g.frame number = some r → r.stage = 2 → g.inStage 2 number →
    s.reference.state = .normal → s.fieldFor k g r field = some x →
    exec (.frameStageEnd k number field features place batch marks false) s =
      .next (s.setGraph k (g.modFrame number (fun q => s.atStage k g { q with field := some x, stage := g.set.next q.stage })))) ∧
  (∀ (s : State) (k number : Nat) (g : Graph) (r : FrameRun) (field : Option Bytes) (features : List Keypoint)
      (place batch : Bytes) (marks : List Nat), s.graph k = some g → g.frame number = some r → r.stage = 3 → g.inStage 3 number →
    s.reference.state = .normal →
    exec (.frameStageEnd k number field features place batch marks false) s =
      .next (s.setGraph k (g.modFrame number (fun q => s.atStage k g { q with features := features.take 2048, stage := g.set.next q.stage })))) ∧
  (∀ (s : State) (k number : Nat) (g : Graph) (r : FrameRun) (f : Frame) (field : Option Bytes) (features : List Keypoint)
      (place batch : Bytes) (marks : List Nat), s.graph k = some g → g.frame number = some r → r.stage = 4 → g.inStage 4 number →
    s.reference.state = .normal → s.frameIn k r.buffer = some f →
    Leads (.frameStageEnd k number field features place batch marks false) s fun t => t.desk = s.desk ∧
      t.graph k = some (g.modFrame number (fun q => s.atStage k g { q with stage := g.set.next q.stage })) ∧
      t.concord.reached = s.concord.reached ++ (if (s.boundTo k).any (fun b => s.concord.state = .running && b.2.source = 0) then
        [{ stream := k, number := number, instant := f.capture, implausible := f.implausible, data := .frame r.features }] else [])) ∧
  (∀ (s : State) (k number : Nat) (g : Graph) (r : FrameRun) (x : Stream) (f : Frame) (field : Option Bytes)
      (features : List Keypoint) (place batch : Bytes) (marks : List Nat), s.graph k = some g → g.frame number = some r →
    r.stage = 5 → g.inStage 5 number → s.batchMoving batch = false → s.reference.state = .normal → (∀ q ∈ g.inFlight, q.number < number → 5 < q.stage) → s.stream k = some x →
    s.frameIn k r.buffer = some f → r.restart = true →
    Leads (.frameStageEnd k number field features place batch marks false) s fun t => ∃ g', t.graph k = some g' ∧
      g'.keyframes = satAdd 32 g.keyframes 1 ∧ g'.msum = 0 ∧ g'.gap = 0 ∧
      g'.inFlight = (g.modFrame number (fun q => { q with stage := 6 })).inFlight) ∧
  (∀ (s : State) (k number msum : Nat) (g : Graph) (r : FrameRun) (x : Stream) (f : Frame) (field : Option Bytes)
      (features : List Keypoint) (place batch : Bytes) (marks : List Nat), s.graph k = some g → g.frame number = some r →
    r.stage = 5 → g.inStage 5 number → s.batchMoving batch = false → s.reference.state = .normal → (∀ q ∈ g.inFlight, q.number < number → 5 < q.stage) → s.stream k = some x →
    s.frameIn k r.buffer = some f → r.restart = false →
    msum = (g.msum + r.meanMotion) % 2 ^ 64 →
    g.set.validMin * ((s.planeSize x.desc).1 * (s.planeSize x.desc).2) ≤ (r.field.elim 0 (·.valid)) * 100 →
    (g.set.keyMotion ≤ msum ∨ g.set.keyMaxGap ≤ g.gap + 1) →
    Leads (.frameStageEnd k number field features place batch marks false) s fun t => ∃ g', t.graph k = some g' ∧
      g'.keyframes = satAdd 32 g.keyframes 1 ∧ g'.msum = 0 ∧ g'.gap = 0) ∧
  (∀ (s : State) (k number msum : Nat) (g : Graph) (r : FrameRun) (x : Stream) (f : Frame) (field : Option Bytes)
      (features : List Keypoint) (place batch : Bytes) (marks : List Nat), s.graph k = some g → g.frame number = some r →
    r.stage = 5 → g.inStage 5 number → s.batchMoving batch = false → s.reference.state = .normal → (∀ q ∈ g.inFlight, q.number < number → 5 < q.stage) → s.stream k = some x →
    s.frameIn k r.buffer = some f → r.restart = false →
    msum = (g.msum + r.meanMotion) % 2 ^ 64 → msum < g.set.keyMotion → g.gap + 1 < g.set.keyMaxGap →
    exec (.frameStageEnd k number field features place batch marks false) s =
      .next (s.setGraph k (({ g with msum := msum, gap := g.gap + 1 } : Graph).modFrame number (fun q => { q with stage := 6 })))) ∧
  (∀ (s : State) (k number : Nat) (g : Graph) (r : FrameRun) (field : Option Bytes) (features : List Keypoint)
      (place batch : Bytes) (marks : List Nat), s.graph k = some g → g.frame number = some r → r.stage ≤ 5 → g.inStage r.stage number →
    s.reference.state = .normal →
    Leads (.frameStageEnd k number field features place batch marks true) s fun t => ∀ g', t.graph k = some g' →
      g'.frame number = none)

/-- Frames: one with a bad FCS is a violation, one for another MAC address is counted as filtered; a good one joins the stations', the
session stage's or a flow rule's queue, whose ring takes its bytes and its entry; one that finds no room is dropped whole and
counted; ARP requests for an own address are answered; flow rules are made and removed; a transmit entry's frame is sent or waits
while the port has a frame on the wire, one that breaks the rules is skipped, and a read that fails halts the queue; a free port
takes Datestamp messages, then answers, then the host queues in round robin (R86, R441 to R449, R451, R454).
Choices of the model in it: logs 38, 39, 110 and 182. -/
def Obligations.FramesSteered : Prop :=
  (∀ (s : State) (l c n : Nat) (f : Bytes) (ok : Bool), (s.netPort l).state ≠ .up → exec (.ethFrameReceive l f ok c n) s = .next s) ∧
  (∀ (s : State) (l c n : Nat) (f : Bytes) (ok : Bool), l < 16 → s.net.ports.length = 16 → (s.netPort l).state = .up →
    ok = false ∨ n ≠ 0 →
    Leads (.ethFrameReceive l f ok c n) s fun t => (t.netPort l).violations = satAdd 64 (s.netPort l).violations 1 ∧
      (t.netPort l).rx = satAdd 64 (s.netPort l).rx 1 ∧ (t.netPort l).stations = (s.netPort l).stations ∧
      (t.netPort l).sessions = (s.netPort l).sessions) ∧
  (∀ (s : State) (l c : Nat) (f : Bytes), l < 16 → s.net.ports.length = 16 → (s.netPort l).state = .up → 60 ≤ f.length →
    f.length ≤ 9212 → (parseFrame f).etherType ≠ 0x8808 →
    (parseFrame f).tags = 0 ∨ (parseFrame f).tags = 1 ∧ (parseFrame f).vlan % 4096 = (s.netPort l).vlan →
    (s.netPort l).takesMac (parseFrame f).dst = false →
    Leads (.ethFrameReceive l f true c 0) s fun t => t.desk = s.desk ∧
      (t.netPort l).macFiltered = satAdd 64 (s.netPort l).macFiltered 1 ∧ (t.netPort l).stations = (s.netPort l).stations) ∧
  (∀ (s : State) (l c : Nat) (f : Bytes), s.GoodFrame l f → s.power.sleep = .awake →
    s.steer l (s.arrival l f) (parseFrame f) = .station →
    Leads (.ethFrameReceive l f true c 0) s fun t => t.desk = s.desk ∧
      if 131072 < arrivalBytes (s.netPort l).stations + f.length then
        (t.netPort l).rxDrops = satAdd 64 (s.netPort l).rxDrops 1 ∧ (t.netPort l).stations = (s.netPort l).stations
      else (t.netPort l).rxDrops = (s.netPort l).rxDrops ∧ (t.netPort l).stations = (s.netPort l).stations ++ [s.arrival l f]) ∧
  (∀ (s : State) (l c : Nat) (f : Bytes), s.GoodFrame l f → s.power.sleep = .awake →
    s.steer l (s.arrival l f) (parseFrame f) = .session →
    Leads (.ethFrameReceive l f true c 0) s fun t => t.desk = s.desk ∧
      if 131072 < arrivalBytes (s.netPort l).sessions + f.length then
        (t.netPort l).rxDrops = satAdd 64 (s.netPort l).rxDrops 1 ∧ (t.netPort l).sessions = (s.netPort l).sessions
      else (t.netPort l).rxDrops = (s.netPort l).rxDrops ∧ (t.netPort l).sessions = (s.netPort l).sessions ++ [s.arrival l f]) ∧
  (∀ (s : State) (l c rule q : Nat) (f : Bytes), s.GoodFrame l f → s.power.sleep = .awake →
    s.steer l (s.arrival l f) (parseFrame f) = .rule rule q → (s.queue q).kind = .receive → (s.queue q).state = .active →
    f.length ≤ 2048 → 1 ≤ (s.queue q).room → (s.queue q).tail < (s.queue q).slots →
    Leads (.ethFrameReceive l f true c 0) s fun t => (t.queue q).tail = ((s.queue q).tail + 1) % (s.queue q).slots ∧
      Output.buffer ((s.queue q).bufAddr + 2048 * (s.queue q).tail) f ∈ t.desk.out ∧
      Output.entry q ((s.queue q).ringAddr + (s.queue q).tail * (s.queue q).kind.entryBytes)
        (withPhase (receiveEntry s.now (s.roomPort l) rule 1 0 f (parseFrame f)) (s.queue q).phase) ∈ t.desk.out) ∧
  (∀ (s : State) (l c rule q : Nat) (f : Bytes), s.GoodFrame l f → s.power.sleep = .awake →
    s.steer l (s.arrival l f) (parseFrame f) = .rule rule q →
    (s.queue q).kind ≠ .receive ∨ (s.queue q).state ≠ .active ∨ (s.queue q).room < (f.length + 2047) / 2048 →
    Leads (.ethFrameReceive l f true c 0) s fun t => t.desk = s.desk ∧
      (t.netPort l).rxQueueFull = satAdd 64 (s.netPort l).rxQueueFull 1) ∧
  (∀ (s : State) (l c a : Nat) (f : Bytes), l < 16 → s.net.ports.length = 16 → (s.netPort l).state = .up → 60 ≤ f.length →
    f.length ≤ 9212 → (parseFrame f).etherType = 0x0806 → (parseFrame f).lengthBad = false →
    (parseFrame f).tags = 0 ∨ (parseFrame f).tags = 1 ∧ (parseFrame f).vlan % 4096 = (s.netPort l).vlan →
    (s.netPort l).takesMac (parseFrame f).dst = true → fldBE f ((parseFrame f).body + 6) 2 = 1 → arpTarget f (parseFrame f) = some a →
    a ∈ (s.netPort l).unicast →
    Leads (.ethFrameReceive l f true c 0) s fun t =>
      if (s.netPort l).left = 0 ∧ (s.netPort l).sync = [] ∧ (s.netPort l).answers = [] then
        (t.netPort l).tx = satAdd 64 (s.netPort l).tx 1 ∧
        (t.netPort l).left = wireBits (arpReply (s.netPort l).mac f (parseFrame f)).length ∧
        t.desk.out = s.desk.out ++ [.packet (s.roomPort l) (arpReply (s.netPort l).mac f (parseFrame f))]
      else (s.netPort l).left ≠ 0 →
        (t.netPort l).answers = (s.netPort l).answers ++ [arpReply (s.netPort l).mac f (parseFrame f)] ∧
        t.desk.out = s.desk.out) ∧
  (∀ (s : State) (n q u p k : Nat) (j : Job), s.Startable n 0x0842 j → fld j.slip 32 4 = q → fld j.slip 36 2 = u →
    fld j.slip 38 1 = p → (p = 0xFF ∨ p ≤ 127) → fld j.slip 39 1 ≤ 1 → fld j.slip 56 8 = 0 → s.receiveQueue q = true → u ≠ 319 →
    u ≠ 320 → (∀ e ∈ s.accession.streams, e.2.desc.udpPort ≠ u) → u ∉ s.sessionPortList → freeRule s.net.rules = some k →
    exec (.addFlow n) s = .next (({ s with net := { s.net with rules := amSet s.net.rules k {
      queue := q, udpPort := u, port := p, matchAddr := decide (fld j.slip 39 1 = 1)
      source := unbe (le 16 (fld j.slip 40 16)) } } } : State).ended n (endWith [] 0 k))) ∧
  (∀ (s : State) (n k : Nat) (j : Job) (r : FlowRule), s.Startable n 0x0843 j → fld j.slip 32 2 = k → fld j.slip 34 30 = 0 →
    k < 4096 → amGet s.net.rules k = some r →
    exec (.removeFlow n) s = .next (({ s with net := { s.net with rules := amDel s.net.rules k } } : State).ended n (endWith []))) ∧
  (∀ (s : State) (q l : Nat) (e : Slip) (f : Bytes), (s.queue q).kind = .transmit → (s.queue q).state = .active →
    (s.queue q).head ≠ (s.queue q).tail → hostResident q = true → txEntryOk e = true → fld e 10 1 = l →
    (s.netPort l).state = .up → s.net.ports.length = 16 → s.hostWaits q = false →
    Leads (.txEntryFetch q (some e) (some f)) s fun t =>
      t.queue q = { s.queue q with head := ((s.queue q).head + 1) % (s.queue q).slots } ∧
      if (s.netPort l).left = 0 ∧ (s.netPort l).sync = [] ∧ (s.netPort l).answers = [] ∧ (s.netPort l).host = [] then
        (t.netPort l).tx = satAdd 64 (s.netPort l).tx 1 ∧ (t.netPort l).turn = q ∧ (t.netPort l).host = [] ∧
        t.desk.out = s.desk.out ++ [.packet (s.roomPort l)
          (fillChecksums ((fld e 11 1).testBit 0) ((fld e 11 1).testBit 1) (takePad (fld e 8 2) f))]
      else (s.netPort l).left ≠ 0 → t.desk.out = s.desk.out ∧ (t.netPort l).host = (s.netPort l).host ++
        [(q, fillChecksums ((fld e 11 1).testBit 0) ((fld e 11 1).testBit 1) (takePad (fld e 8 2) f))]) ∧
  (∀ (s : State) (l : Nat) (m : PtpOut) (ms : List PtpOut), l < 16 → s.net.ports.length = 16 → (s.netPort l).state = .up →
    (s.netPort l).left = 0 → (s.netPort l).sync = m :: ms →
    s.transmit l = (s.modPort l fun x => { x with sync := ms }).sendPtp l m) ∧
  (∀ (s : State) (q : Nat) (e : Option Slip) (f : Option Bytes), s.hostWaits q = true → exec (.txEntryFetch q e f) s = .next s) ∧
  (∀ (s : State) (q : Nat) (e : Slip) (f : Option Bytes), (s.queue q).kind = .transmit → (s.queue q).state = .active →
    (s.queue q).head ≠ (s.queue q).tail → hostResident q = true → txEntryOk e = false → s.hostWaits q = false →
    Leads (.txEntryFetch q (some e) f) s fun t => t.net.txBad = satAdd 32 s.net.txBad 1 ∧
      t.queue q = { s.queue q with head := ((s.queue q).head + 1) % (s.queue q).slots }) ∧
  (∀ (s : State) (q : Nat) (f : Option Bytes), (s.queue q).kind = .transmit → (s.queue q).state = .active →
    (s.queue q).head ≠ (s.queue q).tail → hostResident q = true → s.hostWaits q = false →
    Leads (.txEntryFetch q none f) s fun t => t.queue q = { s.queue q with state := .halted } ∧ t.net = s.net) ∧
  (∀ (s : State) (l : Nat) (f : Bytes) (fs : List Bytes), l < 16 → s.net.ports.length = 16 → (s.netPort l).state = .up →
    (s.netPort l).left = 0 → (s.netPort l).sync = [] → (s.netPort l).answers = f :: fs →
    (s.transmit l).desk.out = s.desk.out ++ [.packet (s.roomPort l) f] ∧ ((s.transmit l).netPort l).answers = fs ∧
      ((s.transmit l).netPort l).host = (s.netPort l).host) ∧
  (∀ (s : State) (l q : Nat) (h : Bytes), l < 16 → s.net.ports.length = 16 → (s.netPort l).state = .up →
    (s.netPort l).left = 0 → (s.netPort l).sync = [] → (s.netPort l).answers = [] → (q, h) ∈ (s.netPort l).host →
    (∀ e ∈ (s.netPort l).host, e.1 = q → e = (q, h)) →
    (∀ e ∈ (s.netPort l).host, (s.netPort l).turn < q ∧ (e.1 ≤ (s.netPort l).turn ∨ q ≤ e.1) ∨
      q ≤ e.1 ∧ e.1 ≤ (s.netPort l).turn) →
    (s.transmit l).desk.out = s.desk.out ++ [.packet (s.roomPort l) h] ∧ ((s.transmit l).netPort l).turn = q)

/-- Ethernet ports: a SET_PORT takes its port down and trains the logical ports of its breakout, and ends once none trains; a training
that succeeds brings its port up with PORT_UP, one that fails leaves it down until the retry a second later; a loss of signal takes it down;
the addresses; the reports (R440, R443, R451 to R454, R467).
Choices of the model in it: logs 24 and 43. -/
def Obligations.PortsTrain : Prop :=
  (∀ (s : State) (n k q : Nat) (j : Job), s.Startable n 0x0840 j → fld j.slip 32 1 = k → k ≤ 3 → fld j.slip 33 1 ≤ 2 →
    fld j.slip 34 1 ≤ 1 → fld j.slip 35 1 ≤ 1 → fld j.slip 36 4 = q → fld j.slip 40 24 = 0 → (q = 0 ∨ s.receiveQueue q = true) →
    (s.phys k).job = none → s.net.ports.length = 16 → s.net.phys.length = 4 →
    Leads (.setPort n) s fun t => t.job n = some { j with started := true } ∧
      t.phys k = { provided := true, breakout := fld j.slip 33 1, medium := fld j.slip 34 1
                   autoneg := decide (fld j.slip 35 1 = 1), exceptionQueue := q, job := some n } ∧
      ∀ i < 4, (t.netPort (4 * k + i)).state = if i < breakoutPorts (fld j.slip 33 1) then .training else .down) ∧
  (∀ (s : State) (l : Nat), l < 16 → s.net.ports.length = 16 → (s.netPort l).state = .training →
    Leads (.portTrainingEnd l true) s fun t => (t.netPort l).state = .up ∧ (t.netPort l).failed = false ∧
      ∀ i, i ≠ l → t.netPort i = s.netPort i) ∧
  (∀ (s : State) (l n : Nat) (j : Job) (ok : Bool), l < 16 → s.net.ports.length = 16 → s.net.phys.length = 4 →
    (s.netPort l).state = .training → (∀ i < 4, 4 * (l / 4) + i ≠ l → (s.netPort (4 * (l / 4) + i)).state ≠ .training) →
    (s.phys (l / 4)).job = some n → s.job n = some j → j.ending = none →
    Leads (.portTrainingEnd l ok) s fun t => t.job n = some { j with ending := some (endWith []) } ∧ (t.phys (l / 4)).job = none) ∧
  (∀ (s : State) (l : Nat), l < 16 → s.net.ports.length = 16 → (s.netPort l).state = .training →
    Leads (.portTrainingEnd l false) s fun t => (t.netPort l).state = .down ∧ (t.netPort l).failed = true ∧
      (t.netPort l).failedAt = s.now ∧
      (t.netPort l).violations = satAdd 64 (s.netPort l).violations 1) ∧
  (∀ (s : State) (l : Nat), l < 16 → s.net.ports.length = 16 → (s.netPort l).state = .down → (s.netPort l).failed = true →
    (s.netPort l).failedAt + 1000000000 ≤ s.now → s.portGiven l = true →
    exec (.portTrainRetry l) s = .next (s.modPort l (fun x => { x with state := .training }))) ∧
  (∀ (s : State) (l : Nat), (s.netPort l).state ≠ .down ∨ (s.netPort l).failed = false ∨ s.now < (s.netPort l).failedAt + 1000000000 →
    exec (.portTrainRetry l) s = .next s) ∧
  (∀ (s : State) (l : Nat), l < 16 → s.net.ports.length = 16 → (s.netPort l).state = .up →
    Leads (.portSignalLoss l) s fun t => (t.netPort l).state = .down ∧ (t.netPort l).failed = true ∧
      ∀ i, i ≠ l → t.netPort i = s.netPort i) ∧
  (∀ (s : State) (n : Nat) (j : Job) (b : Bytes), s.Startable n 0x0841 j → dataLenOf j.slip = 256 → fld j.slip 32 32 = 0 →
    b.length = 256 → addressOk b = true → s.net.ports.length = 16 →
    Leads (.setAddress n (some b)) s fun t => t.Answers n j (endWith []) ∧ t.netPort (fldB b 0 1) = { s.netPort (fldB b 0 1) with
      vlan := fldB b 2 2, mac := fldBE b 4 6
      unicast := ((List.range 4).map (fun i => fldBE b (64 + 16 * i) 16)).filter (· ≠ 0)
      groups := ((List.range 8).map (fun i => fldBE b (128 + 16 * i) 16)).filter (· ≠ 0) } ∧
      ∀ i, i ≠ fldB b 0 1 → t.netPort i = s.netPort i) ∧
  (∀ (s : State) (n l : Nat) (j : Job) (x : LogPort), s.Startable n 0x0844 j → fld j.slip 32 1 = l → l ≤ 15 →
    fld j.slip 33 31 = 0 → 64 ≤ dataLenOf j.slip → x = s.netPort l →
    exec (.queryPort n) s = .next (s.ended n (endWith [] 0 0 [(0, [x.rx, x.tx, x.fecCorrected, x.fecBad, x.macFiltered,
      x.unclaimed, x.rxDrops, x.rxQueueFull].flatMap (fun v => le 8 (sat 64 v)))]))) ∧
  (∀ (s : State) (n p : Nat) (j : Job) (x : Jalzel), s.Startable n 0x0845 j → fld j.slip 32 1 = p → p ≤ 6 →
    fld j.slip 33 31 = 0 → 64 ≤ dataLenOf j.slip → x = s.jalzel p →
    exec (.queryJalzel n) s = .next (s.ended n (endWith [] 0 0 [(0, takePad 64 (packB 8 [(0, 1, x.state.code),
      (1, 1, x.partner.getD 0xFF)] ++ [x.corrected, x.replayed, x.requests, x.retrains, x.violations].flatMap
        (fun v => le 8 (sat 64 v))))])))

/-- Jalzel links: a port with signal trains, sends its identity once trained, and waits for the retry where training fails; a peer of
the room is admitted with its events and one that is not is refused; a link lost takes its member out; the room forms at the timeout;
a frame in sequence with good words is accepted, one with a bad header or a word beyond repair is asked for again once; a replay
request sends every kept frame again; a frame at a parked port wakes the device (R455 to R458, R462 to R467, R515).
Choices of the model in it: logs 40 and 41. -/
def Obligations.LinksUp : Prop :=
  (∀ (s : State) (p : Nat), p < 7 → (s.jalzel p).state = .down → s.boot.gen ≠ .minimal →
    exec (.jalzelSignal p) s = .next (s.modJalzel p (fun x => { x with state := .training, failed := false }))) ∧
  (∀ (s : State) (p : Nat), s.boot.gen = .minimal → exec (.jalzelSignal p) s = .next s ∧ exec (.jalzelTrainRetry p) s = .next s) ∧
  (∀ (s : State) (p : Nat), (s.jalzel p).state = .training →
    exec (.jalzelTrainingEnd p true) s =
      .next ((s.modJalzel p (fun x => { x with state := .identifying, fails := 0 })).emit
        [.frame p 3 [0x88000026, 0, unle s.security.firmware, s.position, s.net.members, s.map.flash.highest]])) ∧
  (∀ (s : State) (p : Nat), (s.jalzel p).state = .training → (s.jalzel p).retraining = false →
    exec (.jalzelTrainingEnd p false) s =
      .next (s.modJalzel p (fun x => { x with state := .down, failed := true, failedAt := s.now }))) ∧
  (∀ (s : State) (p : Nat), (s.jalzel p).state = .down → (s.jalzel p).failed = true → (s.jalzel p).failedAt + 100000000 ≤ s.now →
    s.boot.gen ≠ .minimal →
    exec (.jalzelTrainRetry p) s = .next (s.modJalzel p (fun x => { x with state := .training, failed := false }))) ∧
  (∀ (s : State) (p m : Nat), (s.jalzel p).state = .up → (s.jalzel p).parked = false → (s.jalzel p).partner = some m →
    exec (.jalzelLoss p) s = .next ((((({ s with net := { s.net with
      farTokens := s.net.farTokens.filter (fun t => t.port ≠ p) } } : State)).modJalzel p (·.gone)).tell [.event 2 { code := 0x084C, subject := m, detail := p },
      .event 2 { code := 0x0849, subject := p, detail := m, value := (s.jalzel p).retrains }, .raise (32 + p),
      .errata { cls := 3, unit := 0x0021, inst := p, scope := 3 }]).memberLeft m s.clerk)) ∧
  (∀ (s : State) (p : Nat), (s.jalzel p).parked = false → (s.jalzel p).retraining = false →
    (s.jalzel p).state = .training ∨ (s.jalzel p).state = .identifying ∨ (s.jalzel p).state = .refused →
    exec (.jalzelLoss p) s = .next (s.modJalzel p (·.gone))) ∧
  (∀ (s : State) (p ordering stepping position members highest : Nat) (measurement : Bytes), (s.jalzel p).state = .identifying →
    (s.jalzel p).retraining = false → ordering = 0x88000026 → stepping = 0 → measurement = s.security.firmware →
    members = s.net.members → position < 8 → position ≠ s.position → s.net.members.testBit position = true →
    (∀ q < 7, q ≠ p → (s.jalzel q).joined = true → (s.jalzel q).partner ≠ some position) →
    exec (.jalzelIdentity p ordering stepping measurement position members highest) s =
      .next ((((s.modMap (fun m => { m with flash := { m.flash with highest := max m.flash.highest highest } })).modJalzel p
        (fun x => { x.gone with state := .up, partner := some position })).tell
          [.event 2 { code := 0x084B, subject := position, detail := p }, .event 2 { code := 0x0848, subject := p, detail := position },
            .raise (32 + p)]).memberJoined position s.clerk)) ∧
  (∀ (s : State) (p ordering stepping position members highest : Nat) (measurement : Bytes), p < 7 → s.net.jalzel.length = 7 →
    (s.jalzel p).state = .identifying → (s.jalzel p).retraining = false →
    ordering ≠ 0x88000026 ∨ stepping ≠ 0 ∨ measurement ≠ s.security.firmware ∨ members ≠ s.net.members ∨ position = s.position ∨
      s.net.members.testBit position = false →
    Leads (.jalzelIdentity p ordering stepping measurement position members highest) s fun t => (t.jalzel p).state = .refused ∧
      (t.jalzel p).partner = none ∧ (t.jalzel p).violations = satAdd 64 (s.jalzel p).violations 1 ∧
      ∀ q, q ≠ p → t.jalzel q = s.jalzel q) ∧
  (∀ (s : State), exec .roomFormTimeout s = .next { s with net := { s.net with formed := true } }) ∧
  (∀ (s : State) (p : Nat) (f : Bytes), p < 7 → s.net.jalzel.length = 7 → (s.jalzel p).state = .up → (s.jalzel p).parked = false →
    f.length = 3400 → headerCrcOk f = true → fldB f 16 1 = 0 →
    notBeyond (fldB f 12 4) (((s.jalzel p).nextSeq + 2 ^ 32 - 1) % 2 ^ 32) = true →
    fldB f 8 4 = ((s.jalzel p).accepted + 1) % 2 ^ 32 → (∀ d ∈ frameDecisions f, d.2.2 ≠ .uncorrectable) →
    Leads (.jalzelFrame p f) s fun t => (t.jalzel p).accepted = ((s.jalzel p).accepted + 1) % 2 ^ 32 ∧ (t.jalzel p).asked = false ∧
      (t.jalzel p).credits = (List.range 4).map (fun c => fldB f (20 + 2 * c) 2)) ∧
  (∀ (s : State) (p : Nat) (f : Bytes), (s.jalzel p).state = .up → (s.jalzel p).parked = false → f.length = 3400 →
    headerCrcOk f = false →
    exec (.jalzelFrame p f) s = .next (if (s.jalzel p).asked then s else
      (s.modJalzel p (fun x => { x with asked := true, askedAt := s.now, requests := satAdd 64 x.requests 1 })).emit
        [.frame p 0 [(s.jalzel p).accepted]])) ∧
  (∀ (s : State) (p : Nat) (f : Bytes), (s.jalzel p).state = .up → (s.jalzel p).parked = true → f.length = 3400 →
    s.power.sleep = .asleep →
    Leads (.jalzelFrame p f) s fun t => t.power.sleep = .waking 3 p ∧ t.net = s.net ∧
      t.desk.out = s.desk.out ++ [.avs s.power.wakeMv]) ∧
  (∀ (s : State) (p ack : Nat) (k : TxFrame) (rest : List TxFrame), p < 7 → s.net.jalzel.length = 7 → (s.jalzel p).state = .up →
    (s.jalzel p).parked = false → notBeyond ack (((s.jalzel p).nextSeq + 2 ^ 32 - 1) % 2 ^ 32) = true →
    (s.jalzel p).kept.filter (fun f => !notBeyond f.seq ack) = k :: rest → k.replays + 1 < 16 →
    (s.jalzel p).waiting = [] →
    Leads (.replayRequest p ack) s fun t => (t.jalzel p).kept = { k with replays := k.replays + 1 } :: rest ∧
      (t.jalzel p).replayed = satAdd 64 (s.jalzel p).replayed (rest.length + 1) ∧ (t.jalzel p).state = .up ∧
      t.desk.out = s.desk.out ++ (k :: rest).map (fun f => Output.frame p 1 [f.seq])) ∧
  (∀ (s : State) (p ack : Nat) (k : TxFrame) (rest : List TxFrame), p < 7 → s.net.jalzel.length = 7 → (s.jalzel p).state = .up →
    (s.jalzel p).parked = false → notBeyond ack (((s.jalzel p).nextSeq + 2 ^ 32 - 1) % 2 ^ 32) = true →
    (s.jalzel p).kept.filter (fun f => !notBeyond f.seq ack) = k :: rest → 16 ≤ k.replays + 1 →
    Leads (.replayRequest p ack) s fun t => (t.jalzel p).state = .training ∧ (t.jalzel p).retraining = true) ∧
  (∀ (s : State) (p : Nat), (s.jalzel p).state = .up → (s.jalzel p).parked = false → (s.jalzel p).asked = true →
    (s.jalzel p).askedAt + 2000 ≤ s.now →
    exec (.replayRequestTimeout p) s = .next ((s.modJalzel p (fun x => { x with
      asked := true, askedAt := s.now, requests := satAdd 64 x.requests 1 })).emit [.frame p 0 [(s.jalzel p).accepted]]))

/-- Link messages taken: a read of an opened region is answered with its words and marks, and one elsewhere is a violation; read data
and a write acknowledgement answer the request of their tag; a write into an opened region is made and acknowledged; an
acknowledgement also lets the token go that waits for it; a hand-over token reaches its input, and one that names a slot that is taken
or absent is told to its producer's member; an answer posted for a port of this member leaves there or waits; a Bell raise within the sender's sources raises it
and any other is counted; codebook data are gathered; pins, opened regions, the copy of a moved sheet and a halted producer follow
their control messages (R33, R143, R148, R149, R292, R361,
R459 to R461, R466, R495).
Choices of the model in it: logs 14, 116, 161 and 186. -/
def Obligations.LinkMessagesTaken : Prop :=
  (∀ (s : State) (p addr n : Nat) (m : LinkMsg), (s.jalzel p).head 1 = some m → addr = bitsOf m.address 34 0 →
    n = bitsOf m.address 47 40 → 1 ≤ n → n ≤ 64 → addr % 64 = 0 → s.openedTo m.source addr (64 * n) = true →
    s.unitDown 0x0002 (vaultOfWord (addr / 32)) = false → s.LinkFree p m.source (m.channel / 2 * 2 + 1) (1 + 2 * n) →
    (∀ i < 2 * n, decideWord (s.fabric.stack.store.word (addr / 32 + i)) = .clean) →
    Leads (.readReq p) s fun t => t.desk.out = s.desk.out ++ [.link m.source 2 [m.channel / 2 * 2 + 1, m.tag, m.address, 0]
      ((List.range (2 * n)).flatMap (fun i => dataOf (s.fabric.stack.store.word (addr / 32 + i))))] ∧ t.fabric = s.fabric) ∧
  (∀ (s : State) (p : Nat) (m : LinkMsg), (s.jalzel p).head 1 = some m → p < 7 → s.net.jalzel.length = 7 →
    s.openedTo m.source (bitsOf m.address 34 0) (64 * bitsOf m.address 47 40) = false →
    Leads (.readReq p) s fun t => (t.jalzel p).violations = satAdd 64 (s.jalzel p).violations 1 ∧ t.fabric = s.fabric) ∧
  (∀ (s : State) (p : Nat) (m : LinkMsg) (r : LinkReq), (s.jalzel p).head 2 = some m → p < 7 → s.net.jalzel.length = 7 →
    r ∈ (s.jalzel p).open_ → r.tag = m.tag → r.write = false →
    Leads (.readData p) s fun t => t.desk = s.desk ∧ t.fabric = s.fabric ∧
      (t.jalzel p).lastRead = ((List.range m.words.length).zip m.words).map (fun e => (e.2, m.poison.testBit e.1)) ∧
      (t.jalzel p).open_ = (s.jalzel p).open_.filter (fun r => !(r.tag == m.tag && r.write == false)) ∧
      (t.jalzel p).inbox = (s.jalzel p).inbox.erase m) ∧
  (∀ (s : State) (p addr : Nat) (m : LinkMsg) (d : Bytes), (s.jalzel p).head 3 = some m → addr = bitsOf m.address 34 0 →
    m.words = [d] → d.length = 32 → m.poison = 0 → addr % 32 = 0 → s.openedTo m.source addr 32 = true →
    s.LinkFree p m.source (m.channel / 2 * 2 + 1) 1 → s.fabric.stack.store.wf = true →
    Leads (.write p false) s fun t => dataOf (t.fabric.stack.store.word (addr / 32)) = d ∧
      decideWord (t.fabric.stack.store.word (addr / 32)) = .clean ∧
      (∀ w, w ≠ addr / 32 → t.fabric.stack.store.word w = s.fabric.stack.store.word w) ∧
      t.desk.out = s.desk.out ++ [.link m.source 4 [m.channel / 2 * 2 + 1, m.tag, m.address, 0] []]) ∧
  (∀ (s : State) (p : Nat) (m : LinkMsg) (r : LinkReq), (s.jalzel p).head 4 = some m → p < 7 → s.net.jalzel.length = 7 →
    r ∈ (s.jalzel p).open_ → r.tag = m.tag → r.write = true →
    exec (.writeAck p) s = .next (((s.messageTaken p m).modJalzel p (fun x => { x with
      open_ := x.open_.filter (fun r => !(r.tag == m.tag && r.write == true)) })).ackTokens p m.tag)) ∧
  (∀ (s : State) (p tag : Nat), s.net.farTokens = [] → s.ackTokens p tag = s) ∧
  (∀ (s : State) (p tag : Nat) (t : FarToken), s.net.farTokens = [t] → t.port = p → t.tags = [tag] →
    s.ackTokens p tag = ({ s with net := { s.net with farTokens := [] } } : State).sendLink t.msg) ∧
  (∀ (s : State) (p : Nat) (m : LinkMsg), (s.jalzel p).head 4 = some m → (∀ r ∈ (s.jalzel p).open_, r.tag ≠ m.tag) → p < 7 →
    s.net.jalzel.length = 7 →
    Leads (.writeAck p) s fun t => (t.jalzel p).violations = satAdd 64 (s.jalzel p).violations 1) ∧
  (∀ (s : State) (p c port : Nat) (m : LinkMsg) (w : Bytes) (b : Bound) (x : InPort), (s.jalzel p).head 5 = some m → m.words = [w] →
    c = fldB w 0 2 → port = fldB w 2 1 → (s.carrel c).bound = some b → (s.carrel c).ins[port]? = some x → fldB w 3 1 < x.slots →
    (∀ h ∈ x.held, h.slot ≠ fldB w 3 1) → (s.carrel c).state = .running →
    (∀ y ∈ (s.carrel c).ins, ∀ h ∈ y.held, s.deadToken h = false) →
    Leads (.token p) s fun t => t.carrel c = { s.carrel c with
      ins := setAt (s.carrel c).ins port { x with
        held := x.held ++ [{ slot := fldB w 3 1, bytes := fldB w 4 4, seq := fldB w 8 4
                             far := some { member := m.source, carrel := fldB w 12 2, port := fldB w 14 1, address := 0 } }] } } ∧
      t.desk = s.desk ∧ t.fabric.credits = s.fabric.credits) ∧
  (∀ (s : State) (p : Nat) (m : LinkMsg) (w : Bytes), (s.jalzel p).head 5 = some m → m.words = [w] →
    (∀ x, (s.carrel (fldB w 0 2)).ins[fldB w 2 1]? = some x → x.slots ≤ fldB w 3 1 ∨ ∃ h ∈ x.held, h.slot = fldB w 3 1) →
    exec (.token p) s = .next ((s.messageTaken p m).control m.source 0x77 [fldB w 12 2])) ∧
  (∀ (s : State) (p l : Nat) (m : LinkMsg) (f : Bytes), (s.jalzel p).head 6 = some m → m.poison = 0 → m.address % 2 = 1 →
    524288 ≤ m.address → m.address < 1048576 → fldB m.words.flatten 0 1 = 16 * s.position + l → l < 16 →
    f = (m.words.flatten.drop 32).take (fldB m.words.flatten 16 4) → (s.netPort l).state = .up →
    s.net.ports.length = 16 →
    Leads (.queuePost p) s fun t =>
      if (s.netPort l).left = 0 ∧ (s.netPort l).sync = [] ∧ (s.netPort l).answers = [] then t.desk.out = s.desk.out ++
        [.packet (s.roomPort l) (f.take 6 ++ be 6 (s.netPort l).mac ++ f.drop 12)]
      else (s.netPort l).left ≠ 0 → t.desk.out = s.desk.out ∧ (t.netPort l).answers = (s.netPort l).answers ++
        [f.take 6 ++ be 6 (s.netPort l).mac ++ f.drop 12]) ∧
  (∀ (s : State) (p : Nat) (m : LinkMsg), (s.jalzel p).head 6 = some m → m.poison ≠ 0 →
    exec (.queuePost p) s = .next (s.messageTaken p m)) ∧
  (∀ (s : State) (p : Nat) (m : LinkMsg), (s.jalzel p).head 7 = some m → 256 + 32 * m.source ≤ m.address →
    m.address < 288 + 32 * m.source → m.source < 8 → exec (.bell p) s = .next ((s.messageTaken p m).tell [.raise m.address])) ∧
  (∀ (s : State) (p : Nat) (m : LinkMsg), (s.jalzel p).head 7 = some m →
    m.address < 256 + 32 * m.source ∨ 288 + 32 * m.source ≤ m.address →
    Leads (.bell p) s fun t => t.desk.bell.remoteBad = satAdd 32 s.desk.bell.remoteBad 1) ∧
  (∀ (s : State) (p : Nat) (m : LinkMsg), (s.jalzel p).head 8 = some m → m.address / 2 ^ 32 = 0x13 →
    exec (.bulk p) s = .next ((s.messageTaken p m).modCollator (fun c => { c with
      bookIn := c.bookIn.take (m.address % 2 ^ 32) ++ m.words.flatten }))) ∧
  (∀ (s : State) (p : Nat) (m : LinkMsg), (s.jalzel p).head 9 = some m → m.address = 0x6C →
    Leads (.control p) s fun t => t.curator.pins = amDel s.curator.pins (natAt (m.words.map unle) 0)) ∧
  (∀ (s : State) (p : Nat) (m : LinkMsg), (s.jalzel p).head 9 = some m → m.address = 0x74 →
    Leads (.control p) s fun t => t.net.opened = s.net.opened.filter (fun o => o.source ≠ m.source) ++
      [{ source := m.source, base := copyBase m.source, length := natAt (m.words.map unle) 1 }] ∧ t.desk = s.desk) ∧
  (∀ (s : State) (p : Nat) (m : LinkMsg), (s.jalzel p).head 9 = some m → m.address = 0x75 →
    Leads (.control p) s fun t => t.net.opened = s.net.opened.filter (fun o => o.source ≠ m.source) ∧
      ∀ o, s.net.opened.find? (fun o => o.source == m.source) = some o →
        (∀ k ∈ wordsOf o.base o.length, decideWord (s.fabric.stack.store.word k) = .clean) →
        ∃ x ∈ t.map.arriving, x.sheet = natAt (m.words.map unle) 0 ∧ x.source = m.source) ∧
  (∀ (s : State) (p : Nat) (m : LinkMsg), (s.jalzel p).head 9 = some m → m.address = 0x77 →
    exec (.control p) s = .next ((s.messageTaken p m).haltCarrel (natAt (m.words.map unle) 0) 0))

/-- The counter: a tick adds INC + s by the pseudocode of R469, s being the slew step of R472, and takes s from the remainder; under
R471 that is never further than M from nominal, and the counter is then advanced by exactly INC + s units of 2^-32 ns, its
nanoseconds staying below 10^9 (R468, R469, R471, R472). -/
def Obligations.CounterAdvances : Prop :=
  nominalInc = 5 * 2 ^ 32 ∧ (∀ x : Stamp, x.inc = BitVec.ofNat 64 nominalInc → trimOf x.inc = 0) ∧
  (∀ (s : State) (add : BitVec 64) (t : Nat) (n : BitVec 32), s.stamp.ops = [] → s.stamp.refLost = false →
    add = s.stamp.inc + BitVec.ofInt 64 s.stamp.slew → t = s.stamp.fraction.toNat + (add &&& 0xFFFFFFFF#64).toNat →
    n = s.stamp.nanos + (add >>> 32).setWidth 32 + BitVec.ofNat 32 (t / 2 ^ 32) →
    Leads .datestampTick s fun u => u.stamp.fraction = BitVec.ofNat 32 t ∧
      (if 1000000000#32 ≤ n then u.stamp.nanos = n - 1000000000#32 ∧ u.stamp.seconds = s.stamp.seconds + 1
        else u.stamp.nanos = n ∧ u.stamp.seconds = s.stamp.seconds) ∧
      u.stamp.inc = s.stamp.inc ∧ u.stamp.r = s.stamp.r - s.stamp.slew ∧ u.stamp.timing = s.stamp.timing) ∧
  (∀ x : Stamp, x.hi < x.r → x.slew = (slewM x.timing.slewPpb : Int) - trimOf x.inc) ∧
  (∀ x : Stamp, x.r ≤ x.hi → x.lo ≤ x.r → x.slew = x.r) ∧
  (∀ x : Stamp, x.r ≤ x.hi → x.r < x.lo → x.slew = -(slewM x.timing.slewPpb : Int) - trimOf x.inc) ∧
  (∀ x : Stamp, (trimOf x.inc + x.slew).natAbs ≤ slewM x.timing.slewPpb) ∧
  (∀ s : State, s.stamp.ops = [] → s.stamp.refLost = false → s.stamp.timing.slewPpb ≤ 1000000 →
    incOk s.stamp.timing.slewPpb s.stamp.inc = true → s.stamp.nanos.toNat < 1000000000 → s.stamp.seconds.toNat < 2 ^ 64 - 1 →
    Leads .datestampTick s fun u => (u.stamp.units : Int) = s.stamp.units + (nominalInc + trimOf s.stamp.inc + s.stamp.slew) ∧
      u.stamp.nanos.toNat < 1000000000)

/-- Commands on the counter: they wait for the next tick in the order accepted, which carries them out and ends their jobs; a HARD_SET
takes the place of the tick's update, clears the remainder and answers the signed step; a follower, or a SOURCE beyond FREE, refuses
them; settings of the unit, its pulses and its captures take effect, a pulse in progress first ending; the report; a lost reference stops the counter (R473 to R475,
R480, R486 to R490, R512).
Choices of the model in it: log 45. -/
def Obligations.CounterCommands : Prop :=
  (∀ (s : State) (n : Nat) (j : Job) (off : Int), s.Startable n 0x0851 j → fld j.slip 40 24 = 0 → off = toInt 64 (fld j.slip 32 8) →
    s.stamp.timing.source ≤ 1 → s.isClerk = true → off.natAbs ≤ 1000000000 * 2 ^ 32 →
    (remainderAfter s.stamp.r s.stamp.ops + off).natAbs ≤ 1000000000 * 2 ^ 32 →
    exec (.adjustTime n) s = .next ((s.took n).modStamp (fun x => { x with ops := x.ops ++ [.adjust (some n) off] }))) ∧
  (∀ (s : State) (n : Nat) (j : Job) (off : Int), s.Startable n 0x0851 j → fld j.slip 40 24 = 0 → off = toInt 64 (fld j.slip 32 8) →
    s.stamp.timing.source ≤ 1 → s.isClerk = true →
    1000000000 * 2 ^ 32 < off.natAbs ∨ 1000000000 * 2 ^ 32 < (remainderAfter s.stamp.r s.stamp.ops + off).natAbs →
    exec (.adjustTime n) s = .next (s.ended n (refusal stMalformed))) ∧
  (∀ (s : State) (n : Nat) (j : Job), s.Startable n 0x0852 j → fld j.slip 40 24 = 0 → s.stamp.timing.source ≤ 1 →
    s.isClerk = true → incOk s.stamp.timing.slewPpb (BitVec.ofNat 64 (fld j.slip 32 8)) = true →
    exec (.setIncrement n) s = .next ((s.took n).modStamp (fun x => { x with
      ops := x.ops ++ [.setInc (some n) (BitVec.ofNat 64 (fld j.slip 32 8))] }))) ∧
  (∀ (s : State) (n : Nat) (j : Job), s.Startable n 0x0853 j → fld j.slip 48 16 = 0 → s.stamp.timing.source ≤ 1 →
    s.isClerk = true → s.accession.streams = [] → s.concord.state ≠ .running → s.concord.state ≠ .stopping →
    fld j.slip 40 4 ≤ 999999999 → fld j.slip 32 8 ≠ 0 ∨ fld j.slip 40 4 ≠ 0 →
    exec (.hardSet n) s = .next ((s.took n).modStamp (fun x => { x with ops := x.ops ++ [.hardSet (some n)
      (BitVec.ofNat 64 (fld j.slip 32 8)) (BitVec.ofNat 32 (fld j.slip 40 4)) (BitVec.ofNat 32 (fld j.slip 44 4))] }))) ∧
  (∀ (s : State) (n : Nat) (j : Job) (c : Instr), (1 < s.stamp.timing.source ∨ s.isClerk = false) →
    (c = .adjustTime n ∧ s.Startable n 0x0851 j ∧ fld j.slip 40 24 = 0) ∨
      (c = .setIncrement n ∧ s.Startable n 0x0852 j ∧ fld j.slip 40 24 = 0) ∨
      (c = .hardSet n ∧ s.Startable n 0x0853 j ∧ fld j.slip 48 16 = 0) →
    exec c s = .next (s.ended n (refusal stNotPermitted))) ∧
  (∀ (s : State) (n : Nat) (j : Job) (off : Int), s.stamp.ops = [.adjust (some n) off] → s.stamp.refLost = false → s.concord.closing = none →
    s.job n = some j → j.ending = none →
    Leads .datestampTick s fun t => t.stamp.ops = [] ∧
      t.stamp.r = s.stamp.r + off - Stamp.slew { s.stamp with r := s.stamp.r + off } ∧
      t.job n = some { j with ending := some (endWith [] 0 (ofInt 64 (s.stamp.r + off))) }) ∧
  (∀ (s : State) (n : Nat) (j : Job) (inc : BitVec 64), s.stamp.ops = [.setInc (some n) inc] → s.stamp.refLost = false → s.concord.closing = none →
    s.job n = some j → j.ending = none →
    Leads .datestampTick s fun t => t.stamp.ops = [] ∧ t.stamp.inc = inc ∧
      t.job n = some { j with ending := some (endWith []) }) ∧
  (∀ (s : State) (n : Nat) (j : Job) (sec : BitVec 64) (ns frac : BitVec 32), s.stamp.ops = [.hardSet (some n) sec ns frac] →
    s.stamp.refLost = false → s.concord.closing = none → s.job n = some j → j.ending = none →
    Leads .datestampTick s fun t => t.stamp.ops = [] ∧ t.stamp.seconds = sec ∧ t.stamp.nanos = ns ∧ t.stamp.fraction = frac ∧
      t.stamp.r = 0 ∧ t.stamp.inc = s.stamp.inc ∧ t.job n = some { j with ending := some (endWith [] 0
        (ofInt 64 (stepNs ((t.stamp.units : Int) - s.stamp.advance.units)))) }) ∧
  (∀ s : State, s.stamp.refLost = true → exec .datestampTick s = .next s) ∧
  (∀ (s : State) (n : Nat) (j : Job) (b : Bytes), s.Startable n 0x0850 j → dataLenOf j.slip = 64 → fld j.slip 32 32 = 0 →
    b.length = 64 → s.timingOk b = true →
    Leads (.setTiming n (some b)) s fun t => t.Answers n j (endWith []) ∧ t.stamp.timing = timingOf b ∧
      t.stamp.state = (if (timingOf b).source = s.stamp.timing.source then s.stamp.state
        else if s.stamp.todSet = false then .unset else if 2 ≤ (timingOf b).source then .locking else .free)) ∧
  (∀ (s : State) (n : Nat) (j : Job) (x : Stamp), s.Startable n 0x0854 j → fld j.slip 32 32 = 0 → 64 ≤ dataLenOf j.slip →
    x = s.stamp →
    exec (.queryTime n) s = .next (s.ended n (endWith [] 0 0 [(0, packB 64 [(0, 8, x.seconds.toNat), (8, 4, x.nanos.toNat),
      (12, 4, x.fraction.toNat), (16, 8, x.inc.toNat), (24, 8, ofInt 64 x.r), (32, 8, ofInt 64 x.offset),
      (40, 1, s.reportedTimeState.code), (41, 1, s.clerk), (42, 1, flag (x.r ≠ 0)), (44, 4, x.pathDelay), (48, 8, x.parent),
      (56, 4, x.violations), (60, 4, sat 32 (x.ppsOffTime + x.ppsExtra))])]))) ∧
  (∀ (s : State) (n o : Nat) (j : Job) (p : Pulse) (g : PulseSet), s.Startable n 0x0855 j → pulseOk j.slip = true →
    fld j.slip 32 1 = o → s.stamp.pulses[o]? = some p → p.high = false → pulseOf j.slip = some g →
    (g.periodic = true ∨ s.stamp.units + 1000 * 2 ^ 32 ≤ g.start) →
    exec (.setPulse n) s = .next ((s.modStamp (fun x => { x with pulses := setAt x.pulses o { p with
      setting := some g, target := firstTarget g (s.stamp.units + 1000 * 2 ^ 32), next := none } })).ended n (endWith []))) ∧
  (∀ (s : State) (n o : Nat) (j : Job) (p : Pulse), s.Startable n 0x0855 j → pulseOk j.slip = true → fld j.slip 32 1 = o →
    s.stamp.pulses[o]? = some p → p.high = true →
    (∀ g, pulseOf j.slip = some g → g.periodic = true ∨ s.stamp.units + 1000 * 2 ^ 32 ≤ g.start) →
    exec (.setPulse n) s = .next ((s.modStamp (fun x => { x with pulses := setAt x.pulses o { p with
      next := some (pulseOf j.slip, s.stamp.units) } })).ended n (endWith []))) ∧
  (∀ (p : Pulse) (g x : PulseSet) (now accepted : Nat), p.next = some (some x, accepted) → x.periodic = false →
    p.afterTrailing g now = { p with high := false, setting := some x, target := firstTarget x (accepted + 1000 * 2 ^ 32), next := none }) ∧
  (∀ (p : Pulse) (g x : PulseSet) (now accepted : Nat), p.next = some (some x, accepted) → x.periodic = true →
    ∃ from_, p.afterTrailing g now = { p with high := false, setting := some x, target := firstTarget x from_, next := none } ∧
      accepted + 1000 * 2 ^ 32 ≤ from_ ∧ (accepted + 1000 * 2 ^ 32 < now → from_ = now)) ∧
  (∀ (g : PulseSet) (from_ : Nat), 0 < g.periodNs → g.start < from_ →
    from_ + g.fine ≤ firstTarget g from_ ∧ firstTarget g from_ < from_ + g.fine + g.periodNs * 2 ^ 32 ∧
      ∃ k, firstTarget g from_ = g.start + g.fine + k * (g.periodNs * 2 ^ 32)) ∧
  (∀ (s : State) (n : Nat) (j : Job) (g : PulseSet), s.Startable n 0x0855 j → pulseOk j.slip = true → pulseOf j.slip = some g →
    g.periodic = false → g.start < s.stamp.units + 1000 * 2 ^ 32 →
    exec (.setPulse n) s = .next (s.ended n (refusal stNotPermitted))) ∧
  (∀ (s : State) (n i : Nat) (j : Job) (c : Capture), s.Startable n 0x0856 j → fld j.slip 32 1 = i → i ≤ 8 → fld j.slip 33 1 ≤ 3 →
    fld j.slip 35 1 = 0 → fld j.slip 36 4 ≤ 1000000 → fld j.slip 40 24 = 0 → s.stamp.captures[i]? = some c →
    exec (.setCapture n) s = .next ((s.modStamp (fun x => { x with captures := setAt x.captures i { c with
      edge := fld j.slip 33 1, filterTicks := fld j.slip 34 1, minIntervalUs := fld j.slip 36 4 } })).ended n (endWith [])))

/-- Sources of time: an interval within LOCK_NS for the sixteenth time locks and the fourth far one unlocks; a lost source leaves
LOCKED or LOCKING for HOLDOVER; a follower slews by its exchange with the timekeeper, which is its interval; a PPS edge off time or too early is counted;
slew pinned for more than a second is reported; PTP messages go out, or wait for the port, where the role and the state let them, an Announce of a better parent is taken and a
malformed message is a violation; a pulse's edge leaves at its target and a captured edge is reported unless one came too soon
(R472, R477 to R487, R492, R617).
Choices of the model in it: logs 24, 118, 182 and 187. -/
def Obligations.TimeSources : Prop :=
  (∀ (s : State) (offset : Int), s.stamp.timing.source < 2 ∨ s.stamp.state = .unset ∨ s.stamp.state = .free ∨ s.isClerk = false →
    exec (.servoInterval offset none false) s = .next s) ∧
  (∀ (s : State) (offset : Int), 2 ≤ s.stamp.timing.source → s.isClerk = true → s.stamp.state = .locking →
    offset.natAbs ≤ s.stamp.timing.lockNs * 2 ^ 16 →
    Leads (.servoInterval offset none false) s fun t => t.stamp.offset = offset ∧
      t.stamp.state = (if 16 ≤ s.stamp.near + 1 then .locked else .locking) ∧
      (s.stamp.near + 1 < 16 → t.stamp.near = s.stamp.near + 1)) ∧
  (∀ (s : State) (offset : Int), 2 ≤ s.stamp.timing.source → s.isClerk = true → s.stamp.state = .locked →
    4 * s.stamp.timing.lockNs * 2 ^ 16 < offset.natAbs →
    Leads (.servoInterval offset none false) s fun t => t.stamp.offset = offset ∧
      t.stamp.state = if 4 ≤ s.stamp.far + 1 then .locking else .locked) ∧
  (∀ s : State, (s.stamp.timing.source = 2 ∧ s.stamp.ptpUntil ≤ s.now) ∨
      (3 ≤ s.stamp.timing.source ∧ ∀ t, s.stamp.lastPps = some t → t + 2000000000 ≤ s.now) → s.isClerk = true →
    s.stamp.state = .locking ∨ s.stamp.state = .locked →
    Leads .timeSourceLost s fun t => t.stamp.state = .holdover ∧ t.stamp.inc = s.stamp.inc ∧ t.stamp.r = s.stamp.r) ∧
  (∀ (s : State) (offset : Int) (delay : Nat) (locked : Bool), s.isClerk = false → s.power.sleep = .awake →
    offset.natAbs ≤ 65536000000000 → delay < 2 ^ 32 →
    (remainderAfter s.stamp.r s.stamp.ops - offset * 2 ^ 16).natAbs ≤ 1000000000 * 2 ^ 32 →
    Leads (.timekeeperExchange offset delay locked) s fun t => t.stamp.pathDelay = delay ∧ t.stamp.keeperLocked = locked ∧
      t.stamp.offset = offset ∧ t.stamp.ops = s.stamp.ops ++ [.adjust none (-offset * 2 ^ 16)] ∧
      (s.stamp.state = .unset → locked = true → t.stamp.todSet = true ∧
        t.stamp.state = if s.stamp.timing.source ≤ 1 then .free else .locking) ∧
      (s.stamp.state = .locking → offset.natAbs ≤ s.stamp.timing.lockNs * 2 ^ 16 →
        t.stamp.state = if 16 ≤ s.stamp.near + 1 then .locked else .locking)) ∧
  (∀ (s : State) (offset : Int) (delay : Nat) (locked : Bool), s.isClerk = true →
    exec (.timekeeperExchange offset delay locked) s = .next s) ∧
  (∀ (s : State) (stamp : Nat) (off : Int), onTime s.stamp.timing.ppsWindowNs stamp = false →
    exec (.ppsEdge stamp off) s = .next (s.modStamp (fun x => { x with ppsOffTime := satAdd 32 x.ppsOffTime 1 }))) ∧
  (∀ (s : State) (stamp last : Nat) (off : Int), onTime s.stamp.timing.ppsWindowNs stamp = true → s.stamp.lastPps = some last →
    last ≤ stamp → stamp < last + 500000000 →
    exec (.ppsEdge stamp off) s = .next (s.modStamp (fun x => { x with ppsExtra := satAdd 32 x.ppsExtra 1 }))) ∧
  (∀ (s : State) (stamp : Nat), onTime s.stamp.timing.ppsWindowNs stamp = true →
    s.stamp.lastPps.all (fun last => decide (last + 500000000 ≤ stamp)) = true →
    exec (.ppsEdge stamp 0) s = .next (s.modStamp (fun x => { x with lastPps := some stamp }))) ∧
  (∀ s : State, exec .slewPinnedTimeout s = .next (if (s.stamp.hi < s.stamp.r ∨ s.stamp.r < s.stamp.lo) ∧
    (∃ t, s.stamp.pinnedAt = some t ∧ t + 1000000000 < s.now) then s.pinBound 0x11 else s)) ∧
  (∀ s : State, s.stamp.refLost = false → s.stamp.ops = [] → s.stamp.pinnedAt = none →
    Leads .datestampTick s fun t => t.stamp.pinnedAt =
      if t.stamp.hi < t.stamp.r ∨ t.stamp.r < t.stamp.lo then some t.now else none) ∧
  (∀ (s : State) (port kind seq : Nat), port ≤ 15 → (s.net.ports.getD port {}).state = .up → kind = 11 →
    s.stamp.role port = 2 → s.stamp.state = .locked → s.isClerk = true ∨ s.stamp.keeperLocked = true →
    s.net.ports.length = 16 →
    Leads (.ptpSend port kind seq) s fun t => if (s.netPort port).left = 0 ∧ (s.netPort port).sync = [] then
        t.desk.out = s.desk.out ++ [.ptp port 11 (seq % 65536) s.now (s.stamp.fraction.toNat / 65536)] ∧
        (t.netPort port).tx = satAdd 64 (s.netPort port).tx 1
      else (s.netPort port).left ≠ 0 → t.desk = s.desk ∧
        (t.netPort port).sync = (s.netPort port).sync ++ [{ kind := 11, seq := seq % 65536 }]) ∧
  (∀ (s : State) (port seq : Nat), port ≤ 15 → (s.net.ports.getD port {}).state = .up → s.stamp.role port = 2 →
    s.servesTime = true → s.net.ports.length = 16 → (s.netPort port).left = 0 → (s.netPort port).sync = [] →
    s.stamp.timing.profile = 2 ∨ s.stamp.timing.stepMode = 0 →
    Leads (.ptpSend port 0 seq) s fun t =>
      .ptp port 0 (seq % 65536) s.now (s.stamp.fraction.toNat / 65536) ∈ t.desk.out ∧
      (t.netPort port).sync = [{ kind := 8, seq := seq % 65536, stamp := some (s.now, s.stamp.fraction.toNat / 65536) }]) ∧
  (∀ (s : State) (port seq : Nat), s.stamp.role port ≠ 2 ∨ s.servesTime = false →
    exec (.ptpSend port 0 seq) s = .next s ∧ exec (.ptpSend port 11 seq) s = .next s) ∧
  (∀ (s : State) (port transport : Nat) (m : Bytes) (delay : Option Int), port ≤ 15 → s.stamp.role port ≠ 0 →
    (s.net.ports.getD port {}).state = .up → m.length < 34 →
    Leads (.ptpMessage port m transport delay) s fun t => t.stamp.violations = satAdd 32 s.stamp.violations 1 ∧
      t.stamp.state = s.stamp.state ∧ t.stamp.parent = s.stamp.parent) ∧
  (∀ (s : State) (port transport data src : Nat) (m : Bytes), port ≤ 15 → s.stamp.role port = 1 →
    (s.net.ports.getD port {}).state = .up → ptpType m = 11 → src = ptpSource m → data = fldBE m 47 16 * 2 ^ 80 + src →
    s.stamp.parentData.all (fun d => decide (data ≤ d)) = true →
    if s.stamp.ptpFault port m transport none = none then
      exec (.ptpMessage port m transport none) s =
        .next (s.modStamp (fun x => { x with parent := src / 65536, parentData := some data }))
    else Leads (.ptpMessage port m transport none) s fun t => t.stamp.violations = satAdd 32 s.stamp.violations 1 ∧
      t.stamp.parent = s.stamp.parent) ∧
  (∀ (s : State) (o : Nat) (p : Pulse) (g : PulseSet), s.stamp.pulses[o]? = some p → p.setting = some g → p.high = false →
    p.target < s.stamp.units + s.stamp.nextAdd → s.stamp.refLost = false →
    exec (.pulseEdge o) s = .next ((s.emit [.edge o (pulseLevel g true) (edgePlace s.stamp.units s.stamp.nextAdd p.target).1
      (edgePlace s.stamp.units s.stamp.nextAdd p.target).2]).modStamp (fun x => { x with
        pulses := setAt x.pulses o { p with high := true, trailing := p.target + g.widthNs * 2 ^ 32 } }))) ∧
  (∀ (s : State) (o : Nat) (p : Pulse) (g : PulseSet), s.stamp.pulses[o]? = some p → p.setting = some g →
    s.stamp.units + s.stamp.nextAdd ≤ (if p.high then p.trailing else p.target) → exec (.pulseEdge o) s = .next s) ∧
  (∀ (s : State) (i stamp fine : Nat) (rising : Bool) (c : Capture), s.stamp.captures[i]? = some c → edgeTaken c.edge rising = true →
    c.last.all (fun t => decide (t + c.minIntervalUs * 1000 ≤ stamp)) = true → s.power.sleep = .awake →
    Leads (.captureEdge i rising stamp fine) s fun t =>
      t.stamp.captures[i]? = some { c with last := some stamp, seq := (c.seq + 1) % 2 ^ 32, suppressed := 0 }) ∧
  (∀ (s : State) (i stamp fine last : Nat) (rising : Bool) (c : Capture), s.stamp.captures[i]? = some c →
    edgeTaken c.edge rising = true → c.last = some last → last ≤ stamp →
    stamp < last + c.minIntervalUs * 1000 →
    exec (.captureEdge i rising stamp fine) s = .next (s.modStamp (fun x => { x with
      captures := setAt x.captures i { c with suppressed := satAdd 32 c.suppressed 1 } })))

/-- Errata records: an error makes a record with the next SEQUENCE, its class, flags and place; a corrected error like one of the last
sixteen merges with it; a class met again within an open handling escalates by one; the oldest held record moves to the ring, over
the oldest there where it is full; a handling closes with its closing record, but not while its unit is in reset or where it is
device-fatal (R539 to R544, R547).
Choices of the model in it: logs 62 and 167. -/
def Obligations.ErrataRecorded : Prop :=
  (∀ (s : State) (cls unit inst code flags scope location d0 d1 : Nat), cls ≤ 4 → s.desk.errata.handlings = [] →
    s.desk.errata.holding.length < 64 →
    (cls = 1 → mergeTarget s.now
      { cls := cls, unit := unit, inst := inst, code := code, flags := flags &&& 0x16, scope := scope, location := location, detail0 := d0, detail1 := d1 }
      s.desk.errata = none) →
    Leads (.errataRecord cls unit inst code flags scope location d0 d1) s fun t => t.desk.circ.jobs = s.desk.circ.jobs ∧
      ({ time := s.now, seq := nextSequence s.desk.errata.sequence, cls := cls, depth := 0, flags := flags &&& 0x16
         scope := if cls = 4 then 4 else scope, unit := unit, inst := inst, code := code, orig := cls, location := location
         parent := 0, count := 1, detail0 := d0, detail1 := d1 } : ErrRec) ∈ t.desk.errata.holding) ∧
  (∀ n : Nat, nextSequence n = if n = 2 ^ 32 - 1 then 1 else n + 1) ∧
  (∀ (s : State) (unit inst code flags scope location d0 d1 : Nat) (e : ErrRec), s.desk.errata.handlings = [] →
    mergeTarget s.now
      { cls := 1, unit := unit, inst := inst, code := code, flags := flags &&& 0x16, scope := scope, location := location, detail0 := d0, detail1 := d1 }
      s.desk.errata = some e →
    Leads (.errataRecord 1 unit inst code flags scope location d0 d1) s fun t => t.desk.out = s.desk.out ∧
      t.desk.circ = (if unit = 0x0016 then { s.desk.circ with corrected := satAdd 32 s.desk.circ.corrected 1 } else s.desk.circ) ∧
      t.desk.bell = s.desk.bell ∧ t.desk.errata.sequence = s.desk.errata.sequence ∧
      t.desk.errata.holding = bumpCount e.seq s.desk.errata.holding ∧ t.desk.errata.ring = bumpCount e.seq s.desk.errata.ring) ∧
  (∀ (now : Nat) (r : Report) (l : ErrataLog) (e : ErrRec), mergeTarget now r l = some e →
    e.cls = 1 ∧ e.unit = r.unit ∧ e.inst = r.inst ∧ e.code = r.code ∧ e.location = r.location ∧ now ≤ e.time + 1000000000 ∧
      e.seq ∈ l.lastCorrected) ∧
  (∀ (s : State) (cls unit inst code flags scope location d0 d1 : Nat) (h : Handling) (hs : List Handling), 2 ≤ cls → cls ≤ 3 →
    s.desk.errata.handlings = h :: hs → cls ∈ h.seen → hs.length < 7 →
    Leads (.errataRecord cls unit inst code flags scope location d0 d1) s fun t =>
      t.desk.errata.escalations = satAdd 32 s.desk.errata.escalations 1 ∧ ∃ r ∈ t.desk.errata.holding,
        r.seq = nextSequence s.desk.errata.sequence ∧ r.cls = cls + 1 ∧ r.orig = cls ∧ r.flags.testBit 0 = true ∧
        r.parent = h.seq ∧ r.scope = (if cls = 3 then 4 else h.scope)) ∧
  (∀ (s : State) (r : ErrRec) (rest : List ErrRec), s.desk.errata.holding = r :: rest → s.desk.errata.ring.length < 65536 →
    exec .errataRingMove s = .next (s.modErrata (fun l => { l with holding := rest, ring := l.ring ++ [r] }))) ∧
  (∀ (s : State) (r : ErrRec) (rest : List ErrRec), s.desk.errata.holding = r :: rest → 65536 ≤ s.desk.errata.ring.length →
    exec .errataRingMove s = .next (s.modErrata (fun l => { l with
      holding := rest, ring := l.ring.drop 1 ++ [r], overwritten := satAdd 32 l.overwritten 1 }))) ∧
  (∀ (s : State) (seq : Nat) (h : Handling), s.handling seq = some h → h.cls ≠ 4 →
    (∀ d ∈ s.desk.errata.down, d.seq = seq → d.out = true) →
    Leads (.handlingClose seq) s fun t => t.handling seq = none ∧ ∃ r ∈ t.desk.errata.holding, r.parent = seq ∧ r.flags = 8 ∧
      r.cls = h.cls ∧ r.unit = h.unit ∧ r.inst = h.inst ∧ r.seq = nextSequence s.desk.errata.sequence) ∧
  (∀ (s : State) (seq : Nat) (h : Handling), s.handling seq = some h →
    (h.cls = 4 ∨ ∃ d ∈ s.desk.errata.down, d.seq = seq ∧ d.out = false) → exec (.handlingClose seq) s = .next s)

/-- Units that fail: a unit-fatal error puts its unit into reset under its record and answers the jobs in its scope DISCARDED; a core
whose watchdog runs out is reset, and core 7 takes its duties; a poisoned word is dealt with by its owner, rewritten whole, and its
handling is closed (R508, R509, R538, R546, R547).
Choices of the model in it: logs 66 and 169. -/
def Obligations.UnitsFail : Prop :=
  (∀ (s : State) (inst code location d0 n : Nat) (j : Job), s.desk.errata.handlings = [] → s.job n = some j → j.ending = none →
    Leads (.unitFatalError 0x0011 inst code location d0 0 { emptyScope with jobs := [n] }) s fun t =>
      ({ unit := 0x0011, inst := inst, seq := nextSequence s.desk.errata.sequence } : DownUnit) ∈ t.desk.errata.down ∧
      ∃ e, t.job n = some { j with ending := some e } ∧ e.status = stDiscarded) ∧
  (∀ (s : State) (inst code location d0 recorded : Nat) (w : FaultScope), recorded ≠ 0 → s.handling recorded = none →
    exec (.unitFatalError 0x0011 inst code location d0 recorded w) s = .next s) ∧
  (∀ (s : State) (core : Nat), core < 8 → s.ports.coreState.length = 8 → s.ports.duties.length = 8 → s.ports.watchdog.length = 8 →
    s.desk.errata.handlings = [] →
    Leads (.watchdogExpiry core) s fun t => natAt t.ports.coreState core = 2 ∧
      natAt t.ports.watchdog core = satAdd 16 (natAt s.ports.watchdog core) 1 ∧
      (core ≠ 7 → natAt t.ports.duties core = 0 ∧ natAt t.ports.duties 7 = natAt s.ports.duties 7 ||| natAt s.ports.duties core) ∧
      ∃ d ∈ t.desk.errata.down, d.unit = 0x0019 ∧ d.inst = core) ∧
  (∀ (s : State) (id w seq : Nat) (h : Handling), s.handling seq = some h → h.cls = 2 → s.fabric.stack.store.wf = true →
    Leads (.poisonHandling (.addendum id) w seq) s fun t => id ∈ t.catalogue.unreadable ∧ t.handling seq = none ∧
      decideWord (t.fabric.stack.store.word w) ≠ .uncorrectable ∧
      ∀ v, v ≠ w → t.fabric.stack.store.word v = s.fabric.stack.store.word v) ∧
  (∀ (s : State) (n w seq : Nat) (h : Handling) (j : Job), s.handling seq = some h → h.cls = 2 → s.job n = some j →
    j.ending = none →
    Leads (.poisonHandling (.job n) w seq) s fun t => ∃ e, t.job n = some { j with ending := some e } ∧ e.status = stDiscarded) ∧
  (∀ (s : State) (place : PoisonPlace) (w seq : Nat), s.handling seq = none → exec (.poisonHandling place w seq) s = .next s)

/-- Sleep and wake: a device that nothing keeps awake answers its SLEEP and stops its clocks, with its carrels off and its links
parked; an enabled source begins the wake, with the first quadrant's PLL; the two PLLs' locks end it with the time held over locked again; a quadrant's clock runs
once its PLL locks; a parked link is trained again (R512, R514 to R517, R534).
Choices of the model in it: logs 136 and 166. -/
def Obligations.SleepAndWake : Prop :=
  (∀ (s : State) (n : Nat) (j : Job) (locked : Bool), s.Startable n 0x0870 j → sleepFieldsOk j.slip = true →
    s.keptAwake n locked = true → exec (.sleep n locked) s = .next (s.ended n (refusal stNotPermitted))) ∧
  (∀ (s : State) (n : Nat) (j : Job) (locked : Bool), s.Startable n 0x0870 j → sleepFieldsOk j.slip = true →
    s.keptAwake n locked = false → amWf s.fabric.carrels = true →
    Leads (.sleep n locked) s fun t => t.power.sleep = .asleep ∧ t.power.ringPll = false ∧ t.power.libPll = false ∧
      (∀ x ∈ t.power.quadrants, x.clockOn = false ∧ x.pllLocked = false) ∧ t.power.wakeMv = s.power.coreMv ∧
      t.power.avsPending = some 550 ∧ t.power.wakeEthernet = (fld j.slip 32 1).testBit 0 ∧
      t.power.wakeAlarm = (fld j.slip 32 1).testBit 1 ∧ t.power.captureMask = fld j.slip 34 2 ∧ t.power.wakePort = fld j.slip 36 2 ∧
      t.power.wakeAt = fld j.slip 40 8 ∧
      (∀ c, (t.carrel c).state = if (s.carrel c).state = .retired then .retired else .off) ∧
      (∀ p, (s.jalzel p).state = .up → (t.jalzel p).parked = true) ∧
      (t.stamp.state = if s.stamp.state = .locking ∨ s.stamp.state = .locked then .holdover else s.stamp.state)) ∧
  (∀ (s : State) (source port : Nat), s.wakeEnabled source port = true → s.power.sleep = .asleep →
    Leads (.wakeEvent source port) s fun t =>
      t.power.sleep = .waking source (if source = 3 ∨ source = 4 ∨ source = 5 then port else 0) ∧
      t.power.avsPending = some s.power.wakeMv ∧ t.desk.out = s.desk.out ++ [.avs s.power.wakeMv] ∧ t.stamp = s.stamp ∧
      (t.quadrant 0).starting = true ∧ ∀ q, 0 < q → q < 4 → s.curator.policy.quadrantSleep.testBit q = true → t.quadrant q = s.quadrant q) ∧
  (∀ (s : State) (source port : Nat), s.wakeEnabled source port = false → exec (.wakeEvent source port) s = .next s) ∧
  (∀ s : State, (s.wakeEnabled 4 0 = s.power.wakeEthernet) ∧ (∀ i, s.wakeEnabled 5 i = s.power.captureMask.testBit i) ∧
    (s.wakeEnabled 6 0 = (s.power.wakeAlarm && decide (s.power.wakeAt ≤ s.now)))) ∧
  (∀ (s : State) (q : Nat), s.pllMayLock = true → q < 4 → (s.quadrant q).starting = true →
    exec (.pllLock q) s = .next (s.modQuadrant q (·.locked s.power.coreMv))) ∧
  (∀ (s : State) (q : Nat), s.pllMayLock = true → q < 4 → s.power.quadrants.length = 4 → (s.quadrant q).starting = true →
    (railWindow (s.quadrant q).point).1 ≤ s.power.coreMv → (s.quadrant q).point ≤ 5 →
    Leads (.pllLock q) s fun t => (t.quadrant q).clockOn = true ∧ (t.quadrant q).pllLocked = true ∧
      (t.quadrant q).point = (s.quadrant q).point ∧ ∀ r, r ≠ q → t.quadrant r = s.quadrant r) ∧
  (∀ (s : State), s.pllMayLock = true → s.power.sleep = .awake →
    exec (.pllLock 4) s = .next (s.modPower (fun p => { p with ringPll := true })) ∧
    exec (.pllLock 5) s = .next (s.modPower (fun p => { p with libPll := true }))) ∧
  (∀ (s : State) (source port : Nat), s.pllMayLock = true → s.power.sleep = .waking source port → s.power.libPll = true →
    s.heldAccess = [] → s.power.railWaiting = none →
    Leads (.pllLock 4) s fun t => t.power.sleep = .awake ∧ t.power.ringPll = true ∧ t.heldAccess = [] ∧
      (t.stamp.state = if s.stamp.state = .holdover then .locking else s.stamp.state)) ∧
  (∀ (s : State) (p : Nat), s.power.sleep = .awake → (s.jalzel p).parked = true → p < 7 → s.net.jalzel.length = 7 →
    Leads (.parkedLinkRetrain p) s fun t => (t.jalzel p).parked = false ∧ (t.jalzel p).partner = (s.jalzel p).partner) ∧
  (∀ (s : State) (p : Nat), s.power.sleep ≠ .awake ∨ (s.jalzel p).parked = false → exec (.parkedLinkRetrain p) s = .next s)

/-- Clocks, points and the rail: a still quadrant's clock stops, or pins the bound that keeps it on, and is started again; a quadrant follows to its point once the rail
suffices, and the rail moves only within the window; an acknowledged step moves the rail and a failed one is counted; the power loop
steps down above 98 % of its limit and up after 100 low intervals, and refreshes its registers; the limiter counts its
interventions; the reports (R513, R518 to R520, R534, R582, R597, R609).
Choices of the model in it: logs 138 and 139. -/
def Obligations.ClocksAndPower : Prop :=
  (∀ (s : State) (q : Nat), (s.quadrant q).clockOn = true → s.curator.policy.quadrantSleep.testBit q = true →
    (s.quadrant q).wanted = none → (∀ e ∈ s.fabric.carrels, quadrantOf e.1 = q → e.2.state.still = true) →
    Leads (.quadrantClockStop q) s fun t => t.quadrant q = { s.quadrant q with clockOn := false, pllLocked := false } ∧
      (∀ r, r ≠ q → t.quadrant r = s.quadrant r) ∧ t.fabric = s.fabric ∧ t.desk = s.desk) ∧
  (∀ (s : State) (q : Nat), (s.quadrant q).clockOn = false ∨ s.curator.policy.quadrantSleep.testBit q = false ∨
    (s.quadrant q).wanted.isSome = true ∨ (∃ e ∈ s.fabric.carrels, quadrantOf e.1 = q ∧ e.2.state.still = false) →
    Leads (.quadrantClockStop q) s fun t => t.power = s.power ∧ t.fabric = s.fabric) ∧
  (∀ (s : State) (q : Nat), q < 4 → (s.quadrant q).clockOn = true → s.curator.policy.quadrantSleep.testBit q = false →
    (s.quadrant q).wanted = none → (∀ e ∈ s.fabric.carrels, quadrantOf e.1 = q → e.2.state.still = true) →
    Leads (.quadrantClockStop q) s fun t => ∃ p ∈ t.curator.pinned, p.code = 6) ∧
  (∀ (s : State) (q : Nat), (∀ k < 4, s.curator.policy.quadrantSleep.testBit k = true) →
    Leads (.quadrantClockStop q) s fun t => ∀ p ∈ t.curator.pinned, p.code ≠ 6) ∧
  (∀ (s : State) (q : Nat), s.power.sleep = .awake → s.power.tripped = false → s.boot.gen ≠ .minimal →
    (s.quadrant q).clockOn = false →
    exec (.quadrantClockStart q) s = .next (s.modQuadrant q (fun x => { x with starting := true }))) ∧
  (∀ (s : State) (q mv p : Nat), s.power.sleep = .awake → s.power.tripped = false → (s.quadrant q).clockOn = true →
    s.power.avsPending = none → s.railOk mv = true → (s.quadrant q).wanted = some p → mv ≤ s.power.coreMv →
    (railWindow p).1 ≤ s.power.coreMv → s.power.quadrants.length = 4 → q < 4 →
    exec (.operatingPointChange q mv) s = .next (s.modQuadrant q (fun x => { x with point := p, wanted := none }))) ∧
  (∀ (s : State) (q mv : Nat), s.power.sleep = .awake → s.power.tripped = false → (s.quadrant q).clockOn = true →
    s.power.avsPending = none → s.railOk mv = true →
    ((s.quadrant q).wanted.isSome = true ∧ s.power.coreMv < mv ∨ (s.quadrant q).wanted = none ∧ mv ≠ s.power.coreMv) →
    exec (.operatingPointChange q mv) s =
      .next ((s.modPower (fun p => { p with avsPending := some mv })).emit [.avs mv])) ∧
  (∀ (s : State) (q mv : Nat), s.railOk mv = false → exec (.operatingPointChange q mv) s = .next s) ∧
  (∀ (s : State) (mv : Nat), s.power.avsPending = some mv →
    exec .avsStepComplete s = .next (s.modPower (fun p => { p with
      coreMv := mv, avsPending := none, avsFailures := 0, quadrants := p.quadrants.map (·.follow mv) }))) ∧
  (∀ (s : State) (mv : Nat), s.power.avsPending = some mv → s.power.avsFailures < 2 →
    exec (.avsStepTimeout true) s =
      .next ((s.modPower (fun p => { p with avsFailures := p.avsFailures + 1 })).emit [.avs mv])) ∧
  (∀ (s : State) (noResponse : Bool), s.power.avsPending.isSome = true → (noResponse = true → 2 ≤ s.power.avsFailures) →
    Leads (.avsStepTimeout noResponse) s fun t => t.power.avsPending = none ∧ t.power.coreMv = s.power.coreMv ∧
      (∀ x ∈ t.power.quadrants, x.wanted = none) ∧
      amGetD t.ports.violations (0x101 * 256 + if noResponse then 4 else 5) 0 =
        amGetD s.ports.violations (0x101 * 256 + if noResponse then 4 else 5) 0 + 1) ∧
  (∀ (s : State) (power mv : Nat) (waiting : Bool), s.power.sleep = .awake → s.power.tripped = false →
    Leads (.powerLoopInterval power mv waiting) s fun t => t.power.power = power ∧ t.power.regs.power = sat 16 power ∧
      t.power.regs.coreMv = sat 16 mv ∧
      t.power.regs.capW = (if s.curator.policy.powerCapW = 0 then 420 else s.curator.policy.powerCapW)) ∧
  (∀ (s : State) (power mv q : Nat) (waiting : Bool), s.power.sleep = .awake → s.power.tripped = false → s.boot.gen ≠ .minimal →
    98 * (16 * s.powerLimit) < 100 * power → s.downQuadrant = some q → s.power.quadrants.length = 4 → q < 4 →
    Leads (.powerLoopInterval power mv waiting) s fun t => (t.quadrant q).point = min 5 ((s.quadrant q).point + 1) ∧
      ∀ r, r ≠ q → t.quadrant r = s.quadrant r) ∧
  (∀ (s : State) (power mv q : Nat) (waiting : Bool), s.power.sleep = .awake → s.power.tripped = false → s.boot.gen ≠ .minimal →
    100 * power < 90 * (16 * s.powerLimit) → s.power.lowIntervals = 99 → s.power.throttled = false → s.upQuadrant = some q →
    s.power.quadrants.length = 4 → q < 4 →
    Leads (.powerLoopInterval power mv waiting) s fun t => t.power.lowIntervals = 0 ∧
      (t.quadrant q).wanted = some ((s.quadrant q).point - 1) ∧ ∀ r, r ≠ q → t.quadrant r = s.quadrant r) ∧
  (∀ s : State, s.power.sleep = .awake → s.power.tripped = false → s.power.limiterOn = false →
    Leads .fastLimiterTrip s fun t => t.power.limiterOn = true ∧ t.power.limiterEvents = satAdd 32 s.power.limiterEvents 1) ∧
  (∀ s : State, exec .fastLimiterRelease s = .next (s.modPower (fun p => { p with limiterOn := false }))) ∧
  (∀ (s : State) (n : Nat) (j : Job), s.Startable n 0x0871 j → fld j.slip 32 32 = 0 → 64 ≤ dataLenOf j.slip →
    exec (.queryPower n) s = .next (s.ended n (endWith [] 0 0 [(0, packB 64 ((List.range 4).map
      (fun q => (q, 1, if (s.quadrant q).clockOn then (s.quadrant q).point else 0xF)) ++ [(4, 4, f32Ratio s.power.power 16),
        (8, 4, f32Ratio s.hottest.2 256), (12, 4, f32Ratio s.power.coreMv 1000), (16, 4, s.power.limiterEvents)]))]))) ∧
  (∀ (s : State) (n : Nat) (j : Job), s.Startable n 0x0872 j → fld j.slip 32 32 = 0 → 64 ≤ dataLenOf j.slip →
    exec (.deviceInfo n) s = .next (s.ended n (endWith [] 0 0 [(0, takePad 64
      (Config.deviceInfo orderingCode steppingCode s.security.firmware s.boot.bootMode s.boot.position))])))

/-- Thermal limits: eight readings are taken; the first that reaches 100 °C begins a throttle, asserts SMB_ALERT_N and lowers the
sensor's quadrant; one that reaches 105 °C takes every quadrant to P5; a throttle ends after 100 cool readings in a row; a reading of
100 °C wakes a sleeping device (R516, R521, R607).
Choices of the model in it: log 137. -/
def Obligations.ThermalLimits : Prop :=
  (∀ (s : State) (temps : List Int), s.power.sleep = .awake → s.power.tripped = false → temps.length = 8 →
    s.power.sensors.length = 8 →
    Leads (.thermalSensorRead temps) s fun t => ∀ i < 8, (t.power.sensors.getD i {}).temp = temps.getD i 0 ∧
      (t.power.sensors.getD i {}).hot = if 28160 ≤ temps.getD i 0 then (s.power.sensors.getD i {}).hot + 1 else 0) ∧
  (∀ (s : State) (temps : List Int), s.power.sleep = .awake → s.power.tripped = false → temps.length = 8 →
    s.power.sensors.length = 8 → s.power.throttled = false → (∀ x ∈ s.power.sensors, x.holds = false) →
    (∀ t ∈ temps, t < 25600) →
    Leads (.thermalSensorRead temps) s fun t => t.power.throttled = false ∧ t.power.quadrants = s.power.quadrants) ∧
  (∀ (s : State) (temps : List Int) (i : Nat), s.power.sleep = .awake → s.power.tripped = false → temps.length = 8 →
    s.power.sensors.length = 8 → s.power.quadrants.length = 4 → s.power.throttled = false → s.power.alert = false →
    (∀ x ∈ s.power.sensors, x.holds = false) → i < 4 → 25600 ≤ temps.getD i 0 → temps.getD i 0 < 26880 →
    (∀ k < 8, k ≠ i → temps.getD k 0 < 25600) →
    Leads (.thermalSensorRead temps) s fun t => t.power.throttled = true ∧ t.power.alert = true ∧
      Output.pin .smbAlert false ∈ t.desk.out ∧ (t.power.sensors.getD i {}).holds = true ∧
      (t.quadrant i).point = min 5 ((s.quadrant i).point + 1) ∧ ∀ q, q ≠ i → t.quadrant q = s.quadrant q) ∧
  (∀ (s : State) (temps : List Int) (i : Nat), s.power.sleep = .awake → s.power.tripped = false → temps.length = 8 →
    s.power.sensors.length = 8 → i < 8 → 26880 ≤ temps.getD i 0 → (s.power.sensors.getD i {}).temp < 26880 →
    Leads (.thermalSensorRead temps) s fun t => ∀ x ∈ t.power.quadrants, x.point = 5) ∧
  (∀ (s : State) (temps : List Int), s.power.sleep = .awake → s.power.tripped = false → temps.length = 8 →
    s.power.sensors.length = 8 → s.power.throttled = true → s.power.coolReads = 99 → (∀ t ∈ temps, t < 25088) →
    Leads (.thermalSensorRead temps) s fun t => t.power.throttled = false ∧ t.power.coolReads = 0) ∧
  (∀ (s : State) (temps : List Int) (x : Int), s.power.sleep = .asleep → s.power.tripped = false → temps.length = 8 → x ∈ temps →
    25600 ≤ x →
    Leads (.thermalSensorRead temps) s fun t => t.power.sleep = .waking 2 0 ∧ Output.avs s.power.wakeMv ∈ t.desk.out)

/-- Resets: POR_N low clears everything but the Vault and the flash and holds the device; its rise samples the straps and begins a
start with the next START_SERIAL; a device-level reset keeps the counter, its settings and the Vault; a function-level reset drops
the host's jobs and frees its queues and keeps the rest; PERST_N acts as PERST_ACTION gives; a device-fatal error is kept in the
Vault before its reset, as are rail faults and a lost reference; a thermal trip holds the device in reset (R470, R512, R521, R523 to
R527, R549, R598, R600, R601).
Choices of the model in it: logs 55, 133, 134 and 135. -/
def Obligations.ResetKinds : Prop :=
  (∀ s : State, Leads (.powerOnReset none) s fun t => t.ports.porLow = true ∧ t.stamp = {} ∧ t.vault = s.vault ∧
    t.pending = s.pending ∧ t.desk.circ = {} ∧ t.desk.errata = {} ∧ t.fabric = {} ∧ t.net = {} ∧ t.accession = {} ∧ t.images = {} ∧
    t.map.flash = s.map.flash) ∧
  (∀ (s : State) (x : Straps), s.vault.failures < 3 → s.vault.settled = true →
    Leads (.powerOnReset (some x)) s fun t => t.ports.porLow = false ∧ t.stamp = {} ∧ t.boot.bootMode = x.bootMode ∧
      t.boot.position = x.position ∧ t.boot.gen = .starting ∧ t.boot.step = 1 ∧ t.boot.coldWait = x.cold ∧
      t.vault.startSerial = (s.vault.startSerial + 1) % 2 ^ 32 ∧ t.vault.failures = s.vault.failures ∧
      ∃ a l, t.vault.attempts = a :: l ∧ a.serial = t.vault.startSerial ∧ a.resetKind = 0 ∧ a.outcome = 0) ∧
  (∀ s : State, s.ports.porLow = false → s.vault.failures < 3 → s.vault.settled = true →
    Leads .aonRailLow s fun t => t.stamp = {} ∧ t.boot.position = s.boot.position ∧ t.boot.gen = .starting ∧
      t.vault.startSerial = (s.vault.startSerial + 1) % 2 ^ 32) ∧
  (∀ s : State, s.released = true → s.vault.failures < 3 → s.vault.settled = true →
    Leads .deviceLevelReset s fun t => t.stamp.seconds = s.stamp.seconds ∧ t.stamp.nanos = s.stamp.nanos ∧
      t.stamp.fraction = s.stamp.fraction ∧ t.stamp.inc = s.stamp.inc ∧ t.stamp.r = s.stamp.r ∧ t.stamp.timing = s.stamp.timing ∧
      t.pending = s.pending ∧ t.desk.circ = {} ∧ t.desk.bell = {} ∧ t.desk.errata = {} ∧ t.fabric = {} ∧ t.net = {} ∧
      t.accession = {} ∧ t.sessions.open_ = [] ∧ t.map.flash = s.map.flash ∧ t.boot.gen = .starting ∧
      t.boot.position = s.boot.position ∧ t.vault.startSerial = (s.vault.startSerial + 1) % 2 ^ 32 ∧
      t.vault.ownerKey = s.vault.ownerKey ∧ t.vault.floor = s.vault.floor) ∧
  (∀ s : State, s.released = false → exec .deviceLevelReset s = .next s ∧ exec .functionLevelReset s = .next s) ∧
  (∀ s : State, s.released = true →
    Leads .functionLevelReset s fun t => t.desk.circ.jobs = [] ∧ t.boot = s.boot ∧ t.stamp = s.stamp ∧ t.vault = s.vault ∧
      t.fabric = s.fabric ∧ t.desk.errata = s.desk.errata ∧ t.desk.circ.fixed = [{}, {}, {}] ∧ t.desk.bell.msix = [] ∧
      (∀ q, hostResident q = true → (t.queue q).state = .free) ∧ ∀ q, hostResident q = false → t.queue q = s.queue q) ∧
  (∀ s : State, exec .perst s = if s.boot.perstAction then exec .functionLevelReset s else exec .deviceLevelReset s) ∧
  (∀ (s : State) (unit inst code location d0 : Nat), s.released = true →
    Leads (.deviceFatalError unit inst code location d0 0) s fun t => t.desk.circ.jobs = [] ∧ t.pending = s.pending ∧
      ∃ e, t.vault.fatal = ({ serial := s.vault.startSerial, record := e } :: s.vault.fatal).take 8 ∧ e.cls = 4 ∧ e.unit = unit ∧
        e.inst = inst ∧ e.code = code ∧ e.location = location ∧ e.detail0 = d0) ∧
  (∀ (s : State) (rail : Nat), s.released = true → rail ≤ 8 → rail ≠ 7 → s.boot.gen = .ready → s.power.sleep = .awake →
    Leads (.railFault rail) s fun t => ∃ e, t.vault.fatal = ({ serial := s.vault.startSerial, record := e } :: s.vault.fatal).take 8 ∧
      e.cls = 4 ∧ e.unit = 0x0030 ∧ e.inst = rail) ∧
  (∀ (s : State) (rail : Nat), s.released = true → rail ≤ 8 → rail ≠ 7 → s.boot.gen = .ready → s.power.sleep = .asleep →
    Leads (.railFault rail) s fun t => t.power.railWaiting = some rail ∧ t.power.sleep = .waking 2 0 ∧ t.vault = s.vault) ∧
  (∀ s : State, s.stamp.refLost = false → s.ports.porLow = false → s.power.tripped = false →
    Leads .referenceLost s fun t => t.stamp.refLost = true ∧
      (s.stamp.state = .locked ∨ s.stamp.state = .locking → t.stamp.state = .holdover) ∧
      ∃ e, t.vault.fatal = ({ serial := s.vault.startSerial, record := e } :: s.vault.fatal).take 8 ∧ e.cls = 4 ∧ e.unit = 0x0030) ∧
  (∀ s : State, exec .referenceReturn s = .next (s.modStamp (fun x => { x with refLost := false }))) ∧
  (∀ (s : State) (x : Sensor), s.released = true → x ∈ s.power.sensors → 10 ≤ x.hot →
    Leads .thermalTrip s fun t => t.power.tripped = true ∧ t.released = false ∧ Output.pin .thermtrip false ∈ t.desk.out ∧
      t.vault = s.vault ∧ t.desk.circ = {}) ∧
  (∀ s : State, (∀ x ∈ s.power.sensors, x.hot < 10) → exec .thermalTrip s = .next s)

/-- The start: each step ends when what it waits for is there, the firmware image is measured and kept where it passes its checks,
the record's members and PERST_ACTION act, the default images stand in the table, the map and the Catalogue are restored; READY
closes the attempt and clears the failures; a step that fails, a start too long and a push that does not come are counted with
their reasons (R176, R337, R409, R526 to R529, R533, R571, R581, R611).
Choices of the model in it: logs 125, 126 and 127. -/
def Obligations.StartSteps : Prop :=
  (∀ (s : State) (d : StartData), s.starting = true → s.boot.step = 1 →
    Leads (.startStepEnd d) s fun t => t.boot.step = if s.boot.coldWait then 1 else 2) ∧
  (∀ (s : State) (d : StartData), s.starting = true → s.boot.step = 2 →
    Leads (.startStepEnd d) s fun t => t.boot.step = if s.power.ringPll && s.power.libPll then 3 else 2) ∧
  (∀ (s : State) (d : StartData), s.starting = true → s.boot.step = 3 → Leads (.startStepEnd d) s fun t => t.boot.step = 4) ∧
  (∀ (s : State) (d : StartData), s.starting = true → s.boot.step = 4 →
    Leads (.startStepEnd d) s fun t => t.boot.step = 5 ∧
      (s.boot.source = 2 → t.boot.gen = .waitImage ∧ t.boot.window = true) ∧ (s.boot.source ≠ 2 → t.boot.gen = s.boot.gen)) ∧
  (∀ (s : State) (b : Bytes) (bad : Bool) (a : Attempt) (l : List Attempt), s.starting = true → s.boot.step = 5 →
    (s.boot.source = 2 → s.boot.accepted = true) → s.vault.attempts = a :: l →
    Leads (.startStepEnd (.image (some b) bad)) s fun t => match s.vault.imageFault s.boot.source b with
      | none => t.boot.step = 6 ∧ t.boot.gen = .starting ∧ t.security.firmware = measurementOf b ∧
          t.boot.imageVersion = imageVersionOf b ∧ t.boot.raiseFloor = (fldB b 6 2).testBit 0
      | some (reason, detail) =>
          if s.boot.source ≠ 2 ∧ s.boot.bootMode = 2 ∧ (reason = 3 ∨ reason = 4) then
            t.boot.gen = .waitImage ∧ t.boot.source = 2 ∧ t.vault.failures = s.vault.failures
          else t.vault.failures = satAdd 8 s.vault.failures 1 ∧
            ∃ x ∈ t.vault.attempts, x.serial = a.serial ∧ x.outcome = reason ∧ x.detail = detail ∧ x.step = 5) ∧
  (∀ (s : State) (d : StartData), s.starting = true → s.boot.step = 6 →
    Leads (.startStepEnd d) s fun t => t.boot.step = 7 ∧ t.boot.window = true) ∧
  (∀ (s : State) (b : Bytes) (f : ConfigFields) (a : Attempt) (l : List Attempt), s.starting = true → s.boot.step = 7 →
    itemTargetOk b = true → configHeaderBad b = none → f.bad = none → s.configFieldsOk f = true → s.vault.attempts = a :: l →
    Leads (.startStepEnd (.config (some b) f)) s fun t =>
      if s.vault.verifies b = true then t.boot.step = 8 ∧ t.net.members = f.members ∧ t.boot.perstAction = f.perstAction ∧
        t.security.config = measurementOf b
      else t.vault.failures = satAdd 8 s.vault.failures 1 ∧
        ∃ x ∈ t.vault.attempts, x.serial = a.serial ∧ x.outcome = 0x08 ∧ x.detail = signerOf b) ∧
  (∀ (s : State) (images : List (Nat × Bytes)) (x y z : Nat × Bytes) (a : Attempt) (l : List Attempt), s.starting = true →
    s.boot.step = 8 → images.find? (fun e => e.1 == 0xF001) = some x → images.find? (fun e => e.1 == 0xF002) = some y →
    images.find? (fun e => e.1 == 0xF003) = some z → s.vault.attempts = a :: l →
    Leads (.startStepEnd (.defaults images)) s fun t =>
      if s.vault.defaultOk 0xF001 x.2 = true ∧ s.vault.defaultOk 0xF002 y.2 = true ∧ s.vault.defaultOk 0xF003 z.2 = true then
        t.boot.step = 9 ∧ t.image 0xF001 = some (defaultEntry true x.2) ∧ t.image 0xF002 = some (defaultEntry false y.2) ∧
          t.image 0xF003 = some (defaultEntry false z.2)
      else t.vault.failures = satAdd 8 s.vault.failures 1 ∧
        ∃ x ∈ t.vault.attempts, x.serial = a.serial ∧ x.outcome = 0x0A) ∧
  (∀ (s : State) (found : List ChannelFound), s.starting = true → s.boot.step = 9 →
    Leads (.startStepEnd (.channels found)) s fun t => t.boot.step = if s.net.formed then 10 else 9) ∧
  (∀ (s : State) (bad : List Nat), s.starting = true → s.boot.step = 10 →
    Leads (.startStepEnd (.restore bad true)) s fun t => t.boot.step = 11 ∧ t.map.lastInked = s.map.flash.edition.number ∧
      t.map.editions = [s.map.flash.edition] ∧ t.catalogue.current = s.catalogue.shelved ∧ t.catalogue.unreadable = []) ∧
  (∀ (s : State) (a : Attempt) (l : List Attempt), s.starting = true → s.boot.step = 11 → s.vault.attempts = a :: l →
    Leads .startComplete s fun t => t.boot.gen = .ready ∧ t.boot.completed = true ∧ t.vault.failures = 0 ∧
      t.vault.lastGood = (if s.boot.source < 2 then s.boot.source else s.vault.lastGood) ∧
      t.vault.floor = (if s.boot.raiseFloor then max s.vault.floor s.boot.imageVersion else s.vault.floor) ∧
      ∃ x, t.vault.attempts = x :: l ∧ x.serial = a.serial ∧ x.outcome = 1) ∧
  (∀ (s : State) (reason detail : Nat) (a : Attempt) (l : List Attempt), s.starting = true → s.vault.attempts = a :: l →
    reason ≠ 0 →
    Leads (.startFailure reason detail) s fun t => t.vault.failures = satAdd 8 s.vault.failures 1 ∧
      ∃ x ∈ t.vault.attempts, x.serial = a.serial ∧ x.outcome = reason ∧ x.detail = detail) ∧
  (∀ (s : State) (a : Attempt) (l : List Attempt), s.starting = true → s.vault.attempts = a :: l →
    s.boot.releasedAt + 120000000000 ≤ s.now →
    Leads .startTimeout s fun t => t.vault.failures = satAdd 8 s.vault.failures 1 ∧
      ∃ x ∈ t.vault.attempts, x.serial = a.serial ∧ x.outcome = 0x0B ∧ x.detail = s.boot.step) ∧
  (∀ (s : State) (a : Attempt) (l : List Attempt), s.starting = true → s.boot.gen = .waitImage → s.boot.accepted = false →
    s.vault.attempts = a :: l → s.boot.waitAt + 10000000000 ≤ s.now →
    Leads .bootGoTimeout s fun t => t.vault.failures = satAdd 8 s.vault.failures 1 ∧
      ∃ x ∈ t.vault.attempts, x.serial = a.serial ∧ x.outcome = 0x0E) ∧
  (∀ s : State, s.starting = false → exec .startTimeout s = .next s ∧ exec .bootGoTimeout s = .next s ∧
    exec .startComplete s = .next s ∧ ∀ d, exec (.startStepEnd d) s = .next s) ∧
  (∀ s : State, exec .coldStartWaitEnd s = .next (s.modBoot (fun b => { b with coldWait := false })))

/-- Minimal mode and the boot flash: the colophon's event is posted once; the colophon is read; a retry clears the failures and resets
the device without a return slip; a boot file is written only once it verifies, and not over the last good device while the other
holds no verified image (R530 to R532, R534, R535, R557 to R560).
Choices of the model in it: logs 128 and 188. -/
def Obligations.MinimalMode : Prop :=
  (∀ s : State, s.boot.gen = .minimal → s.boot.colophonDue = true → (s.queue 2).state = .active →
    exec .colophonPosted s = .next ((s.modBoot (fun b => { b with colophonDue := false, completed := true })).event 2
      { code := 0x0873, subject := s.vault.startSerial, detail := s.vault.failures, value := s.attempt.outcome })) ∧
  (∀ s : State, s.boot.gen ≠ .minimal ∨ s.boot.colophonDue = false ∨ (s.queue 2).state ≠ .active →
    exec .colophonPosted s = .next s) ∧
  (∀ (s : State) (n : Nat) (j : Job), s.Startable n 0x0878 j → fld j.slip 32 32 = 0 → 576 ≤ dataLenOf j.slip →
    exec (.readColophon n) s = .next (s.ended n (endWith [] 0 0 [(0, s.colophon)]))) ∧
  (∀ (s : State) (n : Nat) (j : Job), s.Startable n 0x0879 j → fld j.slip 32 32 = 0 → s.released = true →
    s.vault.settled = true →
    Leads (.retryStart n) s fun t => t.vault.failures = 0 ∧ t.boot.gen = .starting ∧ t.desk.circ.jobs = [] ∧
      t.vault.startSerial = (s.vault.startSerial + 1) % 2 ^ 32) ∧
  (∀ (s : State) (n d : Nat) (j : Job) (b image record : Bytes), s.Startable n 0x087A j → b.length = dataLenOf j.slip →
    fld j.slip 32 1 = d → d ≤ 1 → fld j.slip 33 31 = 0 → image = b.take (fldB b 8 4) → record = b.drop (fldB b 8 4) →
    exec (.writeBootFlash n (some b)) s = .next (
      if s.vault.firmwareVerifies image = false then s.ended n (refusal stNotPermitted)
      else if firmwareFormOk image = false then s.ended n (refusal stMalformed)
      else if deviceOk image = false ∨ imageVersionOf image < s.vault.floor then s.ended n (refusal stNotPermitted)
      else if record ≠ [] ∧ (s.vault.verifies record = false ∨ itemTargetOk record = false) then s.ended n (refusal stNotPermitted)
      else if record ≠ [] ∧ (configHeaderBad record).isSome = true then s.ended n (refusal stMalformed)
      else if s.vault.lastGood = d ∧ s.boot.norVerified.getD (1 - d) false = false then s.ended n (refusal stNotPermitted)
      else ((s.noteNor d true).emit [.bootFlash d b]).ended n (endWith [] 0 b.length)))

/-- The management ports: each SMBus command in order has its effect, and one with a wrong PEC or of the wrong type is counted, answered with NACK and has
none; the alert response gives the address and releases SMB_ALERT_N; a clock held low is counted; the test port takes an
instruction, but one that drives balls only while POR_N is low (R516, R523, R531, R532, R536, R607 to R609).
Choices of the model in it: logs 33, 140 and 141. -/
def Obligations.ManagementPorts : Prop :=
  (∀ s : State, exec (.smbReadStatus true true) s = .next (s.emit [.smbus (le 1 s.smbusState)])) ∧
  (∀ s : State, exec (.smbWake true true) s = .next (s.startWake 1 0)) ∧
  (∀ s : State, exec (.smbDeviceReset 0xA5 true true) s = exec .deviceLevelReset s) ∧
  (∀ s : State, s.released = true → s.vault.failures < 3 → s.vault.settled = true →
    Leads (.smbDeviceReset 0xA5 true true) s fun t => t.stamp.seconds = s.stamp.seconds ∧ t.stamp.nanos = s.stamp.nanos ∧
      t.stamp.timing = s.stamp.timing ∧ t.pending = s.pending ∧ t.desk.circ = {} ∧ t.fabric = {} ∧ t.net = {} ∧
      t.map.flash = s.map.flash ∧ t.boot.gen = .starting ∧ t.vault.startSerial = (s.vault.startSerial + 1) % 2 ^ 32) ∧
  (∀ s : State, s.released = false → exec (.smbDeviceReset 0xA5 true true) s = .next s) ∧
  (∀ (s : State) (d : Byte) (pec typ : Bool), ∃ t, exec (.smbDeviceReset d pec typ) s = .next t) ∧
  (∀ (s : State) (d : Byte), d ≠ 0xA5 → exec (.smbDeviceReset d true true) s = .next s ∧
    exec (.smbRetryStart d true true) s = .next s) ∧
  (∀ s : State, s.released = true → s.vault.settled = true →
    Leads (.smbRetryStart 0xA5 true true) s fun t => t.vault.failures = 0 ∧ t.boot.gen = .starting ∧
      t.vault.startSerial = (s.vault.startSerial + 1) % 2 ^ 32) ∧
  (∀ s : State, exec (.smbReadTemperature true true) s = .next (s.emit [.smbus (le 2 (ofInt 16 s.hottest.2))])) ∧
  (∀ s : State, exec (.smbReadPower true true) s = .next (s.emit [.smbus (le 2 (min s.power.power 65535))])) ∧
  (∀ (s : State) (o : BitVec 16), o.toNat % 32 = 0 → exec (.smbColophonOffset o true true) s =
    .next { s with ports := { s.ports with colophonOffset := o.toNat } }) ∧
  (∀ s : State, exec (.smbColophonRead true true) s = .next
    { (s.emit [.smbus (takePad 32 (s.colophon.drop s.ports.colophonOffset))]) with
        ports := { s.ports with colophonOffset := (s.ports.colophonOffset + 32) % 65536 } }) ∧
  (∀ (s : State) (c : Instr) (pec typ : Bool), (pec && typ) = false →
    c ∈ [.smbReadStatus pec typ, .smbWake pec typ, .smbDeviceReset 0xA5 pec typ, .smbRetryStart 0xA5 pec typ,
      .smbReadTemperature pec typ, .smbReadPower pec typ, .smbColophonOffset 0 pec typ, .smbColophonRead pec typ] →
    exec c s = .next ((s.portViolation 0x100 (if typ then 1 else 2)).emit [.smbusNack])) ∧
  (∀ s : State, s.power.alert = true → exec .smbAlertResponse s =
    .next ((s.modPower (fun p => { p with alert := false })).emit [.smbus (le 1 (2 * (0x58 + s.position))), .pin .smbAlert true])) ∧
  (∀ s : State, s.power.alert = false → exec .smbAlertResponse s = .next s) ∧
  (∀ s : State, exec .smbusSclTimeout s = .next (s.portViolation 0x100 3)) ∧
  (∀ (s : State) (port reason : Nat), (s.portViolation port reason).ports = { s.ports with
    violations := amSet s.ports.violations (port * 256 + reason) (amGetD s.ports.violations (port * 256 + reason) 0 + 1) }) ∧
  (∀ (s : State) (i : TapInst), tapDrives i = false ∨ s.ports.porLow = true →
    exec (.tapInstructionLoad i) s = .next { s with ports := { s.ports with tap := i } }) ∧
  (∀ (s : State) (i : TapInst), tapDrives i = true → s.ports.porLow = false →
    Leads (.tapInstructionLoad i) s fun t => t.ports.tap = .bypass)

/-- Units and reference service: a unit whose reset succeeds leaves the list and its handling closes, a first failed reset is tried
again and a second takes the unit out of service, the Catalogue's with reference service as its consequence and a Stack vault's with the end of the sessions whose contexts stand in it; a
retry follows every 60 s; entry
ends ACTIVE, exit ends NORMAL once every cause has cleared; the host's causes and the readings of the Errata log (R547, R548, R551 to
R556, R616).
Choices of the model in it: log 143. -/
def Obligations.ReferenceService : Prop :=
  (∀ (s : State) (unit inst micros : Nat) (d : DownUnit) (sheets : List Nat), s.desk.errata.downOf unit inst = some d →
    d.out = false →
    Leads (.unitRecovered unit inst true micros sheets) s fun t => t.desk.errata.downOf unit inst = none ∧
      t.handling d.seq = none) ∧
  (∀ (s : State) (unit inst micros : Nat) (d : DownUnit) (sheets : List Nat), s.desk.errata.downOf unit inst = some d →
    d.out = false → d.tries = 0 →
    Leads (.unitRecovered unit inst false micros sheets) s fun t =>
      t.desk.errata.downOf unit inst = some { d with tries := 1, triedAt := s.now } ∧ t.desk.errata.handlings = s.desk.errata.handlings) ∧
  (∀ (s : State) (inst micros : Nat) (d : DownUnit) (sheets : List Nat),
    s.desk.errata.downOf 0x0014 inst = some d → d.out = false → d.tries ≠ 0 → s.reference.state = .normal →
    Leads (.unitRecovered 0x0014 inst false micros sheets) s fun t =>
      t.desk.errata.downOf 0x0014 inst = some { d with tries := d.tries + 1, out := true, triedAt := s.now } ∧ t.reference.state = .entering ∧
      t.reference.cause = some { unit := 0x0014, inst := inst, seq := d.seq }) ∧
  (∀ (s : State) (inst micros : Nat) (d : DownUnit) (sheets : List Nat), s.desk.errata.downOf 0x0002 inst = some d →
    d.out = false → d.tries ≠ 0 → amWf s.sessions.open_ = true →
    Leads (.unitRecovered 0x0002 inst false micros sheets) s fun t =>
      ∀ i x, s.session i = some x → x.slot / 1024 = inst → t.session i = none) ∧
  (∀ (s : State) (unit inst micros : Nat) (d : DownUnit), s.desk.errata.downOf unit inst = some d → d.out = true →
    d.triedAt + 60000000000 ≤ s.now →
    exec (.unitResetRetry unit inst false micros) s = .next (s.setDown { d with tries := d.tries + 1, triedAt := s.now })) ∧
  (∀ (s : State) (unit inst micros : Nat) (d : DownUnit), s.desk.errata.downOf unit inst = some d → d.out = true →
    d.triedAt + 60000000000 ≤ s.now →
    Leads (.unitResetRetry unit inst true micros) s fun t => t.desk.errata.downOf unit inst = none) ∧
  (∀ (s : State) (unit inst micros : Nat) (ok : Bool) (sheets : List Nat), s.desk.errata.downOf unit inst = none →
    exec (.unitRecovered unit inst ok micros sheets) s = .next s ∧ exec (.unitResetRetry unit inst ok micros) s = .next s) ∧
  (∀ s : State, s.reference.state = .entering → s.reference.hostCause = true →
    Leads .referenceEntry s fun t => t.reference.state = .active ∧ t.reference.enterJobs = [] ∧ t.reference.enteredAt = s.now ∧
      t.catalogue.reshelving = none ∧ ∀ m ∈ t.curator.moves, m.kind ≠ .sheet) ∧
  (∀ s : State, s.reference.state ≠ .entering → exec .referenceEntry s = .next s) ∧
  (∀ s : State, s.reference.state = .exiting → s.reference.hostCause = false → s.elementCause = false → s.restoring = false →
    Leads .referenceExit s fun t => t.reference.state = .normal ∧ t.reference.cause = none ∧ t.reference.exitJobs = []) ∧
  (∀ s : State, s.reference.hostCause = true ∨ s.elementCause = true ∨ s.restoring = true → exec .referenceExit s = .next s) ∧
  (∀ (s : State) (n : Nat) (j : Job), s.Startable n 0x0881 j → fld j.slip 32 32 = 0 → s.reference.state = .normal →
    exec (.enterReference n) s = .next ((s.took n).modReference (fun r => { r with
      hostCause := true, state := .entering, cause := none, enterJobs := r.enterJobs ++ [n] }))) ∧
  (∀ (s : State) (n : Nat) (j : Job), s.Startable n 0x0881 j → fld j.slip 32 32 = 0 → s.reference.state = .active →
    exec (.enterReference n) s = .next ((s.modReference (fun r => { r with hostCause := true })).ended n (endWith []))) ∧
  (∀ (s : State) (n : Nat) (j : Job), s.Startable n 0x0882 j → fld j.slip 32 32 = 0 → s.reference.state = .active →
    s.elementCause = false → s.restoring = false →
    exec (.exitReference n) s = .next ((s.took n).modReference (fun r => { r with
      hostCause := false, state := .exiting, exitJobs := r.exitJobs ++ [n] }))) ∧
  (∀ (s : State) (n : Nat) (j : Job), s.Startable n 0x0882 j → fld j.slip 32 32 = 0 → s.elementCause = true →
    exec (.exitReference n) s =
      .next ((s.modReference (fun r => { r with hostCause := false })).ended n (refusal stNotPermitted))) ∧
  (∀ (s : State) (n : Nat) (j : Job) (r : Bytes × Nat × Nat × Nat), s.Startable n 0x0880 j → fld j.slip 36 1 = 0 →
    fld j.slip 37 27 = 0 → 64 ≤ dataLenOf j.slip → r = s.desk.errata.read (fld j.slip 32 4) (dataLenOf j.slip / 64) →
    exec (.readErrata n) s =
      .next (s.ended n (endWith [] 0 (r.2.1 + r.2.2.1 % 2 ^ 32 * 2 ^ 32 + r.2.2.2 * 2 ^ 64) [(0, r.1)]))) ∧
  (∀ (l : ErrataLog) (start room : Nat), (l.read start room).2.1 ≤ room ∧ (l.read start room).1.length = 64 * (l.read start room).2.1) ∧
  (∀ (s : State) (n : Nat) (j : Job) (l : ErrataLog), s.Startable n 0x0883 j → fld j.slip 32 32 = 0 → 64 ≤ dataLenOf j.slip →
    l = s.desk.errata →
    exec (.queryErrors n) s = .next (s.ended n (endWith [] 0 0 [(0, packB 64 [(0, 4, natAt l.counts 0), (4, 4, natAt l.counts 1),
      (8, 4, natAt l.counts 2), (12, 4, natAt l.counts 3), (16, 4, natAt l.counts 4), (20, 4, l.escalations), (24, 4, l.lost),
      (28, 4, l.overwritten), (32, 4, (l.down.filter (·.out)).length), (36, 4, l.handlings.length),
      (40, 1, s.reference.state.code)])]))) ∧
  (∀ (s : State) (n c q : Nat) (j : Job), s.Startable n 0x0884 j → fld j.slip 32 1 = c → c ≤ 4 → fld j.slip 33 3 = 0 →
    fld j.slip 36 4 = q → fld j.slip 40 24 = 0 → s.eventQueueOk q = true →
    exec (.setErrata n) s =
      .next ((s.modErrata (fun l => { l with eventClass := c, eventQueue := q })).ended n (endWith [])))

/-- Owners and attestation: an accepted owner record acts on the Vault as its action gives and answers OWNER_SERIAL, one that fails its
signature or its conditions is refused; an attestation signs its report with the next leaf, reserving a block of leaves in the Vault
before the first of it is used (R566 to R568, R572, R573).
Choices of the model in it: logs 9, 120, 121 and 122. -/
def Obligations.OwnersAndAttestation : Prop :=
  (∀ (s : State) (n : Nat) (j : Job) (b : Bytes), s.Startable n 0x0891 j → dataLenOf j.slip = 3072 → b.length = 3072 →
    exec (.ownerRecord n (some b)) s = .next (
      if s.vault.ownerVerifies b = false then s.ended n (refusal stNotPermitted)
      else if ownerRecordOk b = false then s.ended n (refusal stMalformed)
      else if s.ownerAccepted b = false then s.ended n (refusal stNotPermitted)
      else ({ s with vault := s.vault.takeOwner b } : State).ended n (endWith [] 0 (s.vault.takeOwner b).ownerSerial))) ∧
  (∀ (v : Vault) (b : Bytes), ownerAction b = 1 → (v.takeOwner b).owned = true ∧ (v.takeOwner b).ownerKey = (b.drop 68).take 68 ∧
    (v.takeOwner b).ownerSerial = (v.ownerSerial + 1) % 2 ^ 32) ∧
  (∀ (v : Vault) (b : Bytes), ownerAction b = 2 → (v.takeOwner b).owned = v.owned ∧ (v.takeOwner b).ownerKey = (b.drop 68).take 68 ∧
    (v.takeOwner b).ownerSerial = (v.ownerSerial + 1) % 2 ^ 32 ∧ (v.takeOwner b).sessionRoot = none) ∧
  (∀ (v : Vault) (b : Bytes), ownerAction b = 3 → (v.takeOwner b).owned = false ∧ (v.takeOwner b).ownerKey = [] ∧
    (v.takeOwner b).sessionRoot = none ∧ (v.takeOwner b).ownerSerial = v.ownerSerial) ∧
  (∀ (v : Vault) (b : Bytes), ownerAction b = 4 → (v.takeOwner b).sessionRoot = some ((b.drop 136).take 32) ∧
    (v.takeOwner b).ownerSeq = fldB b 40 4 ∧ (v.takeOwner b).ownerKey = v.ownerKey) ∧
  (∀ (v : Vault) (b : Bytes), (v.takeOwner b).startSerial = v.startSerial ∧ (v.takeOwner b).floor = v.floor ∧
    (v.takeOwner b).root0Revoked = v.root0Revoked ∧ (v.takeOwner b).attestReserved = v.attestReserved) ∧
  (∀ (s : State) (b : Bytes), (ownerAction b = 1 ∧ s.vault.owned = true ∨ ownerAction b ≠ 1 ∧ s.vault.owned = false ∨
    ownerAction b ≠ 1 ∧ signerOf b = 2 ∧ fldB b 40 4 ≤ s.vault.ownerSeq ∨ ownerAction b ≠ 4 ∧ s.ownerImage = true) →
    s.ownerAccepted b = false) ∧
  (∀ (s : State) (n leaf : Nat) (j : Job) (ok : Bool), s.Startable n 0x0890 j → 13184 ≤ dataLenOf j.slip →
    leaf = s.security.nextLeaf → leaf < 2 ^ 40 → leaf < s.security.blockEnd →
    exec (.attest n ok) s = .next (({ s with security := { s.security with nextLeaf := leaf + 1 } } : State).ended n
      (endWith [] 0 leaf [(0, s.attestOutput (fld j.slip 32 32) leaf)]))) ∧
  (∀ (s : State) (n leaf : Nat) (j : Job), s.Startable n 0x0890 j → 13184 ≤ dataLenOf j.slip → leaf = s.security.nextLeaf →
    leaf < 2 ^ 40 → s.security.blockEnd ≤ leaf →
    Leads (.attest n true) s fun t => t.vault = { s.vault with attestReserved := leaf + 4096 } ∧
      t.security.blockEnd = leaf + 4096 ∧ t.security.nextLeaf = leaf + 1 ∧
      ∃ d, t.Answers n j (endWith [] 0 leaf [(0, d)])) ∧
  (∀ (s : State) (n : Nat) (j : Job), s.Startable n 0x0890 j → 13184 ≤ dataLenOf j.slip → s.security.nextLeaf < 2 ^ 40 →
    s.security.blockEnd ≤ s.security.nextLeaf → exec (.attest n false) s = .next (s.ended n (refusal stDiscarded))) ∧
  (∀ (s : State) (n : Nat) (j : Job) (ok : Bool), s.Startable n 0x0890 j → 13184 ≤ dataLenOf j.slip →
    2 ^ 40 ≤ s.security.nextLeaf → exec (.attest n ok) s = .next (s.ended n (refusal stNoResource)))

/-- The setup window: an access before the window opens is not answered, and one during sleep is held and wakes the device; reads
return the register, a read of bits 31:0 latching the upper half, and a 64-bit read of STAMP_SECONDS the counter's other fields; writes
of writable registers act, others are dropped and counted; BOOT_GO is accepted with its arguments in range; a write of
DEVICE_RESET with its key resets the device; GO makes a fixed queue
active and its reset drains it, losing the slips that wait for it (R87, R490, R516, R574 to R578, R580, R581, R585, R586, R614).
Choices of the model in it: logs 130, 131, 132, 165 and 190. -/
def Obligations.SetupWindow : Prop :=
  (∀ (s : State) (c : Instr), c.atWindow = true → s.boot.window = false →
    exec c s = .next s) ∧
  (∀ (s : State) (c : Instr), c.atWindow = true → s.boot.window = true → s.power.sleep = .asleep →
    Leads c s fun t => t.heldAccess = s.heldAccess ++ [c] ∧ t.power.sleep = .waking 0 0 ∧ t.boot = s.boot) ∧
  (∀ (s : State) (o : Nat), s.boot.window = true → s.power.sleep = .awake → s.answers o = true → accessOk o 32 = true →
    msixArea o = false → is64 o = false → is64 (o - 4) = false →
    exec (.registerLowHalfRead o 32) s = .next (s.emit [.read o (s.register o)])) ∧
  (∀ (s : State) (o : Nat), s.boot.window = true → s.power.sleep = .awake → s.answers o = true → accessOk o 32 = true →
    msixArea o = false → is64 o = true → o ≠ 0x20000 →
    exec (.registerLowHalfRead o 32) s = .next (({ s with ports := { s.ports with
      latched := amSet s.ports.latched o (s.register o / 2 ^ 32) } } : State).emit [.read o (s.register o % 2 ^ 32)])) ∧
  (∀ (s : State) (o v : Nat), s.boot.window = true → s.power.sleep = .awake → s.answers o = true → accessOk o 32 = true →
    msixArea o = false → is64 o = false → 4 ≤ o → is64 (o - 4) = true → amGet s.ports.latched (o - 4) = some v →
    exec (.registerLowHalfRead o 32) s = .next (({ s with ports := { s.ports with
      latched := amDel s.ports.latched (o - 4) } } : State).emit [.read o v])) ∧
  (∀ s : State, s.boot.window = true → s.power.sleep = .awake →
    exec .stampSecondsRead s = .next ((s.modStamp (fun x => { x with
      latchNanos := x.nanos, latchFraction := x.fraction })).emit [.read 0x20000 s.stamp.seconds.toNat])) ∧
  (∀ (s : State) (v : BitVec 64), s.boot.window = true → s.power.sleep = .awake → s.boot.gen = .waitImage →
    s.boot.accepted = false →
    exec (.registerWrite 0x28 32 v true) s = .next (s.modBoot (fun b => { b with imageLen := v.toNat % 2 ^ 32 })) ∧
    Leads (.registerWrite 0x20 64 v true) s fun t => t.boot = { s.boot with imageAddr := v.toNat } ∧ t.desk = s.desk) ∧
  (∀ (s : State) (o w : Nat) (v : BitVec 64) (whole : Bool), s.boot.window = true → s.power.sleep = .awake → s.answers o = true →
    whole = false ∨ accessOk o w = false →
    Leads (.registerWrite o w v whole) s fun t => t.boot = { s.boot with badWrites := satAdd 32 s.boot.badWrites 1 } ∧
      t.ports = s.ports) ∧
  (∀ s : State, s.boot.window = true → s.power.sleep = .awake → s.boot.gen = .waitImage → s.boot.accepted = false →
    s.boot.imageAddr % 64 = 0 → s.boot.configAddr % 64 = 0 → 64 ≤ s.boot.imageLen → s.boot.imageLen ≤ 64 * 2 ^ 20 →
    s.boot.imageLen % 64 = 0 → 64 ≤ s.boot.configLen → s.boot.configLen ≤ 64 * 2 ^ 10 → s.boot.configLen % 64 = 0 →
    exec (.bootGo 1) s = .next (s.modBoot (fun b => { b with accepted := true, badArgs := false }))) ∧
  (∀ s : State, s.boot.window = true → s.power.sleep = .awake → s.boot.accepted = false →
    (s.boot.gen ≠ .waitImage ∨ s.boot.imageAddr % 64 ≠ 0 ∨ s.boot.configAddr % 64 ≠ 0 ∨ s.boot.imageLen < 64 ∨
      64 * 2 ^ 20 < s.boot.imageLen ∨ s.boot.imageLen % 64 ≠ 0 ∨ s.boot.configLen < 64 ∨ 64 * 2 ^ 10 < s.boot.configLen ∨
      s.boot.configLen % 64 ≠ 0) →
    exec (.bootGo 1) s = .next (s.modBoot (fun b => { b with badArgs := true }))) ∧
  (∀ s : State, s.boot.window = true → s.power.sleep = .awake → exec (.deviceReset 0xA5) s = exec .deviceLevelReset s) ∧
  (∀ s : State, s.boot.window = true → s.power.sleep = .awake → s.released = true → s.vault.failures < 3 → s.vault.settled = true →
    Leads (.deviceReset 0xA5) s fun t => t.stamp.seconds = s.stamp.seconds ∧ t.stamp.nanos = s.stamp.nanos ∧
      t.stamp.timing = s.stamp.timing ∧ t.pending = s.pending ∧ t.desk.circ = {} ∧ t.fabric = {} ∧ t.net = {} ∧
      t.map.flash = s.map.flash ∧ t.boot.gen = .starting ∧ t.vault.startSerial = (s.vault.startSerial + 1) % 2 ^ 32) ∧
  (∀ (s : State) (v : BitVec 32), ∃ t, exec (.deviceReset v) s = .next t) ∧
  (∀ (s : State) (v : BitVec 32), s.boot.window = true → s.power.sleep = .awake → v ≠ 0xA5 →
    Leads (.deviceReset v) s fun t => t.boot = { s.boot with badWrites := satAdd 32 s.boot.badWrites 1 } ∧ t.vault = s.vault) ∧
  (∀ (s : State) (q : Nat) (r : FixedReg), s.boot.window = true → s.power.sleep = .awake → s.boot.gen = .ready → q = 1 ∨ q = 2 →
    (s.queue q).state = .free → s.desk.circ.fixed[q]? = some r → fixedFieldsOk q r = true →
    Leads (.circFixedGo (BitVec.ofNat 32 (2 ^ q))) s fun t => (t.queue q).state = .active ∧ (t.queue q).kind = fixedKind q ∧
      (t.queue q).ringAddr = r.ring ∧ (t.queue q).log2 = r.log2 ∧ (t.queue q).vector = r.vector ∧
      (t.queue q).gen = nextGen (s.queue q).gen ∧ (t.queue q).head = 0 ∧ (t.queue q).tail = 0 ∧
      ∀ p, p ≠ q → t.queue p = s.queue p) ∧
  (∀ (s : State) (r : FixedReg), s.boot.window = true → s.power.sleep = .awake → s.boot.gen = .ready →
    (s.queue 0).state = .free → s.desk.circ.fixed[0]? = some r → (fixedFieldsOk 0 r = false ∨ (s.queue 1).state ≠ .active) →
    Leads (.circFixedGo 1) s fun t => (t.queue 0).state = .free ∧ t.desk.circ.goError.testBit 0 = true) ∧
  (∀ (s : State) (v : BitVec 32), s.boot.window = true → s.power.sleep = .awake → s.boot.gen = .starting → v.toNat < 8 →
    exec (.circFixedGo v) s = .next (s.modCirc (fun c => { c with goHeld := c.goHeld ||| v.toNat }))) ∧
  (∀ s : State, s.boot.window = true → s.power.sleep = .awake → (s.queue 2).state = .active →
    (∀ j ∈ s.desk.circ.jobs, j.waiting = true → s.desk.circ.returnOf j.sq ≠ 2) →
    Leads (.circFixedReset 4) s fun t => (t.queue 2).state = .draining ∧ (t.queue 2).drain = .fixed ∧
      (t.queue 2).gen = nextGen (s.queue 2).gen ∧ (∀ j ∈ t.desk.circ.jobs, j.sq = 2 → j.ending.isSome = true) ∧
      ∀ p, p ≠ 2 → t.queue p = s.queue p) ∧
  (∀ (s : State) (j : Job), s.boot.window = true → s.power.sleep = .awake → (s.queue 1).state = .active → j ∈ s.desk.circ.jobs →
    j.waiting = true → s.desk.circ.returnOf j.sq = 1 →
    Leads (.circFixedReset 2) s fun t => t.job j.num = none ∧ (t.queue 1).state = .draining)

/-- Reset: nothing waits and nothing is held, the storage lists nothing and stands in its canonical form, every register reads the
value of its Reset column where that column gives one, and the counter stands at zero and unset with INC at its nominal value (R17,
R470, R579, R581 to R592). The straps and the Vault, for which the column gives no value, are the model's choice (log 1). -/
def Obligations.ResetMeetsTheTables : Prop :=
  State.reset.pending = [] ∧ State.reset.heldAccess = [] ∧ State.reset.HeldInOrder ∧ State.reset.fabric.stack.store.wf = true ∧
  State.reset.fabric.stack.store.data = [] ∧
  State.reset.stamp.state = .unset ∧ State.reset.stamp.inc = BitVec.ofNat 64 nominalInc ∧ State.reset.stamp.seconds = 0 ∧ State.reset.stamp.nanos = 0 ∧
  State.reset.stamp.fraction = 0 ∧
  (∀ e ∈ [(0x000000, 0x88000026), (0x000004, 0x100), (0x000008, 1), (0x000010, 0), (0x000020, 0), (0x000028, 0), (0x000030, 0),
      (0x000038, 0), (0x00003C, 0), (0x000040, 0), (0x000048, 0), (0x010000, 0xFFFF), (0x010004, 0), (0x010008, 0), (0x01000C, 0),
      (0x010010, 0), (0x010014, 0), (0x010018, 420), (0x020000, 0), (0x020008, 0), (0x02000C, 0), (0x020010, 2 * 2 ^ 24),
      (0x020018, 0), (0x030000, 0), (0x030008, 1), (0x030100, 0), (0x030104, 0), (0x030108, 0), (0x03010C, 0), (0x030110, 0),
      (0x034000, 0x100010), (0x034004, 0x00640010), (0x034008, 1000), (0x03400C, 0), (0x040000, 0), (0x040008, 0xFFFF0000),
      (0x04000C, 0), (0x040080, 0), (0x040084, 0), (0x040088, 0), (0x04008C, 0), (0x040090, 0)],
    State.reset.register e.1 = e.2) ∧
  (∀ e ∈ [(0x050000, 0), (0x050004, 0), (0x050008, 0), (0x05000C, 0), (0x05800C, 1), (0x057F00, 0), (0x060000, 0), (0x06003C, 0), (0x070000, 0xFF00),
      (0x070018, 0xFF00), (0x080000, 0), (0x080004, 0), (0x080008, 0), (0x0A0000, 0), (0x0A0004, 0), (0x0A0008, 0), (0x0A000C, 0),
      (0x0B0000, 0), (0x0B0100, 0), (0x0B0200, 0), (0x0C0000, 0), (0x0C0400, 0), (0x0C0800, 0), (0x0C1000, 0), (0x100000, 0),
      (0x100008, 0), (0x10000C, 0), (0x110000, 0), (0x110004, 0), (0x120000, 0), (0x120004, 0), (0x120008, 0), (0x130000, 0),
      (0x130008, 0), (0x140000, 0), (0x140004, 0), (0x140008, 0), (0x14000C, 0), (0x140010, 0), (0x150000, 0), (0x150004, 0),
      (0x150010, 0), (0x150020, 0), (0x150024, 0), (0x150028, 0), (0x170000, 0x100), (0x170004, 0x200), (0x17001C, 0x8000)],
    State.reset.register e.1 = e.2) ∧
  (∀ v, v < 2048 → State.reset.register (0x034000 + 16 * (1024 + v)) = 8 + 16 + v * 2 ^ 8 + 2 ^ 20 ∧
    State.reset.register (0x034000 + 16 * (1024 + v) + 4) = 0x00640040)

/-- A unit takes a job up only when it may start: a command that names no job in flight, a job of another opcode, or one that may not
start (it is held by a fence, has started, has ended, or an earlier call slip of its queue has neither started nor ended) changes
nothing (R95, R105).
Choices of the model in it: logs 56 and 57. -/
def Obligations.UnstartableJobsUntouched : Prop :=
  ∀ (c : Instr) (s : State) (n op : Nat), c.ofJob = some (n, op) →
    (s.job n).all (fun j => opcodeOf j.slip ≠ op || !s.desk.circ.canStart j) = true → exec c s = .next s

/-- A job that could start and whose deadline has passed is answered PARTIAL_DEADLINE by Circulation without being started, whatever
its opcode; a run of an image whose runs are all in flight and a READ_TRACKS with no list to read still wait (R95, R106, R172,
R282).
Choices of the model in it: log 58. -/
def Obligations.LateJobsAnswered : Prop :=
  ∀ (c : Instr) (s : State) (n op : Nat) (j : Job), c.ofJob = some (n, op) → s.job n = some j → opcodeOf j.slip = op →
    s.desk.circ.canStart j = true → s.passed (deadlineOf j.slip) = true → (op = 0x0110 → s.runWaits n = false) →
    (op = 0x0610 → (s.concord.listAfter (fld j.slip 32 4)).isSome = true) →
    exec c s = .next (s.withJob n (fun i => { i with
      ending := some (i.ending.getD (refusalByCirculation stPartialDeadline 0)) }))

/-- The word code: a reader's decision follows from the three syndromes as R74's table gives it, the byte named is the only one that
fits, and putting it right changes the data only where a data byte was wrong; a word as written is clean, and a word with any one of
its 35 bytes changed is decided as a one-byte error at that byte, which puts the word right (R72 to R74). -/
def Obligations.WordCodeCorrects : Prop :=
  (∀ (a x : Byte) (c : Bytes), syndrome [] a = 0 ∧ syndrome (x :: c) a = gmul (syndrome c a) a ^^^ x) ∧
  (∀ c : Bytes, syndrome c 1 = 0 → syndrome c 2 = 0 → syndrome c 4 = 0 → decideWord c = .clean) ∧
  (∀ (c : Bytes) (p : Nat), syndrome c 1 ≠ 0 → syndrome c 2 ≠ 0 → syndrome c 4 ≠ 0 →
    gmul (syndrome c 2) (syndrome c 2) = gmul (syndrome c 1) (syndrome c 4) → p ≤ 34 →
    gmul (syndrome c 1) (alphaPow p) = syndrome c 2 → decideWord c = .oneByte p (syndrome c 1)) ∧
  (∀ c : Bytes, syndrome c 1 ≠ 0 ∨ syndrome c 2 ≠ 0 ∨ syndrome c 4 ≠ 0 →
    (syndrome c 1 = 0 ∨ syndrome c 2 = 0 ∨ syndrome c 4 = 0 ∨
      gmul (syndrome c 2) (syndrome c 2) ≠ gmul (syndrome c 1) (syndrome c 4) ∨
      ∀ p, p ≤ 34 → gmul (syndrome c 1) (alphaPow p) ≠ syndrome c 2) →
    decideWord c = .uncorrectable) ∧
  (∀ (c : Bytes) (p : Nat) (v : Byte), c.length = 35 → p < 35 → (fixWord c p v).getD p 0 = c.getD p 0 ^^^ v ∧
    (∀ i, i ≠ p → (fixWord c p v).getD i 0 = c.getD i 0) ∧ (p < 3 → dataOf (fixWord c p v) = dataOf c)) ∧
  (∀ d : Bytes, d.length = 32 → decideWord (encodeWord d) = .clean ∧ dataOf (encodeWord d) = d) ∧
  (∀ (d : Bytes) (p : Nat) (v : Byte), d.length = 32 → p < 35 → v ≠ 0 →
    decideWord (modAt (encodeWord d) p (· ^^^ v)) = .oneByte p v ∧ fixWord (modAt (encodeWord d) p (· ^^^ v)) p v = encodeWord d)

/-- Storage stays in its canonical form: the commands that read and write the Stack keep it (the model's form of memory, log 2). -/
def Obligations.StorageStaysCanonical : Prop :=
  ∀ (s t : State) (c : Instr), s.fabric.stack.store.wf = true →
    c.atStack = true → exec c s = .next t → t.fabric.stack.store.wf = true

/-- Events: an event for an active event queue with a place free is written at its tail with the queue's phase bit and its record
time, the tail advances and the phase turns at the ring's end; where events were lost before, EVENTS_LOST goes first; an event for
a full, halted or draining queue is dropped and counted; one for a queue that is free or draining to be destroyed goes to queue 2,
which counts it where it is free after a reset (R84, R99, R100, R614).
Choices of the model in it: log 5. -/
def Obligations.EventsWritten : Prop :=
  (∀ (s : State) (q : Nat) (e : EventIn) (x : Queue), x = s.queue q → x.state = .active → x.kind = .event → x.lost = 0 →
    x.full = false → x.vector = noVector →
    s.event q e = (s.withQueue q { x with
        tail := (x.tail + 1) % x.slots, phase := if (x.tail + 1) % x.slots = 0 then !x.phase else x.phase
        entryTimes := x.entryTimes ++ [s.now] }).emit
      [.entry q (x.ringAddr + x.tail * 32) (withPhase (eventEntry s.now e) x.phase)]) ∧
  (∀ (s : State) (q : Nat) (e : EventIn) (x : Queue), x = s.queue q → x.state = .active → x.kind = .event → x.lost ≠ 0 →
    x.full = false → (x.tail + 2) % x.slots ≠ x.head → x.vector = noVector →
    ∃ o, (s.event q e).desk.out = s.desk.out ++ [.entry q (x.ringAddr + x.tail * 32)
        (withPhase (eventEntry s.now { code := 0x0005, subject := q, value := sat 32 x.lost }) x.phase), o] ∧
      ((s.event q e).queue q).lost = 0) ∧
  (∀ (s : State) (q : Nat) (e : EventIn) (x : Queue), x = s.queue q → x.state = .active → x.kind = .event → x.lost ≠ 0 →
    x.full = false → (x.tail + 2) % x.slots = x.head → x.vector = noVector →
    (s.event q e).desk.out = s.desk.out ++ [.entry q (x.ringAddr + x.tail * 32)
        (withPhase (eventEntry s.now { code := 0x0005, subject := q, value := sat 32 x.lost }) x.phase)] ∧
      ((s.event q e).queue q).lost = 1) ∧
  (∀ (s : State) (q : Nat) (x : Queue), x = s.queue q → x.state = .active → x.kind = .event → x.lost ≠ 0 → x.full = false →
    x.vector = noVector →
    exec (.eventsLost q) s = .next ((s.withQueue q { x with
        tail := (x.tail + 1) % x.slots, phase := if (x.tail + 1) % x.slots = 0 then !x.phase else x.phase
        entryTimes := x.entryTimes ++ [s.now], lost := 0 }).emit
      [.entry q (x.ringAddr + x.tail * 32)
        (withPhase (eventEntry s.now { code := 0x0005, subject := q, value := sat 32 x.lost }) x.phase)])) ∧
  (∀ (s : State) (q : Nat) (e : EventIn) (x : Queue), x = s.queue q → x.kind = .event →
    x.state = .active ∧ x.full = true ∨ x.state = .halted ∨ x.state = .draining ∧ x.dying = false →
    s.event q e = s.withQueue q { x with lost := x.lost + 1 }) ∧
  (∀ (s : State) (q : Nat) (e : EventIn), (s.queue q).state = .free ∨ (s.queue q).dying = true ∨ (s.queue q).kind ≠ .event →
    s.event q e = s.event 2 e) ∧
  (∀ (s : State) (e : EventIn), (s.queue 2).state = .free → (s.queue 2).kind = .event →
    s.event 2 e = s.withQueue 2 { s.queue 2 with lost := (s.queue 2).lost + 1 }) ∧
  (∀ (e : Entry) (p : Bool), (withPhase e p).toNat.testBit 120 = p ∧
    ∀ i, i ≠ 120 → (withPhase e p).toNat.testBit i = e.toNat.testBit i)
end

