-- ==== Sys2Proof/Laws/KeepStreams.lean ====
section
/-! SUPPORT. The queue and the held accesses: what the carrels, images and streams do leaves them alone. -/
namespace Sys2Proof.Machine
set_option linter.all false

/-- What `State.keep` holds. -/
abbrev KeptKey := List Instr × List Instr × Bool

/-- The commands that wait, the accesses held, whether the device is awake. -/
def State.keep (s : State) : KeptKey := (s.pending, s.heldAccess, s.power.sleep == .awake)

/-- An answer that keeps them. -/
def Keeps (s : State) : Answer → Prop
  | .next t => t.keep = s.keep
  | .fault _ => True
  | .refused _ => True

@[simp] theorem keep_mk (s : State) (a1 : Desk) (a2 : Stamp) (a3 : Boot) (a4 : Vault) (a5 : Security) (a7 : Reference)
    (a8 : Ports) (a9 : Curator) (b1 : Fabric) (b2 : Images) (b3 : Net) (b4 : Accession) (b5 : Vision) (b6 : Concord)
    (b7 : MapSt) (b8 : Sessions) (b9 : Collator) (c1 : Catalogue) (c2 : Nat) :
    State.keep ⟨s.pending, a1, a2, a3, a4, a5, s.power, a7, a8, a9, b1, b2, b3, b4, b5, b6, b7, b8, b9, c1, s.heldAccess, c2⟩ =
      s.keep := rfl

@[simp] theorem keep_ite (c : Prop) [Decidable c] (a b : State) : (if c then a else b).keep = if c then a.keep else b.keep := by
  split <;> rfl

@[simp] theorem foldl_keep {α : Type} (f : State → α → State) (h : ∀ s a, (f s a).keep = s.keep) (l : List α) (s : State) :
    (l.foldl f s).keep = s.keep := by
  induction l generalizing s with
  | nil => rfl
  | cons a l ih => rw [List.foldl_cons, ih, h]

@[simp] theorem foldl_keep1 {α β : Type} (f : State × β → α → State × β) (h : ∀ s a, (f s a).1.keep = s.1.keep) (l : List α) (s : State × β) :
    (l.foldl f s).1.keep = s.1.keep := by
  induction l generalizing s with
  | nil => rfl
  | cons a l ih => rw [List.foldl_cons, ih, h]

@[simp] theorem foldl_keep2 {α β : Type} (f : β × State → α → β × State) (h : ∀ s a, (f s a).2.keep = s.2.keep) (l : List α) (s : β × State) :
    (l.foldl f s).2.keep = s.2.keep := by
  induction l generalizing s with
  | nil => rfl
  | cons a l ih => rw [List.foldl_cons, ih, h]

@[simp] theorem foldl_keep3 {α β γ : Type} (f : (State × β) × γ → α → (State × β) × γ) (h : ∀ s a, (f s a).1.1.keep = s.1.1.keep)
    (l : List α) (s : (State × β) × γ) : (l.foldl f s).1.1.keep = s.1.1.keep := by
  induction l generalizing s with
  | nil => rfl
  | cons a l ih => rw [List.foldl_cons, ih, h]

@[simp] theorem keeps_next (s t : State) : Keeps s (.next t) ↔ t.keep = s.keep := .rfl

theorem fst_keep {s t : State} {α : Type} {b : α} {p : State × α} (h : p = (t, b)) (hp : p.1.keep = s.keep) : t.keep = s.keep := by
  rw [← hp, h]

theorem snd_keep {s t : State} {α : Type} {b : α} {p : α × State} (h : p = (b, t)) (hp : p.2.keep = s.keep) : t.keep = s.keep := by
  rw [← hp, h]

@[simp] theorem begin_keep (s : State) (n op : Nat) (k : Job → State → State) (h : ∀ j s, (k j s).keep = s.keep) :
    (s.begin n op k).keep = s.keep := by
  unfold State.begin
  split
  · rfl
  · split
    · rfl
    · split
      · rfl
      · split
        · rfl
        · rw [h]; rfl

@[simp] theorem beginRead_keep (s : State) (n op : Nat) (buf : BufRead) (k : Job → Bytes → State → State)
    (h : ∀ j b s, (k j b s).keep = s.keep) : (s.beginRead n op buf k).keep = s.keep := by
  apply begin_keep
  intro j s
  split
  · rfl
  · exact h _ _ _

/-- The same commands wait, and either nothing else moved or the device is awake with no access held. -/
def Follows (k l : KeptKey) : Prop := l.1 = k.1 ∧ (l.2 = k.2 ∨ l.2 = ([], true))

@[simp] theorem Follows.refl (k : KeptKey) : Follows k k := ⟨rfl, .inl rfl⟩

theorem Follows.trans {k l m : KeptKey} (h : Follows k l) (g : Follows l m) : Follows k m := by
  obtain ⟨h1, h2⟩ := h
  obtain ⟨g1, g2⟩ := g
  refine ⟨g1.trans h1, ?_⟩
  rcases g2 with g2 | g2
  · rw [g2]; exact h2
  · exact .inr g2

@[simp] theorem foldl_follows {α : Type} (k : KeptKey) (f : State → α → State)
    (h : ∀ s a, Follows k s.keep → Follows k (f s a).keep) (l : List α) (s : State) (hs : Follows k s.keep) :
    Follows k (l.foldl f s).keep := by
  induction l generalizing s with
  | nil => exact hs
  | cons a l ih => exact ih _ (h _ _ hs)

@[simp] theorem begin_follows (k : KeptKey) (s : State) (n op : Nat) (f : Job → State → State)
    (h : ∀ j s, Follows k s.keep → Follows k (f j s).keep) (hs : Follows k s.keep) : Follows k (s.begin n op f).keep := by
  unfold State.begin
  split
  · exact hs
  · split
    · exact hs
    · split
      · exact hs
      · split
        · exact hs
        · exact h _ _ hs

@[simp] theorem beginRead_follows (k : KeptKey) (s : State) (n op : Nat) (buf : BufRead) (f : Job → Bytes → State → State)
    (h : ∀ j b s, Follows k s.keep → Follows k (f j b s).keep) (hs : Follows k s.keep) :
    Follows k (s.beginRead n op buf f).keep := by
  apply begin_follows _ _ _ _ _ _ hs
  intro j s hs
  split
  · exact hs
  · exact h _ _ _ hs

@[simp] theorem Follows.ite (k : KeptKey) (c : Prop) [Decidable c] (l m : KeptKey) :
    Follows k (if c then l else m) ↔ if c then Follows k l else Follows k m := by
  split <;> rfl

/-- An answer whose state follows the one it was asked in. -/
def Trails (s : State) : Answer → Prop
  | .next t => Follows s.keep t.keep
  | .fault _ => True
  | .refused _ => True

@[simp] theorem trails_next (s t : State) : Trails s (.next t) ↔ Follows s.keep t.keep := .rfl

/-! ### Ops -/

@[simp] theorem State.tell_keep (s : State) (ns : List Notice) : (State.tell s ns).keep = s.keep := by
  simp [State.tell]

@[simp] theorem State.report_keep (s : State) (k : WinKey) (ns : Nat → List Notice) : (State.report s k ns).keep = s.keep := by
  simp [State.report]

@[simp] theorem State.emit_keep (s : State) (o : List Output) : (State.emit s o).keep = s.keep := by
  simp [State.emit]

@[simp] theorem State.draw_keep (s : State) : (State.draw s).keep = s.keep := by
  simp [State.draw]

@[simp] theorem State.modCirc_keep (s : State) (f : Circ → Circ) : (State.modCirc s f).keep = s.keep := by
  simp [State.modCirc]

@[simp] theorem State.finish_keep (s : State) (n : Nat) (e : Ending) : (State.finish s n e).keep = s.keep := by
  simp [State.finish]

@[simp] theorem State.putBack_keep (s : State) (n : Nat) : (State.putBack s n).keep = s.keep := by
  simp [State.putBack]

@[simp] theorem check_keep (s : State) (n : Nat) (e : Option Ending) (k : State → State) (h : (k s).keep = s.keep) :
    (s.check n e k).keep = s.keep := by
  unfold State.check
  split <;> simp [h]

@[simp] theorem State.writeFinal_keep (s : State) (j : Job) (e : Ending) (rq : Nat) : (State.writeFinal s j e rq).keep = s.keep := by
  simp [State.writeFinal]

@[simp] theorem State.faultQueue_keep (s : State) (q : Nat) : (State.faultQueue s q).keep = s.keep := by
  unfold State.faultQueue
  repeat' first
    | with_reducible rfl
    | intro _
    | with_reducible (refine (keeps_next _ _).2 ?_)
    | exact trivial
    | (simp; done)
    | with_reducible (refine (foldl_keep _ ?_ _ _).trans ?_)
    | with_reducible (refine (foldl_keep1 _ ?_ _ _).trans ?_)
    | with_reducible (refine (foldl_keep2 _ ?_ _ _).trans ?_)
    | with_reducible (refine (begin_keep _ _ _ _ ?_).trans ?_)
    | with_reducible (refine (beginRead_keep _ _ _ _ _ ?_).trans ?_)
    | with_reducible (refine (check_keep _ _ _ _ ?_).trans ?_)
    | split
    | (simp [*]; done)
    | simp

@[simp] theorem State.faultQueues_keep (s : State) (p : Job → Bool) : (State.faultQueues s p).keep = s.keep := by
  simp [State.faultQueues]

@[simp] theorem State.modErrata_keep (s : State) (f : ErrataLog → ErrataLog) : (State.modErrata s f).keep = s.keep := by
  simp [State.modErrata]

@[simp] theorem State.startWake_keep (s : State) (source port : Nat) : (s.startWake source port).keep = s.keep := by
  unfold State.startWake
  split
  · rename_i h
    simp [State.keep, State.emit, h] <;> rfl
  · rfl

@[simp] theorem State.event_keep (s : State) (q : Nat) (e : EventIn) : (State.event s q e).keep = s.keep := by
  simp [State.event]

/-! ### LinkSend -/

@[simp] theorem State.modJalzel_keep (s : State) (p : Nat) (f : Jalzel → Jalzel) : (State.modJalzel s p f).keep = s.keep := by
  simp [State.modJalzel]

@[simp] theorem pump_keep (p n : Nat) (s : State) : (pump p n s).keep = s.keep := by
  induction n generalizing s with
  | zero => rfl
  | succ n ih =>
    unfold pump
    dsimp only
    repeat' first
      | with_reducible rfl
      | (simp [ih]; done)
      | split

@[simp] theorem State.pumpPort_keep (s : State) (p : Nat) : (State.pumpPort s p).keep = s.keep := by
  simp [State.pumpPort]

@[simp] theorem State.sendLink_keep (s : State) (m : LinkMsg) : (State.sendLink s m).keep = s.keep := by
  unfold State.sendLink
  repeat' first | (simp; done) | split

@[simp] theorem State.control_keep (s : State) (dest code : Nat) (args : List Nat) : (State.control s dest code args).keep = s.keep := by
  simp [State.control]

@[simp] theorem State.controlAll_keep (s : State) (code : Nat) (args : List Nat) : (State.controlAll s code args).keep = s.keep := by
  simp [State.controlAll]

@[simp] theorem State.request_keep (s : State) (dest : Nat) (write : Bool) (m : LinkMsg) : (State.request s dest write m).keep = s.keep := by
  unfold State.request
  repeat' first | (simp; done) | split

@[simp] theorem State.jalzelViolation_keep (s : State) (p reason source : Nat) : (State.jalzelViolation s p reason source).keep = s.keep := by
  simp [State.jalzelViolation]

@[simp] theorem State.retrain_keep (s : State) (p : Nat) : (State.retrain s p).keep = s.keep := by
  simp [State.retrain]

/-! ### PortSend -/

@[simp] theorem State.modPort_keep (s : State) (l : Nat) (f : LogPort → LogPort) : (State.modPort s l f).keep = s.keep := by
  simp [State.modPort]

@[simp] theorem State.modPhys_keep (s : State) (k : Nat) (f : PhysPort → PhysPort) : (State.modPhys s k f).keep = s.keep := by
  simp [State.modPhys]

@[simp] theorem State.occupy_keep (s : State) (l bytes : Nat) : (State.occupy s l bytes).keep = s.keep := by
  simp [State.occupy]

@[simp] theorem State.sendPtp_keep (s : State) (l : Nat) (m : PtpOut) : (State.sendPtp s l m).keep = s.keep := by
  unfold State.sendPtp
  repeat' first | (simp; done) | split

@[simp] theorem State.transmit_keep (s : State) (l : Nat) : (State.transmit s l).keep = s.keep := by
  unfold State.transmit
  repeat' first
    | with_reducible rfl
    | intro _
    | with_reducible (refine (keeps_next _ _).2 ?_)
    | exact trivial
    | (simp; done)
    | with_reducible (refine (foldl_keep _ ?_ _ _).trans ?_)
    | with_reducible (refine (foldl_keep1 _ ?_ _ _).trans ?_)
    | with_reducible (refine (foldl_keep2 _ ?_ _ _).trans ?_)
    | with_reducible (refine (begin_keep _ _ _ _ ?_).trans ?_)
    | with_reducible (refine (beginRead_keep _ _ _ _ _ ?_).trans ?_)
    | with_reducible (refine (check_keep _ _ _ _ ?_).trans ?_)
    | split
    | (simp [*]; done)
    | simp

@[simp] theorem State.queuePtp_keep (s : State) (l : Nat) (m : PtpOut) : (State.queuePtp s l m).keep = s.keep := by
  simp [State.queuePtp]

@[simp] theorem State.sendFrame_keep (s : State) (l : Nat) (f : Bytes) : (State.sendFrame s l f).keep = s.keep := by
  simp [State.sendFrame]

@[simp] theorem State.sendHost_keep (s : State) (l q : Nat) (f : Bytes) : (State.sendHost s l q f).keep = s.keep := by
  simp [State.sendHost]

@[simp] theorem State.portsTick_keep (s : State) : (State.portsTick s).keep = s.keep := by
  simp [State.portsTick]

/-! ### Network -/

@[simp] theorem State.netViolation_keep (s : State) (l reason source : Nat) : (State.netViolation s l reason source).keep = s.keep := by
  simp [State.netViolation]

@[simp] theorem State.portDown_keep (s : State) (l cause : Nat) : (State.portDown s l cause).keep = s.keep := by
  simp [State.portDown]

@[simp] theorem State.applyPort_keep (s : State) (k : Nat) (x : PhysPort) : (State.applyPort s k x).keep = s.keep := by
  simp [State.applyPort]

theorem execSetPort_keep (job : Nat) (s : State) : Keeps s (execSetPort job s) := by
  unfold execSetPort
  repeat' first
    | with_reducible rfl
    | intro _
    | with_reducible (refine (keeps_next _ _).2 ?_)
    | exact trivial
    | (simp; done)
    | with_reducible (refine (foldl_keep _ ?_ _ _).trans ?_)
    | with_reducible (refine (foldl_keep1 _ ?_ _ _).trans ?_)
    | with_reducible (refine (foldl_keep2 _ ?_ _ _).trans ?_)
    | with_reducible (refine (begin_keep _ _ _ _ ?_).trans ?_)
    | with_reducible (refine (beginRead_keep _ _ _ _ _ ?_).trans ?_)
    | with_reducible (refine (check_keep _ _ _ _ ?_).trans ?_)
    | split
    | (simp [*]; done)
    | simp

@[simp] theorem State.endSetPort_keep (s : State) (k : Nat) : (State.endSetPort s k).keep = s.keep := by
  unfold State.endSetPort
  repeat' first | (simp; done) | split

theorem execPortTrainingEnd_keep (port : Nat) (ok : Bool) (s : State) : Keeps s (execPortTrainingEnd port ok s) := by
  simp [execPortTrainingEnd]

theorem execPortTrainRetry_keep (port : Nat) (s : State) : Keeps s (execPortTrainRetry port s) := by
  simp [execPortTrainRetry]

theorem execPortSignalLoss_keep (port : Nat) (s : State) : Keeps s (execPortSignalLoss port s) := by
  simp [execPortSignalLoss]

@[simp] theorem State.applyAddress_keep (s : State) (b : Bytes) : (State.applyAddress s b).keep = s.keep := by
  simp [State.applyAddress]

theorem execSetAddress_keep (job : Nat) (buf : BufRead) (s : State) : Keeps s (execSetAddress job buf s) := by
  simp [execSetAddress]

theorem execRemoveFlow_keep (job : Nat) (s : State) : Keeps s (execRemoveFlow job s) := by
  simp [execRemoveFlow]

theorem execQueryPort_keep (job : Nat) (s : State) : Keeps s (execQueryPort job s) := by
  simp [execQueryPort]

theorem execQueryJalzel_keep (job : Nat) (s : State) : Keeps s (execQueryJalzel job s) := by
  simp [execQueryJalzel]

@[simp] theorem State.passEntry_keep (s : State) (q : Nat) : (State.passEntry s q).keep = s.keep := by
  simp [State.passEntry]

theorem execTxEntryFetch_keep (q : Nat) (entry : Option Slip) (frame : Option Bytes) (s : State) : Keeps s (execTxEntryFetch q entry frame s) := by
  unfold execTxEntryFetch
  repeat' first | (simp; done) | split

/-! ### Fabric -/

@[simp] theorem State.setCarrel_keep (s : State) (c : Nat) (x : Carrel) : (State.setCarrel s c x).keep = s.keep := by
  simp [State.setCarrel]

@[simp] theorem State.modCarrel_keep (s : State) (c : Nat) (f : Carrel → Carrel) : (State.modCarrel s c f).keep = s.keep := by
  simp [State.modCarrel]

@[simp] theorem State.reportCorrected_keep (s : State) (unit inst location synd : Nat) : (State.reportCorrected s unit inst location synd).1.keep = s.keep := by
  simp [State.reportCorrected]

@[simp] theorem State.reportPoison_keep (s : State) (unit inst location synd : Nat) : (State.reportPoison s unit inst location synd).keep = s.keep := by
  simp [State.reportPoison]

@[simp] theorem State.readSram_keep (s : State) (c w : Nat) : (State.readSram s c w).2.keep = s.keep := by
  unfold State.readSram
  repeat' first
    | with_reducible rfl
    | intro _
    | with_reducible (refine (keeps_next _ _).2 ?_)
    | exact trivial
    | (simp; done)
    | with_reducible (refine (foldl_keep _ ?_ _ _).trans ?_)
    | with_reducible (refine (foldl_keep1 _ ?_ _ _).trans ?_)
    | with_reducible (refine (foldl_keep2 _ ?_ _ _).trans ?_)
    | with_reducible (refine (begin_keep _ _ _ _ ?_).trans ?_)
    | with_reducible (refine (beginRead_keep _ _ _ _ _ ?_).trans ?_)
    | with_reducible (refine (check_keep _ _ _ _ ?_).trans ?_)
    | split
    | (simp [*]; done)
    | simp

@[simp] theorem State.readSramWords_keep (s : State) (c : Nat) (l : List Nat) : (s.readSramWords c l).2.keep = s.keep := by
  induction l generalizing s with
  | nil => unfold State.readSramWords; with_reducible rfl
  | cons a l ih =>
  unfold State.readSramWords
  repeat' first
    | with_reducible rfl
    | intro _
    | with_reducible (refine (keeps_next _ _).2 ?_)
    | exact trivial
    | (simp [ih]; done)
    | with_reducible (refine (foldl_keep _ ?_ _ _).trans ?_)
    | with_reducible (refine (foldl_keep1 _ ?_ _ _).trans ?_)
    | with_reducible (refine (foldl_keep2 _ ?_ _ _).trans ?_)
    | with_reducible (refine (begin_keep _ _ _ _ ?_).trans ?_)
    | with_reducible (refine (beginRead_keep _ _ _ _ _ ?_).trans ?_)
    | with_reducible (refine (check_keep _ _ _ _ ?_).trans ?_)
    | split
    | (simp [*]; done)
    | simp

@[simp] theorem State.readMarked_keep (s : State) (c addr n : Nat) : (State.readMarked s c addr n).2.keep = s.keep := by
  simp [State.readMarked]

@[simp] theorem State.writeSramWord_keep (s : State) (c w : Nat) (new : Bytes) (mask : List Bool) (poison : Bool) : (State.writeSramWord s c w new mask poison).keep = s.keep := by
  simp [State.writeSramWord]

@[simp] theorem State.writeMarked_keep (s : State) (c addr : Nat) (data : Bytes) (marks : List Bool) : (State.writeMarked s c addr data marks).keep = s.keep := by
  simp [State.writeMarked]

@[simp] theorem State.writeBytes_keep (s : State) (c addr : Nat) (data : Bytes) : (State.writeBytes s c addr data).keep = s.keep := by
  simp [State.writeBytes]

@[simp] theorem State.modStack_keep (s : State) (f : StackMem → StackMem) : (State.modStack s f).keep = s.keep := by
  simp [State.modStack]

@[simp] theorem State.readStackWord_keep (s : State) (w : Nat) : (State.readStackWord s w).2.keep = s.keep := by
  unfold State.readStackWord
  repeat' first
    | with_reducible rfl
    | intro _
    | with_reducible (refine (keeps_next _ _).2 ?_)
    | exact trivial
    | (simp; done)
    | with_reducible (refine (foldl_keep _ ?_ _ _).trans ?_)
    | with_reducible (refine (foldl_keep1 _ ?_ _ _).trans ?_)
    | with_reducible (refine (foldl_keep2 _ ?_ _ _).trans ?_)
    | with_reducible (refine (begin_keep _ _ _ _ ?_).trans ?_)
    | with_reducible (refine (beginRead_keep _ _ _ _ _ ?_).trans ?_)
    | with_reducible (refine (check_keep _ _ _ _ ?_).trans ?_)
    | split
    | (simp [*]; done)
    | simp

@[simp] theorem State.readStackWords_keep (s : State) (l : List Nat) : (s.readStackWords l).2.keep = s.keep := by
  induction l generalizing s with
  | nil => unfold State.readStackWords; with_reducible rfl
  | cons a l ih =>
  unfold State.readStackWords
  repeat' first
    | with_reducible rfl
    | intro _
    | with_reducible (refine (keeps_next _ _).2 ?_)
    | exact trivial
    | (simp [ih]; done)
    | with_reducible (refine (foldl_keep _ ?_ _ _).trans ?_)
    | with_reducible (refine (foldl_keep1 _ ?_ _ _).trans ?_)
    | with_reducible (refine (foldl_keep2 _ ?_ _ _).trans ?_)
    | with_reducible (refine (begin_keep _ _ _ _ ?_).trans ?_)
    | with_reducible (refine (beginRead_keep _ _ _ _ _ ?_).trans ?_)
    | with_reducible (refine (check_keep _ _ _ _ ?_).trans ?_)
    | split
    | (simp [*]; done)
    | simp

@[simp] theorem State.putStackWord_keep (s : State) (w : Nat) (d : Bytes) : (State.putStackWord s w d).keep = s.keep := by
  simp [State.putStackWord]

@[simp] theorem State.writeStackWord_keep (s : State) (w : Nat) (new : Bytes) (mask : List Bool) : (State.writeStackWord s w new mask).1.keep = s.keep := by
  unfold State.writeStackWord
  repeat' first
    | with_reducible rfl
    | intro _
    | with_reducible (refine (keeps_next _ _).2 ?_)
    | exact trivial
    | (simp; done)
    | with_reducible (refine (foldl_keep _ ?_ _ _).trans ?_)
    | with_reducible (refine (foldl_keep1 _ ?_ _ _).trans ?_)
    | with_reducible (refine (foldl_keep2 _ ?_ _ _).trans ?_)
    | with_reducible (refine (begin_keep _ _ _ _ ?_).trans ?_)
    | with_reducible (refine (beginRead_keep _ _ _ _ _ ?_).trans ?_)
    | with_reducible (refine (check_keep _ _ _ _ ?_).trans ?_)
    | split
    | (simp [*]; done)
    | simp

@[simp] theorem State.readStackBytes_keep (s : State) (addr n : Nat) : (State.readStackBytes s addr n).2.keep = s.keep := by
  simp [State.readStackBytes]

@[simp] theorem State.writeStackBytes_keep (s : State) (addr : Nat) (data : Bytes) (marks : List Bool) : (State.writeStackBytes s addr data marks).1.keep = s.keep := by
  simp [State.writeStackBytes]

@[simp] theorem State.writeStackWords_keep (s : State) (data : Bytes) (mask : List Bool) (i : Nat) (l : List Nat) : (s.writeStackWords data mask i l).1.keep = s.keep := by
  induction l generalizing s i with
  | nil => unfold State.writeStackWords; with_reducible rfl
  | cons a l ih =>
  unfold State.writeStackWords
  repeat' first
    | with_reducible rfl
    | intro _
    | with_reducible (refine (keeps_next _ _).2 ?_)
    | exact trivial
    | (simp [ih]; done)
    | with_reducible (refine (foldl_keep _ ?_ _ _).trans ?_)
    | with_reducible (refine (foldl_keep1 _ ?_ _ _).trans ?_)
    | with_reducible (refine (foldl_keep2 _ ?_ _ _).trans ?_)
    | with_reducible (refine (begin_keep _ _ _ _ ?_).trans ?_)
    | with_reducible (refine (beginRead_keep _ _ _ _ _ ?_).trans ?_)
    | with_reducible (refine (check_keep _ _ _ _ ?_).trans ?_)
    | split
    | (simp [*]; done)
    | simp

/-! ### Bounds -/

@[simp] theorem State.modCurator_keep (s : State) (f : Curator → Curator) : (State.modCurator s f).keep = s.keep := by
  simp [State.modCurator]

@[simp] theorem State.pinBound_keep (s : State) (code : Nat) : (State.pinBound s code).keep = s.keep := by
  simp [State.pinBound]

@[simp] theorem State.unpinBound_keep (s : State) (code : Nat) : (State.unpinBound s code).keep = s.keep := by
  simp [State.unpinBound]

@[simp] theorem State.openConflict_keep (s : State) (code object : Nat) : (State.openConflict s code object).keep = s.keep := by
  simp [State.openConflict]

@[simp] theorem State.clearConflict_keep (s : State) (code : Nat) : (State.clearConflict s code).keep = s.keep := by
  unfold State.clearConflict
  repeat' first | (simp; done) | split

/-! ### Images -/

@[simp] theorem State.setImage_keep (s : State) (h : Nat) (x : Image) : (State.setImage s h x).keep = s.keep := by
  simp [State.setImage]

@[simp] theorem State.modImage_keep (s : State) (h : Nat) (f : Image → Image) : (State.modImage s h f).keep = s.keep := by
  unfold State.modImage
  repeat' first | (simp; done) | split

@[simp] theorem State.releaseCarrel_keep (s : State) (c : Nat) : (State.releaseCarrel s c).keep = s.keep := by
  unfold State.releaseCarrel
  repeat' first
    | with_reducible rfl
    | intro _
    | with_reducible (refine (keeps_next _ _).2 ?_)
    | exact trivial
    | (simp; done)
    | with_reducible (refine (foldl_keep _ ?_ _ _).trans ?_)
    | with_reducible (refine (foldl_keep1 _ ?_ _ _).trans ?_)
    | with_reducible (refine (foldl_keep2 _ ?_ _ _).trans ?_)
    | with_reducible (refine (begin_keep _ _ _ _ ?_).trans ?_)
    | with_reducible (refine (beginRead_keep _ _ _ _ _ ?_).trans ?_)
    | with_reducible (refine (check_keep _ _ _ _ ?_).trans ?_)
    | split
    | (simp [*]; done)
    | simp

@[simp] theorem State.freeImage_keep (s : State) (h : Nat) : (State.freeImage s h).keep = s.keep := by
  simp [State.freeImage]

@[simp] theorem State.verifyPlace_keep (s : State) (h n : Nat) (x : Image) : (State.verifyPlace s h n x).keep = s.keep := by
  unfold State.verifyPlace
  repeat' first | (simp; done) | split

@[simp] theorem State.addPiece_keep (s : State) (h : Nat) (x : Image) (j : Job) (b : Bytes) : (State.addPiece s h x j b).keep = s.keep := by
  simp [State.addPiece]

theorem execLoadImage_keep (job : Nat) (buf : BufRead) (s : State) : Keeps s (execLoadImage job buf s) := by
  unfold execLoadImage
  repeat' first
    | with_reducible rfl
    | intro _
    | with_reducible (refine (keeps_next _ _).2 ?_)
    | exact trivial
    | (simp; done)
    | with_reducible (refine (foldl_keep _ ?_ _ _).trans ?_)
    | with_reducible (refine (foldl_keep1 _ ?_ _ _).trans ?_)
    | with_reducible (refine (foldl_keep2 _ ?_ _ _).trans ?_)
    | with_reducible (refine (begin_keep _ _ _ _ ?_).trans ?_)
    | with_reducible (refine (beginRead_keep _ _ _ _ _ ?_).trans ?_)
    | with_reducible (refine (check_keep _ _ _ _ ?_).trans ?_)
    | split
    | (simp [*]; done)
    | simp

theorem execPartialImageTimeout_keep (handle : Nat) (s : State) : Keeps s (execPartialImageTimeout handle s) := by
  unfold execPartialImageTimeout
  repeat' first | (simp; done) | split

@[simp] theorem State.extendImages_keep (s : State) (h : Nat) (measurement : Bytes) : (State.extendImages s h measurement).keep = s.keep := by
  simp [State.extendImages]

@[simp] theorem State.zeroGrants_keep (s : State) (x : Image) : (State.zeroGrants s x).keep = s.keep := by
  simp [State.zeroGrants]

@[simp] theorem State.loadDone_keep (s : State) (h : Nat) (x : Image) : (State.loadDone s h x).keep = s.keep := by
  unfold State.loadDone
  repeat' first | (simp; done) | split

theorem execStageLoad_keep (carrel handle stage slot : Nat) (s : State) : Keeps s (execStageLoad carrel handle stage slot s) := by
  unfold execStageLoad
  repeat' first | (simp; done) | split

@[simp] theorem State.reloadFailed_keep (s : State) (h : Nat) (x : Image) (stage slot : Nat) : (State.reloadFailed s h x stage slot).keep = s.keep := by
  simp [State.reloadFailed]

theorem execStageLoadEnd_keep (carrel : Nat) (sourceBad : Bool) (s : State) : Keeps s (execStageLoadEnd carrel sourceBad s) := by
  unfold execStageLoadEnd
  repeat' first
    | with_reducible rfl
    | intro _
    | with_reducible (refine (keeps_next _ _).2 ?_)
    | exact trivial
    | (simp; done)
    | with_reducible (refine (foldl_keep _ ?_ _ _).trans ?_)
    | with_reducible (refine (foldl_keep1 _ ?_ _ _).trans ?_)
    | with_reducible (refine (foldl_keep2 _ ?_ _ _).trans ?_)
    | with_reducible (refine (begin_keep _ _ _ _ ?_).trans ?_)
    | with_reducible (refine (beginRead_keep _ _ _ _ _ ?_).trans ?_)
    | with_reducible (refine (check_keep _ _ _ _ ?_).trans ?_)
    | split
    | (simp [*]; done)
    | simp

theorem execUnloadImage_keep (job : Nat) (s : State) : Keeps s (execUnloadImage job s) := by
  unfold execUnloadImage
  repeat' first
    | with_reducible rfl
    | intro _
    | with_reducible (refine (keeps_next _ _).2 ?_)
    | exact trivial
    | (simp; done)
    | with_reducible (refine (foldl_keep _ ?_ _ _).trans ?_)
    | with_reducible (refine (foldl_keep1 _ ?_ _ _).trans ?_)
    | with_reducible (refine (foldl_keep2 _ ?_ _ _).trans ?_)
    | with_reducible (refine (begin_keep _ _ _ _ ?_).trans ?_)
    | with_reducible (refine (beginRead_keep _ _ _ _ _ ?_).trans ?_)
    | with_reducible (refine (check_keep _ _ _ _ ?_).trans ?_)
    | split
    | (simp [*]; done)
    | simp

theorem execBindImage_keep (job : Nat) (s : State) : Keeps s (execBindImage job s) := by
  unfold execBindImage
  repeat' first
    | with_reducible rfl
    | intro _
    | with_reducible (refine (keeps_next _ _).2 ?_)
    | exact trivial
    | (simp; done)
    | with_reducible (refine (foldl_keep _ ?_ _ _).trans ?_)
    | with_reducible (refine (foldl_keep1 _ ?_ _ _).trans ?_)
    | with_reducible (refine (foldl_keep2 _ ?_ _ _).trans ?_)
    | with_reducible (refine (begin_keep _ _ _ _ ?_).trans ?_)
    | with_reducible (refine (beginRead_keep _ _ _ _ _ ?_).trans ?_)
    | with_reducible (refine (check_keep _ _ _ _ ?_).trans ?_)
    | split
    | (simp [*]; done)
    | simp

@[simp] theorem State.endUnbinding_keep (s : State) (h : Nat) : (State.endUnbinding s h).keep = s.keep := by
  unfold State.endUnbinding
  repeat' first | (simp; done) | split

@[simp] theorem State.endUnbindings_keep (s : State) : (State.endUnbindings s).keep = s.keep := by
  simp [State.endUnbindings]

theorem execUnbindImage_keep (job : Nat) (s : State) : Keeps s (execUnbindImage job s) := by
  unfold execUnbindImage
  repeat' first
    | with_reducible rfl
    | intro _
    | with_reducible (refine (keeps_next _ _).2 ?_)
    | exact trivial
    | (simp; done)
    | with_reducible (refine (foldl_keep _ ?_ _ _).trans ?_)
    | with_reducible (refine (foldl_keep1 _ ?_ _ _).trans ?_)
    | with_reducible (refine (foldl_keep2 _ ?_ _ _).trans ?_)
    | with_reducible (refine (begin_keep _ _ _ _ ?_).trans ?_)
    | with_reducible (refine (beginRead_keep _ _ _ _ _ ?_).trans ?_)
    | with_reducible (refine (check_keep _ _ _ _ ?_).trans ?_)
    | split
    | (simp [*]; done)
    | simp

theorem execQueryImage_keep (job : Nat) (s : State) : Keeps s (execQueryImage job s) := by
  unfold execQueryImage
  repeat' first
    | with_reducible rfl
    | intro _
    | with_reducible (refine (keeps_next _ _).2 ?_)
    | exact trivial
    | (simp; done)
    | with_reducible (refine (foldl_keep _ ?_ _ _).trans ?_)
    | with_reducible (refine (foldl_keep1 _ ?_ _ _).trans ?_)
    | with_reducible (refine (foldl_keep2 _ ?_ _ _).trans ?_)
    | with_reducible (refine (begin_keep _ _ _ _ ?_).trans ?_)
    | with_reducible (refine (beginRead_keep _ _ _ _ _ ?_).trans ?_)
    | with_reducible (refine (check_keep _ _ _ _ ?_).trans ?_)
    | split
    | (simp [*]; done)
    | simp

@[simp] theorem State.sendMesh_keep (s : State) (l : List MeshMsg) : (State.sendMesh s l).keep = s.keep := by
  simp [State.sendMesh]

@[simp] theorem State.readScratch_keep (s : State) (place n : Nat) : (s.readScratch place n).2.keep = s.keep := by
  unfold State.readScratch
  refine (foldl_keep2 _ (fun r q => ?_) _ _).trans rfl
  dsimp only
  exact State.readStackBytes_keep _ _ _

@[simp] theorem State.writeRuns_keep (s : State) (l : List (Nat × Nat)) (data : Bytes) (marks : List Bool) :
    (s.writeRuns l data marks).1.keep = s.keep := by
  unfold State.writeRuns
  exact foldl_keep3 _ (fun _ _ => State.writeStackBytes_keep _ _ _ _) l ((s, true), 0)

@[simp] theorem State.writeScratch_keep (s : State) (place : Nat) (data : Bytes) (marks : List Bool) : (State.writeScratch s place data marks).1.keep = s.keep := by
  unfold State.writeScratch
  repeat' first
    | with_reducible rfl
    | intro _
    | with_reducible (refine (keeps_next _ _).2 ?_)
    | exact trivial
    | (simp; done)
    | with_reducible (refine (foldl_keep _ ?_ _ _).trans ?_)
    | with_reducible (refine (foldl_keep1 _ ?_ _ _).trans ?_)
    | with_reducible (refine (foldl_keep2 _ ?_ _ _).trans ?_)
    | with_reducible (refine (begin_keep _ _ _ _ ?_).trans ?_)
    | with_reducible (refine (beginRead_keep _ _ _ _ _ ?_).trans ?_)
    | with_reducible (refine (check_keep _ _ _ _ ?_).trans ?_)
    | split
    | (simp [*]; done)
    | simp

@[simp] theorem State.sendInput_keep (s : State) (h : Nat) (x : Image) (run edge slot : Nat) (data : Bytes) :
    (s.sendInput h x run edge slot data).keep = s.keep := by
  unfold State.sendInput
  extract_lets e s1
  have h1 : s1.keep = s.keep := by
    unfold s1
    split
    · exact State.writeScratch_keep _ _ _ _
    · rfl
  clear_value s1
  refine (foldl_keep _ (fun s p => ?_) _ _).trans ((State.setImage_keep _ _ _).trans h1)
  split
  · rfl
  · exact State.sendMesh_keep _ _

@[simp] theorem State.sendInputs_keep (s : State) (h n : Nat) : (s.sendInputs h n).keep = s.keep := by
  induction n generalizing s with
  | zero => unfold State.sendInputs; with_reducible rfl
  | succ n ih =>
  unfold State.sendInputs
  repeat' first
    | with_reducible rfl
    | intro _
    | with_reducible (refine (keeps_next _ _).2 ?_)
    | exact trivial
    | (simp [ih]; done)
    | with_reducible (refine (foldl_keep _ ?_ _ _).trans ?_)
    | with_reducible (refine (foldl_keep1 _ ?_ _ _).trans ?_)
    | with_reducible (refine (foldl_keep2 _ ?_ _ _).trans ?_)
    | with_reducible (refine (begin_keep _ _ _ _ ?_).trans ?_)
    | with_reducible (refine (beginRead_keep _ _ _ _ _ ?_).trans ?_)
    | with_reducible (refine (check_keep _ _ _ _ ?_).trans ?_)
    | split
    | (simp [*]; done)
    | simp

theorem execRunImage_keep (job : Nat) (inputs : BufRead) (s : State) : Keeps s (execRunImage job inputs s) := by
  unfold execRunImage
  repeat' first
    | with_reducible rfl
    | intro _
    | with_reducible (refine (keeps_next _ _).2 ?_)
    | exact trivial
    | (simp; done)
    | with_reducible (refine (foldl_keep _ ?_ _ _).trans ?_)
    | with_reducible (refine (foldl_keep1 _ ?_ _ _).trans ?_)
    | with_reducible (refine (foldl_keep2 _ ?_ _ _).trans ?_)
    | with_reducible (refine (begin_keep _ _ _ _ ?_).trans ?_)
    | with_reducible (refine (beginRead_keep _ _ _ _ _ ?_).trans ?_)
    | with_reducible (refine (check_keep _ _ _ _ ?_).trans ?_)
    | split
    | (simp [*]; done)
    | simp

@[simp] theorem State.endRun_keep (s : State) (r : Run) (e : Ending) : (State.endRun s r e).keep = s.keep := by
  simp [State.endRun]

theorem execRunEnd_keep (job : Nat) (s : State) : Keeps s (execRunEnd job s) := by
  unfold execRunEnd
  repeat' first | (simp; done) | split

@[simp] theorem State.endExpired_keep (s : State) (job : Nat) : (State.endExpired s job).keep = s.keep := by
  unfold State.endExpired
  repeat' first | (simp; done) | split

theorem execRunDeadline_keep (job : Nat) (s : State) : Keeps s (execRunDeadline job s) := by
  unfold execRunDeadline
  repeat' first | (simp; done) | split

/-! ### Streams -/

@[simp] theorem State.setStream_keep (s : State) (k : Nat) (x : Stream) : (State.setStream s k x).keep = s.keep := by
  simp [State.setStream]

@[simp] theorem State.modStream_keep (s : State) (k : Nat) (f : Stream → Stream) : (State.modStream s k f).keep = s.keep := by
  unfold State.modStream
  repeat' first | (simp; done) | split

@[simp] theorem State.streamViolation_keep (s : State) (k reason source : Nat) : (State.streamViolation s k reason source).keep = s.keep := by
  unfold State.streamViolation
  repeat' first | (simp; done) | split

@[simp] theorem State.streamEvent_keep (s : State) (k : Nat) (e : EventIn) : (State.streamEvent s k e).keep = s.keep := by
  unfold State.streamEvent
  repeat' first | (simp; done) | split

@[simp] theorem State.modBuffer_keep (s : State) (k b : Nat) (f : Buffer → Buffer) : (State.modBuffer s k b f).keep = s.keep := by
  simp [State.modBuffer]

@[simp] theorem State.dropHolder_keep (s : State) (k : Nat) (h : Holder) : (State.dropHolder s k h).keep = s.keep := by
  simp [State.dropHolder]

@[simp] theorem State.setGraph_keep (s : State) (k : Nat) (g : Graph) : (State.setGraph s k g).keep = s.keep := by
  simp [State.setGraph]

@[simp] theorem State.modGraph_keep (s : State) (k : Nat) (f : Graph → Graph) : (State.modGraph s k f).keep = s.keep := by
  unfold State.modGraph
  repeat' first | (simp; done) | split

@[simp] theorem State.handOver_keep (s : State) (source : Nat) (u : Reached) : (State.handOver s source u).keep = s.keep := by
  unfold State.handOver
  repeat' first | (simp; done) | split

/-! ### Graphs -/

@[simp] theorem State.graphEvent_keep (s : State) (k : Nat) (e : EventIn) : (State.graphEvent s k e).keep = s.keep := by
  unfold State.graphEvent
  repeat' first | (simp; done) | split

@[simp] theorem State.skipped_keep (s : State) (k reason number : Nat) : (State.skipped s k reason number).keep = s.keep := by
  simp [State.skipped]

@[simp] theorem State.endClose_keep (s : State) (k : Nat) : (State.endClose s k).keep = s.keep := by
  unfold State.endClose
  repeat' first | (simp; done) | split

@[simp] theorem State.endGraphStop_keep (s : State) (k : Nat) : (State.endGraphStop s k).keep = s.keep := by
  unfold State.endGraphStop
  repeat' first | (simp; done) | split

@[simp] theorem State.leaveGraph_keep (s : State) (k number : Nat) : (State.leaveGraph s k number).keep = s.keep := by
  unfold State.leaveGraph
  repeat' first
    | with_reducible rfl
    | intro _
    | with_reducible (refine (keeps_next _ _).2 ?_)
    | exact trivial
    | (simp; done)
    | with_reducible (refine (foldl_keep _ ?_ _ _).trans ?_)
    | with_reducible (refine (foldl_keep1 _ ?_ _ _).trans ?_)
    | with_reducible (refine (foldl_keep2 _ ?_ _ _).trans ?_)
    | with_reducible (refine (begin_keep _ _ _ _ ?_).trans ?_)
    | with_reducible (refine (beginRead_keep _ _ _ _ _ ?_).trans ?_)
    | with_reducible (refine (check_keep _ _ _ _ ?_).trans ?_)
    | split
    | (simp [*]; done)
    | simp

@[simp] theorem State.unchain_keep (s : State) (k : Nat) (g : Graph) (r : FrameRun) : (State.unchain s k g r).keep = s.keep := by
  unfold State.unchain
  repeat' first | (simp; done) | split

@[simp] theorem State.skipEntered_keep (s : State) (k number reason : Nat) : (State.skipEntered s k number reason).keep = s.keep := by
  unfold State.skipEntered
  repeat' first | (simp; done) | split

@[simp] theorem State.givePair_keep (s : State) (k p number : Nat) (c : Nat × Frame) : (State.givePair s k p number c).keep = s.keep := by
  simp [State.givePair]

@[simp] theorem State.choosePairs_keep (s : State) (k : Nat) : (State.choosePairs s k).keep = s.keep := by
  unfold State.choosePairs
  repeat' first
    | with_reducible rfl
    | intro _
    | with_reducible (refine (keeps_next _ _).2 ?_)
    | exact trivial
    | (simp; done)
    | with_reducible (refine (foldl_keep _ ?_ _ _).trans ?_)
    | with_reducible (refine (foldl_keep1 _ ?_ _ _).trans ?_)
    | with_reducible (refine (foldl_keep2 _ ?_ _ _).trans ?_)
    | with_reducible (refine (begin_keep _ _ _ _ ?_).trans ?_)
    | with_reducible (refine (beginRead_keep _ _ _ _ _ ?_).trans ?_)
    | with_reducible (refine (check_keep _ _ _ _ ?_).trans ?_)
    | split
    | (simp [*]; done)
    | simp

@[simp] theorem State.enterGraph_keep (s : State) (k : Nat) (g : Graph) (b : Nat) (f : Frame) : (State.enterGraph s k g b f).keep = s.keep := by
  unfold State.enterGraph
  repeat' first | (simp; done) | split

@[simp] theorem State.releasePair_keep (s : State) (k p : Nat) : (State.releasePair s k p).keep = s.keep := by
  unfold State.releasePair
  repeat' first
    | with_reducible rfl
    | intro _
    | with_reducible (refine (keeps_next _ _).2 ?_)
    | exact trivial
    | (simp; done)
    | with_reducible (refine (foldl_keep _ ?_ _ _).trans ?_)
    | with_reducible (refine (foldl_keep1 _ ?_ _ _).trans ?_)
    | with_reducible (refine (foldl_keep2 _ ?_ _ _).trans ?_)
    | with_reducible (refine (begin_keep _ _ _ _ ?_).trans ?_)
    | with_reducible (refine (beginRead_keep _ _ _ _ _ ?_).trans ?_)
    | with_reducible (refine (check_keep _ _ _ _ ?_).trans ?_)
    | split
    | (simp [*]; done)
    | simp

@[simp] theorem State.offerFrame_keep (s : State) (k b : Nat) (f : Frame) : (State.offerFrame s k b f).keep = s.keep := by
  unfold State.offerFrame
  repeat' first | (simp; done) | split

@[simp] theorem State.deliverFrame_keep (s : State) (k b : Nat) (f : Frame) : (State.deliverFrame s k b f).keep = s.keep := by
  simp [State.deliverFrame]

theorem execPairWaitTimeout_keep (stream number : Nat) (s : State) : Keeps s (execPairWaitTimeout stream number s) := by
  unfold execPairWaitTimeout
  repeat' first | (simp; done) | split

theorem execFrameEnd_keep (stream number : Nat) (s : State) : Keeps s (execFrameEnd stream number s) := by
  unfold execFrameEnd
  repeat' first | (simp; done) | split

theorem execLoadRemap_keep (job : Nat) (buf : BufRead) (s : State) : Keeps s (execLoadRemap job buf s) := by
  simp [execLoadRemap]

theorem execDropRemap_keep (job : Nat) (s : State) : Keeps s (execDropRemap job s) := by
  simp [execDropRemap]

theorem execDefineGraph_keep (job : Nat) (s : State) : Keeps s (execDefineGraph job s) := by
  unfold execDefineGraph
  repeat' first
    | with_reducible rfl
    | intro _
    | with_reducible (refine (keeps_next _ _).2 ?_)
    | exact trivial
    | (simp; done)
    | with_reducible (refine (foldl_keep _ ?_ _ _).trans ?_)
    | with_reducible (refine (foldl_keep1 _ ?_ _ _).trans ?_)
    | with_reducible (refine (foldl_keep2 _ ?_ _ _).trans ?_)
    | with_reducible (refine (begin_keep _ _ _ _ ?_).trans ?_)
    | with_reducible (refine (beginRead_keep _ _ _ _ _ ?_).trans ?_)
    | with_reducible (refine (check_keep _ _ _ _ ?_).trans ?_)
    | split
    | (simp [*]; done)
    | simp

theorem execStartGraph_keep (job : Nat) (s : State) : Keeps s (execStartGraph job s) := by
  unfold execStartGraph
  repeat' first
    | with_reducible rfl
    | intro _
    | with_reducible (refine (keeps_next _ _).2 ?_)
    | exact trivial
    | (simp; done)
    | with_reducible (refine (foldl_keep _ ?_ _ _).trans ?_)
    | with_reducible (refine (foldl_keep1 _ ?_ _ _).trans ?_)
    | with_reducible (refine (foldl_keep2 _ ?_ _ _).trans ?_)
    | with_reducible (refine (begin_keep _ _ _ _ ?_).trans ?_)
    | with_reducible (refine (beginRead_keep _ _ _ _ _ ?_).trans ?_)
    | with_reducible (refine (check_keep _ _ _ _ ?_).trans ?_)
    | split
    | (simp [*]; done)
    | simp

theorem execStopGraph_keep (job : Nat) (s : State) : Keeps s (execStopGraph job s) := by
  unfold execStopGraph
  repeat' first
    | with_reducible rfl
    | intro _
    | with_reducible (refine (keeps_next _ _).2 ?_)
    | exact trivial
    | (simp; done)
    | with_reducible (refine (foldl_keep _ ?_ _ _).trans ?_)
    | with_reducible (refine (foldl_keep1 _ ?_ _ _).trans ?_)
    | with_reducible (refine (foldl_keep2 _ ?_ _ _).trans ?_)
    | with_reducible (refine (begin_keep _ _ _ _ ?_).trans ?_)
    | with_reducible (refine (beginRead_keep _ _ _ _ _ ?_).trans ?_)
    | with_reducible (refine (check_keep _ _ _ _ ?_).trans ?_)
    | split
    | (simp [*]; done)
    | simp

theorem execQueryGraph_keep (job : Nat) (s : State) : Keeps s (execQueryGraph job s) := by
  unfold execQueryGraph
  repeat' first
    | with_reducible rfl
    | intro _
    | with_reducible (refine (keeps_next _ _).2 ?_)
    | exact trivial
    | (simp; done)
    | with_reducible (refine (foldl_keep _ ?_ _ _).trans ?_)
    | with_reducible (refine (foldl_keep1 _ ?_ _ _).trans ?_)
    | with_reducible (refine (foldl_keep2 _ ?_ _ _).trans ?_)
    | with_reducible (refine (begin_keep _ _ _ _ ?_).trans ?_)
    | with_reducible (refine (beginRead_keep _ _ _ _ _ ?_).trans ?_)
    | with_reducible (refine (check_keep _ _ _ _ ?_).trans ?_)
    | split
    | (simp [*]; done)
    | simp

theorem execUndefineGraph_keep (job : Nat) (s : State) : Keeps s (execUndefineGraph job s) := by
  unfold execUndefineGraph
  repeat' first
    | with_reducible rfl
    | intro _
    | with_reducible (refine (keeps_next _ _).2 ?_)
    | exact trivial
    | (simp; done)
    | with_reducible (refine (foldl_keep _ ?_ _ _).trans ?_)
    | with_reducible (refine (foldl_keep1 _ ?_ _ _).trans ?_)
    | with_reducible (refine (foldl_keep2 _ ?_ _ _).trans ?_)
    | with_reducible (refine (begin_keep _ _ _ _ ?_).trans ?_)
    | with_reducible (refine (beginRead_keep _ _ _ _ _ ?_).trans ?_)
    | with_reducible (refine (check_keep _ _ _ _ ?_).trans ?_)
    | split
    | (simp [*]; done)
    | simp

/-! ### Chains -/

@[simp] theorem State.writeRecord_keep (s : State) (k : Nat) (x : Stream) (delay : Nat) (i : SampleIn) (values : List F32) : (State.writeRecord s k x delay i values).keep = s.keep := by
  simp [State.writeRecord]

@[simp] theorem State.chainOutput_keep (s : State) (k : Nat) (x : Stream) (c : ChainDef) (ys : List F64) (i : SampleIn) : (State.chainOutput s k x c ys i).keep = s.keep := by
  unfold State.chainOutput
  repeat' first
    | with_reducible rfl
    | intro _
    | with_reducible (refine (keeps_next _ _).2 ?_)
    | exact trivial
    | (simp; done)
    | with_reducible (refine (foldl_keep _ ?_ _ _).trans ?_)
    | with_reducible (refine (foldl_keep1 _ ?_ _ _).trans ?_)
    | with_reducible (refine (foldl_keep2 _ ?_ _ _).trans ?_)
    | with_reducible (refine (begin_keep _ _ _ _ ?_).trans ?_)
    | with_reducible (refine (beginRead_keep _ _ _ _ _ ?_).trans ?_)
    | with_reducible (refine (check_keep _ _ _ _ ?_).trans ?_)
    | split
    | (simp [*]; done)
    | simp

@[simp] theorem State.sampleIn_keep (s : State) (k : Nat) (i : SampleIn) : (State.sampleIn s k i).keep = s.keep := by
  unfold State.sampleIn
  repeat' first
    | with_reducible rfl
    | intro _
    | with_reducible (refine (keeps_next _ _).2 ?_)
    | exact trivial
    | (simp; done)
    | with_reducible (refine (foldl_keep _ ?_ _ _).trans ?_)
    | with_reducible (refine (foldl_keep1 _ ?_ _ _).trans ?_)
    | with_reducible (refine (foldl_keep2 _ ?_ _ _).trans ?_)
    | with_reducible (refine (begin_keep _ _ _ _ ?_).trans ?_)
    | with_reducible (refine (beginRead_keep _ _ _ _ _ ?_).trans ?_)
    | with_reducible (refine (check_keep _ _ _ _ ?_).trans ?_)
    | split
    | (simp [*]; done)
    | simp

@[simp] theorem State.samplesIn_keep (s : State) (k : Nat) (l : List SampleIn) : (State.samplesIn s k l).keep = s.keep := by
  simp [State.samplesIn]

@[simp] theorem State.restartChains_keep (s : State) (k : Nat) (counted : Bool) : (State.restartChains s k counted).keep = s.keep := by
  unfold State.restartChains
  repeat' first | (simp; done) | split

theorem execSetChain_keep (job : Nat) (buf : BufRead) (s : State) : Keeps s (execSetChain job buf s) := by
  simp [execSetChain]

theorem execSetChannel_keep (job : Nat) (s : State) : Keeps s (execSetChannel job s) := by
  unfold execSetChannel
  repeat' first
    | with_reducible rfl
    | intro _
    | with_reducible (refine (keeps_next _ _).2 ?_)
    | exact trivial
    | (simp; done)
    | with_reducible (refine (foldl_keep _ ?_ _ _).trans ?_)
    | with_reducible (refine (foldl_keep1 _ ?_ _ _).trans ?_)
    | with_reducible (refine (foldl_keep2 _ ?_ _ _).trans ?_)
    | with_reducible (refine (begin_keep _ _ _ _ ?_).trans ?_)
    | with_reducible (refine (beginRead_keep _ _ _ _ _ ?_).trans ?_)
    | with_reducible (refine (check_keep _ _ _ _ ?_).trans ?_)
    | split
    | (simp [*]; done)
    | simp

theorem execQueryChannels_keep (job : Nat) (s : State) : Keeps s (execQueryChannels job s) := by
  unfold execQueryChannels
  repeat' first
    | with_reducible rfl
    | intro _
    | with_reducible (refine (keeps_next _ _).2 ?_)
    | exact trivial
    | (simp; done)
    | with_reducible (refine (foldl_keep _ ?_ _ _).trans ?_)
    | with_reducible (refine (foldl_keep1 _ ?_ _ _).trans ?_)
    | with_reducible (refine (foldl_keep2 _ ?_ _ _).trans ?_)
    | with_reducible (refine (begin_keep _ _ _ _ ?_).trans ?_)
    | with_reducible (refine (beginRead_keep _ _ _ _ _ ?_).trans ?_)
    | with_reducible (refine (check_keep _ _ _ _ ?_).trans ?_)
    | split
    | (simp [*]; done)
    | simp

/-! ### Accession -/

theorem execOpenStream_keep (job : Nat) (buf : BufRead) (s : State) : Keeps s (execOpenStream job buf s) := by
  simp [execOpenStream]

@[simp] theorem State.stopGraphOf_keep (s : State) (k : Nat) : (State.stopGraphOf s k).keep = s.keep := by
  simp [State.stopGraphOf]

theorem execCloseStream_keep (job : Nat) (s : State) : Keeps s (execCloseStream job s) := by
  unfold execCloseStream
  repeat' first
    | with_reducible rfl
    | intro _
    | with_reducible (refine (keeps_next _ _).2 ?_)
    | exact trivial
    | (simp; done)
    | with_reducible (refine (foldl_keep _ ?_ _ _).trans ?_)
    | with_reducible (refine (foldl_keep1 _ ?_ _ _).trans ?_)
    | with_reducible (refine (foldl_keep2 _ ?_ _ _).trans ?_)
    | with_reducible (refine (begin_keep _ _ _ _ ?_).trans ?_)
    | with_reducible (refine (beginRead_keep _ _ _ _ _ ?_).trans ?_)
    | with_reducible (refine (check_keep _ _ _ _ ?_).trans ?_)
    | split
    | (simp [*]; done)
    | simp

theorem execQueryStream_keep (job : Nat) (s : State) : Keeps s (execQueryStream job s) := by
  unfold execQueryStream
  repeat' first
    | with_reducible rfl
    | intro _
    | with_reducible (refine (keeps_next _ _).2 ?_)
    | exact trivial
    | (simp; done)
    | with_reducible (refine (foldl_keep _ ?_ _ _).trans ?_)
    | with_reducible (refine (foldl_keep1 _ ?_ _ _).trans ?_)
    | with_reducible (refine (foldl_keep2 _ ?_ _ _).trans ?_)
    | with_reducible (refine (begin_keep _ _ _ _ ?_).trans ?_)
    | with_reducible (refine (beginRead_keep _ _ _ _ _ ?_).trans ?_)
    | with_reducible (refine (check_keep _ _ _ _ ?_).trans ?_)
    | split
    | (simp [*]; done)
    | simp

@[simp] theorem State.countPacket_keep (s : State) (k : Nat) (x : Stream) (t : Nat) : (State.countPacket s k x t).keep = s.keep := by
  simp [State.countPacket]

@[simp] theorem State.takePacket_keep (s : State) (l kind : Nat) (k : Nat → Nat → Parsed → Bytes → State → State)
    (hk : ∀ a b c d s, (k a b c d s).keep = s.keep) : (s.takePacket l kind k).keep = s.keep := by
  unfold State.takePacket
  repeat' first
    | with_reducible rfl
    | intro _
    | with_reducible (refine (keeps_next _ _).2 ?_)
    | exact trivial
    | (simp; done)
    | with_reducible (refine (foldl_keep _ ?_ _ _).trans ?_)
    | with_reducible (refine (foldl_keep1 _ ?_ _ _).trans ?_)
    | with_reducible (refine (foldl_keep2 _ ?_ _ _).trans ?_)
    | with_reducible (refine (begin_keep _ _ _ _ ?_).trans ?_)
    | with_reducible (refine (beginRead_keep _ _ _ _ _ ?_).trans ?_)
    | with_reducible (refine (check_keep _ _ _ _ ?_).trans ?_)
    | split
    | (simp [*]; done)
    | simp
    | (refine (hk _ _ _ _ _).trans ?_)

@[simp] theorem State.countForced_keep (s : State) (k n : Nat) : (State.countForced s k n).keep = s.keep := by
  simp [State.countForced]

@[simp] theorem State.closeFrame_keep (s : State) (k : Nat) : (State.closeFrame s k).keep = s.keep := by
  unfold State.closeFrame
  repeat' first
    | with_reducible rfl
    | intro _
    | with_reducible (refine (keeps_next _ _).2 ?_)
    | exact trivial
    | (simp; done)
    | with_reducible (refine (foldl_keep _ ?_ _ _).trans ?_)
    | with_reducible (refine (foldl_keep1 _ ?_ _ _).trans ?_)
    | with_reducible (refine (foldl_keep2 _ ?_ _ _).trans ?_)
    | with_reducible (refine (begin_keep _ _ _ _ ?_).trans ?_)
    | with_reducible (refine (beginRead_keep _ _ _ _ _ ?_).trans ?_)
    | with_reducible (refine (check_keep _ _ _ _ ?_).trans ?_)
    | split
    | (simp [*]; done)
    | simp

@[simp] theorem State.bandEvent_keep (s : State) (k detail number : Nat) : (State.bandEvent s k detail number).keep = s.keep := by
  simp [State.bandEvent]

@[simp] theorem State.openBand_keep (s : State) (k : Nat) (x : Stream) : (State.openBand s k x).keep = s.keep := by
  simp [State.openBand]

@[simp] theorem State.openFrame_keep (s : State) (k : Nat) (t : Nat) (r : Rtp) (source : Nat) : (State.openFrame s k t r source).keep = s.keep := by
  unfold State.openFrame
  repeat' first
    | with_reducible rfl
    | intro _
    | with_reducible (refine (keeps_next _ _).2 ?_)
    | exact trivial
    | (simp; done)
    | with_reducible (refine (foldl_keep _ ?_ _ _).trans ?_)
    | with_reducible (refine (foldl_keep1 _ ?_ _ _).trans ?_)
    | with_reducible (refine (foldl_keep2 _ ?_ _ _).trans ?_)
    | with_reducible (refine (begin_keep _ _ _ _ ?_).trans ?_)
    | with_reducible (refine (beginRead_keep _ _ _ _ _ ?_).trans ?_)
    | with_reducible (refine (check_keep _ _ _ _ ?_).trans ?_)
    | split
    | (simp [*]; done)
    | simp

@[simp] theorem State.fillFrame_keep (s : State) (k t : Nat) (r : Rtp) (b : Bytes) (source : Nat) : (State.fillFrame s k t r b source).keep = s.keep := by
  unfold State.fillFrame
  repeat' first | (simp; done) | split

@[simp] theorem State.checkSsrc_keep (s : State) (k : Nat) (r : Rtp) (source : Nat) : (State.checkSsrc s k r source).keep = s.keep := by
  unfold State.checkSsrc
  repeat' first | (simp; done) | split

@[simp] theorem State.latePacket_keep (s : State) (k reason source : Nat) : (State.latePacket s k reason source).keep = s.keep := by
  simp [State.latePacket]

@[simp] theorem State.videoIn_keep (s : State) (k t : Nat) (p : Parsed) (b : Bytes) : (State.videoIn s k t p b).keep = s.keep := by
  unfold State.videoIn
  repeat' first
    | with_reducible rfl
    | intro _
    | with_reducible (refine (keeps_next _ _).2 ?_)
    | exact trivial
    | (simp; done)
    | with_reducible (refine (foldl_keep _ ?_ _ _).trans ?_)
    | with_reducible (refine (foldl_keep1 _ ?_ _ _).trans ?_)
    | with_reducible (refine (foldl_keep2 _ ?_ _ _).trans ?_)
    | with_reducible (refine (begin_keep _ _ _ _ ?_).trans ?_)
    | with_reducible (refine (beginRead_keep _ _ _ _ _ ?_).trans ?_)
    | with_reducible (refine (check_keep _ _ _ _ ?_).trans ?_)
    | split
    | (simp [*]; done)
    | simp

theorem execVideoPacket_keep (port : Nat) (s : State) : Keeps s (execVideoPacket port s) := by
  simp [execVideoPacket]

theorem execFrameMarkerGrace_keep (stream : Nat) (s : State) : Keeps s (execFrameMarkerGrace stream s) := by
  unfold execFrameMarkerGrace
  repeat' first | (simp; done) | split

theorem execFramePeriodTimeout_keep (stream : Nat) (s : State) : Keeps s (execFramePeriodTimeout stream s) := by
  unfold execFramePeriodTimeout
  repeat' first | (simp; done) | split

@[simp] theorem State.sampleIn'_keep (s : State) (k t : Nat) (p : Parsed) (b : Bytes) : (State.sampleIn' s k t p b).keep = s.keep := by
  unfold State.sampleIn'
  repeat' first | (simp; done) | split

theorem execSamplePacket_keep (port : Nat) (s : State) : Keeps s (execSamplePacket port s) := by
  simp [execSamplePacket]

@[simp] theorem State.closeSet_keep (s : State) (k : Nat) : (State.closeSet s k).keep = s.keep := by
  unfold State.closeSet
  repeat' first
    | with_reducible rfl
    | intro _
    | with_reducible (refine (keeps_next _ _).2 ?_)
    | exact trivial
    | (simp; done)
    | with_reducible (refine (foldl_keep _ ?_ _ _).trans ?_)
    | with_reducible (refine (foldl_keep1 _ ?_ _ _).trans ?_)
    | with_reducible (refine (foldl_keep2 _ ?_ _ _).trans ?_)
    | with_reducible (refine (begin_keep _ _ _ _ ?_).trans ?_)
    | with_reducible (refine (beginRead_keep _ _ _ _ _ ?_).trans ?_)
    | with_reducible (refine (check_keep _ _ _ _ ?_).trans ?_)
    | split
    | (simp [*]; done)
    | simp

@[simp] theorem State.openSet_keep (s : State) (k t : Nat) (b : Bytes) : (State.openSet s k t b).keep = s.keep := by
  unfold State.openSet
  repeat' first | (simp; done) | split

@[simp] theorem State.fillSet_keep (s : State) (k : Nat) (b : Bytes) (source : Nat) : (State.fillSet s k b source).keep = s.keep := by
  unfold State.fillSet
  repeat' first | (simp; done) | split

@[simp] theorem State.pointIn_keep (s : State) (k t : Nat) (p : Parsed) (b : Bytes) : (State.pointIn s k t p b).keep = s.keep := by
  unfold State.pointIn
  repeat' first | (simp; done) | split

theorem execPointPacket_keep (port : Nat) (s : State) : Keeps s (execPointPacket port s) := by
  simp [execPointPacket]

theorem execPointSetTimeout_keep (stream : Nat) (s : State) : Keeps s (execPointSetTimeout stream s) := by
  unfold execPointSetTimeout
  repeat' first | (simp; done) | split

theorem execFrameBufferRelease_keep (stream buffer : Nat) (s : State) : Keeps s (execFrameBufferRelease stream buffer s) := by
  unfold execFrameBufferRelease
  repeat' first | (simp; done) | split

theorem execStreamSilent_keep (stream : Nat) (s : State) : Keeps s (execStreamSilent stream s) := by
  unfold execStreamSilent
  repeat' first | (simp; done) | split

end Sys2Proof.Machine
end

