-- ==== Sys2Proof/Laws/KeepDesk.lean ====
section
/-! SUPPORT. The queue and the held accesses: what the Bell and the steps of the carrels do leaves them alone. -/
namespace Sys2Proof.Machine
set_option linter.all false

/-! ### Bell -/

@[simp] theorem State.modBell_keep (s : State) (f : Bell → Bell) : (State.modBell s f).keep = s.keep := by
  simp [State.modBell]

theorem execRaiseMessage_keep (source : Nat) (s : State) : Keeps s (execRaiseMessage source s) := by
  simp [execRaiseMessage]

@[simp] theorem State.raiseWord_keep (s : State) (word : Nat) : (State.raiseWord s word).keep = s.keep := by
  simp [State.raiseWord]

@[simp] theorem State.releaseSource_keep (s : State) (n how : Nat) : (State.releaseSource s n how).keep = s.keep := by
  simp [State.releaseSource]

theorem execStormWindowEnd_keep (source : Nat) (s : State) : Keeps s (execStormWindowEnd source s) := by
  simp [execStormWindowEnd]

theorem execStormHoldExpiry_keep (source : Nat) (s : State) : Keeps s (execStormHoldExpiry source s) := by
  simp [execStormHoldExpiry]

@[simp] theorem State.clearStormed_keep (s : State) (firmware : Bool) (word value : Nat) : (State.clearStormed s firmware word value).keep = s.keep := by
  simp [State.clearStormed]

theorem execStormLimitAdapt_keep (core : Bool) (number : Nat) (s : State) : Keeps s (execStormLimitAdapt core number s) := by
  unfold execStormLimitAdapt
  repeat' first
    | with_reducible rfl
    | intro _
    | with_reducible (refine (keeps_next _ _).2 ?_)
    | exact trivial
    | (simp; done)
    | with_reducible (refine (foldl_keep _ ?_ _ _).trans ?_)
    | with_reducible (refine (foldl_keep1 _ ?_ _ _).trans ?_)
    | with_reducible (refine (foldl_keep2 _ ?_ _ _).trans ?_)
    | with_reducible (refine (begin_keep _ _ _ _ ?_).trans ?_)
    | with_reducible (refine (beginRead_keep _ _ _ _ _ ?_).trans ?_)
    | with_reducible (refine (check_keep _ _ _ _ ?_).trans ?_)
    | split
    | (simp [*]; done)
    | simp

theorem execMsixDelivery_keep (s : State) : Keeps s (execMsixDelivery s) := by
  unfold execMsixDelivery
  repeat' first
    | with_reducible rfl
    | intro _
    | with_reducible (refine (keeps_next _ _).2 ?_)
    | exact trivial
    | (simp; done)
    | with_reducible (refine (foldl_keep _ ?_ _ _).trans ?_)
    | with_reducible (refine (foldl_keep1 _ ?_ _ _).trans ?_)
    | with_reducible (refine (foldl_keep2 _ ?_ _ _).trans ?_)
    | with_reducible (refine (begin_keep _ _ _ _ ?_).trans ?_)
    | with_reducible (refine (beginRead_keep _ _ _ _ _ ?_).trans ?_)
    | with_reducible (refine (check_keep _ _ _ _ ?_).trans ?_)
    | split
    | (simp [*]; done)
    | simp

@[simp] theorem State.unmaskVector_keep (s : State) (vector : Nat) : (State.unmaskVector s vector).keep = s.keep := by
  simp [State.unmaskVector]

@[simp] theorem sendAll_keep (n : Nat) (s : State) : (sendAll n s).keep = s.keep := by
  induction n generalizing s with
  | zero => unfold sendAll; with_reducible rfl
  | succ n ih =>
  unfold sendAll
  repeat' first
    | with_reducible rfl
    | intro _
    | with_reducible (refine (keeps_next _ _).2 ?_)
    | exact trivial
    | (simp [ih]; done)
    | with_reducible (refine (foldl_keep _ ?_ _ _).trans ?_)
    | with_reducible (refine (foldl_keep1 _ ?_ _ _).trans ?_)
    | with_reducible (refine (foldl_keep2 _ ?_ _ _).trans ?_)
    | with_reducible (refine (begin_keep _ _ _ _ ?_).trans ?_)
    | with_reducible (refine (beginRead_keep _ _ _ _ _ ?_).trans ?_)
    | with_reducible (refine (check_keep _ _ _ _ ?_).trans ?_)
    | split
    | (simp [*]; done)
    | simp

theorem execFunctionBackInD0_keep (s : State) : Keeps s (execFunctionBackInD0 s) := by
  simp [execFunctionBackInD0]

theorem execClaim_keep (core : Nat) (s : State) : Keeps s (execClaim core s) := by
  simp [execClaim]

theorem execThresholdWrite_keep (core value : Nat) (s : State) : Keeps s (execThresholdWrite core value s) := by
  simp [execThresholdWrite]

theorem execThresholdExit_keep (core value : Nat) (s : State) : Keeps s (execThresholdExit core value s) := by
  simp [execThresholdExit]

theorem execComplete_keep (core source : Nat) (s : State) : Keeps s (execComplete core source s) := by
  unfold execComplete
  repeat' first | (simp; done) | split

theorem execCoreWake_keep (core : Nat) (s : State) : Keeps s (execCoreWake core s) := by
  simp [execCoreWake]

theorem execInServiceTimeout_keep (core source : Nat) (s : State) : Keeps s (execInServiceTimeout core source s) := by
  simp [execInServiceTimeout]

@[simp] theorem State.dropWrite_keep (s : State) : (State.dropWrite s).keep = s.keep := by
  simp [State.dropWrite]

@[simp] theorem State.writeSource_keep (s : State) (source word value : Nat) : (State.writeSource s source word value).keep = s.keep := by
  simp [State.writeSource]

/-! ### StageOps -/

@[simp] theorem State.loadTensor_keep (s : State) (c : Nat) (t : Tensor) (rows cols : Nat) : (State.loadTensor s c t rows cols).2.keep = s.keep := by
  unfold State.loadTensor
  repeat' first
    | with_reducible rfl
    | intro _
    | with_reducible (refine (keeps_next _ _).2 ?_)
    | exact trivial
    | (simp; done)
    | with_reducible (refine (foldl_keep _ ?_ _ _).trans ?_)
    | with_reducible (refine (foldl_keep1 _ ?_ _ _).trans ?_)
    | with_reducible (refine (foldl_keep2 _ ?_ _ _).trans ?_)
    | with_reducible (refine (begin_keep _ _ _ _ ?_).trans ?_)
    | with_reducible (refine (beginRead_keep _ _ _ _ _ ?_).trans ?_)
    | with_reducible (refine (check_keep _ _ _ _ ?_).trans ?_)
    | split
    | (simp [*]; done)
    | simp

@[simp] theorem State.storeTensor_keep (s : State) (ctx : StepCtx) (t : Tensor) (site : Option Nat) (place : Span) (cols : Nat) (rows : List (List FP)) (marks : List (List Bool)) : (State.storeTensor s ctx t site place cols rows marks).1.keep = s.keep := by
  unfold State.storeTensor
  repeat' first | (simp; done) | split

@[simp] theorem State.runArray_keep (s : State) (ctx : StepCtx) (a b : Tensor) (m n k : Nat) (bias site : Option Nat) (out : Tensor) (place : Span) : (State.runArray s ctx a b m n k bias site out place).1.keep = s.keep := by
  unfold State.runArray
  repeat' first | (simp; done) | split

@[simp] theorem State.runVector_keep (s : State) (ctx : StepCtx) (fn : VecFn) (count : Nat) (x y z : Tensor) (site : Option Nat) (out : Tensor) (place : Span) : (State.runVector s ctx fn count x y z site out place).1.keep = s.keep := by
  unfold State.runVector
  repeat' first
    | with_reducible rfl
    | intro _
    | with_reducible (refine (keeps_next _ _).2 ?_)
    | exact trivial
    | (simp; done)
    | with_reducible (refine (foldl_keep _ ?_ _ _).trans ?_)
    | with_reducible (refine (foldl_keep1 _ ?_ _ _).trans ?_)
    | with_reducible (refine (foldl_keep2 _ ?_ _ _).trans ?_)
    | with_reducible (refine (begin_keep _ _ _ _ ?_).trans ?_)
    | with_reducible (refine (beginRead_keep _ _ _ _ _ ?_).trans ?_)
    | with_reducible (refine (check_keep _ _ _ _ ?_).trans ?_)
    | split
    | (simp [*]; done)
    | simp

@[simp] theorem State.runConvert_keep (s : State) (ctx : StepCtx) (count : Nat) (x : Tensor) (site : Option Nat) (out : Tensor) (place : Span) : (State.runConvert s ctx count x site out place).1.keep = s.keep := by
  simp [State.runConvert]

@[simp] theorem State.runAcross_keep (s : State) (ctx : StepCtx) (count : Nat) (fmt : OpFmt) (parts : List Nat) (out : Nat) : (State.runAcross s ctx count fmt parts out).1.keep = s.keep := by
  simp [State.runAcross]

@[simp] theorem State.runLane_keep (s : State) (ctx : StepCtx) (fn : VecFn) (count x y z out : Nat) : (State.runLane s ctx fn count x y z out).1.keep = s.keep := by
  unfold State.runLane
  repeat' first
    | with_reducible rfl
    | intro _
    | with_reducible (refine (keeps_next _ _).2 ?_)
    | exact trivial
    | (simp; done)
    | with_reducible (refine (foldl_keep _ ?_ _ _).trans ?_)
    | with_reducible (refine (foldl_keep1 _ ?_ _ _).trans ?_)
    | with_reducible (refine (foldl_keep2 _ ?_ _ _).trans ?_)
    | with_reducible (refine (begin_keep _ _ _ _ ?_).trans ?_)
    | with_reducible (refine (beginRead_keep _ _ _ _ _ ?_).trans ?_)
    | with_reducible (refine (check_keep _ _ _ _ ?_).trans ?_)
    | split
    | (simp [*]; done)
    | simp

@[simp] theorem State.runFlow_keep (s : State) (ctx : StepCtx) (w : FlowWork) : (State.runFlow s ctx w).1.keep = s.keep := by
  unfold State.runFlow
  repeat' first
    | with_reducible rfl
    | intro _
    | with_reducible (refine (keeps_next _ _).2 ?_)
    | exact trivial
    | (simp; done)
    | with_reducible (refine (foldl_keep _ ?_ _ _).trans ?_)
    | with_reducible (refine (foldl_keep1 _ ?_ _ _).trans ?_)
    | with_reducible (refine (foldl_keep2 _ ?_ _ _).trans ?_)
    | with_reducible (refine (begin_keep _ _ _ _ ?_).trans ?_)
    | with_reducible (refine (beginRead_keep _ _ _ _ _ ?_).trans ?_)
    | with_reducible (refine (check_keep _ _ _ _ ?_).trans ?_)
    | split
    | (simp [*]; done)
    | simp

@[simp] theorem State.runStackLoad_keep (s : State) (ctx : StepCtx) (r : StackRange) (offset bytes addr : Nat) : (State.runStackLoad s ctx r offset bytes addr).1.keep = s.keep := by
  unfold State.runStackLoad
  repeat' first
    | with_reducible rfl
    | intro _
    | with_reducible (refine (keeps_next _ _).2 ?_)
    | exact trivial
    | (simp; done)
    | with_reducible (refine (foldl_keep _ ?_ _ _).trans ?_)
    | with_reducible (refine (foldl_keep1 _ ?_ _ _).trans ?_)
    | with_reducible (refine (foldl_keep2 _ ?_ _ _).trans ?_)
    | with_reducible (refine (begin_keep _ _ _ _ ?_).trans ?_)
    | with_reducible (refine (beginRead_keep _ _ _ _ _ ?_).trans ?_)
    | with_reducible (refine (check_keep _ _ _ _ ?_).trans ?_)
    | split
    | (simp [*]; done)
    | simp

@[simp] theorem State.runStackStore_keep (s : State) (ctx : StepCtx) (r : StackRange) (offset addr bytes : Nat) :
    (s.runStackStore ctx r offset addr bytes).1.keep = s.keep := by
  unfold State.runStackStore
  extract_lets mayWrite d
  split
  · rfl
  · split
    · rfl
    · rw [State.writeScratch_keep]
      exact State.readMarked_keep _ _ _ _

@[simp] theorem State.runStream_keep (s : State) (ctx : StepCtx) (offset bytes addr : Nat) : (State.runStream s ctx offset bytes addr).1.keep = s.keep := by
  simp [State.runStream]

@[simp] theorem State.runOp_keep (s : State) (kind : Nat) (ctx : StepCtx) (o : StepOp) : (State.runOp s kind ctx o).1.keep = s.keep := by
  unfold State.runOp
  repeat' first
    | with_reducible rfl
    | intro _
    | with_reducible (refine (keeps_next _ _).2 ?_)
    | exact trivial
    | (simp; done)
    | with_reducible (refine (foldl_keep _ ?_ _ _).trans ?_)
    | with_reducible (refine (foldl_keep1 _ ?_ _ _).trans ?_)
    | with_reducible (refine (foldl_keep2 _ ?_ _ _).trans ?_)
    | with_reducible (refine (begin_keep _ _ _ _ ?_).trans ?_)
    | with_reducible (refine (beginRead_keep _ _ _ _ _ ?_).trans ?_)
    | with_reducible (refine (check_keep _ _ _ _ ?_).trans ?_)
    | split
    | (simp [*]; done)
    | simp

@[simp] theorem State.runOps_keep (s : State) (kind : Nat) (ctx : StepCtx) (l : List StepOp) : (s.runOps kind ctx l).1.keep = s.keep := by
  induction l generalizing s ctx with
  | nil => unfold State.runOps; with_reducible rfl
  | cons a l ih =>
  unfold State.runOps
  repeat' first
    | with_reducible rfl
    | intro _
    | with_reducible (refine (keeps_next _ _).2 ?_)
    | exact trivial
    | (simp [ih]; done)
    | with_reducible (refine (foldl_keep _ ?_ _ _).trans ?_)
    | with_reducible (refine (foldl_keep1 _ ?_ _ _).trans ?_)
    | with_reducible (refine (foldl_keep2 _ ?_ _ _).trans ?_)
    | with_reducible (refine (begin_keep _ _ _ _ ?_).trans ?_)
    | with_reducible (refine (beginRead_keep _ _ _ _ _ ?_).trans ?_)
    | with_reducible (refine (check_keep _ _ _ _ ?_).trans ?_)
    | split
    | (simp [*]; done)
    | simp

/-! ### Carrels -/

theorem execWordWriteBack_keep (place : WordPlace) (s : State) : Keeps s (execWordWriteBack place s) := by
  unfold execWordWriteBack
  repeat' first | (simp; done) | split

theorem execStackRefresh_keep (_vault : Nat) (s : State) : Keeps s (execStackRefresh _vault s) := by
  simp [execStackRefresh]

@[simp] theorem State.countStep_keep (s : State) (b : Bound) (run : Option Nat) (ev : Events) : (State.countStep s b run ev).keep = s.keep := by
  unfold State.countStep
  repeat' first | (simp; done) | split

@[simp] theorem State.returnCredits_keep (s : State) (b : Bound) (l : List (InPort × Token)) : (State.returnCredits s b l).keep = s.keep := by
  unfold State.returnCredits
  repeat' first
    | with_reducible rfl
    | intro _
    | with_reducible (refine (keeps_next _ _).2 ?_)
    | exact trivial
    | (simp; done)
    | with_reducible (refine (foldl_keep _ ?_ _ _).trans ?_)
    | with_reducible (refine (foldl_keep1 _ ?_ _ _).trans ?_)
    | with_reducible (refine (foldl_keep2 _ ?_ _ _).trans ?_)
    | with_reducible (refine (begin_keep _ _ _ _ ?_).trans ?_)
    | with_reducible (refine (beginRead_keep _ _ _ _ _ ?_).trans ?_)
    | with_reducible (refine (check_keep _ _ _ _ ?_).trans ?_)
    | split
    | (simp [*]; done)
    | simp

@[simp] theorem State.settleInputs_keep (s : State) (c : Nat) : (State.settleInputs s c).keep = s.keep := by
  unfold State.settleInputs
  repeat' first
    | with_reducible rfl
    | intro _
    | with_reducible (refine (keeps_next _ _).2 ?_)
    | exact trivial
    | (simp; done)
    | with_reducible (refine (foldl_keep _ ?_ _ _).trans ?_)
    | with_reducible (refine (foldl_keep1 _ ?_ _ _).trans ?_)
    | with_reducible (refine (foldl_keep2 _ ?_ _ _).trans ?_)
    | with_reducible (refine (begin_keep _ _ _ _ ?_).trans ?_)
    | with_reducible (refine (beginRead_keep _ _ _ _ _ ?_).trans ?_)
    | with_reducible (refine (check_keep _ _ _ _ ?_).trans ?_)
    | split
    | (simp [*]; done)
    | simp

@[simp] theorem State.unplace_keep (s : State) (x : Carrel) : (State.unplace s x).keep = s.keep := by
  unfold State.unplace
  repeat' first | (simp; done) | split

theorem execCarrelWake_keep (carrel : Nat) (s : State) : Keeps s (execCarrelWake carrel s) := by
  unfold execCarrelWake
  repeat' first
    | with_reducible rfl
    | intro _
    | with_reducible (refine (keeps_next _ _).2 ?_)
    | exact trivial
    | (simp; done)
    | with_reducible (refine (foldl_keep _ ?_ _ _).trans ?_)
    | with_reducible (refine (foldl_keep1 _ ?_ _ _).trans ?_)
    | with_reducible (refine (foldl_keep2 _ ?_ _ _).trans ?_)
    | with_reducible (refine (begin_keep _ _ _ _ ?_).trans ?_)
    | with_reducible (refine (beginRead_keep _ _ _ _ _ ?_).trans ?_)
    | with_reducible (refine (check_keep _ _ _ _ ?_).trans ?_)
    | split
    | (simp [*]; done)
    | simp

theorem execCarrelGate_keep (carrel : Nat) (s : State) : Keeps s (execCarrelGate carrel s) := by
  unfold execCarrelGate
  repeat' first
    | with_reducible rfl
    | intro _
    | with_reducible (refine (keeps_next _ _).2 ?_)
    | exact trivial
    | (simp; done)
    | with_reducible (refine (foldl_keep _ ?_ _ _).trans ?_)
    | with_reducible (refine (foldl_keep1 _ ?_ _ _).trans ?_)
    | with_reducible (refine (foldl_keep2 _ ?_ _ _).trans ?_)
    | with_reducible (refine (begin_keep _ _ _ _ ?_).trans ?_)
    | with_reducible (refine (beginRead_keep _ _ _ _ _ ?_).trans ?_)
    | with_reducible (refine (check_keep _ _ _ _ ?_).trans ?_)
    | split
    | (simp [*]; done)
    | simp

theorem execStageUnbind_keep (carrel : Nat) (s : State) : Keeps s (execStageUnbind carrel s) := by
  simp [execStageUnbind]

theorem execCarrelRelease_keep (carrel : Nat) (testPass : Bool) (s : State) : Keeps s (execCarrelRelease carrel testPass s) := by
  simp [execCarrelRelease]

theorem execCarrelRetire_keep (carrel : Nat) (s : State) : Keeps s (execCarrelRetire carrel s) := by
  simp [execCarrelRetire]

end Sys2Proof.Machine
end

