-- ==== Sys2Proof/Laws/KeepMap.lean ====
section
/-! SUPPORT. The queue and the held accesses: what the flash, the map and the Collator do leaves them alone. -/
namespace Sys2Proof.Machine
set_option linter.all false

/-! ### Flash -/

@[simp] theorem State.modCat_keep (s : State) (f : Catalogue → Catalogue) : (State.modCat s f).keep = s.keep := by
  simp [State.modCat]

@[simp] theorem State.modEngine_keep (s : State) (e : Nat) (f : Engine → Engine) : (State.modEngine s e f).keep = s.keep := by
  simp [State.modEngine]

theorem State.takeBlock_keep {s : State} {e b : Nat} {t : State} (h : s.takeBlock e = some (b, t)) : t.keep = s.keep := by
  unfold State.takeBlock at h
  revert h
  dsimp only
  repeat' first
    | intro h; injection h with h; injection h with h1 h2; subst h2; simp; done
    | intro h; injection h with h; subst h; simp; done
    | (intro h; simp at h; done)
    | intro h; injection h with h; injection h with h1 h2; subst h2; with_reducible refine (foldl_keep2 _ ?_ _ _).trans ?_
    | intro h; injection h with h; subst h; with_reducible refine (foldl_keep _ ?_ _ _).trans ?_
    | with_reducible (refine (foldl_keep _ ?_ _ _).trans ?_)
    | with_reducible rfl
    | rw [State.takeBlock_keep ‹_›]
    | rw [State.appendPage_keep ‹_›]
    | rw [State.takeLogPage_keep ‹_›]
    | split
    | simp
    | intro _

@[simp] theorem State.program_keep (s : State) (e b page : Nat) (d : Bytes) : (State.program s e b page d).keep = s.keep := by
  simp [State.program]

theorem State.appendPage_keep {s : State} {e : Nat} {d : Bytes} {b : Nat} {t : State} (h : s.appendPage e d = some (b, t)) : t.keep = s.keep := by
  unfold State.appendPage at h
  dsimp only at h
  split at h
  · split at h
    · injection h with h; injection h with _ h; subst h; simp
    · split at h
      · cases h
      · injection h with h; injection h with _ h; subst h; simp [State.takeBlock_keep ‹_›]
  · split at h
    · cases h
    · injection h with h; injection h with _ h; subst h; simp [State.takeBlock_keep ‹_›]

@[simp] theorem State.written_keep (s : State) (since bytes : Nat) : (State.written s since bytes).keep = s.keep := by
  simp [State.written]

@[simp] theorem State.judgeSpare_keep (s : State) : (State.judgeSpare s).keep = s.keep := by
  unfold State.judgeSpare
  repeat' first | (simp; done) | split

@[simp] theorem State.retireBlock_keep (s : State) (e b detail : Nat) : (State.retireBlock s e b detail).keep = s.keep := by
  simp [State.retireBlock]

@[simp] theorem State.shelfViolation_keep (s : State) (e reason ce lun row : Nat) : (State.shelfViolation s e reason ce lun row).keep = s.keep := by
  simp [State.shelfViolation]

@[simp] theorem State.writeLog_keep (s : State) : s.writeLog.keep = s.keep := by
  unfold State.writeLog
  dsimp only
  split
  · rfl
  · split
    · rfl
    · split
      · rfl
      · simp [State.appendPage_keep ‹_›]

@[simp] theorem State.logAppend_keep (s : State) (r : LogRec) : (State.logAppend s r).keep = s.keep := by
  simp [State.logAppend]

@[simp] theorem State.answerAsked_keep (s : State) : (State.answerAsked s).keep = s.keep := by
  simp [State.answerAsked]

@[simp] theorem State.endDurable_keep (s : State) : (State.endDurable s).keep = s.keep := by
  simp [State.endDurable]

theorem execAddendaLogFlush_keep (s : State) : Keeps s (execAddendaLogFlush s) := by
  simp [execAddendaLogFlush]

@[simp] theorem State.unreadNodes_keep (s : State) (shard : Nat) (ids : List Nat) : (State.unreadNodes s shard ids).keep = s.keep := by
  simp [State.unreadNodes]

theorem execNandReadEnd_keep (engine block page retries : Nat) (failed : List Nat) (trailer : Bool) (s : State) : Keeps s (execNandReadEnd engine block page retries failed trailer s) := by
  unfold execNandReadEnd
  repeat' first
    | with_reducible rfl
    | intro _
    | with_reducible (refine (keeps_next _ _).2 ?_)
    | exact trivial
    | (simp; done)
    | with_reducible (refine (foldl_keep _ ?_ _ _).trans ?_)
    | with_reducible (refine (foldl_keep1 _ ?_ _ _).trans ?_)
    | with_reducible (refine (foldl_keep2 _ ?_ _ _).trans ?_)
    | with_reducible (refine (begin_keep _ _ _ _ ?_).trans ?_)
    | with_reducible (refine (beginRead_keep _ _ _ _ _ ?_).trans ?_)
    | with_reducible (refine (check_keep _ _ _ _ ?_).trans ?_)
    | split
    | (simp [*]; done)
    | rw [State.takeBlock_keep ‹_›]
    | rw [State.appendPage_keep ‹_›]
    | rw [State.takeLogPage_keep ‹_›]

    | simp

@[simp] theorem State.redoSegment_keep (s : State) (e b : Nat) : (State.redoSegment s e b).keep = s.keep := by
  unfold State.redoSegment
  repeat' first
    | with_reducible rfl
    | intro _
    | with_reducible (refine (keeps_next _ _).2 ?_)
    | exact trivial
    | (simp; done)
    | with_reducible (refine (foldl_keep _ ?_ _ _).trans ?_)
    | with_reducible (refine (foldl_keep1 _ ?_ _ _).trans ?_)
    | with_reducible (refine (foldl_keep2 _ ?_ _ _).trans ?_)
    | with_reducible (refine (begin_keep _ _ _ _ ?_).trans ?_)
    | with_reducible (refine (beginRead_keep _ _ _ _ _ ?_).trans ?_)
    | with_reducible (refine (check_keep _ _ _ _ ?_).trans ?_)
    | split
    | (simp [*]; done)
    | rw [State.takeBlock_keep ‹_›]
    | rw [State.appendPage_keep ‹_›]
    | rw [State.takeLogPage_keep ‹_›]

    | simp

theorem State.takeLogPage_keep {s : State} {e b : Nat} {p : LogPage} {t : State} (h : s.takeLogPage e b = some (p, t)) : t.keep = s.keep := by
  unfold State.takeLogPage at h
  split at h
  · cases h
  · injection h with h; injection h with _ h; subst h; simp

theorem execNandProgramEnd_keep (engine block : Nat) (ok : Bool) (s : State) : Keeps s (execNandProgramEnd engine block ok s) := by
  unfold execNandProgramEnd
  refine (keeps_next _ _).2 ?_
  extract_lets x
  split
  · rfl
  · extract_lets s1 s2
    have h1 : s1.keep = s.keep := by simp [s1]
    have h2 : s2.keep = s.keep := by simp [s2, h1]
    split
    · split
      · exact h1
      · simp [State.takeLogPage_keep ‹_›, h1]
    · split
      · simp [State.takeLogPage_keep ‹_›, h2]
      · simp [h2]

theorem execNandEraseEnd_keep (engine block : Nat) (ok : Bool) (s : State) : Keeps s (execNandEraseEnd engine block ok s) := by
  unfold execNandEraseEnd
  repeat' first
    | with_reducible rfl
    | intro _
    | with_reducible (refine (keeps_next _ _).2 ?_)
    | exact trivial
    | (simp; done)
    | with_reducible (refine (foldl_keep _ ?_ _ _).trans ?_)
    | with_reducible (refine (foldl_keep1 _ ?_ _ _).trans ?_)
    | with_reducible (refine (foldl_keep2 _ ?_ _ _).trans ?_)
    | with_reducible (refine (begin_keep _ _ _ _ ?_).trans ?_)
    | with_reducible (refine (beginRead_keep _ _ _ _ _ ?_).trans ?_)
    | with_reducible (refine (check_keep _ _ _ _ ?_).trans ?_)
    | split
    | (simp [*]; done)
    | rw [State.takeBlock_keep ‹_›]
    | rw [State.appendPage_keep ‹_›]
    | rw [State.takeLogPage_keep ‹_›]

    | simp

@[simp] theorem State.lunOut_keep (s : State) (e ce lun : Nat) : (State.lunOut s e ce lun).keep = s.keep := by
  unfold State.lunOut
  repeat' first
    | with_reducible rfl
    | intro _
    | with_reducible (refine (keeps_next _ _).2 ?_)
    | exact trivial
    | (simp; done)
    | with_reducible (refine (foldl_keep _ ?_ _ _).trans ?_)
    | with_reducible (refine (foldl_keep1 _ ?_ _ _).trans ?_)
    | with_reducible (refine (foldl_keep2 _ ?_ _ _).trans ?_)
    | with_reducible (refine (begin_keep _ _ _ _ ?_).trans ?_)
    | with_reducible (refine (beginRead_keep _ _ _ _ _ ?_).trans ?_)
    | with_reducible (refine (check_keep _ _ _ _ ?_).trans ?_)
    | split
    | (simp [*]; done)
    | rw [State.takeBlock_keep ‹_›]
    | rw [State.appendPage_keep ‹_›]
    | rw [State.takeLogPage_keep ‹_›]

    | simp

theorem execNandBusyTimeout_keep (engine ce lun : Nat) (s : State) : Keeps s (execNandBusyTimeout engine ce lun s) := by
  unfold execNandBusyTimeout
  repeat' first | (simp; done) | split

@[simp] theorem State.enterDelete_keep (s : State) (id : Nat) : (State.enterDelete s id).keep = s.keep := by
  simp [State.enterDelete]

@[simp] theorem takeDeletes_keep (n : Nat) (d : WaitingDelete) (s : State) : (takeDeletes n d s).2.keep = s.keep := by
  induction n generalizing d s with
  | zero => unfold takeDeletes; with_reducible rfl
  | succ n ih =>
  unfold takeDeletes
  repeat' first
    | with_reducible rfl
    | intro _
    | with_reducible (refine (keeps_next _ _).2 ?_)
    | exact trivial
    | (simp [ih]; done)
    | with_reducible (refine (foldl_keep _ ?_ _ _).trans ?_)
    | with_reducible (refine (foldl_keep1 _ ?_ _ _).trans ?_)
    | with_reducible (refine (foldl_keep2 _ ?_ _ _).trans ?_)
    | with_reducible (refine (begin_keep _ _ _ _ ?_).trans ?_)
    | with_reducible (refine (beginRead_keep _ _ _ _ _ ?_).trans ?_)
    | with_reducible (refine (check_keep _ _ _ _ ?_).trans ?_)
    | split
    | (simp [*]; done)
    | rw [State.takeBlock_keep ‹_›]
    | rw [State.appendPage_keep ‹_›]
    | rw [State.takeLogPage_keep ‹_›]

    | simp

@[simp] theorem State.deleteVectors_keep (s : State) (ids : List Nat) : (State.deleteVectors s ids).keep = s.keep := by
  simp [State.deleteVectors]

/-! ### MapRec -/

@[simp] theorem State.modMap_keep (s : State) (f : MapSt → MapSt) : (State.modMap s f).keep = s.keep := by
  simp [State.modMap]

@[simp] theorem State.modEdit_keep (s : State) (n : Nat) (f : Edit → Edit) : (State.modEdit s n f).keep = s.keep := by
  unfold State.modEdit
  repeat' first | (simp; done) | split

/-! ### Edits -/

@[simp] theorem State.mapEvent_keep (s : State) (edit : Option Nat) (e : EventIn) : (State.mapEvent s edit e).keep = s.keep := by
  unfold State.mapEvent
  repeat' first
    | with_reducible rfl
    | intro _
    | with_reducible (refine (keeps_next _ _).2 ?_)
    | exact trivial
    | (simp; done)
    | with_reducible (refine (foldl_keep _ ?_ _ _).trans ?_)
    | with_reducible (refine (foldl_keep1 _ ?_ _ _).trans ?_)
    | with_reducible (refine (foldl_keep2 _ ?_ _ _).trans ?_)
    | with_reducible (refine (begin_keep _ _ _ _ ?_).trans ?_)
    | with_reducible (refine (beginRead_keep _ _ _ _ _ ?_).trans ?_)
    | with_reducible (refine (check_keep _ _ _ _ ?_).trans ?_)
    | split
    | (simp [*]; done)
    | rw [State.takeBlock_keep ‹_›]
    | rw [State.appendPage_keep ‹_›]
    | rw [State.takeLogPage_keep ‹_›]
    | rw [State.newSheets_keep ‹_›]

    | simp

@[simp] theorem State.mapEventAll_keep (s : State) (edits : List Nat) (e : EventIn) : (State.mapEventAll s edits e).keep = s.keep := by
  simp [State.mapEventAll]

@[simp] theorem State.dropEditions_keep (s : State) : (State.dropEditions s).keep = s.keep := by
  simp [State.dropEditions]

@[simp] theorem State.settleCopies_keep (s : State) : (State.settleCopies s).keep = s.keep := by
  simp [State.settleCopies]

@[simp] theorem State.fixEdition_keep (s : State) (key n : Nat) : (State.fixEdition s key n).keep = s.keep := by
  simp [State.fixEdition]

@[simp] theorem State.freeEdition_keep (s : State) (key : Nat) : (State.freeEdition s key).keep = s.keep := by
  simp [State.freeEdition]

@[simp] theorem State.nextEdit_keep (s : State) : (State.nextEdit s).2.keep = s.keep := by
  simp [State.nextEdit]

theorem State.newSheets_keep {s : State} {l : List Nat} {t : State} (h : s.newSheets l = some t) : t.keep = s.keep := by
  induction l generalizing s with
  | nil => unfold State.newSheets at h; injection h with h; rw [h]
  | cons a l ih =>
    unfold State.newSheets at h
    dsimp only at h
    split at h
    · exact ih h
    · split at h
      · injection h
      · split at h
        · injection h
        · rw [ih h]; simp

@[simp] theorem State.place_keep (s : State) (t : Trial) : (State.place s t).1.keep = s.keep := by
  unfold State.place
  repeat' first
    | with_reducible rfl
    | intro _
    | with_reducible (refine (keeps_next _ _).2 ?_)
    | exact trivial
    | (simp; done)
    | with_reducible (refine (foldl_keep _ ?_ _ _).trans ?_)
    | with_reducible (refine (foldl_keep1 _ ?_ _ _).trans ?_)
    | with_reducible (refine (foldl_keep2 _ ?_ _ _).trans ?_)
    | with_reducible (refine (begin_keep _ _ _ _ ?_).trans ?_)
    | with_reducible (refine (beginRead_keep _ _ _ _ _ ?_).trans ?_)
    | with_reducible (refine (check_keep _ _ _ _ ?_).trans ?_)
    | split
    | (simp [*]; done)
    | rw [State.takeBlock_keep ‹_›]
    | rw [State.appendPage_keep ‹_›]
    | rw [State.takeLogPage_keep ‹_›]
    | rw [State.newSheets_keep ‹_›]

    | simp

@[simp] theorem State.addEdit_keep (s : State) (n : Nat) (e : Edit) (nextId : Nat) : (State.addEdit s n e nextId).keep = s.keep := by
  simp [State.addEdit]

@[simp] theorem State.deviceEdit_keep (s : State) (verdict : Nat) (writes : List MapWrite) (nextId : Nat) (loop : Option LoopWork)
    (eventQueue : Nat) (job : Option Nat) (after : List Nat) :
    (s.deviceEdit verdict writes nextId loop eventQueue job after).2.keep = s.keep := by
  unfold State.deviceEdit
  extract_lets dep chain t
  split
  · rfl
  · split
    · rfl
    · split
      · next heq => exact fst_keep heq (State.place_keep _ _)
      · next heq =>
        rw [State.addEdit_keep, State.nextEdit_keep]
        exact fst_keep heq (State.place_keep _ _)

@[simp] theorem State.reviseEdit_keep (s : State) (n : Nat) (ws : List MapWrite) : (s.reviseEdit n ws).1.keep = s.keep := by
  unfold State.reviseEdit
  split
  · rfl
  · extract_lets writes t
    split
    · rfl
    · split
      · next heq =>
        rw [State.modEdit_keep, fst_keep heq (State.place_keep _ _), State.modEdit_keep]
      · next heq =>
        rw [State.controlAll_keep, State.modEdit_keep, fst_keep heq (State.place_keep _ _), State.modEdit_keep]

theorem execPencilEdit_keep (job : Nat) (buf : BufRead) (s : State) : Keeps s (execPencilEdit job buf s) := by
  unfold execPencilEdit
  refine (keeps_next _ _).2 (beginRead_keep _ _ _ _ _ fun j b s => ?_)
  dsimp only
  repeat' first
    | exact State.finish_keep _ _ _
    | exact State.putBack_keep _ _
    | (next heq => rw [State.finish_keep, fst_keep heq (State.place_keep _ _)]; done)
    | (next heq => rw [State.finish_keep, State.addEdit_keep, State.nextEdit_keep, fst_keep heq (State.place_keep _ _)]; done)
    | split

@[simp] theorem State.learnHolders_keep (s : State) (holders : List (Nat × Nat)) : (State.learnHolders s holders).keep = s.keep := by
  simp [State.learnHolders]

theorem execPencilNotice_keep (edit verdict depends base : Nat) (restores : Option Nat) (batch : Bytes) (carried : List Bytes) (sheets : List Nat) (anchors : List (Nat × Bytes × Bytes)) (holders : List (Nat × Nat)) (s : State) : Keeps s (execPencilNotice edit verdict depends base restores batch carried sheets anchors holders s) := by
  unfold execPencilNotice
  repeat' first | (simp; done) | split

@[simp] theorem State.withdrawHere_keep (s : State) (n reason : Nat) : (State.withdrawHere s n reason).keep = s.keep := by
  unfold State.withdrawHere
  repeat' first | (simp; done) | split

@[simp] theorem State.withdraw_keep (s : State) (n reason : Nat) : (State.withdraw s n reason).keep = s.keep := by
  simp [State.withdraw]

theorem execWithdrawalNotice_keep (edit reason : Nat) (s : State) : Keeps s (execWithdrawalNotice edit reason s) := by
  simp [execWithdrawalNotice]

theorem execWithdrawEdit_keep (job : Nat) (s : State) : Keeps s (execWithdrawEdit job s) := by
  unfold execWithdrawEdit
  repeat' first
    | with_reducible rfl
    | intro _
    | with_reducible (refine (keeps_next _ _).2 ?_)
    | exact trivial
    | (simp; done)
    | with_reducible (refine (foldl_keep _ ?_ _ _).trans ?_)
    | with_reducible (refine (foldl_keep1 _ ?_ _ _).trans ?_)
    | with_reducible (refine (foldl_keep2 _ ?_ _ _).trans ?_)
    | with_reducible (refine (begin_keep _ _ _ _ ?_).trans ?_)
    | with_reducible (refine (beginRead_keep _ _ _ _ _ ?_).trans ?_)
    | with_reducible (refine (check_keep _ _ _ _ ?_).trans ?_)
    | split
    | (simp [*]; done)
    | rw [State.takeBlock_keep ‹_›]
    | rw [State.appendPage_keep ‹_›]
    | rw [State.takeLogPage_keep ‹_›]
    | rw [State.newSheets_keep ‹_›]

    | simp

@[simp] theorem State.markInking_keep (s : State) (set : List Nat) : (State.markInking s set).keep = s.keep := by
  simp [State.markInking]

@[simp] theorem State.askInking_keep (s : State) (set : List Nat) : (State.askInking s set).keep = s.keep := by
  simp [State.askInking]

theorem execInkEdit_keep (job : Nat) (s : State) : Keeps s (execInkEdit job s) := by
  unfold execInkEdit
  repeat' first
    | with_reducible rfl
    | intro _
    | with_reducible (refine (keeps_next _ _).2 ?_)
    | exact trivial
    | (simp; done)
    | with_reducible (refine (foldl_keep _ ?_ _ _).trans ?_)
    | with_reducible (refine (foldl_keep1 _ ?_ _ _).trans ?_)
    | with_reducible (refine (foldl_keep2 _ ?_ _ _).trans ?_)
    | with_reducible (refine (begin_keep _ _ _ _ ?_).trans ?_)
    | with_reducible (refine (beginRead_keep _ _ _ _ _ ?_).trans ?_)
    | with_reducible (refine (check_keep _ _ _ _ ?_).trans ?_)
    | split
    | (simp [*]; done)
    | rw [State.takeBlock_keep ‹_›]
    | rw [State.appendPage_keep ‹_›]
    | rw [State.takeLogPage_keep ‹_›]
    | rw [State.newSheets_keep ‹_›]

    | simp

theorem execAutoInkTimeout_keep (s : State) : Keeps s (execAutoInkTimeout s) := by
  simp [execAutoInkTimeout]

@[simp] theorem State.nextInking_keep (s : State) : (State.nextInking s).keep = s.keep := by
  unfold State.nextInking
  repeat' first | (simp; done) | split

theorem execInkNumberRequest_keep (request : Option (Nat × List Nat)) (s : State) : Keeps s (execInkNumberRequest request s) := by
  unfold execInkNumberRequest
  repeat' first | (simp; done) | split

@[simp] theorem State.dropInking_keep (s : State) (k : Inking) : (State.dropInking s k).keep = s.keep := by
  simp [State.dropInking]

@[simp] theorem State.inkAck_keep (s : State) (member : Nat) (missing noPage : List Nat) : (State.inkAck s member missing noPage).keep = s.keep := by
  unfold State.inkAck
  repeat' first | (simp; done) | split

theorem execInkingAck_keep (member : Nat) (missing noPage : List Nat) (s : State) : Keeps s (execInkingAck member missing noPage s) := by
  simp [execInkingAck]

theorem execInkingSet_keep (number : Nat) (edits : List Nat) (carried : List Bytes) (s : State) : Keeps s (execInkingSet number edits carried s) := by
  simp [execInkingSet]

@[simp] theorem State.takeEdition_keep (s : State) (number : Nat) (set : List Nat) : (State.takeEdition s number set).keep = s.keep := by
  simp [State.takeEdition]

theorem execPublish_keep (number : Nat) (edits : List Nat) (s : State) : Keeps s (execPublish number edits s) := by
  unfold execPublish
  repeat' first | (simp; done) | split

@[simp] theorem State.writePages_keep (s : State) (ps : List Page) : (State.writePages s ps).keep = s.keep := by
  unfold State.writePages
  repeat' first
    | with_reducible rfl
    | intro _
    | with_reducible (refine (keeps_next _ _).2 ?_)
    | exact trivial
    | (simp; done)
    | with_reducible (refine (foldl_keep _ ?_ _ _).trans ?_)
    | with_reducible (refine (foldl_keep1 _ ?_ _ _).trans ?_)
    | with_reducible (refine (foldl_keep2 _ ?_ _ _).trans ?_)
    | with_reducible (refine (begin_keep _ _ _ _ ?_).trans ?_)
    | with_reducible (refine (beginRead_keep _ _ _ _ _ ?_).trans ?_)
    | with_reducible (refine (check_keep _ _ _ _ ?_).trans ?_)
    | split
    | (simp [*]; done)
    | rw [State.takeBlock_keep ‹_›]
    | rw [State.appendPage_keep ‹_›]
    | rw [State.takeLogPage_keep ‹_›]
    | rw [State.newSheets_keep ‹_›]

    | simp

@[simp] theorem State.writeMap_keep (s : State) (ed : Edition) : (s.writeMap ed).keep = s.keep := by
  unfold State.writeMap
  refine foldl_keep _ (fun s g => ?_) _ _
  dsimp only
  split
  · simp
  · simp [State.appendPage_keep ‹_›]

theorem execShelvingEnd_keep (edition member : Nat) (s : State) : Keeps s (execShelvingEnd edition member s) := by
  unfold execShelvingEnd
  repeat' first | (simp; done) | split

@[simp] theorem State.versionsLost_keep (s : State) (k : Nat) (gone : List Nat) : (State.versionsLost s k gone).keep = s.keep := by
  simp [State.versionsLost]

@[simp] theorem State.hearLost_keep (s : State) (member k : Nat) (gone : List Nat) : (State.hearLost s member k gone).keep = s.keep := by
  simp [State.hearLost]

theorem execEditRecordExpiry_keep (edit : Nat) (s : State) : Keeps s (execEditRecordExpiry edit s) := by
  unfold execEditRecordExpiry
  repeat' first | (simp; done) | split

theorem execQueryEdit_keep (job : Nat) (s : State) : Keeps s (execQueryEdit job s) := by
  unfold execQueryEdit
  repeat' first
    | with_reducible rfl
    | intro _
    | with_reducible (refine (keeps_next _ _).2 ?_)
    | exact trivial
    | (simp; done)
    | with_reducible (refine (foldl_keep _ ?_ _ _).trans ?_)
    | with_reducible (refine (foldl_keep1 _ ?_ _ _).trans ?_)
    | with_reducible (refine (foldl_keep2 _ ?_ _ _).trans ?_)
    | with_reducible (refine (begin_keep _ _ _ _ ?_).trans ?_)
    | with_reducible (refine (beginRead_keep _ _ _ _ _ ?_).trans ?_)
    | with_reducible (refine (check_keep _ _ _ _ ?_).trans ?_)
    | split
    | (simp [*]; done)
    | rw [State.takeBlock_keep ‹_›]
    | rw [State.appendPage_keep ‹_›]
    | rw [State.takeLogPage_keep ‹_›]
    | rw [State.newSheets_keep ‹_›]

    | simp

theorem execHoldEdition_keep (job : Nat) (s : State) : Keeps s (execHoldEdition job s) := by
  simp [execHoldEdition]

theorem execReleaseEdition_keep (job : Nat) (s : State) : Keeps s (execReleaseEdition job s) := by
  simp [execReleaseEdition]

theorem execReadSheet_keep (job : Nat) (s : State) : Keeps s (execReadSheet job s) := by
  simp [execReadSheet]

theorem execQueryMap_keep (job : Nat) (s : State) : Keeps s (execQueryMap job s) := by
  simp [execQueryMap]

/-! ### Matching -/

@[simp] theorem State.bumpSolve_keep (s : State) (k v : Nat) : (State.bumpSolve s k v).keep = s.keep := by
  simp [State.bumpSolve]

@[simp] theorem State.tallySolve_keep (s : State) (a b : Progress) : (State.tallySolve s a b).keep = s.keep := by
  simp [State.tallySolve]

@[simp] theorem State.tallySmall_keep (s : State) (p : Problem) (q : SolveParams) (g : Progress) : (State.tallySmall s p q g).keep = s.keep := by
  simp [State.tallySmall]

/-! ### Collator -/

@[simp] theorem State.modCollator_keep (s : State) (f : Collator → Collator) : (State.modCollator s f).keep = s.keep := by
  simp [State.modCollator]

theorem State.queueSolve_keep {s : State} {x : LargeSolve} {t : State} (h : s.queueSolve x = .ok t) : t.keep = s.keep := by
  unfold State.queueSolve at h
  extract_lets n at h
  split at h
  · cases h
  · rw [← Except.ok.inj h, State.modCollator_keep]

theorem execSolve_keep (job : Nat) (buf : BufRead) (s : State) : Keeps s (execSolve job buf s) := by
  unfold execSolve
  refine (keeps_next _ _).2 (beginRead_keep _ _ _ _ _ fun j b s => ?_)
  split
  · exact State.finish_keep _ _ _
  · split
    · exact State.finish_keep _ _ _
    · split
      · exact State.finish_keep _ _ _
      · next heq => exact State.queueSolve_keep heq

theorem State.queueMap_keep {s : State} {owner : SolveOwner} {q : SolveParams} {edition : Nat} {cut sheets : List Nat} {adjust output : Bool} {eventQueue outAt deadline : Nat} {t : State} (h : s.queueMap owner q edition cut sheets adjust output eventQueue outAt deadline = .ok t) : t.keep = s.keep := by
  unfold State.queueMap at h
  extract_lets r l at h
  split at h
  · cases h
  · split at h
    · cases h
    · rw [State.queueSolve_keep h, State.fixEdition_keep]

theorem execSolveMap_keep (job : Nat) (buf : BufRead) (s : State) : Keeps s (execSolveMap job buf s) := by
  unfold execSolveMap
  refine (keeps_next _ _).2 (beginRead_keep _ _ _ _ _ fun j b s => ?_)
  extract_lets len read n want outAt edition
  split
  · exact State.finish_keep _ _ _
  · repeat (split; exact State.finish_keep _ _ _)
    split
    · exact State.putBack_keep _ _
    · split
      · exact State.finish_keep _ _ _
      · split
        · exact State.finish_keep _ _ _
        · next heq => exact State.queueMap_keep heq

@[simp] theorem State.loopFails_keep (s : State) (n : Nat) : (State.loopFails s n).keep = s.keep := by
  simp [State.loopFails]

@[simp] theorem State.inkSolve_keep (s : State) (n : Nat) : (State.inkSolve s n).keep = s.keep := by
  simp [State.inkSolve]

@[simp] theorem State.queueLoop_keep (s : State) (n : Nat) (region : List Nat) (adjust : Bool) : (s.queueLoop n region adjust).keep = s.keep := by
  unfold State.queueLoop
  extract_lets q
  split
  · exact State.loopFails_keep _ _
  · next heq => rw [State.modEdit_keep, State.queueMap_keep heq]

theorem execLoopSolveRelease_keep (edit : Nat) (s : State) : Keeps s (execLoopSolveRelease edit s) := by
  unfold execLoopSolveRelease
  repeat' first
    | with_reducible rfl
    | intro _
    | with_reducible (refine (keeps_next _ _).2 ?_)
    | exact trivial
    | (simp; done)
    | with_reducible (refine (foldl_keep _ ?_ _ _).trans ?_)
    | with_reducible (refine (foldl_keep1 _ ?_ _ _).trans ?_)
    | with_reducible (refine (foldl_keep2 _ ?_ _ _).trans ?_)
    | with_reducible (refine (begin_keep _ _ _ _ ?_).trans ?_)
    | with_reducible (refine (beginRead_keep _ _ _ _ _ ?_).trans ?_)
    | with_reducible (refine (check_keep _ _ _ _ ?_).trans ?_)
    | split
    | (simp [*]; done)
    | rw [State.takeBlock_keep ‹_›]
    | rw [State.appendPage_keep ‹_›]
    | rw [State.takeLogPage_keep ‹_›]
    | rw [State.queueMap_keep ‹_›]
    | rw [State.newSheets_keep ‹_›]
    | rw [State.queueSolve_keep ‹_›]

    | simp

@[simp] theorem State.modSolve_keep (s : State) (o : SolveOwner) (f : LargeSolve → LargeSolve) : (State.modSolve s o f).keep = s.keep := by
  simp [State.modSolve]

@[simp] theorem State.dropSolve_keep (s : State) (o : SolveOwner) : (State.dropSolve s o).keep = s.keep := by
  simp [State.dropSolve]

@[simp] theorem State.discardWhere_keep (s : State) (p : Job → Bool) : (State.discardWhere s p).keep = s.keep := by
  simp [State.discardWhere]

@[simp] theorem State.sweepSolves_keep (s : State) : (State.sweepSolves s).keep = s.keep := by
  simp [State.sweepSolves]

theorem execLargeSolveAdmit_keep (s : State) : Keeps s (execLargeSolveAdmit s) := by
  unfold execLargeSolveAdmit
  repeat' first
    | with_reducible rfl
    | intro _
    | with_reducible (refine (keeps_next _ _).2 ?_)
    | exact trivial
    | (simp; done)
    | with_reducible (refine (foldl_keep _ ?_ _ _).trans ?_)
    | with_reducible (refine (foldl_keep1 _ ?_ _ _).trans ?_)
    | with_reducible (refine (foldl_keep2 _ ?_ _ _).trans ?_)
    | with_reducible (refine (begin_keep _ _ _ _ ?_).trans ?_)
    | with_reducible (refine (beginRead_keep _ _ _ _ _ ?_).trans ?_)
    | with_reducible (refine (check_keep _ _ _ _ ?_).trans ?_)
    | split
    | (simp [*]; done)
    | rw [State.takeBlock_keep ‹_›]
    | rw [State.appendPage_keep ‹_›]
    | rw [State.takeLogPage_keep ‹_›]
    | rw [State.queueMap_keep ‹_›]
    | rw [State.newSheets_keep ‹_›]
    | rw [State.queueSolve_keep ‹_›]

    | simp

theorem execSolveIterationEnd_keep (solve : SolveOwner) (s : State) : Keeps s (execSolveIterationEnd solve s) := by
  unfold execSolveIterationEnd
  repeat' first
    | with_reducible rfl
    | intro _
    | with_reducible (refine (keeps_next _ _).2 ?_)
    | exact trivial
    | (simp; done)
    | with_reducible (refine (foldl_keep _ ?_ _ _).trans ?_)
    | with_reducible (refine (foldl_keep1 _ ?_ _ _).trans ?_)
    | with_reducible (refine (foldl_keep2 _ ?_ _ _).trans ?_)
    | with_reducible (refine (begin_keep _ _ _ _ ?_).trans ?_)
    | with_reducible (refine (beginRead_keep _ _ _ _ _ ?_).trans ?_)
    | with_reducible (refine (check_keep _ _ _ _ ?_).trans ?_)
    | split
    | (simp [*]; done)
    | rw [State.takeBlock_keep ‹_›]
    | rw [State.appendPage_keep ‹_›]
    | rw [State.takeLogPage_keep ‹_›]
    | rw [State.queueMap_keep ‹_›]
    | rw [State.newSheets_keep ‹_›]
    | rw [State.queueSolve_keep ‹_›]

    | simp

@[simp] theorem State.endHost_keep (s : State) (n : Nat) (x : LargeSolve) (r : Solved) : (State.endHost s n x r).keep = s.keep := by
  simp [State.endHost]

@[simp] theorem State.endMap_keep (s : State) (n : Nat) (x : LargeSolve) (m : MapSolve) (r : Solved) : (s.endMap n x m r).keep = s.keep := by
  unfold State.endMap
  extract_lets _ _ _ _ _ fin moved of_
  have hf (t : State) (a b c : Nat) : (fin t a b c).keep = t.keep := State.finish_keep t n _
  clear_value fin
  split
  · exact hf _ _ _ _
  · split
    · next heq => exact (State.finish_keep _ _ _).trans (snd_keep heq (State.deviceEdit_keep ..))
    · next heq =>
      have h := snd_keep heq (State.deviceEdit_keep ..)
      extract_lets base
      try clear_value base
      split
      · exact (hf _ _ _ _).trans ((State.inkSolve_keep _ _).trans h)
      · exact (hf _ _ _ _).trans ((State.withdraw_keep _ _ _).trans h)

@[simp] theorem State.endLoop_keep (s : State) (n : Nat) (x : LargeSolve) (m : MapSolve) (r : Solved) : (s.endLoop n x m r).keep = s.keep := by
  unfold State.endLoop
  split
  · rfl
  · split
    · rfl
    · extract_lets moved
      split
      · next heq =>
        have h := fst_keep heq (State.reviseEdit_keep ..)
        split
        · rw [State.withdraw_keep, State.bumpSolve_keep, h]
        · rw [State.loopFails_keep, h]
      · next heq =>
        have h := fst_keep heq (State.reviseEdit_keep ..)
        extract_lets
        split
        · rw [State.loopFails_keep, h]
        · split
          · rw [State.queueLoop_keep, h]
          · rw [State.inkSolve_keep, State.bumpSolve_keep, h]

@[simp] theorem State.endSolve_keep (s : State) (x : LargeSolve) (r : Solved) : (State.endSolve s x r).keep = s.keep := by
  unfold State.endSolve
  repeat' first
    | with_reducible rfl
    | intro _
    | with_reducible (refine (keeps_next _ _).2 ?_)
    | exact trivial
    | (simp; done)
    | with_reducible (refine (foldl_keep _ ?_ _ _).trans ?_)
    | with_reducible (refine (foldl_keep1 _ ?_ _ _).trans ?_)
    | with_reducible (refine (foldl_keep2 _ ?_ _ _).trans ?_)
    | with_reducible (refine (begin_keep _ _ _ _ ?_).trans ?_)
    | with_reducible (refine (beginRead_keep _ _ _ _ _ ?_).trans ?_)
    | with_reducible (refine (check_keep _ _ _ _ ?_).trans ?_)
    | split
    | (simp [*]; done)
    | rw [State.takeBlock_keep ‹_›]
    | rw [State.appendPage_keep ‹_›]
    | rw [State.takeLogPage_keep ‹_›]
    | rw [State.queueMap_keep ‹_›]
    | rw [State.newSheets_keep ‹_›]
    | rw [State.queueSolve_keep ‹_›]

    | simp

theorem execSolveEnd_keep (solve : SolveOwner) (s : State) : Keeps s (execSolveEnd solve s) := by
  unfold execSolveEnd
  repeat' first
    | with_reducible rfl
    | intro _
    | with_reducible (refine (keeps_next _ _).2 ?_)
    | exact trivial
    | (simp; done)
    | with_reducible (refine (foldl_keep _ ?_ _ _).trans ?_)
    | with_reducible (refine (foldl_keep1 _ ?_ _ _).trans ?_)
    | with_reducible (refine (foldl_keep2 _ ?_ _ _).trans ?_)
    | with_reducible (refine (begin_keep _ _ _ _ ?_).trans ?_)
    | with_reducible (refine (beginRead_keep _ _ _ _ _ ?_).trans ?_)
    | with_reducible (refine (check_keep _ _ _ _ ?_).trans ?_)
    | split
    | (simp [*]; done)
    | rw [State.takeBlock_keep ‹_›]
    | rw [State.appendPage_keep ‹_›]
    | rw [State.takeLogPage_keep ‹_›]
    | rw [State.queueMap_keep ‹_›]
    | rw [State.newSheets_keep ‹_›]
    | rw [State.queueSolve_keep ‹_›]

    | simp

theorem execSolveDeadline_keep (solve : SolveOwner) (phase : Nat) (s : State) : Keeps s (execSolveDeadline solve phase s) := by
  unfold execSolveDeadline
  repeat' first
    | with_reducible rfl
    | intro _
    | with_reducible (refine (keeps_next _ _).2 ?_)
    | exact trivial
    | (simp; done)
    | with_reducible (refine (foldl_keep _ ?_ _ _).trans ?_)
    | with_reducible (refine (foldl_keep1 _ ?_ _ _).trans ?_)
    | with_reducible (refine (foldl_keep2 _ ?_ _ _).trans ?_)
    | with_reducible (refine (begin_keep _ _ _ _ ?_).trans ?_)
    | with_reducible (refine (beginRead_keep _ _ _ _ _ ?_).trans ?_)
    | with_reducible (refine (check_keep _ _ _ _ ?_).trans ?_)
    | split
    | (simp [*]; done)
    | rw [State.takeBlock_keep ‹_›]
    | rw [State.appendPage_keep ‹_›]
    | rw [State.takeLogPage_keep ‹_›]
    | rw [State.queueMap_keep ‹_›]
    | rw [State.newSheets_keep ‹_›]
    | rw [State.queueSolve_keep ‹_›]

    | simp

@[simp] theorem State.discardSolve_keep (s : State) (o : SolveOwner) : (State.discardSolve s o).keep = s.keep := by
  unfold State.discardSolve
  repeat' first
    | with_reducible rfl
    | intro _
    | with_reducible (refine (keeps_next _ _).2 ?_)
    | exact trivial
    | (simp; done)
    | with_reducible (refine (foldl_keep _ ?_ _ _).trans ?_)
    | with_reducible (refine (foldl_keep1 _ ?_ _ _).trans ?_)
    | with_reducible (refine (foldl_keep2 _ ?_ _ _).trans ?_)
    | with_reducible (refine (begin_keep _ _ _ _ ?_).trans ?_)
    | with_reducible (refine (beginRead_keep _ _ _ _ _ ?_).trans ?_)
    | with_reducible (refine (check_keep _ _ _ _ ?_).trans ?_)
    | split
    | (simp [*]; done)
    | rw [State.takeBlock_keep ‹_›]
    | rw [State.appendPage_keep ‹_›]
    | rw [State.takeLogPage_keep ‹_›]
    | rw [State.queueMap_keep ‹_›]
    | rw [State.newSheets_keep ‹_›]
    | rw [State.queueSolve_keep ‹_›]

    | simp

@[simp] theorem State.takeSetting_keep (s : State) (book : Bool) (b : Bytes) : (State.takeSetting s book b).keep = s.keep := by
  simp [State.takeSetting]

@[simp] theorem State.sendSetting_keep (s : State) (dest code issuer job : Nat) (book : Bool) (b : Bytes) : (State.sendSetting s dest code issuer job book b).keep = s.keep := by
  simp [State.sendSetting]

@[simp] theorem State.acceptSetting_keep (s : State) (issuer job : Nat) (book : Bool) (b : Bytes) : (State.acceptSetting s issuer job book b).keep = s.keep := by
  simp [State.acceptSetting]

@[simp] theorem State.settingTaken_keep (s : State) (job member : Nat) : (State.settingTaken s job member).keep = s.keep := by
  unfold State.settingTaken
  repeat' first | (simp; done) | split

@[simp] theorem State.startSetting_keep (s : State) (job : Nat) (book : Bool) (b : Bytes) : (State.startSetting s job book b).keep = s.keep := by
  simp [State.startSetting]

theorem execSetSolver_keep (job : Nat) (buf : BufRead) (s : State) : Keeps s (execSetSolver job buf s) := by
  simp [execSetSolver]

theorem execSetCodebook_keep (job : Nat) (buf : BufRead) (s : State) : Keeps s (execSetCodebook job buf s) := by
  simp [execSetCodebook]

theorem execQueryCollator_keep (job : Nat) (s : State) : Keeps s (execQueryCollator job s) := by
  simp [execQueryCollator]

end Sys2Proof.Machine
end

