-- ==== Sys2Proof/Laws/KeepSessions.lean ====
section
/-! SUPPORT. The queue and the held accesses: what the desk, the Concordance, the Catalogue and the sessions do leaves them alone. -/
namespace Sys2Proof.Machine
set_option linter.all false

/-! ### Circulation -/

theorem execCallSlipFetch_keep (read : Option Slip) (s : State) : Keeps s (execCallSlipFetch read s) := by
  unfold execCallSlipFetch
  repeat' first | (simp; done) | split

theorem execFenceRelease_keep (job : Nat) (s : State) : Keeps s (execFenceRelease job s) := by
  unfold execFenceRelease
  repeat' first | (simp; done) | split

theorem execUnstartedDeadline_keep (job : Nat) (s : State) : Keeps s (execUnstartedDeadline job s) := by
  unfold execUnstartedDeadline
  repeat' first | (simp; done) | split

@[simp] theorem State.ring_keep (s : State) (q v : Nat) : (State.ring s q v).keep = s.keep := by
  unfold State.ring
  repeat' first
    | with_reducible rfl
    | intro _
    | with_reducible (refine (keeps_next _ _).2 ?_)
    | exact trivial
    | (simp; done)
    | with_reducible (refine (foldl_keep _ ?_ _ _).trans ?_)
    | with_reducible (refine (foldl_keep1 _ ?_ _ _).trans ?_)
    | with_reducible (refine (foldl_keep2 _ ?_ _ _).trans ?_)
    | with_reducible (refine (begin_keep _ _ _ _ ?_).trans ?_)
    | with_reducible (refine (beginRead_keep _ _ _ _ _ ?_).trans ?_)
    | with_reducible (refine (check_keep _ _ _ _ ?_).trans ?_)
    | split
    | (simp [*]; done)
    | rw [State.takeBlock_keep ‹_›]
    | rw [State.appendPage_keep ‹_›]
    | rw [State.takeLogPage_keep ‹_›]
    | rw [State.queueMap_keep ‹_›]
    | rw [State.newSheets_keep ‹_›]
    | rw [State.queueSolve_keep ‹_›]

    | simp

@[simp] theorem State.doorbells_keep (s : State) (offset : Nat) (data : Bytes) : (State.doorbells s offset data).keep = s.keep := by
  simp [State.doorbells]

@[simp] theorem State.refuseQueue_keep (s : State) (j : Job) (code reason : Nat) : (State.refuseQueue s j code reason).keep = s.keep := by
  simp [State.refuseQueue]

theorem execCreateQueue_keep (job : Nat) (s : State) : Keeps s (execCreateQueue job s) := by
  unfold execCreateQueue
  repeat' first
    | with_reducible rfl
    | intro _
    | with_reducible (refine (keeps_next _ _).2 ?_)
    | exact trivial
    | (simp; done)
    | with_reducible (refine (foldl_keep _ ?_ _ _).trans ?_)
    | with_reducible (refine (foldl_keep1 _ ?_ _ _).trans ?_)
    | with_reducible (refine (foldl_keep2 _ ?_ _ _).trans ?_)
    | with_reducible (refine (begin_keep _ _ _ _ ?_).trans ?_)
    | with_reducible (refine (beginRead_keep _ _ _ _ _ ?_).trans ?_)
    | with_reducible (refine (check_keep _ _ _ _ ?_).trans ?_)
    | split
    | (simp [*]; done)
    | rw [State.takeBlock_keep ‹_›]
    | rw [State.appendPage_keep ‹_›]
    | rw [State.takeLogPage_keep ‹_›]
    | rw [State.queueMap_keep ‹_›]
    | rw [State.newSheets_keep ‹_›]
    | rw [State.queueSolve_keep ‹_›]

    | simp

theorem execDestroyQueue_keep (job : Nat) (s : State) : Keeps s (execDestroyQueue job s) := by
  simp [execDestroyQueue]

theorem execResetQueue_keep (job : Nat) (s : State) : Keeps s (execResetQueue job s) := by
  simp [execResetQueue]

theorem execQueryQueue_keep (job : Nat) (s : State) : Keeps s (execQueryQueue job s) := by
  simp [execQueryQueue]

@[simp] theorem State.recoalesce_keep (s : State) (q : Nat) (x : Queue) : (State.recoalesce s q x).keep = s.keep := by
  simp [State.recoalesce]

theorem execSetCoalescing_keep (job : Nat) (s : State) : Keeps s (execSetCoalescing job s) := by
  simp [execSetCoalescing]

theorem execQueueDrainEnd_keep (q : Nat) (s : State) : Keeps s (execQueueDrainEnd q s) := by
  unfold execQueueDrainEnd
  repeat' first
    | with_reducible rfl
    | intro _
    | with_reducible (refine (keeps_next _ _).2 ?_)
    | exact trivial
    | (simp; done)
    | with_reducible (refine (foldl_keep _ ?_ _ _).trans ?_)
    | with_reducible (refine (foldl_keep1 _ ?_ _ _).trans ?_)
    | with_reducible (refine (foldl_keep2 _ ?_ _ _).trans ?_)
    | with_reducible (refine (begin_keep _ _ _ _ ?_).trans ?_)
    | with_reducible (refine (beginRead_keep _ _ _ _ _ ?_).trans ?_)
    | with_reducible (refine (check_keep _ _ _ _ ?_).trans ?_)
    | split
    | (simp [*]; done)
    | rw [State.takeBlock_keep ‹_›]
    | rw [State.appendPage_keep ‹_›]
    | rw [State.takeLogPage_keep ‹_›]
    | rw [State.queueMap_keep ‹_›]
    | rw [State.newSheets_keep ‹_›]
    | rw [State.queueSolve_keep ‹_›]

    | simp

@[simp] theorem State.complete_keep (s : State) (job : Nat) : (State.complete s job).keep = s.keep := by
  unfold State.complete
  repeat' first
    | with_reducible rfl
    | intro _
    | with_reducible (refine (keeps_next _ _).2 ?_)
    | exact trivial
    | (simp; done)
    | with_reducible (refine (foldl_keep _ ?_ _ _).trans ?_)
    | with_reducible (refine (foldl_keep1 _ ?_ _ _).trans ?_)
    | with_reducible (refine (foldl_keep2 _ ?_ _ _).trans ?_)
    | with_reducible (refine (begin_keep _ _ _ _ ?_).trans ?_)
    | with_reducible (refine (beginRead_keep _ _ _ _ _ ?_).trans ?_)
    | with_reducible (refine (check_keep _ _ _ _ ?_).trans ?_)
    | split
    | (simp [*]; done)
    | rw [State.takeBlock_keep ‹_›]
    | rw [State.appendPage_keep ‹_›]
    | rw [State.takeLogPage_keep ‹_›]
    | rw [State.queueMap_keep ‹_›]
    | rw [State.newSheets_keep ‹_›]
    | rw [State.queueSolve_keep ‹_›]

    | simp

theorem execJobComplete_keep (job : Nat) (s : State) : Keeps s (execJobComplete job s) := by
  simp [execJobComplete]

theorem execReturnStallRelease_keep (q : Nat) (s : State) : Keeps s (execReturnStallRelease q s) := by
  unfold execReturnStallRelease
  repeat' first | (simp; done) | split

theorem execReturnStalledTimer_keep (q : Nat) (s : State) : Keeps s (execReturnStalledTimer q s) := by
  simp [execReturnStalledTimer]

theorem execEventsLost_keep (q : Nat) (s : State) : Keeps s (execEventsLost q s) := by
  simp [execEventsLost]

theorem execCoalesceTimeout_keep (q : Nat) (s : State) : Keeps s (execCoalesceTimeout q s) := by
  simp [execCoalesceTimeout]

/-! ### Concord -/

@[simp] theorem State.modConcord_keep (s : State) (f : Concord → Concord) : (State.modConcord s f).keep = s.keep := by
  simp [State.modConcord]

@[simp] theorem State.modBinding_keep (s : State) (b : Nat) (f : Binding → Binding) : (State.modBinding s b f).keep = s.keep := by
  unfold State.modBinding
  repeat' first | (simp; done) | split

@[simp] theorem State.gridEventAt_keep (s : State) (time : Nat) (e : EventIn) : (State.gridEventAt s time e).keep = s.keep := by
  unfold State.gridEventAt
  repeat' first | (simp; done) | split

@[simp] theorem State.gridEvent_keep (s : State) (e : EventIn) : (State.gridEvent s e).keep = s.keep := by
  unfold State.gridEvent
  repeat' first | (simp; done) | split

@[simp] theorem State.judgePair_keep (s : State) (persist key run : Nat) : (State.judgePair s persist key run).keep = s.keep := by
  unfold State.judgePair
  repeat' first
    | with_reducible rfl
    | intro _
    | with_reducible (refine (keeps_next _ _).2 ?_)
    | exact trivial
    | (simp; done)
    | with_reducible (refine (foldl_keep _ ?_ _ _).trans ?_)
    | with_reducible (refine (foldl_keep1 _ ?_ _ _).trans ?_)
    | with_reducible (refine (foldl_keep2 _ ?_ _ _).trans ?_)
    | with_reducible (refine (begin_keep _ _ _ _ ?_).trans ?_)
    | with_reducible (refine (beginRead_keep _ _ _ _ _ ?_).trans ?_)
    | with_reducible (refine (check_keep _ _ _ _ ?_).trans ?_)
    | split
    | (simp [*]; done)
    | simp

@[simp] theorem State.releaseBinding_keep (s : State) (b host : Nat) : (State.releaseBinding s b host).keep = s.keep := by
  unfold State.releaseBinding
  repeat' first | (simp; done) | split

@[simp] theorem State.ageQuarantine_keep (s : State) (releaseEpochs : Nat) (now : List Nat) (b : Nat) : (State.ageQuarantine s releaseEpochs now b).keep = s.keep := by
  unfold State.ageQuarantine
  repeat' first | (simp; done) | split

@[simp] theorem State.removeBinding_keep (s : State) (b : Nat) : (State.removeBinding s b).keep = s.keep := by
  unfold State.removeBinding
  repeat' first | (simp; done) | split

@[simp] theorem State.hostQuarantine_keep (s : State) (a : AtClose) : (State.hostQuarantine s a).keep = s.keep := by
  unfold State.hostQuarantine
  repeat' first | (simp; done) | split

@[simp] theorem State.hostUnbind_keep (s : State) (a : AtClose) : (State.hostUnbind s a).keep = s.keep := by
  unfold State.hostUnbind
  repeat' first | (simp; done) | split

@[simp] theorem State.closeRules_keep (s : State) (g : GridSet) (cells : List RawCell) : (State.closeRules s g cells).keep = s.keep := by
  simp [State.closeRules]

@[simp] theorem State.closeEpoch_keep (s : State) (g : GridSet) (byLimit overrun : Bool) : (State.closeEpoch s g byLimit overrun).keep = s.keep := by
  simp [State.closeEpoch]

@[simp] theorem State.closeDue_keep (s : State) (due : Nat) (byLimit : Bool) : (State.closeDue s due byLimit).keep = s.keep := by
  simp [State.closeDue]

@[simp] theorem State.tryComplete_keep (s : State) : (State.tryComplete s).keep = s.keep := by
  unfold State.tryComplete
  repeat' first | (simp; done) | split

@[simp] theorem State.tryPostponed_keep (s : State) : (State.tryPostponed s).keep = s.keep := by
  unfold State.tryPostponed
  repeat' first
    | with_reducible rfl
    | intro _
    | with_reducible (refine (keeps_next _ _).2 ?_)
    | exact trivial
    | (simp; done)
    | with_reducible (refine (foldl_keep _ ?_ _ _).trans ?_)
    | with_reducible (refine (foldl_keep1 _ ?_ _ _).trans ?_)
    | with_reducible (refine (foldl_keep2 _ ?_ _ _).trans ?_)
    | with_reducible (refine (begin_keep _ _ _ _ ?_).trans ?_)
    | with_reducible (refine (beginRead_keep _ _ _ _ _ ?_).trans ?_)
    | with_reducible (refine (check_keep _ _ _ _ ?_).trans ?_)
    | split
    | (simp [*]; done)
    | simp

theorem execEpochCloseTimed_keep (s : State) : Keeps s (execEpochCloseTimed s) := by
  unfold execEpochCloseTimed
  repeat' first | (simp; done) | split

theorem execEpochCloseLimit_keep (s : State) : Keeps s (execEpochCloseLimit s) := by
  unfold execEpochCloseLimit
  repeat' first | (simp; done) | split

@[simp] theorem State.staleUnit_keep (s : State) (b : Nat) : (State.staleUnit s b).keep = s.keep := by
  simp [State.staleUnit]

@[simp] theorem State.takeUnit_keep (s : State) (g : GridSet) (b : Nat) (x : Binding) (u : Reached) : (State.takeUnit s g b x u).keep = s.keep := by
  simp [State.takeUnit]

@[simp] theorem State.takeReached_keep (s : State) : (State.takeReached s).keep = s.keep := by
  unfold State.takeReached
  repeat' first
    | with_reducible rfl
    | intro _
    | with_reducible (refine (keeps_next _ _).2 ?_)
    | exact trivial
    | (simp; done)
    | with_reducible (refine (foldl_keep _ ?_ _ _).trans ?_)
    | with_reducible (refine (foldl_keep1 _ ?_ _ _).trans ?_)
    | with_reducible (refine (foldl_keep2 _ ?_ _ _).trans ?_)
    | with_reducible (refine (begin_keep _ _ _ _ ?_).trans ?_)
    | with_reducible (refine (beginRead_keep _ _ _ _ _ ?_).trans ?_)
    | with_reducible (refine (check_keep _ _ _ _ ?_).trans ?_)
    | split
    | (simp [*]; done)
    | simp

theorem execUnitAvailable_keep (s : State) : Keeps s (execUnitAvailable s) := by
  unfold execUnitAvailable
  repeat' first
    | with_reducible rfl
    | intro _
    | with_reducible (refine (keeps_next _ _).2 ?_)
    | exact trivial
    | (simp; done)
    | with_reducible (refine (foldl_keep _ ?_ _ _).trans ?_)
    | with_reducible (refine (foldl_keep1 _ ?_ _ _).trans ?_)
    | with_reducible (refine (foldl_keep2 _ ?_ _ _).trans ?_)
    | with_reducible (refine (begin_keep _ _ _ _ ?_).trans ?_)
    | with_reducible (refine (beginRead_keep _ _ _ _ _ ?_).trans ?_)
    | with_reducible (refine (check_keep _ _ _ _ ?_).trans ?_)
    | split
    | (simp [*]; done)
    | simp

@[simp] theorem State.settleClose_keep (s : State) : (State.settleClose s).keep = s.keep := by
  unfold State.settleClose
  repeat' first | (simp; done) | split

@[simp] theorem State.writeList_keep (s : State) (g : GridSet) (e : Epoch) (units : List FusionUnit) (m : Merge) (amendedTiles : Option Nat) : (State.writeList s g e units m amendedTiles).keep = s.keep := by
  simp [State.writeList]

@[simp] theorem State.discardReaders_keep (s : State) : (State.discardReaders s).keep = s.keep := by
  simp [State.discardReaders]

@[simp] theorem State.endStop_keep (s : State) : (State.endStop s).keep = s.keep := by
  unfold State.endStop
  repeat' first
    | with_reducible rfl
    | intro _
    | with_reducible (refine (keeps_next _ _).2 ?_)
    | exact trivial
    | (simp; done)
    | with_reducible (refine (foldl_keep _ ?_ _ _).trans ?_)
    | with_reducible (refine (foldl_keep1 _ ?_ _ _).trans ?_)
    | with_reducible (refine (foldl_keep2 _ ?_ _ _).trans ?_)
    | with_reducible (refine (begin_keep _ _ _ _ ?_).trans ?_)
    | with_reducible (refine (beginRead_keep _ _ _ _ _ ?_).trans ?_)
    | with_reducible (refine (check_keep _ _ _ _ ?_).trans ?_)
    | split
    | (simp [*]; done)
    | simp

@[simp] theorem State.afterCompute_keep (s : State) (e : Epoch) : (State.afterCompute s e).keep = s.keep := by
  simp [State.afterCompute]

theorem execEpochComputeEnd_keep (s : State) : Keeps s (execEpochComputeEnd s) := by
  unfold execEpochComputeEnd
  repeat' first | (simp; done) | split

theorem execAmendmentEnd_keep (s : State) : Keeps s (execAmendmentEnd s) := by
  unfold execAmendmentEnd
  repeat' first
    | with_reducible rfl
    | intro _
    | with_reducible (refine (keeps_next _ _).2 ?_)
    | exact trivial
    | (simp; done)
    | with_reducible (refine (foldl_keep _ ?_ _ _).trans ?_)
    | with_reducible (refine (foldl_keep1 _ ?_ _ _).trans ?_)
    | with_reducible (refine (foldl_keep2 _ ?_ _ _).trans ?_)
    | with_reducible (refine (begin_keep _ _ _ _ ?_).trans ?_)
    | with_reducible (refine (beginRead_keep _ _ _ _ _ ?_).trans ?_)
    | with_reducible (refine (check_keep _ _ _ _ ?_).trans ?_)
    | split
    | (simp [*]; done)
    | simp

theorem execSetGrid_keep (job : Nat) (buf : BufRead) (s : State) : Keeps s (execSetGrid job buf s) := by
  simp [execSetGrid]

theorem execStartFusion_keep (job : Nat) (s : State) : Keeps s (execStartFusion job s) := by
  unfold execStartFusion
  repeat' first
    | with_reducible rfl
    | intro _
    | with_reducible (refine (keeps_next _ _).2 ?_)
    | exact trivial
    | (simp; done)
    | with_reducible (refine (foldl_keep _ ?_ _ _).trans ?_)
    | with_reducible (refine (foldl_keep1 _ ?_ _ _).trans ?_)
    | with_reducible (refine (foldl_keep2 _ ?_ _ _).trans ?_)
    | with_reducible (refine (begin_keep _ _ _ _ ?_).trans ?_)
    | with_reducible (refine (beginRead_keep _ _ _ _ _ ?_).trans ?_)
    | with_reducible (refine (check_keep _ _ _ _ ?_).trans ?_)
    | split
    | (simp [*]; done)
    | simp

@[simp] theorem State.stopFusion_keep (s : State) (job : Option Nat) : (State.stopFusion s job).keep = s.keep := by
  simp [State.stopFusion]

theorem execStopFusion_keep (job : Nat) (s : State) : Keeps s (execStopFusion job s) := by
  simp [execStopFusion]

theorem execBindSensor_keep (job : Nat) (buf : BufRead) (s : State) : Keeps s (execBindSensor job buf s) := by
  simp [execBindSensor]

@[simp] theorem State.onBinding_keep (s : State) (j : Job) (k : Nat → State → State) (hk : ∀ n s, (k n s).keep = s.keep) :
    (s.onBinding j k).keep = s.keep := by
  unfold State.onBinding
  exact (check_keep _ _ _ _ (hk _ _))

theorem execUnbindSensor_keep (job : Nat) (s : State) : Keeps s (execUnbindSensor job s) := by
  unfold execUnbindSensor
  refine (keeps_next _ _).2 (begin_keep _ _ _ _ fun j s => State.onBinding_keep _ _ _ fun n s => ?_)
  split <;> simp

theorem execQuarantineSensor_keep (job : Nat) (s : State) : Keeps s (execQuarantineSensor job s) := by
  simp [execQuarantineSensor]

theorem execReleaseSensor_keep (job : Nat) (s : State) : Keeps s (execReleaseSensor job s) := by
  simp [execReleaseSensor]

theorem execQueryFusion_keep (job : Nat) (s : State) : Keeps s (execQueryFusion job s) := by
  simp [execQueryFusion]

theorem execQuerySensors_keep (job : Nat) (s : State) : Keeps s (execQuerySensors job s) := by
  simp [execQuerySensors]

theorem execReadTracks_keep (job : Nat) (s : State) : Keeps s (execReadTracks job s) := by
  unfold execReadTracks
  repeat' first
    | with_reducible rfl
    | intro _
    | with_reducible (refine (keeps_next _ _).2 ?_)
    | exact trivial
    | (simp; done)
    | with_reducible (refine (foldl_keep _ ?_ _ _).trans ?_)
    | with_reducible (refine (foldl_keep1 _ ?_ _ _).trans ?_)
    | with_reducible (refine (foldl_keep2 _ ?_ _ _).trans ?_)
    | with_reducible (refine (begin_keep _ _ _ _ ?_).trans ?_)
    | with_reducible (refine (beginRead_keep _ _ _ _ _ ?_).trans ?_)
    | with_reducible (refine (check_keep _ _ _ _ ?_).trans ?_)
    | split
    | (simp [*]; done)
    | simp

/-! ### Curator -/

@[simp] theorem State.reviewConflict_keep (s : State) (code : Nat) : (State.reviewConflict s code).keep = s.keep := by
  unfold State.reviewConflict
  repeat' first | (simp; done) | split

@[simp] theorem State.reviewBounds_keep (s : State) : s.reviewBounds.keep = s.keep := by
  unfold State.reviewBounds
  extract_lets s1 s2 s3
  have h1 : s1.keep = s.keep := foldl_keep _ (fun _ _ => by simp) _ _
  have h2 : s2.keep = s.keep := by unfold s2; split <;> simp [h1]
  have h3 : s3.keep = s.keep := by unfold s3; split <;> simp [h2]
  split <;> simp [h3]

@[simp] theorem State.takeRoomPolicy_keep (s : State) (autoInk retain : Nat) (moves : Bool) : (State.takeRoomPolicy s autoInk retain moves).keep = s.keep := by
  simp [State.takeRoomPolicy]

@[simp] theorem State.policyTaken_keep (s : State) (job member : Nat) : (State.policyTaken s job member).keep = s.keep := by
  unfold State.policyTaken
  repeat' first | (simp; done) | split

@[simp] theorem State.acceptRoomPolicy_keep (s : State) (issuer job autoInk retain : Nat) (moves : Bool) : (State.acceptRoomPolicy s issuer job autoInk retain moves).keep = s.keep := by
  simp [State.acceptRoomPolicy]

theorem execSetPolicy_keep (job : Nat) (buf : BufRead) (s : State) : Keeps s (execSetPolicy job buf s) := by
  unfold execSetPolicy
  refine (keeps_next _ _).2 (beginRead_keep _ _ _ _ _ fun j b s => ?_)
  split
  · simp
  · extract_lets p s1 s2
    have h1 : s1.keep = s.keep := by simp [s1]
    have h2 : s2.keep = s.keep := by simp [s2, h1]
    split <;> simp [h2]

@[simp] theorem State.setPin_keep (s : State) (sheet member : Nat) : (State.setPin s sheet member).keep = s.keep := by
  simp [State.setPin]

@[simp] theorem State.dropPin_keep (s : State) (sheet : Nat) : (State.dropPin s sheet).keep = s.keep := by
  simp [State.dropPin]

theorem execPinSheet_keep (job : Nat) (s : State) : Keeps s (execPinSheet job s) := by
  unfold execPinSheet
  repeat' first
    | with_reducible rfl
    | intro _
    | with_reducible (refine (keeps_next _ _).2 ?_)
    | exact trivial
    | (simp; done)
    | with_reducible (refine (foldl_keep _ ?_ _ _).trans ?_)
    | with_reducible (refine (foldl_keep1 _ ?_ _ _).trans ?_)
    | with_reducible (refine (foldl_keep2 _ ?_ _ _).trans ?_)
    | with_reducible (refine (begin_keep _ _ _ _ ?_).trans ?_)
    | with_reducible (refine (beginRead_keep _ _ _ _ _ ?_).trans ?_)
    | with_reducible (refine (check_keep _ _ _ _ ?_).trans ?_)
    | split
    | (simp [*]; done)
    | rw [State.takeBlock_keep ‹_›]
    | rw [State.appendPage_keep ‹_›]
    | rw [State.takeLogPage_keep ‹_›]
    | rw [State.newSheets_keep ‹_›]

    | simp

theorem execUnpinSheet_keep (job : Nat) (s : State) : Keeps s (execUnpinSheet job s) := by
  simp [execUnpinSheet]

theorem execQueryCurator_keep (job : Nat) (s : State) : Keeps s (execQueryCurator job s) := by
  simp [execQueryCurator]

@[simp] theorem State.setSlot_keep (s : State) (i e : Nat) : (State.setSlot s i e).keep = s.keep := by
  simp [State.setSlot]

@[simp] theorem State.moveStage_keep (s : State) (src dst : Nat) : (State.moveStage s src dst).keep = s.keep := by
  unfold State.moveStage
  repeat' first
    | with_reducible rfl
    | intro _
    | with_reducible (refine (keeps_next _ _).2 ?_)
    | exact trivial
    | (simp; done)
    | with_reducible (refine (foldl_keep _ ?_ _ _).trans ?_)
    | with_reducible (refine (foldl_keep1 _ ?_ _ _).trans ?_)
    | with_reducible (refine (foldl_keep2 _ ?_ _ _).trans ?_)
    | with_reducible (refine (begin_keep _ _ _ _ ?_).trans ?_)
    | with_reducible (refine (beginRead_keep _ _ _ _ _ ?_).trans ?_)
    | with_reducible (refine (check_keep _ _ _ _ ?_).trans ?_)
    | split
    | (simp [*]; done)
    | rw [State.takeBlock_keep ‹_›]
    | rw [State.appendPage_keep ‹_›]
    | rw [State.takeLogPage_keep ‹_›]
    | rw [State.newSheets_keep ‹_›]

    | simp

@[simp] theorem State.copySheet_keep (s : State) (sheet dest : Nat) : (State.copySheet s sheet dest).keep = s.keep := by
  simp [State.copySheet]

@[simp] theorem State.modMove_keep (s : State) (sheet : Nat) (f : Move → Move) : (State.modMove s sheet f).keep = s.keep := by
  simp [State.modMove]

@[simp] theorem State.dropMove_keep (s : State) (sheet : Nat) : (State.dropMove s sheet).keep = s.keep := by
  simp [State.dropMove]

@[simp] theorem State.takeCopy_keep (s : State) (source sheet : Nat) : (s.takeCopy source sheet).keep = s.keep := by
  unfold State.takeCopy
  split
  · exact State.control_keep _ _ _ _
  · extract_lets r s1 src s2
    have h1 : s1.keep = s.keep := State.readStackBytes_keep _ _ _
    have h2 : s2.keep = s.keep := by unfold s2; rw [keep_mk, h1]
    split
    · rw [State.control_keep, h2]
    · rw [State.control_keep, State.modMap_keep, h2]

theorem execCuratorMoveStart_keep (kind : MoveKind) (object dest : Nat) (s : State) : Keeps s (execCuratorMoveStart kind object dest s) := by
  unfold execCuratorMoveStart
  repeat' first | (simp; done) | split

@[simp] theorem State.settleArrival_keep (s : State) (sheet source : Nat) : (State.settleArrival s sheet source).keep = s.keep := by
  unfold State.settleArrival
  repeat' first | (simp; done) | split

@[simp] theorem State.settleDeparture_keep (s : State) (sheet : Nat) : (State.settleDeparture s sheet).keep = s.keep := by
  simp [State.settleDeparture]

@[simp] theorem State.switchHolder_keep (s : State) (sheet dest : Nat) : (State.switchHolder s sheet dest).keep = s.keep := by
  unfold State.switchHolder
  repeat' first | (simp; done) | split

@[simp] theorem State.copyLeft_keep (s : State) (member sheet : Nat) : (State.copyLeft s member sheet).keep = s.keep := by
  simp [State.copyLeft]

@[simp] theorem State.clerkSwitch_keep (s : State) (sheet dest : Nat) : (State.clerkSwitch s sheet dest).keep = s.keep := by
  simp [State.clerkSwitch]

@[simp] theorem State.clerkMaySwitch_keep (s : State) (source sheet dest edition : Nat) : (State.clerkMaySwitch s source sheet dest edition).keep = s.keep := by
  simp [State.clerkMaySwitch]

@[simp] theorem State.copyAgain_keep (s : State) (sheet : Nat) : (State.copyAgain s sheet).keep = s.keep := by
  simp [State.copyAgain]

@[simp] theorem State.copyAnswered_keep (s : State) (member sheet : Nat) (good : Bool) : (State.copyAnswered s member sheet good).keep = s.keep := by
  unfold State.copyAnswered
  repeat' first | (simp; done) | split

theorem execSheetMoveEnd_keep (sheet : Nat) (s : State) : Keeps s (execSheetMoveEnd sheet s) := by
  unfold execSheetMoveEnd
  repeat' first | (simp; done) | split

theorem execBoundPinnedRepeat_keep (code : Nat) (s : State) : Keeps s (execBoundPinnedRepeat code s) := by
  unfold execBoundPinnedRepeat
  repeat' first | (simp; done) | split

/-! ### Datestamp -/

@[simp] theorem State.modStamp_keep (s : State) (f : Stamp → Stamp) : (State.modStamp s f).keep = s.keep := by
  simp [State.modStamp]

@[simp] theorem State.setTimeState_keep (s : State) (t : TimeState) : (State.setTimeState s t).keep = s.keep := by
  simp [State.setTimeState]

@[simp] theorem State.timeOfDaySet_keep (s : State) : (State.timeOfDaySet s).keep = s.keep := by
  simp [State.timeOfDaySet]

@[simp] theorem State.aimAgain_keep (s : State) (o : Nat) : (State.aimAgain s o).keep = s.keep := by
  unfold State.aimAgain
  repeat' first
    | with_reducible rfl
    | intro _
    | with_reducible (refine (keeps_next _ _).2 ?_)
    | exact trivial
    | (simp; done)
    | with_reducible (refine (foldl_keep _ ?_ _ _).trans ?_)
    | with_reducible (refine (foldl_keep1 _ ?_ _ _).trans ?_)
    | with_reducible (refine (foldl_keep2 _ ?_ _ _).trans ?_)
    | with_reducible (refine (begin_keep _ _ _ _ ?_).trans ?_)
    | with_reducible (refine (beginRead_keep _ _ _ _ _ ?_).trans ?_)
    | with_reducible (refine (check_keep _ _ _ _ ?_).trans ?_)
    | split
    | (simp [*]; done)
    | simp

@[simp] theorem State.applyHardSet_keep (s : State) (job : Option Nat) (sec : BitVec 64) (ns frac : BitVec 32) : (State.applyHardSet s job sec ns frac).keep = s.keep := by
  unfold State.applyHardSet
  repeat' first | (simp; done) | split

@[simp] theorem State.applyTimeOp_keep (s : State) (o : TimeOp) : (State.applyTimeOp s o).1.keep = s.keep := by
  unfold State.applyTimeOp
  repeat' first
    | with_reducible rfl
    | intro _
    | with_reducible (refine (keeps_next _ _).2 ?_)
    | exact trivial
    | (simp; done)
    | with_reducible (refine (foldl_keep _ ?_ _ _).trans ?_)
    | with_reducible (refine (foldl_keep1 _ ?_ _ _).trans ?_)
    | with_reducible (refine (foldl_keep2 _ ?_ _ _).trans ?_)
    | with_reducible (refine (begin_keep _ _ _ _ ?_).trans ?_)
    | with_reducible (refine (beginRead_keep _ _ _ _ _ ?_).trans ?_)
    | with_reducible (refine (check_keep _ _ _ _ ?_).trans ?_)
    | split
    | (simp [*]; done)
    | simp

@[simp] theorem applyTimeOps_keep (l : List TimeOp) (b : Bool) (s : State) : (applyTimeOps l b s).1.keep = s.keep := by
  induction l generalizing b s with
  | nil => unfold applyTimeOps; with_reducible rfl
  | cons a l ih =>
  unfold applyTimeOps
  repeat' first
    | with_reducible rfl
    | intro _
    | with_reducible (refine (keeps_next _ _).2 ?_)
    | exact trivial
    | (simp [ih]; done)
    | with_reducible (refine (foldl_keep _ ?_ _ _).trans ?_)
    | with_reducible (refine (foldl_keep1 _ ?_ _ _).trans ?_)
    | with_reducible (refine (foldl_keep2 _ ?_ _ _).trans ?_)
    | with_reducible (refine (begin_keep _ _ _ _ ?_).trans ?_)
    | with_reducible (refine (beginRead_keep _ _ _ _ _ ?_).trans ?_)
    | with_reducible (refine (check_keep _ _ _ _ ?_).trans ?_)
    | split
    | (simp [*]; done)
    | simp

theorem execDatestampTick_keep (s : State) : Keeps s (execDatestampTick s) := by
  simp [execDatestampTick]

@[simp] theorem State.queueTimeOp_keep (s : State) (o : TimeOp) : (State.queueTimeOp s o).keep = s.keep := by
  simp [State.queueTimeOp]

theorem execAdjustTime_keep (job : Nat) (s : State) : Keeps s (execAdjustTime job s) := by
  simp [execAdjustTime]

theorem execSetIncrement_keep (job : Nat) (s : State) : Keeps s (execSetIncrement job s) := by
  simp [execSetIncrement]

@[simp] theorem State.applyTiming_keep (s : State) (t : Timing) : (State.applyTiming s t).keep = s.keep := by
  simp [State.applyTiming]

theorem execSetTiming_keep (job : Nat) (buf : BufRead) (s : State) : Keeps s (execSetTiming job buf s) := by
  simp [execSetTiming]

theorem execQueryTime_keep (job : Nat) (s : State) : Keeps s (execQueryTime job s) := by
  simp [execQueryTime]

theorem execSetPulse_keep (job : Nat) (s : State) : Keeps s (execSetPulse job s) := by
  simp [execSetPulse]

theorem execPulseEdge_keep (o : Nat) (s : State) : Keeps s (execPulseEdge o s) := by
  unfold execPulseEdge
  repeat' first
    | with_reducible rfl
    | intro _
    | with_reducible (refine (keeps_next _ _).2 ?_)
    | exact trivial
    | (simp; done)
    | with_reducible (refine (foldl_keep _ ?_ _ _).trans ?_)
    | with_reducible (refine (foldl_keep1 _ ?_ _ _).trans ?_)
    | with_reducible (refine (foldl_keep2 _ ?_ _ _).trans ?_)
    | with_reducible (refine (begin_keep _ _ _ _ ?_).trans ?_)
    | with_reducible (refine (beginRead_keep _ _ _ _ _ ?_).trans ?_)
    | with_reducible (refine (check_keep _ _ _ _ ?_).trans ?_)
    | split
    | (simp [*]; done)
    | simp

theorem execSetCapture_keep (job : Nat) (s : State) : Keeps s (execSetCapture job s) := by
  simp [execSetCapture]

@[simp] theorem State.captureEvent_keep (s : State) (i : Nat) (e : HeldEdge) : (State.captureEvent s i e).keep = s.keep := by
  simp [State.captureEvent]

theorem execCaptureEdge_keep (input : Nat) (rising : Bool) (stamp fine : Nat) (s : State) : Keeps s (execCaptureEdge input rising stamp fine s) := by
  unfold execCaptureEdge
  repeat' first | (simp; done) | split

@[simp] theorem State.firmwareAdjust_keep (s : State) (off : Int) : (State.firmwareAdjust s off).keep = s.keep := by
  simp [State.firmwareAdjust]

@[simp] theorem State.slewLarge_keep (s : State) (offset : Int) : (State.slewLarge s offset).keep = s.keep := by
  simp [State.slewLarge]

@[simp] theorem State.slewOffset_keep (s : State) (offset : Int) : (State.slewOffset s offset).keep = s.keep := by
  simp [State.slewOffset]

@[simp] theorem State.judgeOffset_keep (s : State) (offset : Int) : (State.judgeOffset s offset).keep = s.keep := by
  unfold State.judgeOffset
  repeat' first
    | with_reducible rfl
    | intro _
    | with_reducible (refine (keeps_next _ _).2 ?_)
    | exact trivial
    | (simp; done)
    | with_reducible (refine (foldl_keep _ ?_ _ _).trans ?_)
    | with_reducible (refine (foldl_keep1 _ ?_ _ _).trans ?_)
    | with_reducible (refine (foldl_keep2 _ ?_ _ _).trans ?_)
    | with_reducible (refine (begin_keep _ _ _ _ ?_).trans ?_)
    | with_reducible (refine (beginRead_keep _ _ _ _ _ ?_).trans ?_)
    | with_reducible (refine (check_keep _ _ _ _ ?_).trans ?_)
    | split
    | (simp [*]; done)
    | simp

theorem execServoInterval_keep (offset : Int) (inc : Option (BitVec 64)) (adjust : Bool) (s : State) : Keeps s (execServoInterval offset inc adjust s) := by
  unfold execServoInterval
  repeat' first
    | with_reducible rfl
    | intro _
    | with_reducible (refine (keeps_next _ _).2 ?_)
    | exact trivial
    | (simp; done)
    | with_reducible (refine (foldl_keep _ ?_ _ _).trans ?_)
    | with_reducible (refine (foldl_keep1 _ ?_ _ _).trans ?_)
    | with_reducible (refine (foldl_keep2 _ ?_ _ _).trans ?_)
    | with_reducible (refine (begin_keep _ _ _ _ ?_).trans ?_)
    | with_reducible (refine (beginRead_keep _ _ _ _ _ ?_).trans ?_)
    | with_reducible (refine (check_keep _ _ _ _ ?_).trans ?_)
    | split
    | (simp [*]; done)
    | simp

theorem execTimeSourceLost_keep (s : State) : Keeps s (execTimeSourceLost s) := by
  simp [execTimeSourceLost]

theorem execSlewPinnedTimeout_keep (s : State) : Keeps s (execSlewPinnedTimeout s) := by
  simp [execSlewPinnedTimeout]

theorem execTimekeeperExchange_keep (offset : Int) (delay : Nat) (keeperLocked : Bool) (s : State) : Keeps s (execTimekeeperExchange offset delay keeperLocked s) := by
  simp [execTimekeeperExchange]

theorem execPpsEdge_keep (stamp : Nat) (secondsOff : Int) (s : State) : Keeps s (execPpsEdge stamp secondsOff s) := by
  simp [execPpsEdge]

theorem execPtpSend_keep (port kind seq : Nat) (s : State) : Keeps s (execPtpSend port kind seq s) := by
  simp [execPtpSend]

/-! ### SessionOps -/

@[simp] theorem State.countSolve_keep (s : State) (m : MapSt) (r : QuerySolve) : (State.countSolve s m r).keep = s.keep := by
  unfold State.countSolve
  repeat' first | (simp; done) | split

/-! ### Catalogue -/

@[simp] theorem State.readNode_keep (s : State) (g : Generation) (ahead : Bool) (id : Nat) : (State.readNode s g ahead id).keep = s.keep := by
  unfold State.readNode
  repeat' first
    | with_reducible rfl
    | intro _
    | with_reducible (refine (keeps_next _ _).2 ?_)
    | exact trivial
    | (simp; done)
    | with_reducible (refine (foldl_keep _ ?_ _ _).trans ?_)
    | with_reducible (refine (foldl_keep1 _ ?_ _ _).trans ?_)
    | with_reducible (refine (foldl_keep2 _ ?_ _ _).trans ?_)
    | with_reducible (refine (begin_keep _ _ _ _ ?_).trans ?_)
    | with_reducible (refine (beginRead_keep _ _ _ _ _ ?_).trans ?_)
    | with_reducible (refine (check_keep _ _ _ _ ?_).trans ?_)
    | split
    | (simp [*]; done)
    | rw [State.takeBlock_keep ‹_›]
    | rw [State.appendPage_keep ‹_›]
    | rw [State.takeLogPage_keep ‹_›]

    | simp

@[simp] theorem State.shelfRound_keep (s : State) (query : Nat × Nat) (gen : Nat) (w : Walk) (reads : List Nat) :
    (s.shelfRound query gen w reads).keep = s.keep := by
  unfold State.shelfRound
  extract_lets g s1 s2 es
  rw [State.modCat_keep]
  refine (foldl_keep _ (fun _ _ => State.readNode_keep ..) _ _).trans ?_
  refine foldl_keep _ (fun s e => ?_) _ _
  refine (foldl_keep _ (fun _ _ => State.readNode_keep ..) _ _).trans ?_
  rw [State.modEngine_keep, State.readNode_keep]

@[simp] theorem State.memberRound_keep (s : State) (query : Nat × Nat) (p : SearchParams) (vector : Bytes) (snap : Snapshot) (list expand : Nat) (fuel : Nat × Nat) : (State.memberRound s query p vector snap list expand fuel).2.keep = s.keep := by
  simp [State.memberRound]

@[simp] theorem State.takeIds_keep (s : State) (first n : Nat) : (State.takeIds s first n).keep = s.keep := by
  simp [State.takeIds]

@[simp] theorem State.insertAll_keep (s : State) (k : Nat) (x : Collection) (first : Nat) (vs : List (Bytes × Nat)) : (State.insertAll s k x first vs).keep = s.keep := by
  simp [State.insertAll]

@[simp] theorem State.deviceInsert_keep (s : State) (k : Nat) (vs : List (Bytes × Nat)) : (State.deviceInsert s k vs).2.keep = s.keep := by
  unfold State.deviceInsert
  repeat' first | (simp; done) | split

/-! ### Reshelve -/

@[simp] theorem State.startReshelving_keep (s : State) (detail : Nat) (jobs : List Nat) : (State.startReshelving s detail jobs).keep = s.keep := by
  simp [State.startReshelving]

@[simp] theorem State.tryReshelving_keep (s : State) : (State.tryReshelving s).keep = s.keep := by
  simp [State.tryReshelving]

theorem execReshelve_keep (job : Nat) (s : State) : Keeps s (execReshelve job s) := by
  unfold execReshelve
  repeat' first
    | with_reducible rfl
    | intro _
    | with_reducible (refine (keeps_next _ _).2 ?_)
    | exact trivial
    | (simp; done)
    | with_reducible (refine (foldl_keep _ ?_ _ _).trans ?_)
    | with_reducible (refine (foldl_keep1 _ ?_ _ _).trans ?_)
    | with_reducible (refine (foldl_keep2 _ ?_ _ _).trans ?_)
    | with_reducible (refine (begin_keep _ _ _ _ ?_).trans ?_)
    | with_reducible (refine (beginRead_keep _ _ _ _ _ ?_).trans ?_)
    | with_reducible (refine (check_keep _ _ _ _ ?_).trans ?_)
    | split
    | (simp [*]; done)
    | rw [State.takeBlock_keep ‹_›]
    | rw [State.appendPage_keep ‹_›]
    | rw [State.takeLogPage_keep ‹_›]
    | rw [State.writeSegment_keep ‹_›]
    | rw [takeBlocks_keep ‹_›]
    | rw [writeSegments_keep ‹_›]

    | simp

theorem takeBlocks_keep {e f n : Nat} {s : State} {l : List Nat} {t : State} (h : takeBlocks e f n s = some (l, t)) : t.keep = s.keep := by
  induction f generalizing n s l t with
  | zero => unfold takeBlocks at h; injection h with h; injection h with _ h; rw [h]
  | succ f ih =>
    unfold takeBlocks at h
    split at h
    · injection h with h; injection h with _ h; rw [h]
    · split at h
      · injection h
      · split at h
        · injection h
        · injection h with h; injection h with _ h
          rw [← h, ih ‹_›, State.takeBlock_keep ‹_›]

theorem State.writeSegment_keep {s : State} {nodes : List (Nat × Node)} {gen e seg : Nat} {b : List Nat} {t : State} (h : s.writeSegment nodes gen e seg = some (b, t)) : t.keep = s.keep := by
  unfold State.writeSegment at h
  revert h
  dsimp only
  repeat' first
    | intro h; injection h with h; injection h with h1 h2; subst h2; simp; done
    | intro h; injection h with h; subst h; simp; done
    | (intro h; simp at h; done)
    | intro h; injection h with h; injection h with h1 h2; subst h2; with_reducible refine (foldl_keep2 _ ?_ _ _).trans ?_
    | intro h; injection h with h; subst h; with_reducible refine (foldl_keep _ ?_ _ _).trans ?_
    | with_reducible (refine (foldl_keep _ ?_ _ _).trans ?_)
    | with_reducible rfl
    | rw [State.takeBlock_keep ‹_›]
    | rw [State.appendPage_keep ‹_›]
    | rw [State.takeLogPage_keep ‹_›]
    | rw [State.writeSegment_keep ‹_›]
    | rw [takeBlocks_keep ‹_›]
    | rw [writeSegments_keep ‹_›]
    | split
    | simp
    | intro _

theorem writeSegments_keep {nodes : List (Nat × Node)} {gen : Nat} {en : Nat → Nat} {l : List Nat} {s : State} {x : List (Nat × List Nat)} {t : State} (h : writeSegments nodes gen en l s = some (x, t)) : t.keep = s.keep := by
  induction l generalizing s x t with
  | nil => unfold writeSegments at h; injection h with h; injection h with _ h; rw [h]
  | cons a l ih =>
    unfold writeSegments at h
    split at h
    · injection h
    · split at h
      · injection h
      · injection h with h; injection h with _ h
        rw [← h, ih ‹_›, State.writeSegment_keep ‹_›]

@[simp] theorem State.writeMetadata_keep (s : State) (g : Generation) : (s.writeMetadata g).keep = s.keep := by
  unfold State.writeMetadata
  refine foldl_keep _ (fun s e => foldl_keep _ (fun s p => ?_) _ _) _ _
  split
  · rfl
  · exact State.appendPage_keep ‹_›

@[simp] theorem State.freeBlocks_keep (s : State) (old new : Generation) : (State.freeBlocks s old new).keep = s.keep := by
  simp [State.freeBlocks]

@[simp] theorem State.releasePrevious_keep (s : State) : (State.releasePrevious s).keep = s.keep := by
  unfold State.releasePrevious
  repeat' first
    | with_reducible rfl
    | intro _
    | with_reducible (refine (keeps_next _ _).2 ?_)
    | exact trivial
    | (simp; done)
    | with_reducible (refine (foldl_keep _ ?_ _ _).trans ?_)
    | with_reducible (refine (foldl_keep1 _ ?_ _ _).trans ?_)
    | with_reducible (refine (foldl_keep2 _ ?_ _ _).trans ?_)
    | with_reducible (refine (begin_keep _ _ _ _ ?_).trans ?_)
    | with_reducible (refine (beginRead_keep _ _ _ _ _ ?_).trans ?_)
    | with_reducible (refine (check_keep _ _ _ _ ?_).trans ?_)
    | split
    | (simp [*]; done)
    | rw [State.takeBlock_keep ‹_›]
    | rw [State.appendPage_keep ‹_›]
    | rw [State.takeLogPage_keep ‹_›]
    | rw [State.writeSegment_keep ‹_›]
    | rw [takeBlocks_keep ‹_›]
    | rw [writeSegments_keep ‹_›]

    | simp

@[simp] theorem State.dropServed_keep (s : State) (member number : Nat) : (State.dropServed s member number).keep = s.keep := by
  simp [State.dropServed]

theorem execGenerationSwitched_keep (s : State) : Keeps s (execGenerationSwitched s) := by
  unfold execGenerationSwitched
  repeat' first
    | with_reducible rfl
    | intro _
    | with_reducible (refine (keeps_next _ _).2 ?_)
    | exact trivial
    | (simp; done)
    | with_reducible (refine (foldl_keep _ ?_ _ _).trans ?_)
    | with_reducible (refine (foldl_keep1 _ ?_ _ _).trans ?_)
    | with_reducible (refine (foldl_keep2 _ ?_ _ _).trans ?_)
    | with_reducible (refine (begin_keep _ _ _ _ ?_).trans ?_)
    | with_reducible (refine (beginRead_keep _ _ _ _ _ ?_).trans ?_)
    | with_reducible (refine (check_keep _ _ _ _ ?_).trans ?_)
    | split
    | (simp [*]; done)
    | rw [State.takeBlock_keep ‹_›]
    | rw [State.appendPage_keep ‹_›]
    | rw [State.takeLogPage_keep ‹_›]
    | rw [State.writeSegment_keep ‹_›]
    | rw [takeBlocks_keep ‹_›]
    | rw [writeSegments_keep ‹_›]

    | simp

@[simp] theorem State.endLogged_keep (s : State) (n : Nat) (durable : Bool) (e : Ending) : (State.endLogged s n durable e).keep = s.keep := by
  simp [State.endLogged]

theorem execInsert_keep (job : Nat) (buf : BufRead) (s : State) : Keeps s (execInsert job buf s) := by
  unfold execInsert
  repeat' first
    | with_reducible rfl
    | intro _
    | with_reducible (refine (keeps_next _ _).2 ?_)
    | exact trivial
    | (simp; done)
    | with_reducible (refine (foldl_keep _ ?_ _ _).trans ?_)
    | with_reducible (refine (foldl_keep1 _ ?_ _ _).trans ?_)
    | with_reducible (refine (foldl_keep2 _ ?_ _ _).trans ?_)
    | with_reducible (refine (begin_keep _ _ _ _ ?_).trans ?_)
    | with_reducible (refine (beginRead_keep _ _ _ _ _ ?_).trans ?_)
    | with_reducible (refine (check_keep _ _ _ _ ?_).trans ?_)
    | split
    | (simp [*]; done)
    | rw [State.takeBlock_keep ‹_›]
    | rw [State.appendPage_keep ‹_›]
    | rw [State.takeLogPage_keep ‹_›]
    | rw [State.writeSegment_keep ‹_›]
    | rw [takeBlocks_keep ‹_›]
    | rw [writeSegments_keep ‹_›]

    | simp

@[simp] theorem State.runDelete_keep (s : State) (d : WaitingDelete) : (State.runDelete s d).keep = s.keep := by
  unfold State.runDelete
  repeat' first
    | with_reducible rfl
    | intro _
    | with_reducible (refine (keeps_next _ _).2 ?_)
    | exact trivial
    | (simp; done)
    | with_reducible (refine (foldl_keep _ ?_ _ _).trans ?_)
    | with_reducible (refine (foldl_keep1 _ ?_ _ _).trans ?_)
    | with_reducible (refine (foldl_keep2 _ ?_ _ _).trans ?_)
    | with_reducible (refine (begin_keep _ _ _ _ ?_).trans ?_)
    | with_reducible (refine (beginRead_keep _ _ _ _ _ ?_).trans ?_)
    | with_reducible (refine (check_keep _ _ _ _ ?_).trans ?_)
    | split
    | (simp [*]; done)
    | rw [State.takeBlock_keep ‹_›]
    | rw [State.appendPage_keep ‹_›]
    | rw [State.takeLogPage_keep ‹_›]
    | rw [State.writeSegment_keep ‹_›]
    | rw [takeBlocks_keep ‹_›]
    | rw [writeSegments_keep ‹_›]

    | simp

theorem execDelete_keep (job : Nat) (buf : BufRead) (s : State) : Keeps s (execDelete job buf s) := by
  simp [execDelete]

@[simp] theorem State.pushDeletes_keep (s : State) : (State.pushDeletes s).keep = s.keep := by
  simp [State.pushDeletes]

theorem execDeleteFold_keep (s : State) : Keeps s (execDeleteFold s) := by
  unfold execDeleteFold
  repeat' first | (simp; done) | split

@[simp] theorem State.define_keep (s : State) (k : Nat) (x : Collection) : (State.define s k x).keep = s.keep := by
  simp [State.define]

@[simp] theorem State.sendDefinition_keep (s : State) (m job k : Nat) (x : Collection) : (State.sendDefinition s m job k x).keep = s.keep := by
  simp [State.sendDefinition]

@[simp] theorem State.definitionAnswer_keep (s : State) (job member : Nat) (ok : Bool) : (State.definitionAnswer s job member ok).keep = s.keep := by
  unfold State.definitionAnswer
  repeat' first | (simp; done) | split

theorem execSetCollection_keep (job : Nat) (buf : BufRead) (s : State) : Keeps s (execSetCollection job buf s) := by
  simp [execSetCollection]

theorem execQueryCatalogue_keep (job : Nat) (s : State) : Keeps s (execQueryCatalogue job s) := by
  simp [execQueryCatalogue]

theorem execSetShelfPolicy_keep (job : Nat) (s : State) : Keeps s (execSetShelfPolicy job s) := by
  simp [execSetShelfPolicy]

/-! ### Search -/

@[simp] theorem State.askRound_keep (s : State) (m number : Nat) (x : Search) : (State.askRound s m number x).keep = s.keep := by
  simp [State.askRound]

@[simp] theorem State.askAll_keep (s : State) (number : Nat) (x : Search) : (State.askAll s number x).keep = s.keep := by
  simp [State.askAll]

@[simp] theorem State.startSearch_keep (s : State) (o : SearchOwner) (p : SearchParams) (vector : Bytes) : (State.startSearch s o p vector).2.keep = s.keep := by
  simp [State.startSearch]

theorem execSearch_keep (job : Nat) (buf : BufRead) (s : State) : Keeps s (execSearch job buf s) := by
  simp [execSearch]

theorem State.fixSnapshot_keep {s : State} {member number : Nat} {x : Snapshot} {t : State} (h : s.fixSnapshot member number = some (x, t)) : t.keep = s.keep := by
  unfold State.fixSnapshot at h
  split at h
  · injection h with h; injection h with _ h; subst h; rfl
  · split at h
    · cases h
    · injection h with h; injection h with _ h; subst h; simp

@[simp] theorem State.keepResult_keep (s : State) (number : Nat) (r : MemberResult) : (State.keepResult s number r).keep = s.keep := by
  simp [State.keepResult]

theorem execSearchRequest_keep (issuer number : Nat) (remote : Option RemoteSearch) (s : State) : Keeps s (execSearchRequest issuer number remote s) := by
  unfold execSearchRequest
  refine (keeps_next _ _).2 ?_
  split
  · split
    · rfl
    · split
      · rfl
      · split
        · rfl
        · simp [State.fixSnapshot_keep ‹_›]
  · split
    · rfl
    · split
      · rfl
      · split
        · rfl
        · simp [State.fixSnapshot_keep ‹_›]

@[simp] theorem State.leaveSearch_keep (s : State) (number : Nat) (x : Search) (e : SearchEnd) : (State.leaveSearch s number x e).keep = s.keep := by
  simp [State.leaveSearch]

@[simp] theorem State.endSearchJob_keep (s : State) (n : Nat) (x : Search) (e : SearchEnd) : (State.endSearchJob s n x e).keep = s.keep := by
  simp [State.endSearchJob]

@[simp] theorem State.judgeSearch_keep (s : State) (number : Nat) (x : Search) : (State.judgeSearch s number x).1.keep = s.keep := by
  unfold State.judgeSearch
  repeat' first | (simp; done) | split

@[simp] theorem State.cutSearch_keep (s : State) (number : Nat) (x : Search) (own : Nat × Nat) : (s.cutSearch number x own).1.keep = s.keep := by
  unfold State.cutSearch
  split
  · rfl
  · split
    · rfl
    · split
      · rfl
      · next heq => exact (State.memberRound_keep ..).trans (State.fixSnapshot_keep heq)

/-! ### Sessions -/

@[simp] theorem State.modSessions_keep (s : State) (f : Sessions → Sessions) : (State.modSessions s f).keep = s.keep := by
  simp [State.modSessions]

@[simp] theorem State.setSession_keep (s : State) (i : Nat) (x : Session) : (State.setSession s i x).keep = s.keep := by
  simp [State.setSession]

@[simp] theorem State.modSession_keep (s : State) (i : Nat) (f : Session → Session) : (State.modSession s i f).keep = s.keep := by
  unfold State.modSession
  repeat' first | (simp; done) | split

@[simp] theorem State.sessionEvent_keep (s : State) (i : Nat) (e : EventIn) : (State.sessionEvent s i e).keep = s.keep := by
  unfold State.sessionEvent
  repeat' first | (simp; done) | split

@[simp] theorem State.touchHead_keep (s : State) (i : Nat) : (State.touchHead s i).keep = s.keep := by
  simp [State.touchHead]

@[simp] theorem State.partNotOpen_keep (s : State) : (State.partNotOpen s).keep = s.keep := by
  simp [State.partNotOpen]

@[simp] theorem State.sessionViolation_keep (s : State) (i reason source : Nat) : (State.sessionViolation s i reason source).keep = s.keep := by
  unfold State.sessionViolation
  repeat' first | (simp; done) | split

@[simp] theorem State.postLink_keep (s : State) (dest queue : Nat) (b : Bytes) : (State.postLink s dest queue b).keep = s.keep := by
  simp [State.postLink]

@[simp] theorem State.sendAnswer_keep (s : State) (i : Nat) (q : Query) (a : AnswerIn) : (State.sendAnswer s i q a).keep = s.keep := by
  unfold State.sendAnswer
  repeat' first | (simp; done) | split

@[simp] theorem State.dropQuery_keep (s : State) (i reason seq : Nat) (dest : AnswerTo) : (State.dropQuery s i reason seq dest).keep = s.keep := by
  unfold State.dropQuery
  repeat' first | (simp; done) | split

@[simp] theorem State.violatePart_keep (s : State) (i reason source seq : Nat) (dest : AnswerTo) : (State.violatePart s i reason source seq dest).keep = s.keep := by
  simp [State.violatePart]

@[simp] theorem State.violateQuery_keep (s : State) (i : Nat) (q : Query) (code reason : Nat) : (State.violateQuery s i q code reason).keep = s.keep := by
  simp [State.violateQuery]

@[simp] theorem State.tellSessions_keep (s : State) : (State.tellSessions s).keep = s.keep := by
  simp [State.tellSessions]

@[simp] theorem State.makeStackQueue_keep (s : State) (q : Nat) (kind : QKind) (id : Nat) : (State.makeStackQueue s q kind id).keep = s.keep := by
  simp [State.makeStackQueue]

@[simp] theorem State.dropStackQueue_keep (s : State) (q : Nat) : (State.dropStackQueue s q).keep = s.keep := by
  simp [State.dropStackQueue]

theorem State.openHere_keep {s : State} {b : Bytes} {n : Nat} {t : State} (h : s.openHere b = .inr (n, t)) : t.keep = s.keep := by
  unfold State.openHere at h
  extract_lets wrapped d0 key q queueOk at h
  clear_value key queueOk
  split at h
  · injection h
  · split at h
    · injection h
    · split at h
      · injection h
      · split at h
        · injection h
        · extract_lets d x s1 s2 at h
          have h1 : s1.keep = s.keep := (State.modSessions_keep _ _).trans (State.draw_keep _)
          have h2 : s2.keep = s.keep := by unfold s2; split; exact h1; rw [State.makeStackQueue_keep, State.makeStackQueue_keep, h1]
          clear_value s2
          have h := Sum.inr.inj h
          have h := (Prod.mk.inj h).2
          rw [← h]
          rw [State.reviewBounds_keep, State.tellSessions_keep, State.dropEditions_keep, h2]

theorem execOpenSession_keep (job : Nat) (buf : BufRead) (s : State) : Keeps s (execOpenSession job buf s) := by
  unfold execOpenSession
  refine (keeps_next _ _).2 (beginRead_keep _ _ _ _ _ fun j b s => ?_)
  split
  · exact State.finish_keep _ _ _
  · split
    · rw [State.finish_keep, State.pinBound_keep]
    · split
      · exact State.finish_keep _ _ _
      · split
        · split
          · exact State.finish_keep _ _ _
          · next heq => rw [State.finish_keep, State.openHere_keep heq]
        · rw [State.control_keep, State.modSessions_keep]

@[simp] theorem State.freeSession_keep (s : State) (i : Nat) : (State.freeSession s i).keep = s.keep := by
  unfold State.freeSession
  repeat' first | (simp; done) | split

@[simp] theorem State.freeIfDone_keep (s : State) (i : Nat) : (State.freeIfDone s i).keep = s.keep := by
  unfold State.freeIfDone
  repeat' first | (simp; done) | split

@[simp] theorem State.startClose_keep (s : State) (i : Nat) (job : Option Nat) : (State.startClose s i job).keep = s.keep := by
  simp [State.startClose]

@[simp] theorem State.onSession_keep (s : State) (j : Job) (used : List (Nat × Nat)) (k : Nat → Session → State → State)
    (hk : ∀ n x s, (k n x s).keep = s.keep) : (s.onSession j used k).keep = s.keep := by
  unfold State.onSession
  split
  · simp
  · split
    · simp
    · exact hk _ _ _

theorem execCloseSession_keep (job : Nat) (s : State) : Keeps s (execCloseSession job s) := by
  simp [execCloseSession]

theorem execSessionExpired_keep (index : Nat) (s : State) : Keeps s (execSessionExpired index s) := by
  unfold execSessionExpired
  repeat' first | (simp; done) | split

theorem execQuerySession_keep (job : Nat) (s : State) : Keeps s (execQuerySession job s) := by
  simp [execQuerySession]

theorem execSetSession_keep (job : Nat) (s : State) : Keeps s (execSetSession job s) := by
  simp [execSetSession]

theorem execSeedPose_keep (job : Nat) (buf : BufRead) (s : State) : Keeps s (execSeedPose job buf s) := by
  simp [execSeedPose]

@[simp] theorem State.closeQuery_keep (s : State) (i : Nat) (complete : Bool) : (State.closeQuery s i complete).keep = s.keep := by
  unfold State.closeQuery
  repeat' first | (simp; done) | split

@[simp] theorem State.takePart_keep (s : State) (i : Nat) (b : Bytes) (time source : Nat) (dest : AnswerTo) : (State.takePart s i b time source dest).keep = s.keep := by
  unfold State.takePart
  repeat' first
    | with_reducible rfl
    | intro _
    | with_reducible (refine (keeps_next _ _).2 ?_)
    | exact trivial
    | (simp; done)
    | with_reducible (refine (foldl_keep _ ?_ _ _).trans ?_)
    | with_reducible (refine (foldl_keep1 _ ?_ _ _).trans ?_)
    | with_reducible (refine (foldl_keep2 _ ?_ _ _).trans ?_)
    | with_reducible (refine (begin_keep _ _ _ _ ?_).trans ?_)
    | with_reducible (refine (beginRead_keep _ _ _ _ _ ?_).trans ?_)
    | with_reducible (refine (check_keep _ _ _ _ ?_).trans ?_)
    | split
    | (simp [*]; done)
    | rw [State.takeBlock_keep ‹_›]
    | rw [State.appendPage_keep ‹_›]
    | rw [State.takeLogPage_keep ‹_›]
    | rw [State.queueMap_keep ‹_›]
    | rw [State.writeSegment_keep ‹_›]
    | rw [State.fixSnapshot_keep ‹_›]
    | rw [State.openHere_keep ‹_›]
    | rw [State.consume_keep ‹_›]
    | rw [State.newSheets_keep ‹_›]
    | rw [takeBlocks_keep ‹_›]
    | rw [writeSegments_keep ‹_›]
    | rw [State.queueSolve_keep ‹_›]

    | simp

@[simp] theorem State.arrivePart_keep (s : State) (port time : Nat) (frame : Bytes) (dest : Parsed → AnswerTo) : (State.arrivePart s port time frame dest).keep = s.keep := by
  unfold State.arrivePart
  repeat' first
    | with_reducible rfl
    | intro _
    | with_reducible (refine (keeps_next _ _).2 ?_)
    | exact trivial
    | (simp; done)
    | with_reducible (refine (foldl_keep _ ?_ _ _).trans ?_)
    | with_reducible (refine (foldl_keep1 _ ?_ _ _).trans ?_)
    | with_reducible (refine (foldl_keep2 _ ?_ _ _).trans ?_)
    | with_reducible (refine (begin_keep _ _ _ _ ?_).trans ?_)
    | with_reducible (refine (beginRead_keep _ _ _ _ _ ?_).trans ?_)
    | with_reducible (refine (check_keep _ _ _ _ ?_).trans ?_)
    | split
    | (simp [*]; done)
    | rw [State.takeBlock_keep ‹_›]
    | rw [State.appendPage_keep ‹_›]
    | rw [State.takeLogPage_keep ‹_›]
    | rw [State.queueMap_keep ‹_›]
    | rw [State.writeSegment_keep ‹_›]
    | rw [State.fixSnapshot_keep ‹_›]
    | rw [State.openHere_keep ‹_›]
    | rw [State.consume_keep ‹_›]
    | rw [State.newSheets_keep ‹_›]
    | rw [takeBlocks_keep ‹_›]
    | rw [writeSegments_keep ‹_›]
    | rw [State.queueSolve_keep ‹_›]

    | simp

@[simp] theorem State.postedPart_keep (s : State) (member : Nat) (b : Bytes) : (State.postedPart s member b).keep = s.keep := by
  simp [State.postedPart]

@[simp] theorem State.postedAnswer_keep (s : State) (b : Bytes) : (State.postedAnswer s b).keep = s.keep := by
  simp [State.postedAnswer]

theorem execQueryPart_keep (port : Nat) (s : State) : Keeps s (execQueryPart port s) := by
  unfold execQueryPart
  repeat' first | (simp; done) | split

theorem execQueryAssemblyTimeout_keep (index : Nat) (s : State) : Keeps s (execQueryAssemblyTimeout index s) := by
  unfold execQueryAssemblyTimeout
  repeat' first | (simp; done) | split

theorem execSubmitQuery_keep (job : Nat) (buf : BufRead) (s : State) : Keeps s (execSubmitQuery job buf s) := by
  unfold execSubmitQuery
  repeat' first
    | with_reducible rfl
    | intro _
    | with_reducible (refine (keeps_next _ _).2 ?_)
    | exact trivial
    | (simp; done)
    | with_reducible (refine (foldl_keep _ ?_ _ _).trans ?_)
    | with_reducible (refine (foldl_keep1 _ ?_ _ _).trans ?_)
    | with_reducible (refine (foldl_keep2 _ ?_ _ _).trans ?_)
    | with_reducible (refine (begin_keep _ _ _ _ ?_).trans ?_)
    | with_reducible (refine (beginRead_keep _ _ _ _ _ ?_).trans ?_)
    | with_reducible (refine (check_keep _ _ _ _ ?_).trans ?_)
    | split
    | (simp [*]; done)
    | rw [State.takeBlock_keep ‹_›]
    | rw [State.appendPage_keep ‹_›]
    | rw [State.takeLogPage_keep ‹_›]
    | rw [State.queueMap_keep ‹_›]
    | rw [State.writeSegment_keep ‹_›]
    | rw [State.fixSnapshot_keep ‹_›]
    | rw [State.openHere_keep ‹_›]
    | rw [State.consume_keep ‹_›]
    | rw [State.newSheets_keep ‹_›]
    | rw [takeBlocks_keep ‹_›]
    | rw [writeSegments_keep ‹_›]
    | rw [State.queueSolve_keep ‹_›]

    | simp

@[simp] theorem State.endQuery_keep (s : State) (i : Nat) (v : Service) (e : QueryEnd) : (State.endQuery s i v e).keep = s.keep := by
  unfold State.endQuery
  repeat' first | (simp; done) | split

@[simp] theorem State.endLost_keep (s : State) (i : Nat) (x : Session) (v : Service) : (State.endLost s i x v).keep = s.keep := by
  simp [State.endLost]

@[simp] theorem State.serveStep_keep (s : State) (i : Nat) (v : Service) : (State.serveStep s i v).keep = s.keep := by
  simp [State.serveStep]

@[simp] theorem State.relocalise_keep (s : State) (i : Nat) (v : Service) : (State.relocalise s i v).keep = s.keep := by
  unfold State.relocalise
  repeat' first | (simp; done) | split

@[simp] theorem State.sessionFound_keep (s : State) (i number : Nat) (hits : List SearchHit) : (State.sessionFound s i number hits).keep = s.keep := by
  unfold State.sessionFound
  repeat' first | (simp; done) | split

@[simp] theorem State.discardService_keep (s : State) (i : Nat) : (State.discardService s i).keep = s.keep := by
  unfold State.discardService
  repeat' first
    | with_reducible rfl
    | intro _
    | with_reducible (refine (keeps_next _ _).2 ?_)
    | exact trivial
    | (simp; done)
    | with_reducible (refine (foldl_keep _ ?_ _ _).trans ?_)
    | with_reducible (refine (foldl_keep1 _ ?_ _ _).trans ?_)
    | with_reducible (refine (foldl_keep2 _ ?_ _ _).trans ?_)
    | with_reducible (refine (begin_keep _ _ _ _ ?_).trans ?_)
    | with_reducible (refine (beginRead_keep _ _ _ _ _ ?_).trans ?_)
    | with_reducible (refine (check_keep _ _ _ _ ?_).trans ?_)
    | split
    | (simp [*]; done)
    | rw [State.takeBlock_keep ‹_›]
    | rw [State.appendPage_keep ‹_›]
    | rw [State.takeLogPage_keep ‹_›]
    | rw [State.queueMap_keep ‹_›]
    | rw [State.writeSegment_keep ‹_›]
    | rw [State.fixSnapshot_keep ‹_›]
    | rw [State.openHere_keep ‹_›]
    | rw [State.consume_keep ‹_›]
    | rw [State.newSheets_keep ‹_›]
    | rw [takeBlocks_keep ‹_›]
    | rw [writeSegments_keep ‹_›]
    | rw [State.queueSolve_keep ‹_›]

    | simp

@[simp] theorem State.answerDiscarded_keep (s : State) (i : Nat) (q : Query) (closed : Bool) : (State.answerDiscarded s i q closed).keep = s.keep := by
  simp [State.answerDiscarded]

@[simp] theorem State.discardAssembling_keep (s : State) (i : Nat) : (State.discardAssembling s i).keep = s.keep := by
  unfold State.discardAssembling
  repeat' first | (simp; done) | split

@[simp] theorem State.discardClosed_keep (s : State) (i : Nat) (q : Query) : (State.discardClosed s i q).keep = s.keep := by
  unfold State.discardClosed
  repeat' first | (simp; done) | split

theorem State.consume_keep {s : State} {i : Nat} {es : List Nat} {t : State} (h : s.consume i es = some t) : t.keep = s.keep := by
  unfold State.consume at h
  revert h
  dsimp only
  repeat' first
    | intro h; injection h with h; injection h with h1 h2; subst h2; simp; done
    | intro h; injection h with h; subst h; simp; done
    | (intro h; simp at h; done)
    | intro h; injection h with h; injection h with h1 h2; subst h2; with_reducible refine (foldl_keep2 _ ?_ _ _).trans ?_
    | intro h; injection h with h; subst h; with_reducible refine (foldl_keep _ ?_ _ _).trans ?_
    | with_reducible (refine (foldl_keep _ ?_ _ _).trans ?_)
    | with_reducible rfl
    | rw [State.takeBlock_keep ‹_›]
    | rw [State.appendPage_keep ‹_›]
    | rw [State.takeLogPage_keep ‹_›]
    | rw [State.queueMap_keep ‹_›]
    | rw [State.writeSegment_keep ‹_›]
    | rw [State.fixSnapshot_keep ‹_›]
    | rw [State.openHere_keep ‹_›]
    | rw [State.consume_keep ‹_›]
    | rw [State.newSheets_keep ‹_›]
    | rw [takeBlocks_keep ‹_›]
    | rw [writeSegments_keep ‹_›]
    | rw [State.queueSolve_keep ‹_›]
    | split
    | simp
    | intro _

@[simp] theorem State.sendBulk_keep (s : State) (dest channel offset : Nat) (b : Bytes) : (State.sendBulk s dest channel offset b).keep = s.keep := by
  simp [State.sendBulk]

@[simp] theorem State.askHolder_keep (s : State) (i m : Nat) (d : SessionDesc) (v : Service) (pose : Pose) : (State.askHolder s i m d v pose).keep = s.keep := by
  simp [State.askHolder]

@[simp] theorem State.trackQuery_keep (s : State) (i : Nat) (x : Session) (v : Service) (f : Filter) : (State.trackQuery s i x v f).keep = s.keep := by
  unfold State.trackQuery
  repeat' first
    | with_reducible rfl
    | intro _
    | with_reducible (refine (keeps_next _ _).2 ?_)
    | exact trivial
    | (simp; done)
    | with_reducible (refine (foldl_keep _ ?_ _ _).trans ?_)
    | with_reducible (refine (foldl_keep1 _ ?_ _ _).trans ?_)
    | with_reducible (refine (foldl_keep2 _ ?_ _ _).trans ?_)
    | with_reducible (refine (begin_keep _ _ _ _ ?_).trans ?_)
    | with_reducible (refine (beginRead_keep _ _ _ _ _ ?_).trans ?_)
    | with_reducible (refine (check_keep _ _ _ _ ?_).trans ?_)
    | split
    | (simp [*]; done)
    | rw [State.takeBlock_keep ‹_›]
    | rw [State.appendPage_keep ‹_›]
    | rw [State.takeLogPage_keep ‹_›]
    | rw [State.queueMap_keep ‹_›]
    | rw [State.writeSegment_keep ‹_›]
    | rw [State.fixSnapshot_keep ‹_›]
    | rw [State.openHere_keep ‹_›]
    | rw [State.consume_keep ‹_›]
    | rw [State.newSheets_keep ‹_›]
    | rw [takeBlocks_keep ‹_›]
    | rw [writeSegments_keep ‹_›]
    | rw [State.queueSolve_keep ‹_›]

    | simp

@[simp] theorem State.serve_keep (s : State) (i : Nat) (x : Session) (q : Query) (keypoints : List Keypoint) (place : Bytes) : (State.serve s i x q keypoints place).keep = s.keep := by
  unfold State.serve
  repeat' first
    | with_reducible rfl
    | intro _
    | with_reducible (refine (keeps_next _ _).2 ?_)
    | exact trivial
    | (simp; done)
    | with_reducible (refine (foldl_keep _ ?_ _ _).trans ?_)
    | with_reducible (refine (foldl_keep1 _ ?_ _ _).trans ?_)
    | with_reducible (refine (foldl_keep2 _ ?_ _ _).trans ?_)
    | with_reducible (refine (begin_keep _ _ _ _ ?_).trans ?_)
    | with_reducible (refine (beginRead_keep _ _ _ _ _ ?_).trans ?_)
    | with_reducible (refine (check_keep _ _ _ _ ?_).trans ?_)
    | split
    | (simp [*]; done)
    | rw [State.takeBlock_keep ‹_›]
    | rw [State.appendPage_keep ‹_›]
    | rw [State.takeLogPage_keep ‹_›]
    | rw [State.queueMap_keep ‹_›]
    | rw [State.writeSegment_keep ‹_›]
    | rw [State.fixSnapshot_keep ‹_›]
    | rw [State.openHere_keep ‹_›]
    | rw [State.consume_keep ‹_›]
    | rw [State.newSheets_keep ‹_›]
    | rw [takeBlocks_keep ‹_›]
    | rw [writeSegments_keep ‹_›]
    | rw [State.queueSolve_keep ‹_›]

    | simp

theorem execQueryServe_keep (index : Nat) (keypoints : List Keypoint) (place : Bytes) (s : State) : Keeps s (execQueryServe index keypoints place s) := by
  unfold execQueryServe
  repeat' first | (simp; done) | split

theorem execRemoteMatchRequest_keep (source session seq edition : Nat) (cut : List (Nat × Nat)) (sheets : List Nat) (camera pose : Bytes) (keypoints : List Keypoint) (s : State) : Keeps s (execRemoteMatchRequest source session seq edition cut sheets camera pose keypoints s) := by
  unfold execRemoteMatchRequest
  repeat' first | (simp; done) | split

@[simp] theorem State.holderDone_keep (s : State) (i member : Nat) (gone : Bool) : (State.holderDone s i member gone).keep = s.keep := by
  unfold State.holderDone
  repeat' first | (simp; done) | split

theorem execRemoteMatchAnswer_keep (index member seq : Nat) (matches_ : Bytes) (missing : List Nat) (s : State) : Keeps s (execRemoteMatchAnswer index member seq matches_ missing s) := by
  unfold execRemoteMatchAnswer
  repeat' first | (simp; done) | split

@[simp] theorem State.endTracking_keep (s : State) (i : Nat) (x : Session) (v : Service) (f : Filter) : (State.endTracking s i x v f).keep = s.keep := by
  unfold State.endTracking
  repeat' first
    | with_reducible rfl
    | intro _
    | with_reducible (refine (keeps_next _ _).2 ?_)
    | exact trivial
    | (simp; done)
    | with_reducible (refine (foldl_keep _ ?_ _ _).trans ?_)
    | with_reducible (refine (foldl_keep1 _ ?_ _ _).trans ?_)
    | with_reducible (refine (foldl_keep2 _ ?_ _ _).trans ?_)
    | with_reducible (refine (begin_keep _ _ _ _ ?_).trans ?_)
    | with_reducible (refine (beginRead_keep _ _ _ _ _ ?_).trans ?_)
    | with_reducible (refine (check_keep _ _ _ _ ?_).trans ?_)
    | split
    | (simp [*]; done)
    | rw [State.takeBlock_keep ‹_›]
    | rw [State.appendPage_keep ‹_›]
    | rw [State.takeLogPage_keep ‹_›]
    | rw [State.queueMap_keep ‹_›]
    | rw [State.writeSegment_keep ‹_›]
    | rw [State.fixSnapshot_keep ‹_›]
    | rw [State.openHere_keep ‹_›]
    | rw [State.consume_keep ‹_›]
    | rw [State.newSheets_keep ‹_›]
    | rw [takeBlocks_keep ‹_›]
    | rw [writeSegments_keep ‹_›]
    | rw [State.queueSolve_keep ‹_›]

    | simp

@[simp] theorem State.endCandidate_keep (s : State) (i : Nat) (x : Session) (v : Service) (kf : Nat) (rest : List Nat) : (State.endCandidate s i x v kf rest).keep = s.keep := by
  unfold State.endCandidate
  repeat' first
    | with_reducible rfl
    | intro _
    | with_reducible (refine (keeps_next _ _).2 ?_)
    | exact trivial
    | (simp; done)
    | with_reducible (refine (foldl_keep _ ?_ _ _).trans ?_)
    | with_reducible (refine (foldl_keep1 _ ?_ _ _).trans ?_)
    | with_reducible (refine (foldl_keep2 _ ?_ _ _).trans ?_)
    | with_reducible (refine (begin_keep _ _ _ _ ?_).trans ?_)
    | with_reducible (refine (beginRead_keep _ _ _ _ _ ?_).trans ?_)
    | with_reducible (refine (check_keep _ _ _ _ ?_).trans ?_)
    | split
    | (simp [*]; done)
    | rw [State.takeBlock_keep ‹_›]
    | rw [State.appendPage_keep ‹_›]
    | rw [State.takeLogPage_keep ‹_›]
    | rw [State.queueMap_keep ‹_›]
    | rw [State.writeSegment_keep ‹_›]
    | rw [State.fixSnapshot_keep ‹_›]
    | rw [State.openHere_keep ‹_›]
    | rw [State.consume_keep ‹_›]
    | rw [State.newSheets_keep ‹_›]
    | rw [takeBlocks_keep ‹_›]
    | rw [writeSegments_keep ‹_›]
    | rw [State.queueSolve_keep ‹_›]

    | simp

theorem execSmallSolveEnd_keep (index : Nat) (s : State) : Keeps s (execSmallSolveEnd index s) := by
  unfold execSmallSolveEnd
  repeat' first | (simp; done) | split

theorem execBestEffortTimeout_keep (index : Nat) (s : State) : Keeps s (execBestEffortTimeout index s) := by
  unfold execBestEffortTimeout
  repeat' first | (simp; done) | split

/-! ### FrameStages -/

@[simp] theorem State.insertKeyframe_keep (s : State) (id : Nat) (features : List Keypoint) (place : Bytes) : (State.insertKeyframe s id features place).2.2.keep = s.keep := by
  simp [State.insertKeyframe]

@[simp] theorem State.addKeyframe_keep (s : State) (k : Nat) (g : Graph) (r : FrameRun) (f : Frame) (place batch : Bytes) (marks : List Nat) : (State.addKeyframe s k g r f place batch marks).keep = s.keep := by
  unfold State.addKeyframe
  repeat' first
    | with_reducible rfl
    | intro _
    | with_reducible (refine (keeps_next _ _).2 ?_)
    | exact trivial
    | (simp; done)
    | with_reducible (refine (foldl_keep _ ?_ _ _).trans ?_)
    | with_reducible (refine (foldl_keep1 _ ?_ _ _).trans ?_)
    | with_reducible (refine (foldl_keep2 _ ?_ _ _).trans ?_)
    | with_reducible (refine (begin_keep _ _ _ _ ?_).trans ?_)
    | with_reducible (refine (beginRead_keep _ _ _ _ _ ?_).trans ?_)
    | with_reducible (refine (check_keep _ _ _ _ ?_).trans ?_)
    | split
    | (simp [*]; done)
    | rw [State.takeBlock_keep ‹_›]
    | rw [State.appendPage_keep ‹_›]
    | rw [State.takeLogPage_keep ‹_›]
    | rw [State.queueMap_keep ‹_›]
    | rw [State.writeSegment_keep ‹_›]
    | rw [State.fixSnapshot_keep ‹_›]
    | rw [State.openHere_keep ‹_›]
    | rw [State.consume_keep ‹_›]
    | rw [State.newSheets_keep ‹_›]
    | rw [takeBlocks_keep ‹_›]
    | rw [writeSegments_keep ‹_›]
    | rw [State.queueSolve_keep ‹_›]

    | simp

@[simp] theorem State.keyframeStage_keep (s : State) (k : Nat) (g : Graph) (r : FrameRun) (place batch : Bytes) (marks : List Nat) : (State.keyframeStage s k g r place batch marks).keep = s.keep := by
  unfold State.keyframeStage
  repeat' first
    | with_reducible rfl
    | intro _
    | with_reducible (refine (keeps_next _ _).2 ?_)
    | exact trivial
    | (simp; done)
    | with_reducible (refine (foldl_keep _ ?_ _ _).trans ?_)
    | with_reducible (refine (foldl_keep1 _ ?_ _ _).trans ?_)
    | with_reducible (refine (foldl_keep2 _ ?_ _ _).trans ?_)
    | with_reducible (refine (begin_keep _ _ _ _ ?_).trans ?_)
    | with_reducible (refine (beginRead_keep _ _ _ _ _ ?_).trans ?_)
    | with_reducible (refine (check_keep _ _ _ _ ?_).trans ?_)
    | split
    | (simp [*]; done)
    | rw [State.takeBlock_keep ‹_›]
    | rw [State.appendPage_keep ‹_›]
    | rw [State.takeLogPage_keep ‹_›]
    | rw [State.queueMap_keep ‹_›]
    | rw [State.writeSegment_keep ‹_›]
    | rw [State.fixSnapshot_keep ‹_›]
    | rw [State.openHere_keep ‹_›]
    | rw [State.consume_keep ‹_›]
    | rw [State.newSheets_keep ‹_›]
    | rw [takeBlocks_keep ‹_›]
    | rw [writeSegments_keep ‹_›]
    | rw [State.queueSolve_keep ‹_›]

    | simp

theorem execFrameStageEnd_keep (stream number : Nat) (field : Option Bytes) (features : List Keypoint) (place batch : Bytes) (marks : List Nat) (poisoned : Bool) (s : State) : Keeps s (execFrameStageEnd stream number field features place batch marks poisoned s) := by
  unfold execFrameStageEnd
  repeat' first | (simp; done) | split

@[simp] theorem State.verifyLoop_keep (s : State) (v : Edition) (keypoints : List Keypoint) (l : List Nat) : (s.verifyLoop v keypoints l).1.keep = s.keep := by
  induction l generalizing s with
  | nil => unfold State.verifyLoop; with_reducible rfl
  | cons a l ih =>
  unfold State.verifyLoop
  repeat' first
    | with_reducible rfl
    | intro _
    | with_reducible (refine (keeps_next _ _).2 ?_)
    | exact trivial
    | (simp [ih]; done)
    | with_reducible (refine (foldl_keep _ ?_ _ _).trans ?_)
    | with_reducible (refine (foldl_keep1 _ ?_ _ _).trans ?_)
    | with_reducible (refine (foldl_keep2 _ ?_ _ _).trans ?_)
    | with_reducible (refine (begin_keep _ _ _ _ ?_).trans ?_)
    | with_reducible (refine (beginRead_keep _ _ _ _ _ ?_).trans ?_)
    | with_reducible (refine (check_keep _ _ _ _ ?_).trans ?_)
    | split
    | (simp [*]; done)
    | rw [State.takeBlock_keep ‹_›]
    | rw [State.appendPage_keep ‹_›]
    | rw [State.takeLogPage_keep ‹_›]
    | rw [State.queueMap_keep ‹_›]
    | rw [State.writeSegment_keep ‹_›]
    | rw [State.fixSnapshot_keep ‹_›]
    | rw [State.openHere_keep ‹_›]
    | rw [State.consume_keep ‹_›]
    | rw [State.newSheets_keep ‹_›]
    | rw [takeBlocks_keep ‹_›]
    | rw [writeSegments_keep ‹_›]
    | rw [State.queueSolve_keep ‹_›]

    | simp

@[simp] theorem State.loopFound_keep (s : State) (keyframe : Nat) (hits : List SearchHit) : (s.loopFound keyframe hits).keep = s.keep := by
  unfold State.loopFound
  extract_lets keypoints src s1 v
  have h1 : s1.keep = s.keep := rfl
  split
  · exact h1
  · split
    · exact (fst_keep ‹_› (State.verifyLoop_keep _ _ _ _)).trans h1
    · have h2 := (fst_keep ‹_› (State.verifyLoop_keep _ _ _ _)).trans h1
      simp [h2]

@[simp] theorem State.searchEnded_keep (s : State) (number : Nat) (x : Search) (e : SearchEnd) : (State.searchEnded s number x e).keep = s.keep := by
  unfold State.searchEnded
  repeat' first
    | with_reducible rfl
    | intro _
    | with_reducible (refine (keeps_next _ _).2 ?_)
    | exact trivial
    | (simp; done)
    | with_reducible (refine (foldl_keep _ ?_ _ _).trans ?_)
    | with_reducible (refine (foldl_keep1 _ ?_ _ _).trans ?_)
    | with_reducible (refine (foldl_keep2 _ ?_ _ _).trans ?_)
    | with_reducible (refine (begin_keep _ _ _ _ ?_).trans ?_)
    | with_reducible (refine (beginRead_keep _ _ _ _ _ ?_).trans ?_)
    | with_reducible (refine (check_keep _ _ _ _ ?_).trans ?_)
    | split
    | (simp [*]; done)
    | rw [State.takeBlock_keep ‹_›]
    | rw [State.appendPage_keep ‹_›]
    | rw [State.takeLogPage_keep ‹_›]
    | rw [State.queueMap_keep ‹_›]
    | rw [State.writeSegment_keep ‹_›]
    | rw [State.fixSnapshot_keep ‹_›]
    | rw [State.openHere_keep ‹_›]
    | rw [State.consume_keep ‹_›]
    | rw [State.newSheets_keep ‹_›]
    | rw [takeBlocks_keep ‹_›]
    | rw [writeSegments_keep ‹_›]
    | rw [State.queueSolve_keep ‹_›]

    | simp

theorem execSearchMemberResult_keep (number member : Nat) (remote : Option RemoteResult) (s : State) : Keeps s (execSearchMemberResult number member remote s) := by
  unfold execSearchMemberResult
  refine (keeps_next _ _).2 ?_
  split
  · rfl
  · split
    · rfl
    · split
      · rfl
      · dsimp only
        split
        · simp [fst_keep ‹_› (State.judgeSearch_keep _ _ _)]
        · exact fst_keep ‹_› (State.judgeSearch_keep _ _ _)

theorem execSearchDeadline_keep (number : Nat) (own : Nat × Nat) (s : State) : Keeps s (execSearchDeadline number own s) := by
  unfold execSearchDeadline
  repeat' first
    | with_reducible rfl
    | intro _
    | with_reducible (refine (keeps_next _ _).2 ?_)
    | exact trivial
    | (simp; done)
    | with_reducible (refine (foldl_keep _ ?_ _ _).trans ?_)
    | with_reducible (refine (foldl_keep1 _ ?_ _ _).trans ?_)
    | with_reducible (refine (foldl_keep2 _ ?_ _ _).trans ?_)
    | with_reducible (refine (begin_keep _ _ _ _ ?_).trans ?_)
    | with_reducible (refine (beginRead_keep _ _ _ _ _ ?_).trans ?_)
    | with_reducible (refine (check_keep _ _ _ _ ?_).trans ?_)
    | split
    | (simp [*]; done)
    | rw [State.takeBlock_keep ‹_›]
    | rw [State.appendPage_keep ‹_›]
    | rw [State.takeLogPage_keep ‹_›]
    | rw [State.queueMap_keep ‹_›]
    | rw [State.writeSegment_keep ‹_›]
    | rw [State.fixSnapshot_keep ‹_›]
    | rw [State.openHere_keep ‹_›]
    | rw [State.consume_keep ‹_›]
    | rw [State.newSheets_keep ‹_›]
    | rw [takeBlocks_keep ‹_›]
    | rw [writeSegments_keep ‹_›]
    | rw [State.queueSolve_keep ‹_›]

    | simp

end Sys2Proof.Machine
end

