-- ==== Sys2Proof/Laws/KeepRoom.lean ====
section
/-! SUPPORT. The queue and the held accesses: what the links and the room do leaves them alone. -/
namespace Sys2Proof.Machine
set_option linter.all false

/-! ### Faults -/

@[simp] theorem State.discardJobs_keep (s : State) (p : Job → Bool) : (State.discardJobs s p).keep = s.keep := by
  simp [State.discardJobs]

@[simp] theorem State.discardNumbers_keep (s : State) (l : List Nat) : (State.discardNumbers s l).keep = s.keep := by
  simp [State.discardNumbers]

@[simp] theorem State.discardQuery_keep (s : State) (i : Nat) : (State.discardQuery s i).keep = s.keep := by
  unfold State.discardQuery
  repeat' first | (simp; done) | split

@[simp] theorem State.discardSeq_keep (s : State) (i seq : Nat) : (State.discardSeq s i seq).keep = s.keep := by
  unfold State.discardSeq
  repeat' first | (simp; done) | split

@[simp] theorem State.discardQueries_keep (s : State) (i : Nat) : (State.discardQueries s i).keep = s.keep := by
  unfold State.discardQueries
  repeat' first | (simp; done) | split

@[simp] theorem State.faultSolve_keep (s : State) (o : SolveOwner) : (State.faultSolve s o).keep = s.keep := by
  unfold State.faultSolve
  repeat' first | (simp; done) | split

@[simp] theorem State.discardFrames_keep (s : State) (k : Nat) : (State.discardFrames s k).keep = s.keep := by
  unfold State.discardFrames
  repeat' first | (simp; done) | split

@[simp] theorem State.discardAssembly_keep (s : State) (k : Nat) : (State.discardAssembly s k).keep = s.keep := by
  unfold State.discardAssembly
  repeat' first | (simp; done) | split

@[simp] theorem State.discardSearch_keep (s : State) (number : Nat) : (State.discardSearch s number).keep = s.keep := by
  unfold State.discardSearch
  repeat' first | (simp; done) | split

@[simp] theorem State.loseEngine_keep (s : State) (e : Nat) : (State.loseEngine s e).keep = s.keep := by
  simp [State.loseEngine]

@[simp] theorem State.loseTile_keep (s : State) : (State.loseTile s).keep = s.keep := by
  simp [State.loseTile]

@[simp] theorem State.discardStage_keep (s : State) (h : Nat) : (State.discardStage s h).keep = s.keep := by
  unfold State.discardStage
  repeat' first
    | with_reducible rfl
    | intro _
    | with_reducible (refine (keeps_next _ _).2 ?_)
    | exact trivial
    | (simp; done)
    | with_reducible (refine (foldl_keep _ ?_ _ _).trans ?_)
    | with_reducible (refine (foldl_keep1 _ ?_ _ _).trans ?_)
    | with_reducible (refine (foldl_keep2 _ ?_ _ _).trans ?_)
    | with_reducible (refine (begin_keep _ _ _ _ ?_).trans ?_)
    | with_reducible (refine (beginRead_keep _ _ _ _ _ ?_).trans ?_)
    | with_reducible (refine (check_keep _ _ _ _ ?_).trans ?_)
    | split
    | (simp [*]; done)
    | rw [State.takeBlock_keep ‹_›]
    | rw [State.appendPage_keep ‹_›]
    | rw [State.takeLogPage_keep ‹_›]
    | rw [State.queueMap_keep ‹_›]
    | rw [State.writeSegment_keep ‹_›]
    | rw [State.fixSnapshot_keep ‹_›]
    | rw [State.openHere_keep ‹_›]
    | rw [State.consume_keep ‹_›]
    | rw [State.newSheets_keep ‹_›]
    | rw [takeBlocks_keep ‹_›]
    | rw [writeSegments_keep ‹_›]
    | rw [State.queueSolve_keep ‹_›]

    | simp

@[simp] theorem State.dropHandovers_keep (s : State) (h : Nat) : (State.dropHandovers s h).keep = s.keep := by
  simp [State.dropHandovers]

@[simp] theorem State.stopCarrel_keep (s : State) (c : Nat) : (State.stopCarrel s c).keep = s.keep := by
  unfold State.stopCarrel
  repeat' first
    | with_reducible rfl
    | intro _
    | with_reducible (refine (keeps_next _ _).2 ?_)
    | exact trivial
    | (simp; done)
    | with_reducible (refine (foldl_keep _ ?_ _ _).trans ?_)
    | with_reducible (refine (foldl_keep1 _ ?_ _ _).trans ?_)
    | with_reducible (refine (foldl_keep2 _ ?_ _ _).trans ?_)
    | with_reducible (refine (begin_keep _ _ _ _ ?_).trans ?_)
    | with_reducible (refine (beginRead_keep _ _ _ _ _ ?_).trans ?_)
    | with_reducible (refine (check_keep _ _ _ _ ?_).trans ?_)
    | split
    | (simp [*]; done)
    | rw [State.takeBlock_keep ‹_›]
    | rw [State.appendPage_keep ‹_›]
    | rw [State.takeLogPage_keep ‹_›]
    | rw [State.queueMap_keep ‹_›]
    | rw [State.writeSegment_keep ‹_›]
    | rw [State.fixSnapshot_keep ‹_›]
    | rw [State.openHere_keep ‹_›]
    | rw [State.consume_keep ‹_›]
    | rw [State.newSheets_keep ‹_›]
    | rw [takeBlocks_keep ‹_›]
    | rw [writeSegments_keep ‹_›]
    | rw [State.queueSolve_keep ‹_›]

    | simp

@[simp] theorem State.haltCarrel_keep (s : State) (c code : Nat) : (State.haltCarrel s c code).keep = s.keep := by
  simp [State.haltCarrel]

theorem execCarrelFault_keep (carrel code : Nat) (solve : Option SolveOwner) (sessions : List Nat) (s : State) : Keeps s (execCarrelFault carrel code solve sessions s) := by
  unfold execCarrelFault
  repeat' first | (simp; done) | split

@[simp] theorem State.fallBack_keep (s : State) (k : Nat) : (State.fallBack s k).keep = s.keep := by
  unfold State.fallBack
  repeat' first | (simp; done) | split

/-! ### FixedQueues -/

@[simp] theorem State.setGoError_keep (s : State) (q : Nat) (b : Bool) : (State.setGoError s q b).keep = s.keep := by
  simp [State.setGoError]

@[simp] theorem State.goQueue_keep (s : State) (q : Nat) : (State.goQueue s q).keep = s.keep := by
  simp [State.goQueue]

@[simp] theorem State.goBits_keep (s : State) (v : Nat) : (State.goBits s v).keep = s.keep := by
  simp [State.goBits]

@[simp] theorem State.goHeldBits_keep (s : State) : (State.goHeldBits s).keep = s.keep := by
  simp [State.goHeldBits]

@[simp] theorem State.writeGo_keep (s : State) (value : Nat) : (State.writeGo s value).keep = s.keep := by
  simp [State.writeGo]

@[simp] theorem State.resetFixed_keep (s : State) (q : Nat) : (State.resetFixed s q).keep = s.keep := by
  unfold State.resetFixed
  repeat' first
    | with_reducible rfl
    | intro _
    | with_reducible (refine (keeps_next _ _).2 ?_)
    | exact trivial
    | (simp; done)
    | with_reducible (refine (foldl_keep _ ?_ _ _).trans ?_)
    | with_reducible (refine (foldl_keep1 _ ?_ _ _).trans ?_)
    | with_reducible (refine (foldl_keep2 _ ?_ _ _).trans ?_)
    | with_reducible (refine (begin_keep _ _ _ _ ?_).trans ?_)
    | with_reducible (refine (beginRead_keep _ _ _ _ _ ?_).trans ?_)
    | with_reducible (refine (check_keep _ _ _ _ ?_).trans ?_)
    | split
    | (simp [*]; done)
    | rw [State.takeBlock_keep ‹_›]
    | rw [State.appendPage_keep ‹_›]
    | rw [State.takeLogPage_keep ‹_›]
    | rw [State.queueMap_keep ‹_›]
    | rw [State.newSheets_keep ‹_›]
    | rw [State.queueSolve_keep ‹_›]

    | simp

@[simp] theorem State.writeFixedReset_keep (s : State) (value : Nat) : (State.writeFixedReset s value).keep = s.keep := by
  simp [State.writeFixedReset]

/-! ### LinkFrames -/

@[simp] theorem State.takeAck_keep (s : State) (p ack : Nat) : (s.takeAck p ack).keep = s.keep := by
  unfold State.takeAck
  extract_lets x
  split <;> simp

@[simp] theorem State.replayKept_keep (s : State) (p : Nat) : (State.replayKept s p).keep = s.keep := by
  unfold State.replayKept
  repeat' first
    | with_reducible rfl
    | intro _
    | with_reducible (refine (keeps_next _ _).2 ?_)
    | exact trivial
    | (simp; done)
    | with_reducible (refine (foldl_keep _ ?_ _ _).trans ?_)
    | with_reducible (refine (foldl_keep1 _ ?_ _ _).trans ?_)
    | with_reducible (refine (foldl_keep2 _ ?_ _ _).trans ?_)
    | with_reducible (refine (begin_keep _ _ _ _ ?_).trans ?_)
    | with_reducible (refine (beginRead_keep _ _ _ _ _ ?_).trans ?_)
    | with_reducible (refine (check_keep _ _ _ _ ?_).trans ?_)
    | split
    | (simp [*]; done)
    | simp

@[simp] theorem State.takeReplay_keep (s : State) (p ack : Nat) : (State.takeReplay s p ack).keep = s.keep := by
  simp [State.takeReplay]

@[simp] theorem State.askReplay_keep (s : State) (p : Nat) : (State.askReplay s p).keep = s.keep := by
  simp [State.askReplay]

@[simp] theorem State.refuseFrame_keep (s : State) (p : Nat) : (State.refuseFrame s p).keep = s.keep := by
  simp [State.refuseFrame]

@[simp] theorem State.arriveMsg_keep (s : State) (p : Nat) (m : LinkMsg) : (State.arriveMsg s p m).keep = s.keep := by
  simp [State.arriveMsg]

@[simp] theorem State.parseStream_keep (p n : Nat) (s : State) : (State.parseStream p n s).keep = s.keep := by
  induction n generalizing s with
  | zero => unfold State.parseStream; with_reducible rfl
  | succ n ih =>
  unfold State.parseStream
  repeat' first
    | with_reducible rfl
    | intro _
    | with_reducible (refine (keeps_next _ _).2 ?_)
    | exact trivial
    | (simp [ih]; done)
    | with_reducible (refine (foldl_keep _ ?_ _ _).trans ?_)
    | with_reducible (refine (foldl_keep1 _ ?_ _ _).trans ?_)
    | with_reducible (refine (foldl_keep2 _ ?_ _ _).trans ?_)
    | with_reducible (refine (begin_keep _ _ _ _ ?_).trans ?_)
    | with_reducible (refine (beginRead_keep _ _ _ _ _ ?_).trans ?_)
    | with_reducible (refine (check_keep _ _ _ _ ?_).trans ?_)
    | split
    | (simp [*]; done)
    | simp

@[simp] theorem State.acceptFrame_keep (s : State) (p : Nat) (f : Bytes) : (State.acceptFrame s p f).keep = s.keep := by
  unfold State.acceptFrame
  repeat' first
    | with_reducible rfl
    | intro _
    | with_reducible (refine (keeps_next _ _).2 ?_)
    | exact trivial
    | (simp; done)
    | with_reducible (refine (foldl_keep _ ?_ _ _).trans ?_)
    | with_reducible (refine (foldl_keep1 _ ?_ _ _).trans ?_)
    | with_reducible (refine (foldl_keep2 _ ?_ _ _).trans ?_)
    | with_reducible (refine (begin_keep _ _ _ _ ?_).trans ?_)
    | with_reducible (refine (beginRead_keep _ _ _ _ _ ?_).trans ?_)
    | with_reducible (refine (check_keep _ _ _ _ ?_).trans ?_)
    | split
    | (simp [*]; done)
    | simp

theorem execJalzelFrame_keep (port : Nat) (frame : Bytes) (s : State) : Keeps s (execJalzelFrame port frame s) := by
  simp [execJalzelFrame]

theorem execReplayRequest_keep (port ackSeq : Nat) (s : State) : Keeps s (execReplayRequest port ackSeq s) := by
  simp [execReplayRequest]

theorem execReplayRequestTimeout_keep (port : Nat) (s : State) : Keeps s (execReplayRequestTimeout port s) := by
  simp [execReplayRequestTimeout]

/-! ### Room -/

@[simp] theorem State.backToPencil_keep (s : State) (set : List Nat) : (State.backToPencil s set).keep = s.keep := by
  simp [State.backToPencil]

@[simp] theorem State.clerkSettles_keep (s : State) : (State.clerkSettles s).keep = s.keep := by
  unfold State.clerkSettles
  repeat' first | (simp; done) | split

@[simp] theorem State.clerkAsks_keep (s : State) : (State.clerkAsks s).keep = s.keep := by
  simp [State.clerkAsks]

@[simp] theorem State.clerkHears_keep (s : State) (member number : Nat) (edits : List Nat) : (State.clerkHears s member number edits).keep = s.keep := by
  unfold State.clerkHears
  repeat' first | (simp; done) | split

@[simp] theorem State.askAgain_keep (s : State) : (State.askAgain s).keep = s.keep := by
  simp [State.askAgain]

@[simp] theorem State.withdrawTouching_keep (s : State) (sheets : List Nat) (reason : Nat) : (State.withdrawTouching s sheets reason).keep = s.keep := by
  simp [State.withdrawTouching]

@[simp] theorem State.loseSheets_keep (s : State) (m : Nat) : (State.loseSheets s m).keep = s.keep := by
  simp [State.loseSheets]

@[simp] theorem State.searchesWithout_keep (s : State) (m : Nat) : (s.searchesWithout m).keep = s.keep := by
  unfold State.searchesWithout
  refine foldl_keep _ (fun s n => ?_) _ _
  split
  · rfl
  · split
    · rfl
    · dsimp only
      split
      · simp [fst_keep ‹_› (State.judgeSearch_keep _ _ _)]
      · exact fst_keep ‹_› (State.judgeSearch_keep _ _ _)

@[simp] theorem State.dropWaits_keep (s : State) (jobs : List Nat) : (State.dropWaits s jobs).keep = s.keep := by
  simp [State.dropWaits]

@[simp] theorem State.giveUpOn_keep (s : State) (m : Nat) : (State.giveUpOn s m).keep = s.keep := by
  simp [State.giveUpOn]

@[simp] theorem State.forget_keep (s : State) (m : Nat) : (State.forget s m).keep = s.keep := by
  simp [State.forget]

@[simp] theorem State.memberLeft_keep (s : State) (m clerk : Nat) : (State.memberLeft s m clerk).keep = s.keep := by
  simp [State.memberLeft]

@[simp] theorem State.linkLost_keep (s : State) (p : Nat) (recorded : Bool) : (State.linkLost s p recorded).keep = s.keep := by
  unfold State.linkLost
  repeat' first
    | with_reducible rfl
    | intro _
    | with_reducible (refine (keeps_next _ _).2 ?_)
    | exact trivial
    | (simp; done)
    | with_reducible (refine (foldl_keep _ ?_ _ _).trans ?_)
    | with_reducible (refine (foldl_keep1 _ ?_ _ _).trans ?_)
    | with_reducible (refine (foldl_keep2 _ ?_ _ _).trans ?_)
    | with_reducible (refine (begin_keep _ _ _ _ ?_).trans ?_)
    | with_reducible (refine (beginRead_keep _ _ _ _ _ ?_).trans ?_)
    | with_reducible (refine (check_keep _ _ _ _ ?_).trans ?_)
    | split
    | (simp [*]; done)
    | rw [State.takeBlock_keep ‹_›]
    | rw [State.appendPage_keep ‹_›]
    | rw [State.takeLogPage_keep ‹_›]
    | rw [State.queueMap_keep ‹_›]
    | rw [State.writeSegment_keep ‹_›]
    | rw [State.fixSnapshot_keep ‹_›]
    | rw [State.openHere_keep ‹_›]
    | rw [State.consume_keep ‹_›]
    | rw [State.newSheets_keep ‹_›]
    | rw [takeBlocks_keep ‹_›]
    | rw [writeSegments_keep ‹_›]
    | rw [State.queueSolve_keep ‹_›]

    | simp

@[simp] theorem State.linkDown_keep (s : State) (p : Nat) : (State.linkDown s p).keep = s.keep := by
  simp [State.linkDown]

theorem execJalzelSignal_keep (port : Nat) (s : State) : Keeps s (execJalzelSignal port s) := by
  simp [execJalzelSignal]

theorem execJalzelTrainingEnd_keep (port : Nat) (ok : Bool) (s : State) : Keeps s (execJalzelTrainingEnd port ok s) := by
  simp [execJalzelTrainingEnd]

theorem execJalzelTrainRetry_keep (port : Nat) (s : State) : Keeps s (execJalzelTrainRetry port s) := by
  simp [execJalzelTrainRetry]

theorem execJalzelLoss_keep (port : Nat) (s : State) : Keeps s (execJalzelLoss port s) := by
  unfold execJalzelLoss
  repeat' first
    | with_reducible rfl
    | intro _
    | with_reducible (refine (keeps_next _ _).2 ?_)
    | exact trivial
    | (simp; done)
    | with_reducible (refine (foldl_keep _ ?_ _ _).trans ?_)
    | with_reducible (refine (foldl_keep1 _ ?_ _ _).trans ?_)
    | with_reducible (refine (foldl_keep2 _ ?_ _ _).trans ?_)
    | with_reducible (refine (begin_keep _ _ _ _ ?_).trans ?_)
    | with_reducible (refine (beginRead_keep _ _ _ _ _ ?_).trans ?_)
    | with_reducible (refine (check_keep _ _ _ _ ?_).trans ?_)
    | split
    | (simp [*]; done)
    | rw [State.takeBlock_keep ‹_›]
    | rw [State.appendPage_keep ‹_›]
    | rw [State.takeLogPage_keep ‹_›]
    | rw [State.queueMap_keep ‹_›]
    | rw [State.writeSegment_keep ‹_›]
    | rw [State.fixSnapshot_keep ‹_›]
    | rw [State.openHere_keep ‹_›]
    | rw [State.consume_keep ‹_›]
    | rw [State.newSheets_keep ‹_›]
    | rw [takeBlocks_keep ‹_›]
    | rw [writeSegments_keep ‹_›]
    | rw [State.queueSolve_keep ‹_›]

    | simp

@[simp] theorem State.reviewRoom_keep (s : State) : (State.reviewRoom s).keep = s.keep := by
  simp [State.reviewRoom]

@[simp] theorem State.greet_keep (s : State) (m : Nat) : (State.greet s m).keep = s.keep := by
  simp [State.greet]

@[simp] theorem State.memberJoined_keep (s : State) (m clerk : Nat) : (State.memberJoined s m clerk).keep = s.keep := by
  simp [State.memberJoined]

@[simp] theorem State.welcome_keep (s : State) (p position highest : Nat) : (State.welcome s p position highest).keep = s.keep := by
  simp [State.welcome]

theorem execJalzelIdentity_keep (port ordering stepping : Nat) (measurement : Bytes) (position members highest : Nat) (s : State) : Keeps s (execJalzelIdentity port ordering stepping measurement position members highest s) := by
  unfold execJalzelIdentity
  repeat' first
    | with_reducible rfl
    | intro _
    | with_reducible (refine (keeps_next _ _).2 ?_)
    | exact trivial
    | (simp; done)
    | with_reducible (refine (foldl_keep _ ?_ _ _).trans ?_)
    | with_reducible (refine (foldl_keep1 _ ?_ _ _).trans ?_)
    | with_reducible (refine (foldl_keep2 _ ?_ _ _).trans ?_)
    | with_reducible (refine (begin_keep _ _ _ _ ?_).trans ?_)
    | with_reducible (refine (beginRead_keep _ _ _ _ _ ?_).trans ?_)
    | with_reducible (refine (check_keep _ _ _ _ ?_).trans ?_)
    | split
    | (simp [*]; done)
    | rw [State.takeBlock_keep ‹_›]
    | rw [State.appendPage_keep ‹_›]
    | rw [State.takeLogPage_keep ‹_›]
    | rw [State.queueMap_keep ‹_›]
    | rw [State.writeSegment_keep ‹_›]
    | rw [State.fixSnapshot_keep ‹_›]
    | rw [State.openHere_keep ‹_›]
    | rw [State.consume_keep ‹_›]
    | rw [State.newSheets_keep ‹_›]
    | rw [takeBlocks_keep ‹_›]
    | rw [writeSegments_keep ‹_›]
    | rw [State.queueSolve_keep ‹_›]

    | simp

theorem execRoomFormTimeout_keep (s : State) : Keeps s (execRoomFormTimeout s) := by
  simp [execRoomFormTimeout]

/-! ### Handling -/

theorem execErrataRecord_keep (cls unit inst code flags scope location detail0 detail1 : Nat) (s : State) : Keeps s (execErrataRecord cls unit inst code flags scope location detail0 detail1 s) := by
  simp [execErrataRecord]

theorem execErrataRingMove_keep (s : State) : Keeps s (execErrataRingMove s) := by
  simp [execErrataRingMove]

@[simp] theorem State.closeHandling_keep (s : State) (seq : Nat) : (State.closeHandling s seq).keep = s.keep := by
  unfold State.closeHandling
  repeat' first | (simp; done) | split

theorem execHandlingClose_keep (seq : Nat) (s : State) : Keeps s (execHandlingClose seq s) := by
  unfold execHandlingClose
  repeat' first | (simp; done) | split

@[simp] theorem State.fatalHandling_keep (s : State) (r : Report) (recorded : Nat) : (State.fatalHandling s r recorded).2.keep = s.keep := by
  unfold State.fatalHandling
  repeat' first | (simp; done) | split

@[simp] theorem State.takeDown_keep (s : State) (unit inst seq : Nat) : (State.takeDown s unit inst seq).keep = s.keep := by
  simp [State.takeDown]

@[simp] theorem State.faultPort_keep (s : State) (l : Nat) : (State.faultPort s l).keep = s.keep := by
  unfold State.faultPort
  repeat' first
    | with_reducible rfl
    | intro _
    | with_reducible (refine (keeps_next _ _).2 ?_)
    | exact trivial
    | (simp; done)
    | with_reducible (refine (foldl_keep _ ?_ _ _).trans ?_)
    | with_reducible (refine (foldl_keep1 _ ?_ _ _).trans ?_)
    | with_reducible (refine (foldl_keep2 _ ?_ _ _).trans ?_)
    | with_reducible (refine (begin_keep _ _ _ _ ?_).trans ?_)
    | with_reducible (refine (beginRead_keep _ _ _ _ _ ?_).trans ?_)
    | with_reducible (refine (check_keep _ _ _ _ ?_).trans ?_)
    | split
    | (simp [*]; done)
    | rw [State.takeBlock_keep ‹_›]
    | rw [State.appendPage_keep ‹_›]
    | rw [State.takeLogPage_keep ‹_›]
    | rw [State.queueMap_keep ‹_›]
    | rw [State.writeSegment_keep ‹_›]
    | rw [State.fixSnapshot_keep ‹_›]
    | rw [State.openHere_keep ‹_›]
    | rw [State.consume_keep ‹_›]
    | rw [State.newSheets_keep ‹_›]
    | rw [takeBlocks_keep ‹_›]
    | rw [writeSegments_keep ‹_›]
    | rw [State.queueSolve_keep ‹_›]

    | simp

@[simp] theorem State.resetCore_keep (s : State) (core : Nat) : (State.resetCore s core).keep = s.keep := by
  simp [State.resetCore]

@[simp] theorem State.clearUnit_keep (s : State) (unit inst : Nat) : (State.clearUnit s unit inst).keep = s.keep := by
  unfold State.clearUnit
  repeat' first | (simp; done) | split

@[simp] theorem State.discardTaken_keep (s : State) (unit inst : Nat) : (State.discardTaken s unit inst).keep = s.keep := by
  simp [State.discardTaken]

@[simp] theorem State.discardScope_keep (s : State) (unit : Nat) (w : FaultScope) : (State.discardScope s unit w).keep = s.keep := by
  simp [State.discardScope]

@[simp] theorem State.bandsLost_keep (s : State) (v : Nat) : (State.bandsLost s v).keep = s.keep := by
  simp [State.bandsLost]

@[simp] theorem State.unitFatal_keep (s : State) (unit inst : Nat) (h : Option Handling) (w : FaultScope) : (State.unitFatal s unit inst h w).keep = s.keep := by
  unfold State.unitFatal
  repeat' first | (simp; done) | split

theorem execUnitFatalError_keep (unit inst code location detail0 recorded : Nat) (scope : FaultScope) (s : State) : Keeps s (execUnitFatalError unit inst code location detail0 recorded scope s) := by
  simp [execUnitFatalError]

theorem execWatchdogExpiry_keep (core : Nat) (s : State) : Keeps s (execWatchdogExpiry core s) := by
  simp [execWatchdogExpiry]

@[simp] theorem State.withdrawOwn_keep (s : State) (sheets : List Nat) (reason : Nat) : (State.withdrawOwn s sheets reason).keep = s.keep := by
  simp [State.withdrawOwn]

@[simp] theorem State.restoringEdit_keep (s : State) (k : Nat) : (State.restoringEdit s k).keep = s.keep := by
  simp [State.restoringEdit]

@[simp] theorem State.loseSheet_keep (s : State) (k : Nat) : (State.loseSheet s k).keep = s.keep := by
  simp [State.loseSheet]

@[simp] theorem State.contextLost_keep (s : State) (subject detail addr : Nat) : (State.contextLost s subject detail addr).keep = s.keep := by
  simp [State.contextLost]

@[simp] theorem State.endSession_keep (s : State) (i addr : Nat) : (State.endSession s i addr).keep = s.keep := by
  unfold State.endSession
  repeat' first | (simp; done) | split

@[simp] theorem State.dealWith_keep (s : State) (place : PoisonPlace) (addr : Nat) : (State.dealWith s place addr).keep = s.keep := by
  unfold State.dealWith
  repeat' first | (simp; done) | split

@[simp] theorem State.rewrite_keep (s : State) (w : Nat) : (State.rewrite s w).keep = s.keep := by
  simp [State.rewrite]

theorem execPoisonHandling_keep (place : PoisonPlace) (word seq : Nat) (s : State) : Keeps s (execPoisonHandling place word seq s) := by
  unfold execPoisonHandling
  repeat' first | (simp; done) | split

/-! ### Steps -/

@[simp] theorem State.sendFar_keep (s : State) (carrel : Nat) (serving : Bool) (d : Send) (f : FarEnd) (data : Bytes) (marks : List Bool) : (State.sendFar s carrel serving d f data marks).keep = s.keep := by
  unfold State.sendFar
  repeat' first | (simp; done) | split

@[simp] theorem State.sendHandover_keep (s : State) (carrel : Nat) (i : Image) (b : Bound) (run : Option Nat) (d : Send) :
    (s.sendHandover carrel i b run d).keep = s.keep := by
  unfold State.sendHandover
  extract_lets x r s1 src s2
  have h1 : s1.keep = s.keep := State.readMarked_keep _ _ _ _
  have h2 : s2.keep = s.keep := (State.modCarrel_keep _ _ _).trans h1
  split
  · rfl
  · extract_lets e s3
    have h3 : s3.keep = s.keep := by
      unfold s3
      split
      · exact (State.writeScratch_keep _ _ _ _).trans h2
      · exact h2
    clear_value s1 s2 s3
    split
    · split
      · exact h1
      · rw [keep_mk, h1]
    · split
      · rw [State.sendFar_keep, h2]
      · split
        · exact h3
        · rw [State.sendMesh_keep, h3]

theorem execStepEnd_keep (carrel cycles : Nat) (ops : List StepOp) (sends : List Send) (s : State) : Keeps s (execStepEnd carrel cycles ops sends s) := by
  unfold execStepEnd
  repeat' first
    | with_reducible rfl
    | intro _
    | with_reducible (refine (keeps_next _ _).2 ?_)
    | exact trivial
    | (simp; done)
    | with_reducible (refine (foldl_keep _ ?_ _ _).trans ?_)
    | with_reducible (refine (foldl_keep1 _ ?_ _ _).trans ?_)
    | with_reducible (refine (foldl_keep2 _ ?_ _ _).trans ?_)
    | with_reducible (refine (begin_keep _ _ _ _ ?_).trans ?_)
    | with_reducible (refine (beginRead_keep _ _ _ _ _ ?_).trans ?_)
    | with_reducible (refine (check_keep _ _ _ _ ?_).trans ?_)
    | split
    | (simp [*]; done)
    | rw [State.takeBlock_keep ‹_›]
    | rw [State.appendPage_keep ‹_›]
    | rw [State.takeLogPage_keep ‹_›]
    | rw [State.queueMap_keep ‹_›]
    | rw [State.writeSegment_keep ‹_›]
    | rw [State.fixSnapshot_keep ‹_›]
    | rw [State.openHere_keep ‹_›]
    | rw [State.consume_keep ‹_›]
    | rw [State.newSheets_keep ‹_›]
    | rw [takeBlocks_keep ‹_›]
    | rw [writeSegments_keep ‹_›]
    | rw [State.queueSolve_keep ‹_›]

    | simp

@[simp] theorem State.takeCredit_keep (s : State) (carrel port slot : Nat) : (State.takeCredit s carrel port slot).keep = s.keep := by
  simp [State.takeCredit]

theorem execCreditReturn_keep (target : CreditTo) (slot : Nat) (s : State) : Keeps s (execCreditReturn target slot s) := by
  unfold execCreditReturn
  repeat' first
    | with_reducible rfl
    | intro _
    | with_reducible (refine (keeps_next _ _).2 ?_)
    | exact trivial
    | (simp; done)
    | with_reducible (refine (foldl_keep _ ?_ _ _).trans ?_)
    | with_reducible (refine (foldl_keep1 _ ?_ _ _).trans ?_)
    | with_reducible (refine (foldl_keep2 _ ?_ _ _).trans ?_)
    | with_reducible (refine (begin_keep _ _ _ _ ?_).trans ?_)
    | with_reducible (refine (beginRead_keep _ _ _ _ _ ?_).trans ?_)
    | with_reducible (refine (check_keep _ _ _ _ ?_).trans ?_)
    | split
    | (simp [*]; done)
    | rw [State.takeBlock_keep ‹_›]
    | rw [State.appendPage_keep ‹_›]
    | rw [State.takeLogPage_keep ‹_›]
    | rw [State.queueMap_keep ‹_›]
    | rw [State.writeSegment_keep ‹_›]
    | rw [State.fixSnapshot_keep ‹_›]
    | rw [State.openHere_keep ‹_›]
    | rw [State.consume_keep ‹_›]
    | rw [State.newSheets_keep ‹_›]
    | rw [takeBlocks_keep ‹_›]
    | rw [writeSegments_keep ‹_›]
    | rw [State.queueSolve_keep ‹_›]

    | simp

@[simp] theorem State.takeToken_keep (s : State) (carrel port : Nat) (t : Token) (source : Nat) : (State.takeToken s carrel port t source).keep = s.keep := by
  unfold State.takeToken
  repeat' first
    | with_reducible rfl
    | intro _
    | with_reducible (refine (keeps_next _ _).2 ?_)
    | exact trivial
    | (simp; done)
    | with_reducible (refine (foldl_keep _ ?_ _ _).trans ?_)
    | with_reducible (refine (foldl_keep1 _ ?_ _ _).trans ?_)
    | with_reducible (refine (foldl_keep2 _ ?_ _ _).trans ?_)
    | with_reducible (refine (begin_keep _ _ _ _ ?_).trans ?_)
    | with_reducible (refine (beginRead_keep _ _ _ _ _ ?_).trans ?_)
    | with_reducible (refine (check_keep _ _ _ _ ?_).trans ?_)
    | split
    | (simp [*]; done)
    | rw [State.takeBlock_keep ‹_›]
    | rw [State.appendPage_keep ‹_›]
    | rw [State.takeLogPage_keep ‹_›]
    | rw [State.queueMap_keep ‹_›]
    | rw [State.writeSegment_keep ‹_›]
    | rw [State.fixSnapshot_keep ‹_›]
    | rw [State.openHere_keep ‹_›]
    | rw [State.consume_keep ‹_›]
    | rw [State.newSheets_keep ‹_›]
    | rw [takeBlocks_keep ‹_›]
    | rw [writeSegments_keep ‹_›]
    | rw [State.queueSolve_keep ‹_›]

    | simp

@[simp] theorem State.takeData_keep (s : State) (carrel port slot offset : Nat) (data : Bytes) (marks : List Bool) (source : Nat) : (State.takeData s carrel port slot offset data marks source).keep = s.keep := by
  unfold State.takeData
  repeat' first
    | with_reducible rfl
    | intro _
    | with_reducible (refine (keeps_next _ _).2 ?_)
    | exact trivial
    | (simp; done)
    | with_reducible (refine (foldl_keep _ ?_ _ _).trans ?_)
    | with_reducible (refine (foldl_keep1 _ ?_ _ _).trans ?_)
    | with_reducible (refine (foldl_keep2 _ ?_ _ _).trans ?_)
    | with_reducible (refine (begin_keep _ _ _ _ ?_).trans ?_)
    | with_reducible (refine (beginRead_keep _ _ _ _ _ ?_).trans ?_)
    | with_reducible (refine (check_keep _ _ _ _ ?_).trans ?_)
    | split
    | (simp [*]; done)
    | rw [State.takeBlock_keep ‹_›]
    | rw [State.appendPage_keep ‹_›]
    | rw [State.takeLogPage_keep ‹_›]
    | rw [State.queueMap_keep ‹_›]
    | rw [State.writeSegment_keep ‹_›]
    | rw [State.fixSnapshot_keep ‹_›]
    | rw [State.openHere_keep ‹_›]
    | rw [State.consume_keep ‹_›]
    | rw [State.newSheets_keep ‹_›]
    | rw [takeBlocks_keep ‹_›]
    | rw [writeSegments_keep ‹_›]
    | rw [State.queueSolve_keep ‹_›]

    | simp

@[simp] theorem State.popMsg_keep (s : State) (m : MeshMsg) : (State.popMsg s m).keep = s.keep := by
  simp [State.popMsg]

theorem execInputToken_keep (carrel source : Nat) (sent : Option OutsideMsg) (s : State) : Keeps s (execInputToken carrel source sent s) := by
  unfold execInputToken
  repeat' first | (simp; done) | split

theorem execHandoverData_keep (carrel source : Nat) (sent : Option OutsideMsg) (s : State) : Keeps s (execHandoverData carrel source sent s) := by
  unfold execHandoverData
  repeat' first
    | with_reducible rfl
    | intro _
    | with_reducible (refine (keeps_next _ _).2 ?_)
    | exact trivial
    | (simp; done)
    | with_reducible (refine (foldl_keep _ ?_ _ _).trans ?_)
    | with_reducible (refine (foldl_keep1 _ ?_ _ _).trans ?_)
    | with_reducible (refine (foldl_keep2 _ ?_ _ _).trans ?_)
    | with_reducible (refine (begin_keep _ _ _ _ ?_).trans ?_)
    | with_reducible (refine (beginRead_keep _ _ _ _ _ ?_).trans ?_)
    | with_reducible (refine (check_keep _ _ _ _ ?_).trans ?_)
    | split
    | (simp [*]; done)
    | rw [State.takeBlock_keep ‹_›]
    | rw [State.appendPage_keep ‹_›]
    | rw [State.takeLogPage_keep ‹_›]
    | rw [State.queueMap_keep ‹_›]
    | rw [State.writeSegment_keep ‹_›]
    | rw [State.fixSnapshot_keep ‹_›]
    | rw [State.openHere_keep ‹_›]
    | rw [State.consume_keep ‹_›]
    | rw [State.newSheets_keep ‹_›]
    | rw [takeBlocks_keep ‹_›]
    | rw [writeSegments_keep ‹_›]
    | rw [State.queueSolve_keep ‹_›]

    | simp

theorem execStackWriteRequest_keep (source addr : Nat) (data : Bytes) (mask : Option (List Bool)) (s : State) : Keeps s (execStackWriteRequest source addr data mask s) := by
  unfold execStackWriteRequest
  repeat' first
    | with_reducible rfl
    | intro _
    | with_reducible (refine (keeps_next _ _).2 ?_)
    | exact trivial
    | (simp; done)
    | with_reducible (refine (foldl_keep _ ?_ _ _).trans ?_)
    | with_reducible (refine (foldl_keep1 _ ?_ _ _).trans ?_)
    | with_reducible (refine (foldl_keep2 _ ?_ _ _).trans ?_)
    | with_reducible (refine (begin_keep _ _ _ _ ?_).trans ?_)
    | with_reducible (refine (beginRead_keep _ _ _ _ _ ?_).trans ?_)
    | with_reducible (refine (check_keep _ _ _ _ ?_).trans ?_)
    | split
    | (simp [*]; done)
    | rw [State.takeBlock_keep ‹_›]
    | rw [State.appendPage_keep ‹_›]
    | rw [State.takeLogPage_keep ‹_›]
    | rw [State.queueMap_keep ‹_›]
    | rw [State.writeSegment_keep ‹_›]
    | rw [State.fixSnapshot_keep ‹_›]
    | rw [State.openHere_keep ‹_›]
    | rw [State.consume_keep ‹_›]
    | rw [State.newSheets_keep ‹_›]
    | rw [takeBlocks_keep ‹_›]
    | rw [writeSegments_keep ‹_›]
    | rw [State.queueSolve_keep ‹_›]

    | simp

@[simp] theorem State.readUnits_keep (s : State) (addr units : Nat) : (State.readUnits s addr units).keep = s.keep := by
  simp [State.readUnits]

theorem execStackReadRequest_keep (source addr units : Nat) (band : Option Nat) (s : State) : Keeps s (execStackReadRequest source addr units band s) := by
  unfold execStackReadRequest
  repeat' first
    | with_reducible rfl
    | intro _
    | with_reducible (refine (keeps_next _ _).2 ?_)
    | exact trivial
    | (simp; done)
    | with_reducible (refine (foldl_keep _ ?_ _ _).trans ?_)
    | with_reducible (refine (foldl_keep1 _ ?_ _ _).trans ?_)
    | with_reducible (refine (foldl_keep2 _ ?_ _ _).trans ?_)
    | with_reducible (refine (begin_keep _ _ _ _ ?_).trans ?_)
    | with_reducible (refine (beginRead_keep _ _ _ _ _ ?_).trans ?_)
    | with_reducible (refine (check_keep _ _ _ _ ?_).trans ?_)
    | split
    | (simp [*]; done)
    | rw [State.takeBlock_keep ‹_›]
    | rw [State.appendPage_keep ‹_›]
    | rw [State.takeLogPage_keep ‹_›]
    | rw [State.queueMap_keep ‹_›]
    | rw [State.writeSegment_keep ‹_›]
    | rw [State.fixSnapshot_keep ‹_›]
    | rw [State.openHere_keep ‹_›]
    | rw [State.consume_keep ‹_›]
    | rw [State.newSheets_keep ‹_›]
    | rw [takeBlocks_keep ‹_›]
    | rw [writeSegments_keep ‹_›]
    | rw [State.queueSolve_keep ‹_›]

    | simp

/-! ### LinkMsgs -/

@[simp] theorem State.takeMsg_keep (s : State) (p kind : Nat) (k : LinkMsg → State → State) (hk : ∀ m s, (k m s).keep = s.keep) :
    (s.takeMsg p kind k).keep = s.keep := by
  unfold State.takeMsg
  split
  · rfl
  · rw [hk]; simp

@[simp] theorem State.respond_keep (s : State) (m : LinkMsg) (kind poison : Nat) (words : List Bytes) : (State.respond s m kind poison words).keep = s.keep := by
  simp [State.respond]

theorem execReadReq_keep (port : Nat) (s : State) : Keeps s (execReadReq port s) := by
  simp [execReadReq]

@[simp] theorem State.matchTag_keep (s : State) (p : Nat) (m : LinkMsg) (write : Bool) (k : State → State) (hk : ∀ s, (k s).keep = s.keep) :
    (s.matchTag p m write k).keep = s.keep := by
  unfold State.matchTag
  split
  · rw [hk]; simp
  · simp

theorem execReadData_keep (port : Nat) (s : State) : Keeps s (execReadData port s) := by
  simp [execReadData]

@[simp] theorem State.linkWrite_keep (s : State) (w : Nat) (d : Bytes) (mask : List Bool) (poison : Bool) : (State.linkWrite s w d mask poison).1.keep = s.keep := by
  unfold State.linkWrite
  repeat' first | (simp; done) | split

theorem execWrite_keep (port : Nat) (masked : Bool) (s : State) : Keeps s (execWrite port masked s) := by
  simp [execWrite]

@[simp] theorem State.ackTokens_keep (s : State) (port tag : Nat) : (State.ackTokens s port tag).keep = s.keep := by
  simp [State.ackTokens]

theorem execWriteAck_keep (port : Nat) (s : State) : Keeps s (execWriteAck port s) := by
  simp [execWriteAck]

theorem execToken_keep (port : Nat) (s : State) : Keeps s (execToken port s) := by
  unfold execToken
  refine (keeps_next _ _).2 (State.takeMsg_keep _ _ _ _ fun m s => ?_)
  extract_lets w t
  split
  · split
    · exact State.takeToken_keep ..
    · exact State.control_keep _ _ _ _
  · exact State.control_keep _ _ _ _

theorem execQueuePost_keep (port : Nat) (s : State) : Keeps s (execQueuePost port s) := by
  simp [execQueuePost]

theorem execBell_keep (port : Nat) (s : State) : Keeps s (execBell port s) := by
  simp [execBell]

theorem execBulk_keep (port : Nat) (s : State) : Keeps s (execBulk port s) := by
  simp [execBulk]

@[simp] theorem State.deleteAnswered_keep (s : State) (member id result : Nat) : (State.deleteAnswered s member id result).keep = s.keep := by
  unfold State.deleteAnswered
  repeat' first
    | with_reducible rfl
    | intro _
    | with_reducible (refine (keeps_next _ _).2 ?_)
    | exact trivial
    | (simp; done)
    | with_reducible (refine (foldl_keep _ ?_ _ _).trans ?_)
    | with_reducible (refine (foldl_keep1 _ ?_ _ _).trans ?_)
    | with_reducible (refine (foldl_keep2 _ ?_ _ _).trans ?_)
    | with_reducible (refine (begin_keep _ _ _ _ ?_).trans ?_)
    | with_reducible (refine (beginRead_keep _ _ _ _ _ ?_).trans ?_)
    | with_reducible (refine (check_keep _ _ _ _ ?_).trans ?_)
    | split
    | (simp [*]; done)
    | rw [State.takeBlock_keep ‹_›]
    | rw [State.appendPage_keep ‹_›]
    | rw [State.takeLogPage_keep ‹_›]
    | rw [State.queueMap_keep ‹_›]
    | rw [State.writeSegment_keep ‹_›]
    | rw [State.fixSnapshot_keep ‹_›]
    | rw [State.openHere_keep ‹_›]
    | rw [State.consume_keep ‹_›]
    | rw [State.newSheets_keep ‹_›]
    | rw [takeBlocks_keep ‹_›]
    | rw [writeSegments_keep ‹_›]
    | rw [State.queueSolve_keep ‹_›]

    | simp

@[simp] theorem State.openAnswered_keep (s : State) (job member code id : Nat) : (State.openAnswered s job member code id).keep = s.keep := by
  simp [State.openAnswered]

@[simp] theorem State.hearPorts_keep (s : State) (member : Nat) (first : Bool) (count : Nat) (words : List Nat) : (State.hearPorts s member first count words).keep = s.keep := by
  simp [State.hearPorts]

@[simp] theorem State.knowNumber_keep (s : State) (number : Nat) : (State.knowNumber s number).keep = s.keep := by
  simp [State.knowNumber]

@[simp] theorem State.numberDropped_keep (s : State) (number : Nat) (rest : List Nat) : (State.numberDropped s number rest).keep = s.keep := by
  simp [State.numberDropped]

@[simp] theorem State.controlMap_keep (s : State) (src code : Nat) (a : List Nat) : (State.controlMap s src code a).keep = s.keep := by
  unfold State.controlMap
  repeat' first
    | with_reducible rfl
    | intro _
    | with_reducible (refine (keeps_next _ _).2 ?_)
    | exact trivial
    | (simp; done)
    | with_reducible (refine (foldl_keep _ ?_ _ _).trans ?_)
    | with_reducible (refine (foldl_keep1 _ ?_ _ _).trans ?_)
    | with_reducible (refine (foldl_keep2 _ ?_ _ _).trans ?_)
    | with_reducible (refine (begin_keep _ _ _ _ ?_).trans ?_)
    | with_reducible (refine (beginRead_keep _ _ _ _ _ ?_).trans ?_)
    | with_reducible (refine (check_keep _ _ _ _ ?_).trans ?_)
    | split
    | (simp [*]; done)
    | rw [State.takeBlock_keep ‹_›]
    | rw [State.appendPage_keep ‹_›]
    | rw [State.takeLogPage_keep ‹_›]
    | rw [State.queueMap_keep ‹_›]
    | rw [State.writeSegment_keep ‹_›]
    | rw [State.fixSnapshot_keep ‹_›]
    | rw [State.openHere_keep ‹_›]
    | rw [State.consume_keep ‹_›]
    | rw [State.newSheets_keep ‹_›]
    | rw [takeBlocks_keep ‹_›]
    | rw [writeSegments_keep ‹_›]
    | rw [State.queueSolve_keep ‹_›]

    | simp

@[simp] theorem State.controlUnits_keep (s : State) (src code : Nat) (a : List Nat) : (s.controlUnits src code a).keep = s.keep := by
  unfold State.controlUnits
  extract_lets n book setting s1
  have h1 : s1.keep = s.keep := State.takeSetting_keep _ _ _
  clear_value s1
  split
  all_goals first
    | rfl
    | (simp; done)
    | (split
       · simp [h1]
       · simp [h1]
       done)
    | (split
       · simp
       · split
         · simp
         · simp [State.openHere_keep ‹_›])

theorem execControl_keep (port : Nat) (s : State) : Keeps s (execControl port s) := by
  unfold execControl
  refine (keeps_next _ _).2 (State.takeMsg_keep _ _ _ _ fun m s => ?_)
  rw [State.controlUnits_keep, State.controlMap_keep]

end Sys2Proof.Machine
end

