-- ==== Sys2Proof/Laws/KeepReset.lean ====
section
/-! SUPPORT. The queue and the held accesses: what power, resets and the registers do leaves them alone. -/
namespace Sys2Proof.Machine
set_option linter.all false

/-! ### Service -/

@[simp] theorem State.modReference_keep (s : State) (f : Reference → Reference) : (State.modReference s f).keep = s.keep := by
  simp [State.modReference]

@[simp] theorem State.referenceCause_keep (s : State) (c : Option RefCause) : (State.referenceCause s c).keep = s.keep := by
  simp [State.referenceCause]

@[simp] theorem State.referenceReview_keep (s : State) : (State.referenceReview s).keep = s.keep := by
  simp [State.referenceReview]

@[simp] theorem State.discardUpkeep_keep (s : State) : (State.discardUpkeep s).keep = s.keep := by
  simp [State.discardUpkeep]

@[simp] theorem State.unitsStop_keep (s : State) : (State.unitsStop s).keep = s.keep := by
  simp [State.unitsStop]

theorem execReferenceEntry_keep (s : State) : Keeps s (execReferenceEntry s) := by
  simp [execReferenceEntry]

theorem execReferenceExit_keep (s : State) : Keeps s (execReferenceExit s) := by
  simp [execReferenceExit]

theorem execEnterReference_keep (job : Nat) (s : State) : Keeps s (execEnterReference job s) := by
  simp [execEnterReference]

theorem execExitReference_keep (job : Nat) (s : State) : Keeps s (execExitReference job s) := by
  simp [execExitReference]

theorem execReadErrata_keep (job : Nat) (s : State) : Keeps s (execReadErrata job s) := by
  simp [execReadErrata]

theorem execQueryErrors_keep (job : Nat) (s : State) : Keeps s (execQueryErrors job s) := by
  simp [execQueryErrors]

theorem execSetErrata_keep (job : Nat) (s : State) : Keeps s (execSetErrata job s) := by
  simp [execSetErrata]

/-! ### Power -/

@[simp] theorem State.modPower_keep (s : State) (f : Power → Power) (h : (f s.power).sleep = s.power.sleep) : (s.modPower f).keep = s.keep := by
  unfold State.modPower State.keep
  rw [h]

@[simp] theorem State.modQuadrant_keep (s : State) (q : Nat) (f : Quadrant → Quadrant) : (State.modQuadrant s q f).keep = s.keep := by
  simp [State.modQuadrant]

@[simp] theorem State.alertBegins_keep (s : State) : (State.alertBegins s).keep = s.keep := by
  simp [State.alertBegins]

@[simp] theorem State.alertReview_keep (s : State) : (State.alertReview s).keep = s.keep := by
  simp [State.alertReview]

@[simp] theorem State.portViolation_keep (s : State) (port reason : Nat) : (State.portViolation s port reason).keep = s.keep := by
  simp [State.portViolation]

theorem execQuadrantClockStop_keep (q : Nat) (s : State) : Keeps s (execQuadrantClockStop q s) := by
  simp [execQuadrantClockStop]

theorem execQuadrantClockStart_keep (q : Nat) (s : State) : Keeps s (execQuadrantClockStart q s) := by
  simp [execQuadrantClockStart]

@[simp] theorem State.sendAvs_keep (s : State) (mv : Nat) : (State.sendAvs s mv).keep = s.keep := by
  simp [State.sendAvs]

theorem execOperatingPointChange_keep (q mv : Nat) (s : State) : Keeps s (execOperatingPointChange q mv s) := by
  simp [execOperatingPointChange]

theorem execAvsStepComplete_keep (s : State) : Keeps s (execAvsStepComplete s) := by
  unfold execAvsStepComplete
  repeat' first | (simp; done) | split

@[simp] theorem State.avsFailed_keep (s : State) (reason : Nat) : (State.avsFailed s reason).keep = s.keep := by
  simp [State.avsFailed]

theorem execAvsStepTimeout_keep (noResponse : Bool) (s : State) : Keeps s (execAvsStepTimeout noResponse s) := by
  unfold execAvsStepTimeout
  repeat' first
    | with_reducible rfl
    | intro _
    | with_reducible (refine (keeps_next _ _).2 ?_)
    | exact trivial
    | (simp; done)
    | with_reducible (refine (foldl_keep _ ?_ _ _).trans ?_)
    | with_reducible (refine (foldl_keep1 _ ?_ _ _).trans ?_)
    | with_reducible (refine (foldl_keep2 _ ?_ _ _).trans ?_)
    | with_reducible (refine (begin_keep _ _ _ _ ?_).trans ?_)
    | with_reducible (refine (beginRead_keep _ _ _ _ _ ?_).trans ?_)
    | with_reducible (refine (check_keep _ _ _ _ ?_).trans ?_)
    | split
    | (simp [*]; done)
    | rw [State.takeBlock_keep ‹_›]
    | rw [State.appendPage_keep ‹_›]
    | rw [State.takeLogPage_keep ‹_›]
    | rw [State.queueMap_keep ‹_›]
    | rw [State.writeSegment_keep ‹_›]
    | rw [State.fixSnapshot_keep ‹_›]
    | rw [State.openHere_keep ‹_›]
    | rw [State.consume_keep ‹_›]
    | rw [State.newSheets_keep ‹_›]
    | rw [takeBlocks_keep ‹_›]
    | rw [writeSegments_keep ‹_›]
    | rw [State.queueSolve_keep ‹_›]

    | simp

@[simp] theorem State.stepDown_keep (s : State) (q : Nat) : (State.stepDown s q).keep = s.keep := by
  simp [State.stepDown]

@[simp] theorem State.refreshPower_keep (s : State) (mv : Nat) : (State.refreshPower s mv).keep = s.keep := by
  simp [State.refreshPower]

@[simp] theorem State.powerStep_keep (s : State) : (State.powerStep s).keep = s.keep := by
  unfold State.powerStep
  repeat' first
    | with_reducible rfl
    | intro _
    | with_reducible (refine (keeps_next _ _).2 ?_)
    | exact trivial
    | (simp; done)
    | with_reducible (refine (foldl_keep _ ?_ _ _).trans ?_)
    | with_reducible (refine (foldl_keep1 _ ?_ _ _).trans ?_)
    | with_reducible (refine (foldl_keep2 _ ?_ _ _).trans ?_)
    | with_reducible (refine (begin_keep _ _ _ _ ?_).trans ?_)
    | with_reducible (refine (beginRead_keep _ _ _ _ _ ?_).trans ?_)
    | with_reducible (refine (check_keep _ _ _ _ ?_).trans ?_)
    | split
    | (simp [*]; done)
    | rw [State.takeBlock_keep ‹_›]
    | rw [State.appendPage_keep ‹_›]
    | rw [State.takeLogPage_keep ‹_›]
    | rw [State.queueMap_keep ‹_›]
    | rw [State.writeSegment_keep ‹_›]
    | rw [State.fixSnapshot_keep ‹_›]
    | rw [State.openHere_keep ‹_›]
    | rw [State.consume_keep ‹_›]
    | rw [State.newSheets_keep ‹_›]
    | rw [takeBlocks_keep ‹_›]
    | rw [writeSegments_keep ‹_›]
    | rw [State.queueSolve_keep ‹_›]

    | simp

@[simp] theorem State.reviewCap_keep (s : State) (waiting : Bool) : (State.reviewCap s waiting).keep = s.keep := by
  simp [State.reviewCap]

theorem execPowerLoopInterval_keep (power mv : Nat) (waiting : Bool) (s : State) : Keeps s (execPowerLoopInterval power mv waiting s) := by
  simp [execPowerLoopInterval]

theorem execFastLimiterTrip_keep (s : State) : Keeps s (execFastLimiterTrip s) := by
  simp [execFastLimiterTrip]

theorem execFastLimiterRelease_keep (s : State) : Keeps s (execFastLimiterRelease s) := by
  simp [execFastLimiterRelease]

@[simp] theorem State.throttleEvent_keep (s : State) (i detail : Nat) (t : Int) : (State.throttleEvent s i detail t).keep = s.keep := by
  simp [State.throttleEvent]

@[simp] theorem State.modSensor_keep (s : State) (i : Nat) (f : Sensor → Sensor) : (State.modSensor s i f).keep = s.keep := by
  simp [State.modSensor]

@[simp] theorem State.readSensor_keep (s : State) (i : Nat) (t : Int) : (State.readSensor s i t).keep = s.keep := by
  simp [State.readSensor]

@[simp] theorem State.coolDown_keep (s : State) : (State.coolDown s).keep = s.keep := by
  simp [State.coolDown]

theorem execThermalSensorRead_keep (temps : List Int) (s : State) : Keeps s (execThermalSensorRead temps s) := by
  unfold execThermalSensorRead
  repeat' first | (simp; done) | split

theorem execQueryPower_keep (job : Nat) (s : State) : Keeps s (execQueryPower job s) := by
  simp [execQueryPower]

theorem execDeviceInfo_keep (job : Nat) (s : State) : Keeps s (execDeviceInfo job s) := by
  simp [execDeviceInfo]

/-! ### Security -/

theorem execOwnerRecord_keep (job : Nat) (buf : BufRead) (s : State) : Keeps s (execOwnerRecord job buf s) := by
  simp [execOwnerRecord]

theorem execAttest_keep (job : Nat) (writeOk : Bool) (s : State) : Keeps s (execAttest job writeOk s) := by
  simp [execAttest]

/-! ### Reset -/

@[simp] theorem State.modBoot_keep (s : State) (f : Boot → Boot) : (State.modBoot s f).keep = s.keep := by
  simp [State.modBoot]

@[simp] theorem State.modVault_keep (s : State) (f : Vault → Vault) : (State.modVault s f).keep = s.keep := by
  simp [State.modVault]

@[simp] theorem State.cleared_follows (k : KeptKey) (s : State) (power : Bool) (hs : Follows k s.keep) : Follows k (s.cleared power).keep :=
  ⟨hs.1, .inr rfl⟩

@[simp] theorem State.modAttempt_keep (s : State) (f : Attempt → Attempt) : (State.modAttempt s f).keep = s.keep := by
  simp [State.modAttempt]

@[simp] theorem State.stepTo_keep (s : State) (n : Nat) : (State.stepTo s n).keep = s.keep := by
  simp [State.stepTo]

@[simp] theorem State.closeAttempt_keep (s : State) (outcome detail : Nat) : (State.closeAttempt s outcome detail).keep = s.keep := by
  simp [State.closeAttempt]

@[simp] theorem State.countFailure_keep (s : State) : (State.countFailure s).keep = s.keep := by
  simp [State.countFailure]

@[simp] theorem State.enterMinimal_keep (s : State) : (State.enterMinimal s).keep = s.keep := by
  simp [State.enterMinimal]

@[simp] theorem State.beginStart_keep (s : State) (kind : Nat) (named : Option (Nat × Nat)) : (s.beginStart kind named).keep = s.keep := by
  unfold State.beginStart
  extract_lets s1 s2 r s3 source v serial a s4
  have h1 : s1.keep = s.keep := by
    unfold s1
    split
    · rfl
    · rw [State.countFailure_keep, State.modAttempt_keep]
  have h3 : s3.keep = s.keep := by
    have h2 : s2.keep = s.keep := by unfold s2; rw [State.modBoot_keep, h1]
    unfold s3 r
    rw [keep_mk, h2]
  have h4 : s4.keep = s.keep := by
    unfold s4
    split
    · rw [State.enterMinimal_keep, h3]
    · rw [State.modBoot_keep, State.modVault_keep, h3]
  rw [State.alertReview_keep, h4]

@[simp] theorem State.deviceResetWith_follows (k : KeptKey) (s : State) (named : Option (Nat × Nat)) (hs : Follows k s.keep) : Follows k (State.deviceResetWith s named).keep := by
  unfold State.deviceResetWith
  repeat' first
    | (simp [*]; done)
    | split
    | simp [*]

@[simp] theorem State.deviceReset_follows (k : KeptKey) (s : State) (hs : Follows k s.keep) : Follows k (State.deviceReset s).keep := by
  simp [State.deviceReset, *]

@[simp] theorem State.failStart_follows (k : KeptKey) (s : State) (reason detail : Nat) (hs : Follows k s.keep) : Follows k (State.failStart s reason detail).keep := by
  simp [State.failStart, *]

@[simp] theorem State.releaseTrip_keep (s : State) : (State.releaseTrip s).keep = s.keep := by
  simp [State.releaseTrip]

theorem execPowerOnReset_trails (straps : Option Straps) (s : State) : Trails s (execPowerOnReset straps s) := by
  unfold execPowerOnReset
  repeat' first
    | (simp [*]; done)
    | split
    | simp [*]

theorem execAonRailLow_trails (s : State) : Trails s (execAonRailLow s) := by
  unfold execAonRailLow
  repeat' first
    | (simp [*]; done)
    | split
    | simp [*]

theorem execDeviceLevelReset_trails (s : State) : Trails s (execDeviceLevelReset s) := by
  simp [execDeviceLevelReset, *]

@[simp] theorem State.dropJobs_keep (s : State) (p : Job → Bool) : (State.dropJobs s p).keep = s.keep := by
  simp [State.dropJobs]

@[simp] theorem State.functionReset_keep (s : State) : (State.functionReset s).keep = s.keep := by
  simp [State.functionReset]

theorem execFunctionLevelReset_keep (s : State) : Keeps s (execFunctionLevelReset s) := by
  simp [execFunctionLevelReset]

theorem execPerst_trails (s : State) : Trails s (execPerst s) := by
  unfold execPerst
  repeat' first | (simp [*]; done) | split

theorem execThermalTrip_trails (s : State) : Trails s (execThermalTrip s) := by
  unfold execThermalTrip
  repeat' first
    | (simp [*]; done)
    | split
    | simp [*]

@[simp] theorem State.fatalRecord_keep (s : State) (r : Report) (recorded : Nat) : (State.fatalRecord s r recorded).2.keep = s.keep := by
  unfold State.fatalRecord
  repeat' first | (simp; done) | split

@[simp] theorem State.discardAll_keep (s : State) : (State.discardAll s).keep = s.keep := by
  unfold State.discardAll
  repeat' first
    | with_reducible rfl
    | intro _
    | with_reducible (refine (keeps_next _ _).2 ?_)
    | exact trivial
    | (simp; done)
    | with_reducible (refine (foldl_keep _ ?_ _ _).trans ?_)
    | with_reducible (refine (foldl_keep1 _ ?_ _ _).trans ?_)
    | with_reducible (refine (foldl_keep2 _ ?_ _ _).trans ?_)
    | with_reducible (refine (begin_keep _ _ _ _ ?_).trans ?_)
    | with_reducible (refine (beginRead_keep _ _ _ _ _ ?_).trans ?_)
    | with_reducible (refine (check_keep _ _ _ _ ?_).trans ?_)
    | split
    | (simp [*]; done)
    | rw [State.takeBlock_keep ‹_›]
    | rw [State.appendPage_keep ‹_›]
    | rw [State.takeLogPage_keep ‹_›]
    | rw [State.queueMap_keep ‹_›]
    | rw [State.writeSegment_keep ‹_›]
    | rw [State.fixSnapshot_keep ‹_›]
    | rw [State.openHere_keep ‹_›]
    | rw [State.consume_keep ‹_›]
    | rw [State.newSheets_keep ‹_›]
    | rw [takeBlocks_keep ‹_›]
    | rw [writeSegments_keep ‹_›]
    | rw [State.queueSolve_keep ‹_›]

    | simp

@[simp] theorem State.deviceFatal_follows (k : KeptKey) (s : State) (r : Report) (recorded : Nat) (hs : Follows k s.keep) : Follows k (State.deviceFatal s r recorded).keep := by
  unfold State.deviceFatal
  repeat' first
    | (simp [*]; done)
    | split
    | simp [*]

theorem execDeviceFatalError_trails (unit inst code location detail0 recorded : Nat) (s : State) : Trails s (execDeviceFatalError unit inst code location detail0 recorded s) := by
  simp [execDeviceFatalError, *]

@[simp] theorem State.handleRail_follows (k : KeptKey) (s : State) (rail : Nat) (hs : Follows k s.keep) : Follows k (State.handleRail s rail).keep := by
  simp [State.handleRail, *]

theorem execRailFault_trails (rail : Nat) (s : State) : Trails s (execRailFault rail s) := by
  unfold execRailFault
  repeat' first | (simp [*]; done) | split

theorem execReferenceLost_trails (s : State) : Trails s (execReferenceLost s) := by
  unfold execReferenceLost
  repeat' first | (simp [*]; done) | split

theorem execReferenceReturn_keep (s : State) : Keeps s (execReferenceReturn s) := by
  simp [execReferenceReturn]

/-! ### Start -/

@[simp] theorem State.awaitPush_keep (s : State) : (State.awaitPush s).keep = s.keep := by
  simp [State.awaitPush]

@[simp] theorem State.beginImageStep_keep (s : State) : (State.beginImageStep s).keep = s.keep := by
  simp [State.beginImageStep]

@[simp] theorem State.noteNor_keep (s : State) (device : Nat) (ok : Bool) : (State.noteNor s device ok).keep = s.keep := by
  simp [State.noteNor]

@[simp] theorem State.endImageStep_follows (k : KeptKey) (s : State) (item : Option Bytes) (badHeader : Bool) (hs : Follows k s.keep) : Follows k (State.endImageStep s item badHeader).keep := by
  unfold State.endImageStep
  repeat' first
    | (simp [*]; done)
    | split
    | simp [*]

@[simp] theorem State.applyConfig_keep (s : State) (f : ConfigFields) : (State.applyConfig s f).keep = s.keep := by
  simp [State.applyConfig]

@[simp] theorem State.endConfigStep_follows (k : KeptKey) (s : State) (item : Option Bytes) (f : ConfigFields) (hs : Follows k s.keep) : Follows k (State.endConfigStep s item f).keep := by
  unfold State.endConfigStep
  repeat' first | (simp [*]; done) | split

@[simp] theorem State.endDefaultsStep_follows (k : KeptKey) (s : State) (images : List (Nat × Bytes)) (hs : Follows k s.keep) :
    Follows k (s.endDefaultsStep images).keep := by
  unfold State.endDefaultsStep
  split
  · exact State.failStart_follows _ _ _ _ hs
  · extract_lets r s1
    have h1 : s1.keep = s.keep := by unfold s1 r; rw [keep_mk]
    clear_value s1
    rw [State.stepTo_keep]
    refine foldl_follows _ _ (fun s h hk => ?_) _ _ (h1 ▸ hs)
    split
    · exact hk
    · repeat' first
        | (simp [hk]; done)
        | split

@[simp] theorem State.takeChannel_keep (s : State) (e : Nat) (f : ChannelFound) : (State.takeChannel s e f).keep = s.keep := by
  unfold State.takeChannel
  repeat' first
    | with_reducible rfl
    | intro _
    | with_reducible (refine (keeps_next _ _).2 ?_)
    | exact trivial
    | (simp; done)
    | with_reducible (refine (foldl_keep _ ?_ _ _).trans ?_)
    | with_reducible (refine (foldl_keep1 _ ?_ _ _).trans ?_)
    | with_reducible (refine (foldl_keep2 _ ?_ _ _).trans ?_)
    | with_reducible (refine (begin_keep _ _ _ _ ?_).trans ?_)
    | with_reducible (refine (beginRead_keep _ _ _ _ _ ?_).trans ?_)
    | with_reducible (refine (check_keep _ _ _ _ ?_).trans ?_)
    | split
    | (simp [*]; done)
    | rw [State.takeBlock_keep ‹_›]
    | rw [State.appendPage_keep ‹_›]
    | rw [State.takeLogPage_keep ‹_›]
    | rw [State.queueMap_keep ‹_›]
    | rw [State.writeSegment_keep ‹_›]
    | rw [State.fixSnapshot_keep ‹_›]
    | rw [State.openHere_keep ‹_›]
    | rw [State.consume_keep ‹_›]
    | rw [State.newSheets_keep ‹_›]
    | rw [takeBlocks_keep ‹_›]
    | rw [writeSegments_keep ‹_›]
    | rw [State.queueSolve_keep ‹_›]

    | simp

@[simp] theorem State.restoreMap_keep (s : State) (bad : List Nat) : (State.restoreMap s bad).keep = s.keep := by
  simp [State.restoreMap]

@[simp] theorem State.restoreCatalogue_keep (s : State) (ok : Bool) : (State.restoreCatalogue s ok).keep = s.keep := by
  simp [State.restoreCatalogue]

theorem execStartStepEnd_trails (d : StartData) (s : State) : Trails s (execStartStepEnd d s) := by
  unfold execStartStepEnd
  repeat' first
    | (simp [*]; done)
    | split
    | simp [*]

theorem execStartComplete_keep (s : State) : Keeps s (execStartComplete s) := by
  simp [execStartComplete]

theorem execStartFailure_trails (reason detail : Nat) (s : State) : Trails s (execStartFailure reason detail s) := by
  unfold execStartFailure
  repeat' first | (simp [*]; done) | split

theorem execStartTimeout_trails (s : State) : Trails s (execStartTimeout s) := by
  unfold execStartTimeout
  repeat' first | (simp [*]; done) | split

theorem execBootGoTimeout_trails (s : State) : Trails s (execBootGoTimeout s) := by
  unfold execBootGoTimeout
  repeat' first | (simp [*]; done) | split

theorem execColdStartWaitEnd_keep (s : State) : Keeps s (execColdStartWaitEnd s) := by
  simp [execColdStartWaitEnd]

theorem execColophonPosted_keep (s : State) : Keeps s (execColophonPosted s) := by
  simp [execColophonPosted]

theorem execReadColophon_keep (job : Nat) (s : State) : Keeps s (execReadColophon job s) := by
  simp [execReadColophon]

@[simp] theorem State.retryStart_follows (k : KeptKey) (s : State) (hs : Follows k s.keep) : Follows k (State.retryStart s).keep := by
  unfold State.retryStart
  repeat' first | (simp [*]; done) | split

theorem execRetryStart_trails (job : Nat) (s : State) : Trails s (execRetryStart job s) := by
  unfold execRetryStart
  refine (trails_next _ _).2 (begin_follows _ _ _ _ _ (fun j s hs => ?_) (Follows.refl _))
  split
  · simp [hs]
  · simp [hs]

theorem execWriteBootFlash_keep (job : Nat) (buf : BufRead) (s : State) : Keeps s (execWriteBootFlash job buf s) := by
  simp [execWriteBootFlash]

/-! ### Units -/

@[simp] theorem State.setDown_keep (s : State) (d : DownUnit) : (State.setDown s d).keep = s.keep := by
  simp [State.setDown]

@[simp] theorem State.coreBack_keep (s : State) (core : Nat) : (State.coreBack s core).keep = s.keep := by
  simp [State.coreBack]

@[simp] theorem State.unitBack_keep (s : State) (unit inst : Nat) : (State.unitBack s unit inst).keep = s.keep := by
  simp [State.unitBack]

@[simp] theorem State.recovered_keep (s : State) (d : DownUnit) (micros : Nat) : (State.recovered s d micros).keep = s.keep := by
  simp [State.recovered]

@[simp] theorem State.markCause_keep (s : State) (seq : Nat) : (State.markCause s seq).keep = s.keep := by
  simp [State.markCause]

@[simp] theorem State.outOfService_follows (k : KeptKey) (s : State) (d : DownUnit) (sheets : List Nat) (hs : Follows k s.keep) :
    Follows k (s.outOfService d sheets).keep := by
  unfold State.outOfService
  extract_lets cause fatal p s1 s2 s3
  have hc (t : State) : (cause t).keep = t.keep := by unfold cause; simp
  have hf (t : State) (h : Follows k t.keep) : Follows k (fatal t).keep := State.deviceFatal_follows _ _ _ _ h
  have h1 : s1.keep = s.keep := by unfold s1 p; rw [keep_mk]
  split
  · exact hf _ hs
  · split
    · split
      · exact hf _ (h1 ▸ hs)
      · exact h1 ▸ hs
    · split
      · have h3 : s3.keep = s.keep := by
          unfold s3
          exact (foldl_keep _ (fun _ _ => State.loseSheet_keep _ _) _ _).trans (hc s)
        rw [State.reviewBounds_keep, foldl_keep _ (fun _ _ => State.endSession_keep _ _ _), h3]
        exact hs
      · split
        · rw [hc]; exact hs
        · exact hs

theorem execUnitRecovered_trails (unit inst : Nat) (ok : Bool) (micros : Nat) (sheets : List Nat) (s : State) : Trails s (execUnitRecovered unit inst ok micros sheets s) := by
  unfold execUnitRecovered
  repeat' first
    | (simp [*]; done)
    | split
    | simp [*]

theorem execUnitResetRetry_keep (unit inst : Nat) (ok : Bool) (micros : Nat) (s : State) : Keeps s (execUnitResetRetry unit inst ok micros s) := by
  unfold execUnitResetRetry
  repeat' first | (simp; done) | split

/-! ### Registers -/

@[simp] theorem State.latchStamp_keep (s : State) : (State.latchStamp s).keep = s.keep := by
  simp [State.latchStamp]

@[simp] theorem State.latchHigh_keep (s : State) (o : Nat) : (State.latchHigh s o).keep = s.keep := by
  simp [State.latchHigh]

@[simp] theorem State.readRegister_keep (s : State) (o width : Nat) : (State.readRegister s o width).2.keep = s.keep := by
  unfold State.readRegister
  repeat' first | (simp; done) | split

@[simp] theorem State.answerRead_keep (s : State) (o width : Nat) : (State.answerRead s o width).keep = s.keep := by
  simp [State.answerRead]

@[simp] theorem State.writeBootGo_keep (s : State) (value : Nat) : (State.writeBootGo s value).keep = s.keep := by
  simp [State.writeBootGo]

@[simp] theorem State.writeKey_follows (k : KeptKey) (s : State) (value : Nat) (hs : Follows k s.keep) : Follows k (State.writeKey s value).keep := by
  unfold State.writeKey
  repeat' first | (simp [*]; done) | split

@[simp] theorem State.writeFixed_keep (s : State) (q : Nat) (f : FixedReg → FixedReg) : (State.writeFixed s q f).keep = s.keep := by
  simp [State.writeFixed]

@[simp] theorem State.writeBoot_keep (s : State) (f : Boot → Boot) : (State.writeBoot s f).keep = s.keep := by
  simp [State.writeBoot]

@[simp] theorem State.write64_keep (s : State) (o value : Nat) : (State.write64 s o value).keep = s.keep := by
  simp [State.write64]

@[simp] theorem State.writeVector_keep (s : State) (v word value : Nat) : (State.writeVector s v word value).keep = s.keep := by
  unfold State.writeVector
  repeat' first | (simp; done) | split

@[simp] theorem State.writeMsix_keep (s : State) (o value : Nat) : (State.writeMsix s o value).keep = s.keep := by
  simp [State.writeMsix]

@[simp] theorem State.writeFloor_keep (s : State) (value : Nat) : (State.writeFloor s value).keep = s.keep := by
  simp [State.writeFloor]

@[simp] theorem State.writeArrays_keep (s : State) (o value : Nat) : (s.writeArrays o value).keep = s.keep := by
  unfold State.writeArrays
  generalize arrayIndex o 0x30200 4 128 = a
  generalize arrayIndex o 0x40008 0x20 3 = b
  generalize arrayIndex o 0x4000C 0x20 3 = c
  rcases a with _ | a
  · rcases b with _ | b
    · rcases c with _ | c
      · exact State.dropWrite_keep _
      · dsimp only
        split
        · exact State.dropWrite_keep _
        · exact State.writeFixed_keep _ _ _
    · dsimp only
      split
      · exact State.dropWrite_keep _
      · exact State.writeFixed_keep _ _ _
  · exact State.clearStormed_keep _ _ _ _

@[simp] theorem State.write32_follows (k : KeptKey) (s : State) (o value : Nat) (hs : Follows k s.keep) : Follows k (s.write32 o value).keep := by
  unfold State.write32
  repeat' first
    | with_reducible exact State.writeKey_follows _ _ _ hs
    | (rw [State.writeBoot_keep]; exact hs)
    | (rw [State.writeBootGo_keep]; exact hs)
    | (rw [State.raiseWord_keep]; exact hs)
    | (rw [State.writeFloor_keep]; exact hs)
    | (rw [State.writeGo_keep]; exact hs)
    | (rw [State.writeFixedReset_keep]; exact hs)
    | (rw [State.writeSource_keep]; exact hs)
    | (rw [State.clearStormed_keep]; exact hs)
    | (rw [State.dropWrite_keep]; exact hs)
    | (rw [State.writeArrays_keep]; exact hs)
    | split

@[simp] theorem State.holdHigh_keep (s : State) (l : List (Nat × Nat)) : (State.holdHigh s l).keep = s.keep := by
  simp [State.holdHigh]

@[simp] theorem State.writeLow_keep (s : State) (o value : Nat) : (State.writeLow s o value).keep = s.keep := by
  simp [State.writeLow]

@[simp] theorem State.writeRegister_follows (k : KeptKey) (s : State) (o width value : Nat) (whole : Bool) (hs : Follows k s.keep) :
    Follows k (s.writeRegister o width value whole).keep := by
  unfold State.writeRegister
  repeat' first
    | with_reducible exact hs
    | with_reducible exact State.write32_follows _ _ _ _ hs
    | (rw [State.writeMsix_keep, State.writeMsix_keep]; exact hs)
    | (rw [State.writeMsix_keep]; exact hs)
    | (rw [State.dropWrite_keep]; exact hs)
    | (rw [State.write64_keep, State.holdHigh_keep]; exact hs)
    | (rw [State.writeLow_keep]; exact hs)
    | (rw [State.holdHigh_keep]; exact hs)
    | split

/-! ### Steering -/

@[simp] theorem State.writeEntries_keep (s : State) (q : Nat) (l : List Entry) : (s.writeEntries q l).keep = s.keep := by
  induction l generalizing s with
  | nil => unfold State.writeEntries; with_reducible rfl
  | cons a l ih =>
  unfold State.writeEntries
  repeat' first
    | with_reducible rfl
    | intro _
    | with_reducible (refine (keeps_next _ _).2 ?_)
    | exact trivial
    | (simp [ih]; done)
    | with_reducible (refine (foldl_keep _ ?_ _ _).trans ?_)
    | with_reducible (refine (foldl_keep1 _ ?_ _ _).trans ?_)
    | with_reducible (refine (foldl_keep2 _ ?_ _ _).trans ?_)
    | with_reducible (refine (begin_keep _ _ _ _ ?_).trans ?_)
    | with_reducible (refine (beginRead_keep _ _ _ _ _ ?_).trans ?_)
    | with_reducible (refine (check_keep _ _ _ _ ?_).trans ?_)
    | split
    | (simp [*]; done)
    | rw [State.takeBlock_keep ‹_›]
    | rw [State.appendPage_keep ‹_›]
    | rw [State.takeLogPage_keep ‹_›]
    | rw [State.queueMap_keep ‹_›]
    | rw [State.writeSegment_keep ‹_›]
    | rw [State.fixSnapshot_keep ‹_›]
    | rw [State.openHere_keep ‹_›]
    | rw [State.consume_keep ‹_›]
    | rw [State.resolve_keep ‹_›]
    | rw [State.newSheets_keep ‹_›]
    | rw [takeBlocks_keep ‹_›]
    | rw [writeSegments_keep ‹_›]
    | rw [State.queueSolve_keep ‹_›]

    | simp

@[simp] theorem State.receivePacket_keep (s : State) (l q rule checks : Nat) (a : Arrival) (p : Parsed) : (State.receivePacket s l q rule checks a p).keep = s.keep := by
  simp [State.receivePacket]

@[simp] theorem State.enqueue_keep (s : State) (l : Nat) (a : Arrival) (get : LogPort → List Arrival) (put : LogPort → List Arrival → LogPort) : (State.enqueue s l a get put).keep = s.keep := by
  simp [State.enqueue]

@[simp] theorem State.exception_keep (s : State) (l checks : Nat) (a : Arrival) (p : Parsed) : (State.exception s l checks a p).keep = s.keep := by
  simp [State.exception]

@[simp] theorem State.steerAsleep_keep (s : State) (l : Nat) (a : Arrival) (p : Parsed) : (State.steerAsleep s l a p).keep = s.keep := by
  simp [State.steerAsleep]

@[simp] theorem State.passFrame_keep (s : State) (l : Nat) (a : Arrival) : (State.passFrame s l a).keep = s.keep := by
  unfold State.passFrame
  repeat' first
    | with_reducible rfl
    | intro _
    | with_reducible (refine (keeps_next _ _).2 ?_)
    | exact trivial
    | (simp; done)
    | with_reducible (refine (foldl_keep _ ?_ _ _).trans ?_)
    | with_reducible (refine (foldl_keep1 _ ?_ _ _).trans ?_)
    | with_reducible (refine (foldl_keep2 _ ?_ _ _).trans ?_)
    | with_reducible (refine (begin_keep _ _ _ _ ?_).trans ?_)
    | with_reducible (refine (beginRead_keep _ _ _ _ _ ?_).trans ?_)
    | with_reducible (refine (check_keep _ _ _ _ ?_).trans ?_)
    | split
    | (simp [*]; done)
    | rw [State.takeBlock_keep ‹_›]
    | rw [State.appendPage_keep ‹_›]
    | rw [State.takeLogPage_keep ‹_›]
    | rw [State.queueMap_keep ‹_›]
    | rw [State.writeSegment_keep ‹_›]
    | rw [State.fixSnapshot_keep ‹_›]
    | rw [State.openHere_keep ‹_›]
    | rw [State.consume_keep ‹_›]
    | rw [State.resolve_keep ‹_›]
    | rw [State.newSheets_keep ‹_›]
    | rw [takeBlocks_keep ‹_›]
    | rw [writeSegments_keep ‹_›]
    | rw [State.queueSolve_keep ‹_›]

    | simp

@[simp] theorem State.passHeld_keep (s : State) : (State.passHeld s).keep = s.keep := by
  simp [State.passHeld]

theorem State.resolve_keep {s : State} {l : Nat} {f : Bytes} {p : Parsed} {t : State} (h : s.resolve l f p = some t) : t.keep = s.keep := by
  unfold State.resolve at h
  revert h
  dsimp only
  repeat' first
    | intro h; injection h with h; injection h with h1 h2; subst h2; simp; done
    | intro h; injection h with h; subst h; simp; done
    | (intro h; simp at h; done)
    | intro h; injection h with h; injection h with h1 h2; subst h2; with_reducible refine (foldl_keep2 _ ?_ _ _).trans ?_
    | intro h; injection h with h; subst h; with_reducible refine (foldl_keep _ ?_ _ _).trans ?_
    | with_reducible (refine (foldl_keep _ ?_ _ _).trans ?_)
    | with_reducible rfl
    | rw [State.takeBlock_keep ‹_›]
    | rw [State.appendPage_keep ‹_›]
    | rw [State.takeLogPage_keep ‹_›]
    | rw [State.queueMap_keep ‹_›]
    | rw [State.writeSegment_keep ‹_›]
    | rw [State.fixSnapshot_keep ‹_›]
    | rw [State.openHere_keep ‹_›]
    | rw [State.consume_keep ‹_›]
    | rw [State.resolve_keep ‹_›]
    | rw [State.newSheets_keep ‹_›]
    | rw [takeBlocks_keep ‹_›]
    | rw [writeSegments_keep ‹_›]
    | rw [State.queueSolve_keep ‹_›]
    | split
    | simp
    | intro _

theorem execEthFrameReceive_keep (port : Nat) (frame : Bytes) (fcsOk : Bool) (corrected bad : Nat) (s : State) : Keeps s (execEthFrameReceive port frame fcsOk corrected bad s) := by
  unfold execEthFrameReceive
  repeat' first
    | with_reducible rfl
    | intro _
    | with_reducible (refine (keeps_next _ _).2 ?_)
    | exact trivial
    | (simp; done)
    | with_reducible (refine (foldl_keep _ ?_ _ _).trans ?_)
    | with_reducible (refine (foldl_keep1 _ ?_ _ _).trans ?_)
    | with_reducible (refine (foldl_keep2 _ ?_ _ _).trans ?_)
    | with_reducible (refine (begin_keep _ _ _ _ ?_).trans ?_)
    | with_reducible (refine (beginRead_keep _ _ _ _ _ ?_).trans ?_)
    | with_reducible (refine (check_keep _ _ _ _ ?_).trans ?_)
    | split
    | (simp [*]; done)
    | rw [State.takeBlock_keep ‹_›]
    | rw [State.appendPage_keep ‹_›]
    | rw [State.takeLogPage_keep ‹_›]
    | rw [State.queueMap_keep ‹_›]
    | rw [State.writeSegment_keep ‹_›]
    | rw [State.fixSnapshot_keep ‹_›]
    | rw [State.openHere_keep ‹_›]
    | rw [State.consume_keep ‹_›]
    | rw [State.resolve_keep ‹_›]
    | rw [State.newSheets_keep ‹_›]
    | rw [takeBlocks_keep ‹_›]
    | rw [writeSegments_keep ‹_›]
    | rw [State.queueSolve_keep ‹_›]

    | simp

theorem execAddFlow_keep (job : Nat) (s : State) : Keeps s (execAddFlow job s) := by
  unfold execAddFlow
  repeat' first
    | with_reducible rfl
    | intro _
    | with_reducible (refine (keeps_next _ _).2 ?_)
    | exact trivial
    | (simp; done)
    | with_reducible (refine (foldl_keep _ ?_ _ _).trans ?_)
    | with_reducible (refine (foldl_keep1 _ ?_ _ _).trans ?_)
    | with_reducible (refine (foldl_keep2 _ ?_ _ _).trans ?_)
    | with_reducible (refine (begin_keep _ _ _ _ ?_).trans ?_)
    | with_reducible (refine (beginRead_keep _ _ _ _ _ ?_).trans ?_)
    | with_reducible (refine (check_keep _ _ _ _ ?_).trans ?_)
    | split
    | (simp [*]; done)
    | rw [State.takeBlock_keep ‹_›]
    | rw [State.appendPage_keep ‹_›]
    | rw [State.takeLogPage_keep ‹_›]
    | rw [State.queueMap_keep ‹_›]
    | rw [State.writeSegment_keep ‹_›]
    | rw [State.fixSnapshot_keep ‹_›]
    | rw [State.openHere_keep ‹_›]
    | rw [State.consume_keep ‹_›]
    | rw [State.resolve_keep ‹_›]
    | rw [State.newSheets_keep ‹_›]
    | rw [takeBlocks_keep ‹_›]
    | rw [writeSegments_keep ‹_›]
    | rw [State.queueSolve_keep ‹_›]

    | simp

/-! ### Wake -/

@[simp] theorem State.carrelsOff_keep (s : State) : (State.carrelsOff s).keep = s.keep := by
  simp [State.carrelsOff]

@[simp] theorem State.parkLinks_keep (s : State) : (State.parkLinks s).keep = s.keep := by
  simp [State.parkLinks]

@[simp] theorem State.holdTime_keep (s : State) : (State.holdTime s).keep = s.keep := by
  simp [State.holdTime]

@[simp] theorem State.clocksOff_keep (s : State) : s.clocksOff.keep = (s.pending, s.heldAccess, false) := rfl

@[simp] theorem State.signal_keep (s : State) (q : Nat) : (State.signal s q).keep = s.keep := by
  simp [State.signal]

theorem execWakeEvent_keep (source port : Nat) (s : State) : Keeps s (execWakeEvent source port s) := by
  simp [execWakeEvent]

@[simp] theorem State.runHeld_follows (k : KeptKey) (s : State) (c : Instr) (hs : Follows k s.keep) : Follows k (s.runHeld c).keep := by
  unfold State.runHeld
  split
  · exact hs
  · cases c
    all_goals dsimp only
    all_goals first
      | with_reducible exact hs
      | (rw [State.doorbells_keep]; exact hs)
      | (rw [State.raiseWord_keep]; exact hs)
      | (rw [State.clearStormed_keep]; exact hs)
      | (rw [State.unmaskVector_keep]; exact hs)
      | (rw [State.writeSource_keep]; exact hs)
      | (rw [State.writeGo_keep]; exact hs)
      | (rw [State.writeFixedReset_keep]; exact hs)
      | (rw [State.writeBootGo_keep]; exact hs)
      | exact State.writeKey_follows _ _ _ hs
      | exact State.writeRegister_follows _ _ _ _ _ _ hs
      | (rw [State.answerRead_keep]; exact hs)

@[simp] theorem State.writeHeldEdges_keep (s : State) : (State.writeHeldEdges s).keep = s.keep := by
  simp [State.writeHeldEdges]

@[simp] theorem State.lockAgain_keep (s : State) : (State.lockAgain s).keep = s.keep := by
  simp [State.lockAgain]

@[simp] theorem State.wakeUp_follows (k : KeptKey) (s : State) (source port : Nat) (hs : Follows k s.keep) :
    Follows k (s.wakeUp source port).keep := by
  unfold State.wakeUp
  extract_lets held s1 s2 s3 s4
  have h1 : Follows (s.pending, [], s.power.sleep == .awake) s1.keep := by
    refine foldl_follows _ _ (fun t c h => ?_) _ _ ?_
    · exact State.runHeld_follows _ _ _ h
    · exact ⟨rfl, .inl rfl⟩
  have h0 : s1.keep.1 = k.1 ∧ s1.keep.2.1 = [] := by
    refine ⟨h1.1.trans hs.1, ?_⟩
    rcases h1.2 with h | h <;> rw [h]
  split
  · next h => exact ⟨h0.1, .inr (Prod.ext h0.2 (by simp [State.keep, h]))⟩
  · have h3 : s4.keep = ((s1.modPower (fun p => { p with sleep := .awake }))).keep := by
      unfold s4 s3 s2
      rw [State.writeHeldEdges_keep, State.lockAgain_keep, State.event_keep, State.passHeld_keep]
    have h5 : Follows k s4.keep := by
      rw [h3]
      exact ⟨h0.1, .inr (Prod.ext h0.2 rfl)⟩
    split
    · exact State.handleRail_follows _ _ _ h5
    · exact h5

@[simp] theorem State.wakeIfLocked_follows (k : KeptKey) (s : State) (hs : Follows k s.keep) : Follows k (State.wakeIfLocked s).keep := by
  unfold State.wakeIfLocked
  repeat' first
    | (simp [*]; done)
    | split
    | simp [*]

theorem execPllLock_trails (pll : Nat) (s : State) : Trails s (execPllLock pll s) := by
  unfold execPllLock
  repeat' first | (simp [*]; done) | split

theorem execParkedLinkRetrain_keep (port : Nat) (s : State) : Keeps s (execParkedLinkRetrain port s) := by
  simp [execParkedLinkRetrain]

/-! ### Package -/

@[simp] theorem State.smbus_keep (s : State) (a b : Bool) (k : State → State) (hk : (k s).keep = s.keep) : (s.smbus a b k).keep = s.keep := by
  unfold State.smbus
  split
  · simp
  · split
    · simp
    · exact hk

@[simp] theorem State.smbus_follows (k : KeptKey) (s : State) (a b : Bool) (f : State → State) (hk : Follows k s.keep → Follows k (f s).keep)
    (hs : Follows k s.keep) : Follows k (s.smbus a b f).keep := by
  unfold State.smbus
  split
  · simp [hs]
  · split
    · simp [hs]
    · exact hk hs

theorem execSmbReadStatus_keep (pecOk rightType : Bool) (s : State) : Keeps s (execSmbReadStatus pecOk rightType s) := by
  simp [execSmbReadStatus]

theorem execSmbWake_keep (pecOk rightType : Bool) (s : State) : Keeps s (execSmbWake pecOk rightType s) := by
  simp [execSmbWake]

theorem execSmbDeviceReset_trails (data : Byte) (pecOk rightType : Bool) (s : State) : Trails s (execSmbDeviceReset data pecOk rightType s) := by
  unfold execSmbDeviceReset
  repeat' first | (simp [*]; done) | split

theorem execSmbRetryStart_trails (data : Byte) (pecOk rightType : Bool) (s : State) : Trails s (execSmbRetryStart data pecOk rightType s) := by
  unfold execSmbRetryStart
  repeat' first | (simp [*]; done) | split

theorem execSmbReadTemperature_keep (pecOk rightType : Bool) (s : State) : Keeps s (execSmbReadTemperature pecOk rightType s) := by
  simp [execSmbReadTemperature]

theorem execSmbReadPower_keep (pecOk rightType : Bool) (s : State) : Keeps s (execSmbReadPower pecOk rightType s) := by
  simp [execSmbReadPower]

@[simp] theorem State.setColophon_keep (s : State) (o : Nat) : (State.setColophon s o).keep = s.keep := by
  simp [State.setColophon]

theorem execSmbColophonOffset_keep (offset : BitVec 16) (pecOk rightType : Bool) (s : State) : Keeps s (execSmbColophonOffset offset pecOk rightType s) := by
  simp [execSmbColophonOffset]

theorem execSmbColophonRead_keep (pecOk rightType : Bool) (s : State) : Keeps s (execSmbColophonRead pecOk rightType s) := by
  simp [execSmbColophonRead]

theorem execSmbAlertResponse_keep (s : State) : Keeps s (execSmbAlertResponse s) := by
  simp [execSmbAlertResponse]

theorem execSmbusSclTimeout_keep (s : State) : Keeps s (execSmbusSclTimeout s) := by
  simp [execSmbusSclTimeout]

theorem execTapInstructionLoad_keep (inst : TapInst) (s : State) : Keeps s (execTapInstructionLoad inst s) := by
  simp [execTapInstructionLoad]

/-! ### Ptp -/

theorem execHardSet_keep (job : Nat) (s : State) : Keeps s (execHardSet job s) := by
  simp [execHardSet]

@[simp] theorem State.ptpViolation_keep (s : State) (port reason source : Nat) : (State.ptpViolation s port reason source).keep = s.keep := by
  simp [State.ptpViolation]

@[simp] theorem State.hearTimeOfDay_keep (s : State) (port source tod : Nat) : (State.hearTimeOfDay s port source tod).keep = s.keep := by
  simp [State.hearTimeOfDay]

@[simp] theorem State.hearPtp_keep (s : State) (port : Nat) (m : Bytes) (delay : Option Int) : (State.hearPtp s port m delay).keep = s.keep := by
  unfold State.hearPtp
  repeat' first | (simp; done) | split

theorem execPtpMessage_keep (port : Nat) (msg : Bytes) (transport : Nat) (delay : Option Int) (s : State) : Keeps s (execPtpMessage port msg transport delay s) := by
  unfold execPtpMessage
  repeat' first
    | with_reducible rfl
    | intro _
    | with_reducible (refine (keeps_next _ _).2 ?_)
    | exact trivial
    | (simp; done)
    | with_reducible (refine (foldl_keep _ ?_ _ _).trans ?_)
    | with_reducible (refine (foldl_keep1 _ ?_ _ _).trans ?_)
    | with_reducible (refine (foldl_keep2 _ ?_ _ _).trans ?_)
    | with_reducible (refine (begin_keep _ _ _ _ ?_).trans ?_)
    | with_reducible (refine (beginRead_keep _ _ _ _ _ ?_).trans ?_)
    | with_reducible (refine (check_keep _ _ _ _ ?_).trans ?_)
    | split
    | (simp [*]; done)
    | simp

end Sys2Proof.Machine
end

