-- ==== Sys2Proof/Laws/State.lean ====
section
/-! SUPPORT. What each update of the state changes, one lemma for each field, so that no proof unfolds a record update. -/
namespace Sys2Proof.Machine

/-! ### modCirc -/

@[simp] theorem State.modCirc_pending (s : State) (f : Circ → Circ) : (s.modCirc f).pending = s.pending := rfl
@[simp] theorem State.modCirc_stamp (s : State) (f : Circ → Circ) : (s.modCirc f).stamp = s.stamp := rfl
@[simp] theorem State.modCirc_boot (s : State) (f : Circ → Circ) : (s.modCirc f).boot = s.boot := rfl
@[simp] theorem State.modCirc_vault (s : State) (f : Circ → Circ) : (s.modCirc f).vault = s.vault := rfl
@[simp] theorem State.modCirc_security (s : State) (f : Circ → Circ) : (s.modCirc f).security = s.security := rfl
@[simp] theorem State.modCirc_power (s : State) (f : Circ → Circ) : (s.modCirc f).power = s.power := rfl
@[simp] theorem State.modCirc_reference (s : State) (f : Circ → Circ) : (s.modCirc f).reference = s.reference := rfl
@[simp] theorem State.modCirc_ports (s : State) (f : Circ → Circ) : (s.modCirc f).ports = s.ports := rfl
@[simp] theorem State.modCirc_curator (s : State) (f : Circ → Circ) : (s.modCirc f).curator = s.curator := rfl
@[simp] theorem State.modCirc_fabric (s : State) (f : Circ → Circ) : (s.modCirc f).fabric = s.fabric := rfl
@[simp] theorem State.modCirc_images (s : State) (f : Circ → Circ) : (s.modCirc f).images = s.images := rfl
@[simp] theorem State.modCirc_net (s : State) (f : Circ → Circ) : (s.modCirc f).net = s.net := rfl
@[simp] theorem State.modCirc_accession (s : State) (f : Circ → Circ) : (s.modCirc f).accession = s.accession := rfl
@[simp] theorem State.modCirc_vision (s : State) (f : Circ → Circ) : (s.modCirc f).vision = s.vision := rfl
@[simp] theorem State.modCirc_concord (s : State) (f : Circ → Circ) : (s.modCirc f).concord = s.concord := rfl
@[simp] theorem State.modCirc_map (s : State) (f : Circ → Circ) : (s.modCirc f).map = s.map := rfl
@[simp] theorem State.modCirc_sessions (s : State) (f : Circ → Circ) : (s.modCirc f).sessions = s.sessions := rfl
@[simp] theorem State.modCirc_collator (s : State) (f : Circ → Circ) : (s.modCirc f).collator = s.collator := rfl
@[simp] theorem State.modCirc_catalogue (s : State) (f : Circ → Circ) : (s.modCirc f).catalogue = s.catalogue := rfl
@[simp] theorem State.modCirc_heldAccess (s : State) (f : Circ → Circ) : (s.modCirc f).heldAccess = s.heldAccess := rfl
@[simp] theorem State.modCirc_fresh (s : State) (f : Circ → Circ) : (s.modCirc f).fresh = s.fresh := rfl
@[simp] theorem State.modCirc_desk_circ (s : State) (f : Circ → Circ) : (s.modCirc f).desk.circ = f s.desk.circ := rfl
@[simp] theorem State.modCirc_desk_bell (s : State) (f : Circ → Circ) : (s.modCirc f).desk.bell = s.desk.bell := rfl
@[simp] theorem State.modCirc_desk_errata (s : State) (f : Circ → Circ) : (s.modCirc f).desk.errata = s.desk.errata := rfl
@[simp] theorem State.modCirc_desk_out (s : State) (f : Circ → Circ) : (s.modCirc f).desk.out = s.desk.out := rfl
@[simp] theorem State.modCirc_now (s : State) (f : Circ → Circ) : (s.modCirc f).now = s.now := rfl
@[simp] theorem State.modCirc_position (s : State) (f : Circ → Circ) : (s.modCirc f).position = s.position := rfl

/-! ### modBell -/

@[simp] theorem State.modBell_pending (s : State) (f : Bell → Bell) : (s.modBell f).pending = s.pending := rfl
@[simp] theorem State.modBell_stamp (s : State) (f : Bell → Bell) : (s.modBell f).stamp = s.stamp := rfl
@[simp] theorem State.modBell_boot (s : State) (f : Bell → Bell) : (s.modBell f).boot = s.boot := rfl
@[simp] theorem State.modBell_vault (s : State) (f : Bell → Bell) : (s.modBell f).vault = s.vault := rfl
@[simp] theorem State.modBell_security (s : State) (f : Bell → Bell) : (s.modBell f).security = s.security := rfl
@[simp] theorem State.modBell_power (s : State) (f : Bell → Bell) : (s.modBell f).power = s.power := rfl
@[simp] theorem State.modBell_reference (s : State) (f : Bell → Bell) : (s.modBell f).reference = s.reference := rfl
@[simp] theorem State.modBell_ports (s : State) (f : Bell → Bell) : (s.modBell f).ports = s.ports := rfl
@[simp] theorem State.modBell_curator (s : State) (f : Bell → Bell) : (s.modBell f).curator = s.curator := rfl
@[simp] theorem State.modBell_fabric (s : State) (f : Bell → Bell) : (s.modBell f).fabric = s.fabric := rfl
@[simp] theorem State.modBell_images (s : State) (f : Bell → Bell) : (s.modBell f).images = s.images := rfl
@[simp] theorem State.modBell_net (s : State) (f : Bell → Bell) : (s.modBell f).net = s.net := rfl
@[simp] theorem State.modBell_accession (s : State) (f : Bell → Bell) : (s.modBell f).accession = s.accession := rfl
@[simp] theorem State.modBell_vision (s : State) (f : Bell → Bell) : (s.modBell f).vision = s.vision := rfl
@[simp] theorem State.modBell_concord (s : State) (f : Bell → Bell) : (s.modBell f).concord = s.concord := rfl
@[simp] theorem State.modBell_map (s : State) (f : Bell → Bell) : (s.modBell f).map = s.map := rfl
@[simp] theorem State.modBell_sessions (s : State) (f : Bell → Bell) : (s.modBell f).sessions = s.sessions := rfl
@[simp] theorem State.modBell_collator (s : State) (f : Bell → Bell) : (s.modBell f).collator = s.collator := rfl
@[simp] theorem State.modBell_catalogue (s : State) (f : Bell → Bell) : (s.modBell f).catalogue = s.catalogue := rfl
@[simp] theorem State.modBell_heldAccess (s : State) (f : Bell → Bell) : (s.modBell f).heldAccess = s.heldAccess := rfl
@[simp] theorem State.modBell_fresh (s : State) (f : Bell → Bell) : (s.modBell f).fresh = s.fresh := rfl
@[simp] theorem State.modBell_desk_circ (s : State) (f : Bell → Bell) : (s.modBell f).desk.circ = s.desk.circ := rfl
@[simp] theorem State.modBell_desk_bell (s : State) (f : Bell → Bell) : (s.modBell f).desk.bell = f s.desk.bell := rfl
@[simp] theorem State.modBell_desk_errata (s : State) (f : Bell → Bell) : (s.modBell f).desk.errata = s.desk.errata := rfl
@[simp] theorem State.modBell_desk_out (s : State) (f : Bell → Bell) : (s.modBell f).desk.out = s.desk.out := rfl
@[simp] theorem State.modBell_now (s : State) (f : Bell → Bell) : (s.modBell f).now = s.now := rfl
@[simp] theorem State.modBell_position (s : State) (f : Bell → Bell) : (s.modBell f).position = s.position := rfl

/-! ### modErrata -/

@[simp] theorem State.modErrata_pending (s : State) (f : ErrataLog → ErrataLog) : (s.modErrata f).pending = s.pending := rfl
@[simp] theorem State.modErrata_stamp (s : State) (f : ErrataLog → ErrataLog) : (s.modErrata f).stamp = s.stamp := rfl
@[simp] theorem State.modErrata_boot (s : State) (f : ErrataLog → ErrataLog) : (s.modErrata f).boot = s.boot := rfl
@[simp] theorem State.modErrata_vault (s : State) (f : ErrataLog → ErrataLog) : (s.modErrata f).vault = s.vault := rfl
@[simp] theorem State.modErrata_security (s : State) (f : ErrataLog → ErrataLog) : (s.modErrata f).security = s.security := rfl
@[simp] theorem State.modErrata_power (s : State) (f : ErrataLog → ErrataLog) : (s.modErrata f).power = s.power := rfl
@[simp] theorem State.modErrata_reference (s : State) (f : ErrataLog → ErrataLog) : (s.modErrata f).reference = s.reference := rfl
@[simp] theorem State.modErrata_ports (s : State) (f : ErrataLog → ErrataLog) : (s.modErrata f).ports = s.ports := rfl
@[simp] theorem State.modErrata_curator (s : State) (f : ErrataLog → ErrataLog) : (s.modErrata f).curator = s.curator := rfl
@[simp] theorem State.modErrata_fabric (s : State) (f : ErrataLog → ErrataLog) : (s.modErrata f).fabric = s.fabric := rfl
@[simp] theorem State.modErrata_images (s : State) (f : ErrataLog → ErrataLog) : (s.modErrata f).images = s.images := rfl
@[simp] theorem State.modErrata_net (s : State) (f : ErrataLog → ErrataLog) : (s.modErrata f).net = s.net := rfl
@[simp] theorem State.modErrata_accession (s : State) (f : ErrataLog → ErrataLog) : (s.modErrata f).accession = s.accession := rfl
@[simp] theorem State.modErrata_vision (s : State) (f : ErrataLog → ErrataLog) : (s.modErrata f).vision = s.vision := rfl
@[simp] theorem State.modErrata_concord (s : State) (f : ErrataLog → ErrataLog) : (s.modErrata f).concord = s.concord := rfl
@[simp] theorem State.modErrata_map (s : State) (f : ErrataLog → ErrataLog) : (s.modErrata f).map = s.map := rfl
@[simp] theorem State.modErrata_sessions (s : State) (f : ErrataLog → ErrataLog) : (s.modErrata f).sessions = s.sessions := rfl
@[simp] theorem State.modErrata_collator (s : State) (f : ErrataLog → ErrataLog) : (s.modErrata f).collator = s.collator := rfl
@[simp] theorem State.modErrata_catalogue (s : State) (f : ErrataLog → ErrataLog) : (s.modErrata f).catalogue = s.catalogue := rfl
@[simp] theorem State.modErrata_heldAccess (s : State) (f : ErrataLog → ErrataLog) : (s.modErrata f).heldAccess = s.heldAccess := rfl
@[simp] theorem State.modErrata_fresh (s : State) (f : ErrataLog → ErrataLog) : (s.modErrata f).fresh = s.fresh := rfl
@[simp] theorem State.modErrata_desk_circ (s : State) (f : ErrataLog → ErrataLog) : (s.modErrata f).desk.circ = s.desk.circ := rfl
@[simp] theorem State.modErrata_desk_bell (s : State) (f : ErrataLog → ErrataLog) : (s.modErrata f).desk.bell = s.desk.bell := rfl
@[simp] theorem State.modErrata_desk_errata (s : State) (f : ErrataLog → ErrataLog) : (s.modErrata f).desk.errata = f s.desk.errata := rfl
@[simp] theorem State.modErrata_desk_out (s : State) (f : ErrataLog → ErrataLog) : (s.modErrata f).desk.out = s.desk.out := rfl
@[simp] theorem State.modErrata_now (s : State) (f : ErrataLog → ErrataLog) : (s.modErrata f).now = s.now := rfl
@[simp] theorem State.modErrata_position (s : State) (f : ErrataLog → ErrataLog) : (s.modErrata f).position = s.position := rfl

/-! ### emit -/

@[simp] theorem State.emit_pending (s : State) (o : List Output) : (s.emit o).pending = s.pending := rfl
@[simp] theorem State.emit_stamp (s : State) (o : List Output) : (s.emit o).stamp = s.stamp := rfl
@[simp] theorem State.emit_boot (s : State) (o : List Output) : (s.emit o).boot = s.boot := rfl
@[simp] theorem State.emit_vault (s : State) (o : List Output) : (s.emit o).vault = s.vault := rfl
@[simp] theorem State.emit_security (s : State) (o : List Output) : (s.emit o).security = s.security := rfl
@[simp] theorem State.emit_power (s : State) (o : List Output) : (s.emit o).power = s.power := rfl
@[simp] theorem State.emit_reference (s : State) (o : List Output) : (s.emit o).reference = s.reference := rfl
@[simp] theorem State.emit_ports (s : State) (o : List Output) : (s.emit o).ports = s.ports := rfl
@[simp] theorem State.emit_curator (s : State) (o : List Output) : (s.emit o).curator = s.curator := rfl
@[simp] theorem State.emit_fabric (s : State) (o : List Output) : (s.emit o).fabric = s.fabric := rfl
@[simp] theorem State.emit_images (s : State) (o : List Output) : (s.emit o).images = s.images := rfl
@[simp] theorem State.emit_net (s : State) (o : List Output) : (s.emit o).net = s.net := rfl
@[simp] theorem State.emit_accession (s : State) (o : List Output) : (s.emit o).accession = s.accession := rfl
@[simp] theorem State.emit_vision (s : State) (o : List Output) : (s.emit o).vision = s.vision := rfl
@[simp] theorem State.emit_concord (s : State) (o : List Output) : (s.emit o).concord = s.concord := rfl
@[simp] theorem State.emit_map (s : State) (o : List Output) : (s.emit o).map = s.map := rfl
@[simp] theorem State.emit_sessions (s : State) (o : List Output) : (s.emit o).sessions = s.sessions := rfl
@[simp] theorem State.emit_collator (s : State) (o : List Output) : (s.emit o).collator = s.collator := rfl
@[simp] theorem State.emit_catalogue (s : State) (o : List Output) : (s.emit o).catalogue = s.catalogue := rfl
@[simp] theorem State.emit_heldAccess (s : State) (o : List Output) : (s.emit o).heldAccess = s.heldAccess := rfl
@[simp] theorem State.emit_fresh (s : State) (o : List Output) : (s.emit o).fresh = s.fresh := rfl
@[simp] theorem State.emit_desk_circ (s : State) (o : List Output) : (s.emit o).desk.circ = s.desk.circ := rfl
@[simp] theorem State.emit_desk_bell (s : State) (o : List Output) : (s.emit o).desk.bell = s.desk.bell := rfl
@[simp] theorem State.emit_desk_errata (s : State) (o : List Output) : (s.emit o).desk.errata = s.desk.errata := rfl
@[simp] theorem State.emit_desk_out (s : State) (o : List Output) : (s.emit o).desk.out = s.desk.out ++ o := rfl
@[simp] theorem State.emit_now (s : State) (o : List Output) : (s.emit o).now = s.now := rfl
@[simp] theorem State.emit_position (s : State) (o : List Output) : (s.emit o).position = s.position := rfl

/-! ### tell -/

@[simp] theorem State.tell_pending (s : State) (l : List Notice) : (s.tell l).pending = s.pending := rfl
@[simp] theorem State.tell_stamp (s : State) (l : List Notice) : (s.tell l).stamp = s.stamp := rfl
@[simp] theorem State.tell_boot (s : State) (l : List Notice) : (s.tell l).boot = s.boot := rfl
@[simp] theorem State.tell_vault (s : State) (l : List Notice) : (s.tell l).vault = s.vault := rfl
@[simp] theorem State.tell_security (s : State) (l : List Notice) : (s.tell l).security = s.security := rfl
@[simp] theorem State.tell_power (s : State) (l : List Notice) : (s.tell l).power = s.power := rfl
@[simp] theorem State.tell_reference (s : State) (l : List Notice) : (s.tell l).reference = s.reference := rfl
@[simp] theorem State.tell_ports (s : State) (l : List Notice) : (s.tell l).ports = s.ports := rfl
@[simp] theorem State.tell_curator (s : State) (l : List Notice) : (s.tell l).curator = s.curator := rfl
@[simp] theorem State.tell_fabric (s : State) (l : List Notice) : (s.tell l).fabric = s.fabric := rfl
@[simp] theorem State.tell_images (s : State) (l : List Notice) : (s.tell l).images = s.images := rfl
@[simp] theorem State.tell_net (s : State) (l : List Notice) : (s.tell l).net = s.net := rfl
@[simp] theorem State.tell_accession (s : State) (l : List Notice) : (s.tell l).accession = s.accession := rfl
@[simp] theorem State.tell_vision (s : State) (l : List Notice) : (s.tell l).vision = s.vision := rfl
@[simp] theorem State.tell_concord (s : State) (l : List Notice) : (s.tell l).concord = s.concord := rfl
@[simp] theorem State.tell_map (s : State) (l : List Notice) : (s.tell l).map = s.map := rfl
@[simp] theorem State.tell_sessions (s : State) (l : List Notice) : (s.tell l).sessions = s.sessions := rfl
@[simp] theorem State.tell_collator (s : State) (l : List Notice) : (s.tell l).collator = s.collator := rfl
@[simp] theorem State.tell_catalogue (s : State) (l : List Notice) : (s.tell l).catalogue = s.catalogue := rfl
@[simp] theorem State.tell_heldAccess (s : State) (l : List Notice) : (s.tell l).heldAccess = s.heldAccess := rfl
@[simp] theorem State.tell_fresh (s : State) (l : List Notice) : (s.tell l).fresh = s.fresh := rfl
@[simp] theorem State.tell_desk (s : State) (l : List Notice) : (s.tell l).desk = s.desk.tell s.now l := rfl
@[simp] theorem State.tell_now (s : State) (l : List Notice) : (s.tell l).now = s.now := rfl
@[simp] theorem State.tell_position (s : State) (l : List Notice) : (s.tell l).position = s.position := rfl

/-! ### report -/

@[simp] theorem State.report_pending (s : State) (k : WinKey) (l : Nat → List Notice) : (s.report k l).pending = s.pending := rfl
@[simp] theorem State.report_stamp (s : State) (k : WinKey) (l : Nat → List Notice) : (s.report k l).stamp = s.stamp := rfl
@[simp] theorem State.report_boot (s : State) (k : WinKey) (l : Nat → List Notice) : (s.report k l).boot = s.boot := rfl
@[simp] theorem State.report_vault (s : State) (k : WinKey) (l : Nat → List Notice) : (s.report k l).vault = s.vault := rfl
@[simp] theorem State.report_security (s : State) (k : WinKey) (l : Nat → List Notice) : (s.report k l).security = s.security := rfl
@[simp] theorem State.report_power (s : State) (k : WinKey) (l : Nat → List Notice) : (s.report k l).power = s.power := rfl
@[simp] theorem State.report_reference (s : State) (k : WinKey) (l : Nat → List Notice) : (s.report k l).reference = s.reference := rfl
@[simp] theorem State.report_ports (s : State) (k : WinKey) (l : Nat → List Notice) : (s.report k l).ports = s.ports := rfl
@[simp] theorem State.report_curator (s : State) (k : WinKey) (l : Nat → List Notice) : (s.report k l).curator = s.curator := rfl
@[simp] theorem State.report_fabric (s : State) (k : WinKey) (l : Nat → List Notice) : (s.report k l).fabric = s.fabric := rfl
@[simp] theorem State.report_images (s : State) (k : WinKey) (l : Nat → List Notice) : (s.report k l).images = s.images := rfl
@[simp] theorem State.report_net (s : State) (k : WinKey) (l : Nat → List Notice) : (s.report k l).net = s.net := rfl
@[simp] theorem State.report_accession (s : State) (k : WinKey) (l : Nat → List Notice) : (s.report k l).accession = s.accession := rfl
@[simp] theorem State.report_vision (s : State) (k : WinKey) (l : Nat → List Notice) : (s.report k l).vision = s.vision := rfl
@[simp] theorem State.report_concord (s : State) (k : WinKey) (l : Nat → List Notice) : (s.report k l).concord = s.concord := rfl
@[simp] theorem State.report_map (s : State) (k : WinKey) (l : Nat → List Notice) : (s.report k l).map = s.map := rfl
@[simp] theorem State.report_sessions (s : State) (k : WinKey) (l : Nat → List Notice) : (s.report k l).sessions = s.sessions := rfl
@[simp] theorem State.report_collator (s : State) (k : WinKey) (l : Nat → List Notice) : (s.report k l).collator = s.collator := rfl
@[simp] theorem State.report_catalogue (s : State) (k : WinKey) (l : Nat → List Notice) : (s.report k l).catalogue = s.catalogue := rfl
@[simp] theorem State.report_heldAccess (s : State) (k : WinKey) (l : Nat → List Notice) : (s.report k l).heldAccess = s.heldAccess := rfl
@[simp] theorem State.report_fresh (s : State) (k : WinKey) (l : Nat → List Notice) : (s.report k l).fresh = s.fresh := rfl
@[simp] theorem State.report_desk (s : State) (k : WinKey) (l : Nat → List Notice) : (s.report k l).desk = s.desk.report s.now k l := rfl
@[simp] theorem State.report_now (s : State) (k : WinKey) (l : Nat → List Notice) : (s.report k l).now = s.now := rfl
@[simp] theorem State.report_position (s : State) (k : WinKey) (l : Nat → List Notice) : (s.report k l).position = s.position := rfl

/-! ### finish -/

@[simp] theorem State.finish_pending (s : State) (n : Nat) (e : Ending) : (s.finish n e).pending = s.pending := rfl
@[simp] theorem State.finish_stamp (s : State) (n : Nat) (e : Ending) : (s.finish n e).stamp = s.stamp := rfl
@[simp] theorem State.finish_boot (s : State) (n : Nat) (e : Ending) : (s.finish n e).boot = s.boot := rfl
@[simp] theorem State.finish_vault (s : State) (n : Nat) (e : Ending) : (s.finish n e).vault = s.vault := rfl
@[simp] theorem State.finish_security (s : State) (n : Nat) (e : Ending) : (s.finish n e).security = s.security := rfl
@[simp] theorem State.finish_power (s : State) (n : Nat) (e : Ending) : (s.finish n e).power = s.power := rfl
@[simp] theorem State.finish_reference (s : State) (n : Nat) (e : Ending) : (s.finish n e).reference = s.reference := rfl
@[simp] theorem State.finish_ports (s : State) (n : Nat) (e : Ending) : (s.finish n e).ports = s.ports := rfl
@[simp] theorem State.finish_curator (s : State) (n : Nat) (e : Ending) : (s.finish n e).curator = s.curator := rfl
@[simp] theorem State.finish_fabric (s : State) (n : Nat) (e : Ending) : (s.finish n e).fabric = s.fabric := rfl
@[simp] theorem State.finish_images (s : State) (n : Nat) (e : Ending) : (s.finish n e).images = s.images := rfl
@[simp] theorem State.finish_net (s : State) (n : Nat) (e : Ending) : (s.finish n e).net = s.net := rfl
@[simp] theorem State.finish_accession (s : State) (n : Nat) (e : Ending) : (s.finish n e).accession = s.accession := rfl
@[simp] theorem State.finish_vision (s : State) (n : Nat) (e : Ending) : (s.finish n e).vision = s.vision := rfl
@[simp] theorem State.finish_concord (s : State) (n : Nat) (e : Ending) : (s.finish n e).concord = s.concord := rfl
@[simp] theorem State.finish_map (s : State) (n : Nat) (e : Ending) : (s.finish n e).map = s.map := rfl
@[simp] theorem State.finish_sessions (s : State) (n : Nat) (e : Ending) : (s.finish n e).sessions = s.sessions := rfl
@[simp] theorem State.finish_collator (s : State) (n : Nat) (e : Ending) : (s.finish n e).collator = s.collator := rfl
@[simp] theorem State.finish_catalogue (s : State) (n : Nat) (e : Ending) : (s.finish n e).catalogue = s.catalogue := rfl
@[simp] theorem State.finish_heldAccess (s : State) (n : Nat) (e : Ending) : (s.finish n e).heldAccess = s.heldAccess := rfl
@[simp] theorem State.finish_fresh (s : State) (n : Nat) (e : Ending) : (s.finish n e).fresh = s.fresh := rfl
@[simp] theorem State.finish_desk_bell (s : State) (n : Nat) (e : Ending) : (s.finish n e).desk.bell = s.desk.bell := rfl
@[simp] theorem State.finish_desk_errata (s : State) (n : Nat) (e : Ending) : (s.finish n e).desk.errata = s.desk.errata := rfl
@[simp] theorem State.finish_desk_out (s : State) (n : Nat) (e : Ending) : (s.finish n e).desk.out = s.desk.out := rfl
@[simp] theorem State.finish_now (s : State) (n : Nat) (e : Ending) : (s.finish n e).now = s.now := rfl
@[simp] theorem State.finish_position (s : State) (n : Nat) (e : Ending) : (s.finish n e).position = s.position := rfl

/-! ### draw -/

@[simp] theorem State.draw_pending (s : State) : (s.draw).pending = s.pending := rfl
@[simp] theorem State.draw_stamp (s : State) : (s.draw).stamp = s.stamp := rfl
@[simp] theorem State.draw_boot (s : State) : (s.draw).boot = s.boot := rfl
@[simp] theorem State.draw_vault (s : State) : (s.draw).vault = s.vault := rfl
@[simp] theorem State.draw_security (s : State) : (s.draw).security = s.security := rfl
@[simp] theorem State.draw_power (s : State) : (s.draw).power = s.power := rfl
@[simp] theorem State.draw_reference (s : State) : (s.draw).reference = s.reference := rfl
@[simp] theorem State.draw_ports (s : State) : (s.draw).ports = s.ports := rfl
@[simp] theorem State.draw_curator (s : State) : (s.draw).curator = s.curator := rfl
@[simp] theorem State.draw_fabric (s : State) : (s.draw).fabric = s.fabric := rfl
@[simp] theorem State.draw_images (s : State) : (s.draw).images = s.images := rfl
@[simp] theorem State.draw_net (s : State) : (s.draw).net = s.net := rfl
@[simp] theorem State.draw_accession (s : State) : (s.draw).accession = s.accession := rfl
@[simp] theorem State.draw_vision (s : State) : (s.draw).vision = s.vision := rfl
@[simp] theorem State.draw_concord (s : State) : (s.draw).concord = s.concord := rfl
@[simp] theorem State.draw_map (s : State) : (s.draw).map = s.map := rfl
@[simp] theorem State.draw_sessions (s : State) : (s.draw).sessions = s.sessions := rfl
@[simp] theorem State.draw_collator (s : State) : (s.draw).collator = s.collator := rfl
@[simp] theorem State.draw_catalogue (s : State) : (s.draw).catalogue = s.catalogue := rfl
@[simp] theorem State.draw_heldAccess (s : State) : (s.draw).heldAccess = s.heldAccess := rfl
@[simp] theorem State.draw_fresh (s : State) : (s.draw).fresh = s.fresh + 1 := rfl
@[simp] theorem State.draw_desk (s : State) : (s.draw).desk = s.desk := rfl
@[simp] theorem State.draw_now (s : State) : (s.draw).now = s.now := rfl
@[simp] theorem State.draw_position (s : State) : (s.draw).position = s.position := rfl

/-! ### modStamp -/

@[simp] theorem State.modStamp_pending (s : State) (f : Stamp → Stamp) : (s.modStamp f).pending = s.pending := rfl
@[simp] theorem State.modStamp_stamp (s : State) (f : Stamp → Stamp) : (s.modStamp f).stamp = f s.stamp := rfl
@[simp] theorem State.modStamp_boot (s : State) (f : Stamp → Stamp) : (s.modStamp f).boot = s.boot := rfl
@[simp] theorem State.modStamp_vault (s : State) (f : Stamp → Stamp) : (s.modStamp f).vault = s.vault := rfl
@[simp] theorem State.modStamp_security (s : State) (f : Stamp → Stamp) : (s.modStamp f).security = s.security := rfl
@[simp] theorem State.modStamp_power (s : State) (f : Stamp → Stamp) : (s.modStamp f).power = s.power := rfl
@[simp] theorem State.modStamp_reference (s : State) (f : Stamp → Stamp) : (s.modStamp f).reference = s.reference := rfl
@[simp] theorem State.modStamp_ports (s : State) (f : Stamp → Stamp) : (s.modStamp f).ports = s.ports := rfl
@[simp] theorem State.modStamp_curator (s : State) (f : Stamp → Stamp) : (s.modStamp f).curator = s.curator := rfl
@[simp] theorem State.modStamp_fabric (s : State) (f : Stamp → Stamp) : (s.modStamp f).fabric = s.fabric := rfl
@[simp] theorem State.modStamp_images (s : State) (f : Stamp → Stamp) : (s.modStamp f).images = s.images := rfl
@[simp] theorem State.modStamp_net (s : State) (f : Stamp → Stamp) : (s.modStamp f).net = s.net := rfl
@[simp] theorem State.modStamp_accession (s : State) (f : Stamp → Stamp) : (s.modStamp f).accession = s.accession := rfl
@[simp] theorem State.modStamp_vision (s : State) (f : Stamp → Stamp) : (s.modStamp f).vision = s.vision := rfl
@[simp] theorem State.modStamp_concord (s : State) (f : Stamp → Stamp) : (s.modStamp f).concord = s.concord := rfl
@[simp] theorem State.modStamp_map (s : State) (f : Stamp → Stamp) : (s.modStamp f).map = s.map := rfl
@[simp] theorem State.modStamp_sessions (s : State) (f : Stamp → Stamp) : (s.modStamp f).sessions = s.sessions := rfl
@[simp] theorem State.modStamp_collator (s : State) (f : Stamp → Stamp) : (s.modStamp f).collator = s.collator := rfl
@[simp] theorem State.modStamp_catalogue (s : State) (f : Stamp → Stamp) : (s.modStamp f).catalogue = s.catalogue := rfl
@[simp] theorem State.modStamp_heldAccess (s : State) (f : Stamp → Stamp) : (s.modStamp f).heldAccess = s.heldAccess := rfl
@[simp] theorem State.modStamp_fresh (s : State) (f : Stamp → Stamp) : (s.modStamp f).fresh = s.fresh := rfl
@[simp] theorem State.modStamp_desk (s : State) (f : Stamp → Stamp) : (s.modStamp f).desk = s.desk := rfl
@[simp] theorem State.modStamp_position (s : State) (f : Stamp → Stamp) : (s.modStamp f).position = s.position := rfl

/-! ### modBoot -/

@[simp] theorem State.modBoot_pending (s : State) (f : Boot → Boot) : (s.modBoot f).pending = s.pending := rfl
@[simp] theorem State.modBoot_stamp (s : State) (f : Boot → Boot) : (s.modBoot f).stamp = s.stamp := rfl
@[simp] theorem State.modBoot_boot (s : State) (f : Boot → Boot) : (s.modBoot f).boot = f s.boot := rfl
@[simp] theorem State.modBoot_vault (s : State) (f : Boot → Boot) : (s.modBoot f).vault = s.vault := rfl
@[simp] theorem State.modBoot_security (s : State) (f : Boot → Boot) : (s.modBoot f).security = s.security := rfl
@[simp] theorem State.modBoot_power (s : State) (f : Boot → Boot) : (s.modBoot f).power = s.power := rfl
@[simp] theorem State.modBoot_reference (s : State) (f : Boot → Boot) : (s.modBoot f).reference = s.reference := rfl
@[simp] theorem State.modBoot_ports (s : State) (f : Boot → Boot) : (s.modBoot f).ports = s.ports := rfl
@[simp] theorem State.modBoot_curator (s : State) (f : Boot → Boot) : (s.modBoot f).curator = s.curator := rfl
@[simp] theorem State.modBoot_fabric (s : State) (f : Boot → Boot) : (s.modBoot f).fabric = s.fabric := rfl
@[simp] theorem State.modBoot_images (s : State) (f : Boot → Boot) : (s.modBoot f).images = s.images := rfl
@[simp] theorem State.modBoot_net (s : State) (f : Boot → Boot) : (s.modBoot f).net = s.net := rfl
@[simp] theorem State.modBoot_accession (s : State) (f : Boot → Boot) : (s.modBoot f).accession = s.accession := rfl
@[simp] theorem State.modBoot_vision (s : State) (f : Boot → Boot) : (s.modBoot f).vision = s.vision := rfl
@[simp] theorem State.modBoot_concord (s : State) (f : Boot → Boot) : (s.modBoot f).concord = s.concord := rfl
@[simp] theorem State.modBoot_map (s : State) (f : Boot → Boot) : (s.modBoot f).map = s.map := rfl
@[simp] theorem State.modBoot_sessions (s : State) (f : Boot → Boot) : (s.modBoot f).sessions = s.sessions := rfl
@[simp] theorem State.modBoot_collator (s : State) (f : Boot → Boot) : (s.modBoot f).collator = s.collator := rfl
@[simp] theorem State.modBoot_catalogue (s : State) (f : Boot → Boot) : (s.modBoot f).catalogue = s.catalogue := rfl
@[simp] theorem State.modBoot_heldAccess (s : State) (f : Boot → Boot) : (s.modBoot f).heldAccess = s.heldAccess := rfl
@[simp] theorem State.modBoot_fresh (s : State) (f : Boot → Boot) : (s.modBoot f).fresh = s.fresh := rfl
@[simp] theorem State.modBoot_desk (s : State) (f : Boot → Boot) : (s.modBoot f).desk = s.desk := rfl
@[simp] theorem State.modBoot_now (s : State) (f : Boot → Boot) : (s.modBoot f).now = s.now := rfl

/-! ### modVault -/

@[simp] theorem State.modVault_pending (s : State) (f : Vault → Vault) : (s.modVault f).pending = s.pending := rfl
@[simp] theorem State.modVault_stamp (s : State) (f : Vault → Vault) : (s.modVault f).stamp = s.stamp := rfl
@[simp] theorem State.modVault_boot (s : State) (f : Vault → Vault) : (s.modVault f).boot = s.boot := rfl
@[simp] theorem State.modVault_vault (s : State) (f : Vault → Vault) : (s.modVault f).vault = f s.vault := rfl
@[simp] theorem State.modVault_security (s : State) (f : Vault → Vault) : (s.modVault f).security = s.security := rfl
@[simp] theorem State.modVault_power (s : State) (f : Vault → Vault) : (s.modVault f).power = s.power := rfl
@[simp] theorem State.modVault_reference (s : State) (f : Vault → Vault) : (s.modVault f).reference = s.reference := rfl
@[simp] theorem State.modVault_ports (s : State) (f : Vault → Vault) : (s.modVault f).ports = s.ports := rfl
@[simp] theorem State.modVault_curator (s : State) (f : Vault → Vault) : (s.modVault f).curator = s.curator := rfl
@[simp] theorem State.modVault_fabric (s : State) (f : Vault → Vault) : (s.modVault f).fabric = s.fabric := rfl
@[simp] theorem State.modVault_images (s : State) (f : Vault → Vault) : (s.modVault f).images = s.images := rfl
@[simp] theorem State.modVault_net (s : State) (f : Vault → Vault) : (s.modVault f).net = s.net := rfl
@[simp] theorem State.modVault_accession (s : State) (f : Vault → Vault) : (s.modVault f).accession = s.accession := rfl
@[simp] theorem State.modVault_vision (s : State) (f : Vault → Vault) : (s.modVault f).vision = s.vision := rfl
@[simp] theorem State.modVault_concord (s : State) (f : Vault → Vault) : (s.modVault f).concord = s.concord := rfl
@[simp] theorem State.modVault_map (s : State) (f : Vault → Vault) : (s.modVault f).map = s.map := rfl
@[simp] theorem State.modVault_sessions (s : State) (f : Vault → Vault) : (s.modVault f).sessions = s.sessions := rfl
@[simp] theorem State.modVault_collator (s : State) (f : Vault → Vault) : (s.modVault f).collator = s.collator := rfl
@[simp] theorem State.modVault_catalogue (s : State) (f : Vault → Vault) : (s.modVault f).catalogue = s.catalogue := rfl
@[simp] theorem State.modVault_heldAccess (s : State) (f : Vault → Vault) : (s.modVault f).heldAccess = s.heldAccess := rfl
@[simp] theorem State.modVault_fresh (s : State) (f : Vault → Vault) : (s.modVault f).fresh = s.fresh := rfl
@[simp] theorem State.modVault_desk (s : State) (f : Vault → Vault) : (s.modVault f).desk = s.desk := rfl
@[simp] theorem State.modVault_now (s : State) (f : Vault → Vault) : (s.modVault f).now = s.now := rfl
@[simp] theorem State.modVault_position (s : State) (f : Vault → Vault) : (s.modVault f).position = s.position := rfl

/-! ### modPower -/

@[simp] theorem State.modPower_pending (s : State) (f : Power → Power) : (s.modPower f).pending = s.pending := rfl
@[simp] theorem State.modPower_stamp (s : State) (f : Power → Power) : (s.modPower f).stamp = s.stamp := rfl
@[simp] theorem State.modPower_boot (s : State) (f : Power → Power) : (s.modPower f).boot = s.boot := rfl
@[simp] theorem State.modPower_vault (s : State) (f : Power → Power) : (s.modPower f).vault = s.vault := rfl
@[simp] theorem State.modPower_security (s : State) (f : Power → Power) : (s.modPower f).security = s.security := rfl
@[simp] theorem State.modPower_power (s : State) (f : Power → Power) : (s.modPower f).power = f s.power := rfl
@[simp] theorem State.modPower_reference (s : State) (f : Power → Power) : (s.modPower f).reference = s.reference := rfl
@[simp] theorem State.modPower_ports (s : State) (f : Power → Power) : (s.modPower f).ports = s.ports := rfl
@[simp] theorem State.modPower_curator (s : State) (f : Power → Power) : (s.modPower f).curator = s.curator := rfl
@[simp] theorem State.modPower_fabric (s : State) (f : Power → Power) : (s.modPower f).fabric = s.fabric := rfl
@[simp] theorem State.modPower_images (s : State) (f : Power → Power) : (s.modPower f).images = s.images := rfl
@[simp] theorem State.modPower_net (s : State) (f : Power → Power) : (s.modPower f).net = s.net := rfl
@[simp] theorem State.modPower_accession (s : State) (f : Power → Power) : (s.modPower f).accession = s.accession := rfl
@[simp] theorem State.modPower_vision (s : State) (f : Power → Power) : (s.modPower f).vision = s.vision := rfl
@[simp] theorem State.modPower_concord (s : State) (f : Power → Power) : (s.modPower f).concord = s.concord := rfl
@[simp] theorem State.modPower_map (s : State) (f : Power → Power) : (s.modPower f).map = s.map := rfl
@[simp] theorem State.modPower_sessions (s : State) (f : Power → Power) : (s.modPower f).sessions = s.sessions := rfl
@[simp] theorem State.modPower_collator (s : State) (f : Power → Power) : (s.modPower f).collator = s.collator := rfl
@[simp] theorem State.modPower_catalogue (s : State) (f : Power → Power) : (s.modPower f).catalogue = s.catalogue := rfl
@[simp] theorem State.modPower_heldAccess (s : State) (f : Power → Power) : (s.modPower f).heldAccess = s.heldAccess := rfl
@[simp] theorem State.modPower_fresh (s : State) (f : Power → Power) : (s.modPower f).fresh = s.fresh := rfl
@[simp] theorem State.modPower_desk (s : State) (f : Power → Power) : (s.modPower f).desk = s.desk := rfl
@[simp] theorem State.modPower_now (s : State) (f : Power → Power) : (s.modPower f).now = s.now := rfl
@[simp] theorem State.modPower_position (s : State) (f : Power → Power) : (s.modPower f).position = s.position := rfl

/-! ### modReference -/

@[simp] theorem State.modReference_pending (s : State) (f : Reference → Reference) : (s.modReference f).pending = s.pending := rfl
@[simp] theorem State.modReference_stamp (s : State) (f : Reference → Reference) : (s.modReference f).stamp = s.stamp := rfl
@[simp] theorem State.modReference_boot (s : State) (f : Reference → Reference) : (s.modReference f).boot = s.boot := rfl
@[simp] theorem State.modReference_vault (s : State) (f : Reference → Reference) : (s.modReference f).vault = s.vault := rfl
@[simp] theorem State.modReference_security (s : State) (f : Reference → Reference) : (s.modReference f).security = s.security := rfl
@[simp] theorem State.modReference_power (s : State) (f : Reference → Reference) : (s.modReference f).power = s.power := rfl
@[simp] theorem State.modReference_reference (s : State) (f : Reference → Reference) : (s.modReference f).reference = f s.reference := rfl
@[simp] theorem State.modReference_ports (s : State) (f : Reference → Reference) : (s.modReference f).ports = s.ports := rfl
@[simp] theorem State.modReference_curator (s : State) (f : Reference → Reference) : (s.modReference f).curator = s.curator := rfl
@[simp] theorem State.modReference_fabric (s : State) (f : Reference → Reference) : (s.modReference f).fabric = s.fabric := rfl
@[simp] theorem State.modReference_images (s : State) (f : Reference → Reference) : (s.modReference f).images = s.images := rfl
@[simp] theorem State.modReference_net (s : State) (f : Reference → Reference) : (s.modReference f).net = s.net := rfl
@[simp] theorem State.modReference_accession (s : State) (f : Reference → Reference) : (s.modReference f).accession = s.accession := rfl
@[simp] theorem State.modReference_vision (s : State) (f : Reference → Reference) : (s.modReference f).vision = s.vision := rfl
@[simp] theorem State.modReference_concord (s : State) (f : Reference → Reference) : (s.modReference f).concord = s.concord := rfl
@[simp] theorem State.modReference_map (s : State) (f : Reference → Reference) : (s.modReference f).map = s.map := rfl
@[simp] theorem State.modReference_sessions (s : State) (f : Reference → Reference) : (s.modReference f).sessions = s.sessions := rfl
@[simp] theorem State.modReference_collator (s : State) (f : Reference → Reference) : (s.modReference f).collator = s.collator := rfl
@[simp] theorem State.modReference_catalogue (s : State) (f : Reference → Reference) : (s.modReference f).catalogue = s.catalogue := rfl
@[simp] theorem State.modReference_heldAccess (s : State) (f : Reference → Reference) : (s.modReference f).heldAccess = s.heldAccess := rfl
@[simp] theorem State.modReference_fresh (s : State) (f : Reference → Reference) : (s.modReference f).fresh = s.fresh := rfl
@[simp] theorem State.modReference_desk (s : State) (f : Reference → Reference) : (s.modReference f).desk = s.desk := rfl
@[simp] theorem State.modReference_now (s : State) (f : Reference → Reference) : (s.modReference f).now = s.now := rfl
@[simp] theorem State.modReference_position (s : State) (f : Reference → Reference) : (s.modReference f).position = s.position := rfl

/-! ### holdHigh -/

@[simp] theorem State.holdHigh_pending (s : State) (l : List (Nat × Nat)) : (s.holdHigh l).pending = s.pending := rfl
@[simp] theorem State.holdHigh_stamp (s : State) (l : List (Nat × Nat)) : (s.holdHigh l).stamp = s.stamp := rfl
@[simp] theorem State.holdHigh_boot (s : State) (l : List (Nat × Nat)) : (s.holdHigh l).boot = s.boot := rfl
@[simp] theorem State.holdHigh_vault (s : State) (l : List (Nat × Nat)) : (s.holdHigh l).vault = s.vault := rfl
@[simp] theorem State.holdHigh_security (s : State) (l : List (Nat × Nat)) : (s.holdHigh l).security = s.security := rfl
@[simp] theorem State.holdHigh_power (s : State) (l : List (Nat × Nat)) : (s.holdHigh l).power = s.power := rfl
@[simp] theorem State.holdHigh_reference (s : State) (l : List (Nat × Nat)) : (s.holdHigh l).reference = s.reference := rfl
@[simp] theorem State.holdHigh_curator (s : State) (l : List (Nat × Nat)) : (s.holdHigh l).curator = s.curator := rfl
@[simp] theorem State.holdHigh_fabric (s : State) (l : List (Nat × Nat)) : (s.holdHigh l).fabric = s.fabric := rfl
@[simp] theorem State.holdHigh_images (s : State) (l : List (Nat × Nat)) : (s.holdHigh l).images = s.images := rfl
@[simp] theorem State.holdHigh_net (s : State) (l : List (Nat × Nat)) : (s.holdHigh l).net = s.net := rfl
@[simp] theorem State.holdHigh_accession (s : State) (l : List (Nat × Nat)) : (s.holdHigh l).accession = s.accession := rfl
@[simp] theorem State.holdHigh_vision (s : State) (l : List (Nat × Nat)) : (s.holdHigh l).vision = s.vision := rfl
@[simp] theorem State.holdHigh_concord (s : State) (l : List (Nat × Nat)) : (s.holdHigh l).concord = s.concord := rfl
@[simp] theorem State.holdHigh_map (s : State) (l : List (Nat × Nat)) : (s.holdHigh l).map = s.map := rfl
@[simp] theorem State.holdHigh_sessions (s : State) (l : List (Nat × Nat)) : (s.holdHigh l).sessions = s.sessions := rfl
@[simp] theorem State.holdHigh_collator (s : State) (l : List (Nat × Nat)) : (s.holdHigh l).collator = s.collator := rfl
@[simp] theorem State.holdHigh_catalogue (s : State) (l : List (Nat × Nat)) : (s.holdHigh l).catalogue = s.catalogue := rfl
@[simp] theorem State.holdHigh_heldAccess (s : State) (l : List (Nat × Nat)) : (s.holdHigh l).heldAccess = s.heldAccess := rfl
@[simp] theorem State.holdHigh_fresh (s : State) (l : List (Nat × Nat)) : (s.holdHigh l).fresh = s.fresh := rfl
@[simp] theorem State.holdHigh_desk (s : State) (l : List (Nat × Nat)) : (s.holdHigh l).desk = s.desk := rfl
@[simp] theorem State.holdHigh_now (s : State) (l : List (Nat × Nat)) : (s.holdHigh l).now = s.now := rfl
@[simp] theorem State.holdHigh_position (s : State) (l : List (Nat × Nat)) : (s.holdHigh l).position = s.position := rfl

/-! ### modCurator -/

@[simp] theorem State.modCurator_pending (s : State) (f : Curator → Curator) : (s.modCurator f).pending = s.pending := rfl
@[simp] theorem State.modCurator_stamp (s : State) (f : Curator → Curator) : (s.modCurator f).stamp = s.stamp := rfl
@[simp] theorem State.modCurator_boot (s : State) (f : Curator → Curator) : (s.modCurator f).boot = s.boot := rfl
@[simp] theorem State.modCurator_vault (s : State) (f : Curator → Curator) : (s.modCurator f).vault = s.vault := rfl
@[simp] theorem State.modCurator_security (s : State) (f : Curator → Curator) : (s.modCurator f).security = s.security := rfl
@[simp] theorem State.modCurator_power (s : State) (f : Curator → Curator) : (s.modCurator f).power = s.power := rfl
@[simp] theorem State.modCurator_reference (s : State) (f : Curator → Curator) : (s.modCurator f).reference = s.reference := rfl
@[simp] theorem State.modCurator_ports (s : State) (f : Curator → Curator) : (s.modCurator f).ports = s.ports := rfl
@[simp] theorem State.modCurator_curator (s : State) (f : Curator → Curator) : (s.modCurator f).curator = f s.curator := rfl
@[simp] theorem State.modCurator_fabric (s : State) (f : Curator → Curator) : (s.modCurator f).fabric = s.fabric := rfl
@[simp] theorem State.modCurator_images (s : State) (f : Curator → Curator) : (s.modCurator f).images = s.images := rfl
@[simp] theorem State.modCurator_net (s : State) (f : Curator → Curator) : (s.modCurator f).net = s.net := rfl
@[simp] theorem State.modCurator_accession (s : State) (f : Curator → Curator) : (s.modCurator f).accession = s.accession := rfl
@[simp] theorem State.modCurator_vision (s : State) (f : Curator → Curator) : (s.modCurator f).vision = s.vision := rfl
@[simp] theorem State.modCurator_concord (s : State) (f : Curator → Curator) : (s.modCurator f).concord = s.concord := rfl
@[simp] theorem State.modCurator_map (s : State) (f : Curator → Curator) : (s.modCurator f).map = s.map := rfl
@[simp] theorem State.modCurator_sessions (s : State) (f : Curator → Curator) : (s.modCurator f).sessions = s.sessions := rfl
@[simp] theorem State.modCurator_collator (s : State) (f : Curator → Curator) : (s.modCurator f).collator = s.collator := rfl
@[simp] theorem State.modCurator_catalogue (s : State) (f : Curator → Curator) : (s.modCurator f).catalogue = s.catalogue := rfl
@[simp] theorem State.modCurator_heldAccess (s : State) (f : Curator → Curator) : (s.modCurator f).heldAccess = s.heldAccess := rfl
@[simp] theorem State.modCurator_fresh (s : State) (f : Curator → Curator) : (s.modCurator f).fresh = s.fresh := rfl
@[simp] theorem State.modCurator_desk (s : State) (f : Curator → Curator) : (s.modCurator f).desk = s.desk := rfl
@[simp] theorem State.modCurator_now (s : State) (f : Curator → Curator) : (s.modCurator f).now = s.now := rfl
@[simp] theorem State.modCurator_position (s : State) (f : Curator → Curator) : (s.modCurator f).position = s.position := rfl

/-! ### modStack -/

@[simp] theorem State.modStack_pending (s : State) (f : StackMem → StackMem) : (s.modStack f).pending = s.pending := rfl
@[simp] theorem State.modStack_stamp (s : State) (f : StackMem → StackMem) : (s.modStack f).stamp = s.stamp := rfl
@[simp] theorem State.modStack_boot (s : State) (f : StackMem → StackMem) : (s.modStack f).boot = s.boot := rfl
@[simp] theorem State.modStack_vault (s : State) (f : StackMem → StackMem) : (s.modStack f).vault = s.vault := rfl
@[simp] theorem State.modStack_security (s : State) (f : StackMem → StackMem) : (s.modStack f).security = s.security := rfl
@[simp] theorem State.modStack_power (s : State) (f : StackMem → StackMem) : (s.modStack f).power = s.power := rfl
@[simp] theorem State.modStack_reference (s : State) (f : StackMem → StackMem) : (s.modStack f).reference = s.reference := rfl
@[simp] theorem State.modStack_ports (s : State) (f : StackMem → StackMem) : (s.modStack f).ports = s.ports := rfl
@[simp] theorem State.modStack_curator (s : State) (f : StackMem → StackMem) : (s.modStack f).curator = s.curator := rfl
@[simp] theorem State.modStack_images (s : State) (f : StackMem → StackMem) : (s.modStack f).images = s.images := rfl
@[simp] theorem State.modStack_net (s : State) (f : StackMem → StackMem) : (s.modStack f).net = s.net := rfl
@[simp] theorem State.modStack_accession (s : State) (f : StackMem → StackMem) : (s.modStack f).accession = s.accession := rfl
@[simp] theorem State.modStack_vision (s : State) (f : StackMem → StackMem) : (s.modStack f).vision = s.vision := rfl
@[simp] theorem State.modStack_concord (s : State) (f : StackMem → StackMem) : (s.modStack f).concord = s.concord := rfl
@[simp] theorem State.modStack_map (s : State) (f : StackMem → StackMem) : (s.modStack f).map = s.map := rfl
@[simp] theorem State.modStack_sessions (s : State) (f : StackMem → StackMem) : (s.modStack f).sessions = s.sessions := rfl
@[simp] theorem State.modStack_collator (s : State) (f : StackMem → StackMem) : (s.modStack f).collator = s.collator := rfl
@[simp] theorem State.modStack_catalogue (s : State) (f : StackMem → StackMem) : (s.modStack f).catalogue = s.catalogue := rfl
@[simp] theorem State.modStack_heldAccess (s : State) (f : StackMem → StackMem) : (s.modStack f).heldAccess = s.heldAccess := rfl
@[simp] theorem State.modStack_fresh (s : State) (f : StackMem → StackMem) : (s.modStack f).fresh = s.fresh := rfl
@[simp] theorem State.modStack_desk (s : State) (f : StackMem → StackMem) : (s.modStack f).desk = s.desk := rfl
@[simp] theorem State.modStack_now (s : State) (f : StackMem → StackMem) : (s.modStack f).now = s.now := rfl
@[simp] theorem State.modStack_position (s : State) (f : StackMem → StackMem) : (s.modStack f).position = s.position := rfl

/-! ### setCarrel -/

@[simp] theorem State.setCarrel_pending (s : State) (c : Nat) (x : Carrel) : (s.setCarrel c x).pending = s.pending := rfl
@[simp] theorem State.setCarrel_stamp (s : State) (c : Nat) (x : Carrel) : (s.setCarrel c x).stamp = s.stamp := rfl
@[simp] theorem State.setCarrel_boot (s : State) (c : Nat) (x : Carrel) : (s.setCarrel c x).boot = s.boot := rfl
@[simp] theorem State.setCarrel_vault (s : State) (c : Nat) (x : Carrel) : (s.setCarrel c x).vault = s.vault := rfl
@[simp] theorem State.setCarrel_security (s : State) (c : Nat) (x : Carrel) : (s.setCarrel c x).security = s.security := rfl
@[simp] theorem State.setCarrel_power (s : State) (c : Nat) (x : Carrel) : (s.setCarrel c x).power = s.power := rfl
@[simp] theorem State.setCarrel_reference (s : State) (c : Nat) (x : Carrel) : (s.setCarrel c x).reference = s.reference := rfl
@[simp] theorem State.setCarrel_ports (s : State) (c : Nat) (x : Carrel) : (s.setCarrel c x).ports = s.ports := rfl
@[simp] theorem State.setCarrel_curator (s : State) (c : Nat) (x : Carrel) : (s.setCarrel c x).curator = s.curator := rfl
@[simp] theorem State.setCarrel_images (s : State) (c : Nat) (x : Carrel) : (s.setCarrel c x).images = s.images := rfl
@[simp] theorem State.setCarrel_net (s : State) (c : Nat) (x : Carrel) : (s.setCarrel c x).net = s.net := rfl
@[simp] theorem State.setCarrel_accession (s : State) (c : Nat) (x : Carrel) : (s.setCarrel c x).accession = s.accession := rfl
@[simp] theorem State.setCarrel_vision (s : State) (c : Nat) (x : Carrel) : (s.setCarrel c x).vision = s.vision := rfl
@[simp] theorem State.setCarrel_concord (s : State) (c : Nat) (x : Carrel) : (s.setCarrel c x).concord = s.concord := rfl
@[simp] theorem State.setCarrel_map (s : State) (c : Nat) (x : Carrel) : (s.setCarrel c x).map = s.map := rfl
@[simp] theorem State.setCarrel_sessions (s : State) (c : Nat) (x : Carrel) : (s.setCarrel c x).sessions = s.sessions := rfl
@[simp] theorem State.setCarrel_collator (s : State) (c : Nat) (x : Carrel) : (s.setCarrel c x).collator = s.collator := rfl
@[simp] theorem State.setCarrel_catalogue (s : State) (c : Nat) (x : Carrel) : (s.setCarrel c x).catalogue = s.catalogue := rfl
@[simp] theorem State.setCarrel_heldAccess (s : State) (c : Nat) (x : Carrel) : (s.setCarrel c x).heldAccess = s.heldAccess := rfl
@[simp] theorem State.setCarrel_fresh (s : State) (c : Nat) (x : Carrel) : (s.setCarrel c x).fresh = s.fresh := rfl
@[simp] theorem State.setCarrel_desk (s : State) (c : Nat) (x : Carrel) : (s.setCarrel c x).desk = s.desk := rfl
@[simp] theorem State.setCarrel_now (s : State) (c : Nat) (x : Carrel) : (s.setCarrel c x).now = s.now := rfl
@[simp] theorem State.setCarrel_position (s : State) (c : Nat) (x : Carrel) : (s.setCarrel c x).position = s.position := rfl

/-! ### setImage -/

@[simp] theorem State.setImage_pending (s : State) (h : Nat) (x : Image) : (s.setImage h x).pending = s.pending := rfl
@[simp] theorem State.setImage_stamp (s : State) (h : Nat) (x : Image) : (s.setImage h x).stamp = s.stamp := rfl
@[simp] theorem State.setImage_boot (s : State) (h : Nat) (x : Image) : (s.setImage h x).boot = s.boot := rfl
@[simp] theorem State.setImage_vault (s : State) (h : Nat) (x : Image) : (s.setImage h x).vault = s.vault := rfl
@[simp] theorem State.setImage_security (s : State) (h : Nat) (x : Image) : (s.setImage h x).security = s.security := rfl
@[simp] theorem State.setImage_power (s : State) (h : Nat) (x : Image) : (s.setImage h x).power = s.power := rfl
@[simp] theorem State.setImage_reference (s : State) (h : Nat) (x : Image) : (s.setImage h x).reference = s.reference := rfl
@[simp] theorem State.setImage_ports (s : State) (h : Nat) (x : Image) : (s.setImage h x).ports = s.ports := rfl
@[simp] theorem State.setImage_curator (s : State) (h : Nat) (x : Image) : (s.setImage h x).curator = s.curator := rfl
@[simp] theorem State.setImage_fabric (s : State) (h : Nat) (x : Image) : (s.setImage h x).fabric = s.fabric := rfl
@[simp] theorem State.setImage_net (s : State) (h : Nat) (x : Image) : (s.setImage h x).net = s.net := rfl
@[simp] theorem State.setImage_accession (s : State) (h : Nat) (x : Image) : (s.setImage h x).accession = s.accession := rfl
@[simp] theorem State.setImage_vision (s : State) (h : Nat) (x : Image) : (s.setImage h x).vision = s.vision := rfl
@[simp] theorem State.setImage_concord (s : State) (h : Nat) (x : Image) : (s.setImage h x).concord = s.concord := rfl
@[simp] theorem State.setImage_map (s : State) (h : Nat) (x : Image) : (s.setImage h x).map = s.map := rfl
@[simp] theorem State.setImage_sessions (s : State) (h : Nat) (x : Image) : (s.setImage h x).sessions = s.sessions := rfl
@[simp] theorem State.setImage_collator (s : State) (h : Nat) (x : Image) : (s.setImage h x).collator = s.collator := rfl
@[simp] theorem State.setImage_catalogue (s : State) (h : Nat) (x : Image) : (s.setImage h x).catalogue = s.catalogue := rfl
@[simp] theorem State.setImage_heldAccess (s : State) (h : Nat) (x : Image) : (s.setImage h x).heldAccess = s.heldAccess := rfl
@[simp] theorem State.setImage_fresh (s : State) (h : Nat) (x : Image) : (s.setImage h x).fresh = s.fresh := rfl
@[simp] theorem State.setImage_desk (s : State) (h : Nat) (x : Image) : (s.setImage h x).desk = s.desk := rfl
@[simp] theorem State.setImage_now (s : State) (h : Nat) (x : Image) : (s.setImage h x).now = s.now := rfl
@[simp] theorem State.setImage_position (s : State) (h : Nat) (x : Image) : (s.setImage h x).position = s.position := rfl

/-! ### modJalzel -/

@[simp] theorem State.modJalzel_pending (s : State) (p : Nat) (f : Jalzel → Jalzel) : (s.modJalzel p f).pending = s.pending := rfl
@[simp] theorem State.modJalzel_stamp (s : State) (p : Nat) (f : Jalzel → Jalzel) : (s.modJalzel p f).stamp = s.stamp := rfl
@[simp] theorem State.modJalzel_boot (s : State) (p : Nat) (f : Jalzel → Jalzel) : (s.modJalzel p f).boot = s.boot := rfl
@[simp] theorem State.modJalzel_vault (s : State) (p : Nat) (f : Jalzel → Jalzel) : (s.modJalzel p f).vault = s.vault := rfl
@[simp] theorem State.modJalzel_security (s : State) (p : Nat) (f : Jalzel → Jalzel) : (s.modJalzel p f).security = s.security := rfl
@[simp] theorem State.modJalzel_power (s : State) (p : Nat) (f : Jalzel → Jalzel) : (s.modJalzel p f).power = s.power := rfl
@[simp] theorem State.modJalzel_reference (s : State) (p : Nat) (f : Jalzel → Jalzel) : (s.modJalzel p f).reference = s.reference := rfl
@[simp] theorem State.modJalzel_ports (s : State) (p : Nat) (f : Jalzel → Jalzel) : (s.modJalzel p f).ports = s.ports := rfl
@[simp] theorem State.modJalzel_curator (s : State) (p : Nat) (f : Jalzel → Jalzel) : (s.modJalzel p f).curator = s.curator := rfl
@[simp] theorem State.modJalzel_fabric (s : State) (p : Nat) (f : Jalzel → Jalzel) : (s.modJalzel p f).fabric = s.fabric := rfl
@[simp] theorem State.modJalzel_images (s : State) (p : Nat) (f : Jalzel → Jalzel) : (s.modJalzel p f).images = s.images := rfl
@[simp] theorem State.modJalzel_accession (s : State) (p : Nat) (f : Jalzel → Jalzel) : (s.modJalzel p f).accession = s.accession := rfl
@[simp] theorem State.modJalzel_vision (s : State) (p : Nat) (f : Jalzel → Jalzel) : (s.modJalzel p f).vision = s.vision := rfl
@[simp] theorem State.modJalzel_concord (s : State) (p : Nat) (f : Jalzel → Jalzel) : (s.modJalzel p f).concord = s.concord := rfl
@[simp] theorem State.modJalzel_map (s : State) (p : Nat) (f : Jalzel → Jalzel) : (s.modJalzel p f).map = s.map := rfl
@[simp] theorem State.modJalzel_sessions (s : State) (p : Nat) (f : Jalzel → Jalzel) : (s.modJalzel p f).sessions = s.sessions := rfl
@[simp] theorem State.modJalzel_collator (s : State) (p : Nat) (f : Jalzel → Jalzel) : (s.modJalzel p f).collator = s.collator := rfl
@[simp] theorem State.modJalzel_catalogue (s : State) (p : Nat) (f : Jalzel → Jalzel) : (s.modJalzel p f).catalogue = s.catalogue := rfl
@[simp] theorem State.modJalzel_heldAccess (s : State) (p : Nat) (f : Jalzel → Jalzel) : (s.modJalzel p f).heldAccess = s.heldAccess := rfl
@[simp] theorem State.modJalzel_fresh (s : State) (p : Nat) (f : Jalzel → Jalzel) : (s.modJalzel p f).fresh = s.fresh := rfl
@[simp] theorem State.modJalzel_desk (s : State) (p : Nat) (f : Jalzel → Jalzel) : (s.modJalzel p f).desk = s.desk := rfl
@[simp] theorem State.modJalzel_now (s : State) (p : Nat) (f : Jalzel → Jalzel) : (s.modJalzel p f).now = s.now := rfl
@[simp] theorem State.modJalzel_position (s : State) (p : Nat) (f : Jalzel → Jalzel) : (s.modJalzel p f).position = s.position := rfl

/-! ### modPort -/

@[simp] theorem State.modPort_pending (s : State) (l : Nat) (f : LogPort → LogPort) : (s.modPort l f).pending = s.pending := rfl
@[simp] theorem State.modPort_stamp (s : State) (l : Nat) (f : LogPort → LogPort) : (s.modPort l f).stamp = s.stamp := rfl
@[simp] theorem State.modPort_boot (s : State) (l : Nat) (f : LogPort → LogPort) : (s.modPort l f).boot = s.boot := rfl
@[simp] theorem State.modPort_vault (s : State) (l : Nat) (f : LogPort → LogPort) : (s.modPort l f).vault = s.vault := rfl
@[simp] theorem State.modPort_security (s : State) (l : Nat) (f : LogPort → LogPort) : (s.modPort l f).security = s.security := rfl
@[simp] theorem State.modPort_power (s : State) (l : Nat) (f : LogPort → LogPort) : (s.modPort l f).power = s.power := rfl
@[simp] theorem State.modPort_reference (s : State) (l : Nat) (f : LogPort → LogPort) : (s.modPort l f).reference = s.reference := rfl
@[simp] theorem State.modPort_ports (s : State) (l : Nat) (f : LogPort → LogPort) : (s.modPort l f).ports = s.ports := rfl
@[simp] theorem State.modPort_curator (s : State) (l : Nat) (f : LogPort → LogPort) : (s.modPort l f).curator = s.curator := rfl
@[simp] theorem State.modPort_fabric (s : State) (l : Nat) (f : LogPort → LogPort) : (s.modPort l f).fabric = s.fabric := rfl
@[simp] theorem State.modPort_images (s : State) (l : Nat) (f : LogPort → LogPort) : (s.modPort l f).images = s.images := rfl
@[simp] theorem State.modPort_accession (s : State) (l : Nat) (f : LogPort → LogPort) : (s.modPort l f).accession = s.accession := rfl
@[simp] theorem State.modPort_vision (s : State) (l : Nat) (f : LogPort → LogPort) : (s.modPort l f).vision = s.vision := rfl
@[simp] theorem State.modPort_concord (s : State) (l : Nat) (f : LogPort → LogPort) : (s.modPort l f).concord = s.concord := rfl
@[simp] theorem State.modPort_map (s : State) (l : Nat) (f : LogPort → LogPort) : (s.modPort l f).map = s.map := rfl
@[simp] theorem State.modPort_sessions (s : State) (l : Nat) (f : LogPort → LogPort) : (s.modPort l f).sessions = s.sessions := rfl
@[simp] theorem State.modPort_collator (s : State) (l : Nat) (f : LogPort → LogPort) : (s.modPort l f).collator = s.collator := rfl
@[simp] theorem State.modPort_catalogue (s : State) (l : Nat) (f : LogPort → LogPort) : (s.modPort l f).catalogue = s.catalogue := rfl
@[simp] theorem State.modPort_heldAccess (s : State) (l : Nat) (f : LogPort → LogPort) : (s.modPort l f).heldAccess = s.heldAccess := rfl
@[simp] theorem State.modPort_fresh (s : State) (l : Nat) (f : LogPort → LogPort) : (s.modPort l f).fresh = s.fresh := rfl
@[simp] theorem State.modPort_desk (s : State) (l : Nat) (f : LogPort → LogPort) : (s.modPort l f).desk = s.desk := rfl
@[simp] theorem State.modPort_now (s : State) (l : Nat) (f : LogPort → LogPort) : (s.modPort l f).now = s.now := rfl
@[simp] theorem State.modPort_position (s : State) (l : Nat) (f : LogPort → LogPort) : (s.modPort l f).position = s.position := rfl

/-! ### modPhys -/

@[simp] theorem State.modPhys_pending (s : State) (k : Nat) (f : PhysPort → PhysPort) : (s.modPhys k f).pending = s.pending := rfl
@[simp] theorem State.modPhys_stamp (s : State) (k : Nat) (f : PhysPort → PhysPort) : (s.modPhys k f).stamp = s.stamp := rfl
@[simp] theorem State.modPhys_boot (s : State) (k : Nat) (f : PhysPort → PhysPort) : (s.modPhys k f).boot = s.boot := rfl
@[simp] theorem State.modPhys_vault (s : State) (k : Nat) (f : PhysPort → PhysPort) : (s.modPhys k f).vault = s.vault := rfl
@[simp] theorem State.modPhys_security (s : State) (k : Nat) (f : PhysPort → PhysPort) : (s.modPhys k f).security = s.security := rfl
@[simp] theorem State.modPhys_power (s : State) (k : Nat) (f : PhysPort → PhysPort) : (s.modPhys k f).power = s.power := rfl
@[simp] theorem State.modPhys_reference (s : State) (k : Nat) (f : PhysPort → PhysPort) : (s.modPhys k f).reference = s.reference := rfl
@[simp] theorem State.modPhys_ports (s : State) (k : Nat) (f : PhysPort → PhysPort) : (s.modPhys k f).ports = s.ports := rfl
@[simp] theorem State.modPhys_curator (s : State) (k : Nat) (f : PhysPort → PhysPort) : (s.modPhys k f).curator = s.curator := rfl
@[simp] theorem State.modPhys_fabric (s : State) (k : Nat) (f : PhysPort → PhysPort) : (s.modPhys k f).fabric = s.fabric := rfl
@[simp] theorem State.modPhys_images (s : State) (k : Nat) (f : PhysPort → PhysPort) : (s.modPhys k f).images = s.images := rfl
@[simp] theorem State.modPhys_accession (s : State) (k : Nat) (f : PhysPort → PhysPort) : (s.modPhys k f).accession = s.accession := rfl
@[simp] theorem State.modPhys_vision (s : State) (k : Nat) (f : PhysPort → PhysPort) : (s.modPhys k f).vision = s.vision := rfl
@[simp] theorem State.modPhys_concord (s : State) (k : Nat) (f : PhysPort → PhysPort) : (s.modPhys k f).concord = s.concord := rfl
@[simp] theorem State.modPhys_map (s : State) (k : Nat) (f : PhysPort → PhysPort) : (s.modPhys k f).map = s.map := rfl
@[simp] theorem State.modPhys_sessions (s : State) (k : Nat) (f : PhysPort → PhysPort) : (s.modPhys k f).sessions = s.sessions := rfl
@[simp] theorem State.modPhys_collator (s : State) (k : Nat) (f : PhysPort → PhysPort) : (s.modPhys k f).collator = s.collator := rfl
@[simp] theorem State.modPhys_catalogue (s : State) (k : Nat) (f : PhysPort → PhysPort) : (s.modPhys k f).catalogue = s.catalogue := rfl
@[simp] theorem State.modPhys_heldAccess (s : State) (k : Nat) (f : PhysPort → PhysPort) : (s.modPhys k f).heldAccess = s.heldAccess := rfl
@[simp] theorem State.modPhys_fresh (s : State) (k : Nat) (f : PhysPort → PhysPort) : (s.modPhys k f).fresh = s.fresh := rfl
@[simp] theorem State.modPhys_desk (s : State) (k : Nat) (f : PhysPort → PhysPort) : (s.modPhys k f).desk = s.desk := rfl
@[simp] theorem State.modPhys_now (s : State) (k : Nat) (f : PhysPort → PhysPort) : (s.modPhys k f).now = s.now := rfl
@[simp] theorem State.modPhys_position (s : State) (k : Nat) (f : PhysPort → PhysPort) : (s.modPhys k f).position = s.position := rfl

/-! ### setStream -/

@[simp] theorem State.setStream_pending (s : State) (k : Nat) (x : Stream) : (s.setStream k x).pending = s.pending := rfl
@[simp] theorem State.setStream_stamp (s : State) (k : Nat) (x : Stream) : (s.setStream k x).stamp = s.stamp := rfl
@[simp] theorem State.setStream_boot (s : State) (k : Nat) (x : Stream) : (s.setStream k x).boot = s.boot := rfl
@[simp] theorem State.setStream_vault (s : State) (k : Nat) (x : Stream) : (s.setStream k x).vault = s.vault := rfl
@[simp] theorem State.setStream_security (s : State) (k : Nat) (x : Stream) : (s.setStream k x).security = s.security := rfl
@[simp] theorem State.setStream_power (s : State) (k : Nat) (x : Stream) : (s.setStream k x).power = s.power := rfl
@[simp] theorem State.setStream_reference (s : State) (k : Nat) (x : Stream) : (s.setStream k x).reference = s.reference := rfl
@[simp] theorem State.setStream_ports (s : State) (k : Nat) (x : Stream) : (s.setStream k x).ports = s.ports := rfl
@[simp] theorem State.setStream_curator (s : State) (k : Nat) (x : Stream) : (s.setStream k x).curator = s.curator := rfl
@[simp] theorem State.setStream_fabric (s : State) (k : Nat) (x : Stream) : (s.setStream k x).fabric = s.fabric := rfl
@[simp] theorem State.setStream_images (s : State) (k : Nat) (x : Stream) : (s.setStream k x).images = s.images := rfl
@[simp] theorem State.setStream_net (s : State) (k : Nat) (x : Stream) : (s.setStream k x).net = s.net := rfl
@[simp] theorem State.setStream_vision (s : State) (k : Nat) (x : Stream) : (s.setStream k x).vision = s.vision := rfl
@[simp] theorem State.setStream_concord (s : State) (k : Nat) (x : Stream) : (s.setStream k x).concord = s.concord := rfl
@[simp] theorem State.setStream_map (s : State) (k : Nat) (x : Stream) : (s.setStream k x).map = s.map := rfl
@[simp] theorem State.setStream_sessions (s : State) (k : Nat) (x : Stream) : (s.setStream k x).sessions = s.sessions := rfl
@[simp] theorem State.setStream_collator (s : State) (k : Nat) (x : Stream) : (s.setStream k x).collator = s.collator := rfl
@[simp] theorem State.setStream_catalogue (s : State) (k : Nat) (x : Stream) : (s.setStream k x).catalogue = s.catalogue := rfl
@[simp] theorem State.setStream_heldAccess (s : State) (k : Nat) (x : Stream) : (s.setStream k x).heldAccess = s.heldAccess := rfl
@[simp] theorem State.setStream_fresh (s : State) (k : Nat) (x : Stream) : (s.setStream k x).fresh = s.fresh := rfl
@[simp] theorem State.setStream_desk (s : State) (k : Nat) (x : Stream) : (s.setStream k x).desk = s.desk := rfl
@[simp] theorem State.setStream_now (s : State) (k : Nat) (x : Stream) : (s.setStream k x).now = s.now := rfl
@[simp] theorem State.setStream_position (s : State) (k : Nat) (x : Stream) : (s.setStream k x).position = s.position := rfl

/-! ### setGraph -/

@[simp] theorem State.setGraph_pending (s : State) (k : Nat) (g : Graph) : (s.setGraph k g).pending = s.pending := rfl
@[simp] theorem State.setGraph_stamp (s : State) (k : Nat) (g : Graph) : (s.setGraph k g).stamp = s.stamp := rfl
@[simp] theorem State.setGraph_boot (s : State) (k : Nat) (g : Graph) : (s.setGraph k g).boot = s.boot := rfl
@[simp] theorem State.setGraph_vault (s : State) (k : Nat) (g : Graph) : (s.setGraph k g).vault = s.vault := rfl
@[simp] theorem State.setGraph_security (s : State) (k : Nat) (g : Graph) : (s.setGraph k g).security = s.security := rfl
@[simp] theorem State.setGraph_power (s : State) (k : Nat) (g : Graph) : (s.setGraph k g).power = s.power := rfl
@[simp] theorem State.setGraph_reference (s : State) (k : Nat) (g : Graph) : (s.setGraph k g).reference = s.reference := rfl
@[simp] theorem State.setGraph_ports (s : State) (k : Nat) (g : Graph) : (s.setGraph k g).ports = s.ports := rfl
@[simp] theorem State.setGraph_curator (s : State) (k : Nat) (g : Graph) : (s.setGraph k g).curator = s.curator := rfl
@[simp] theorem State.setGraph_fabric (s : State) (k : Nat) (g : Graph) : (s.setGraph k g).fabric = s.fabric := rfl
@[simp] theorem State.setGraph_images (s : State) (k : Nat) (g : Graph) : (s.setGraph k g).images = s.images := rfl
@[simp] theorem State.setGraph_net (s : State) (k : Nat) (g : Graph) : (s.setGraph k g).net = s.net := rfl
@[simp] theorem State.setGraph_accession (s : State) (k : Nat) (g : Graph) : (s.setGraph k g).accession = s.accession := rfl
@[simp] theorem State.setGraph_concord (s : State) (k : Nat) (g : Graph) : (s.setGraph k g).concord = s.concord := rfl
@[simp] theorem State.setGraph_map (s : State) (k : Nat) (g : Graph) : (s.setGraph k g).map = s.map := rfl
@[simp] theorem State.setGraph_sessions (s : State) (k : Nat) (g : Graph) : (s.setGraph k g).sessions = s.sessions := rfl
@[simp] theorem State.setGraph_collator (s : State) (k : Nat) (g : Graph) : (s.setGraph k g).collator = s.collator := rfl
@[simp] theorem State.setGraph_catalogue (s : State) (k : Nat) (g : Graph) : (s.setGraph k g).catalogue = s.catalogue := rfl
@[simp] theorem State.setGraph_heldAccess (s : State) (k : Nat) (g : Graph) : (s.setGraph k g).heldAccess = s.heldAccess := rfl
@[simp] theorem State.setGraph_fresh (s : State) (k : Nat) (g : Graph) : (s.setGraph k g).fresh = s.fresh := rfl
@[simp] theorem State.setGraph_desk (s : State) (k : Nat) (g : Graph) : (s.setGraph k g).desk = s.desk := rfl
@[simp] theorem State.setGraph_now (s : State) (k : Nat) (g : Graph) : (s.setGraph k g).now = s.now := rfl
@[simp] theorem State.setGraph_position (s : State) (k : Nat) (g : Graph) : (s.setGraph k g).position = s.position := rfl

/-! ### modConcord -/

@[simp] theorem State.modConcord_pending (s : State) (f : Concord → Concord) : (s.modConcord f).pending = s.pending := rfl
@[simp] theorem State.modConcord_stamp (s : State) (f : Concord → Concord) : (s.modConcord f).stamp = s.stamp := rfl
@[simp] theorem State.modConcord_boot (s : State) (f : Concord → Concord) : (s.modConcord f).boot = s.boot := rfl
@[simp] theorem State.modConcord_vault (s : State) (f : Concord → Concord) : (s.modConcord f).vault = s.vault := rfl
@[simp] theorem State.modConcord_security (s : State) (f : Concord → Concord) : (s.modConcord f).security = s.security := rfl
@[simp] theorem State.modConcord_power (s : State) (f : Concord → Concord) : (s.modConcord f).power = s.power := rfl
@[simp] theorem State.modConcord_reference (s : State) (f : Concord → Concord) : (s.modConcord f).reference = s.reference := rfl
@[simp] theorem State.modConcord_ports (s : State) (f : Concord → Concord) : (s.modConcord f).ports = s.ports := rfl
@[simp] theorem State.modConcord_curator (s : State) (f : Concord → Concord) : (s.modConcord f).curator = s.curator := rfl
@[simp] theorem State.modConcord_fabric (s : State) (f : Concord → Concord) : (s.modConcord f).fabric = s.fabric := rfl
@[simp] theorem State.modConcord_images (s : State) (f : Concord → Concord) : (s.modConcord f).images = s.images := rfl
@[simp] theorem State.modConcord_net (s : State) (f : Concord → Concord) : (s.modConcord f).net = s.net := rfl
@[simp] theorem State.modConcord_accession (s : State) (f : Concord → Concord) : (s.modConcord f).accession = s.accession := rfl
@[simp] theorem State.modConcord_vision (s : State) (f : Concord → Concord) : (s.modConcord f).vision = s.vision := rfl
@[simp] theorem State.modConcord_concord (s : State) (f : Concord → Concord) : (s.modConcord f).concord = f s.concord := rfl
@[simp] theorem State.modConcord_map (s : State) (f : Concord → Concord) : (s.modConcord f).map = s.map := rfl
@[simp] theorem State.modConcord_sessions (s : State) (f : Concord → Concord) : (s.modConcord f).sessions = s.sessions := rfl
@[simp] theorem State.modConcord_collator (s : State) (f : Concord → Concord) : (s.modConcord f).collator = s.collator := rfl
@[simp] theorem State.modConcord_catalogue (s : State) (f : Concord → Concord) : (s.modConcord f).catalogue = s.catalogue := rfl
@[simp] theorem State.modConcord_heldAccess (s : State) (f : Concord → Concord) : (s.modConcord f).heldAccess = s.heldAccess := rfl
@[simp] theorem State.modConcord_fresh (s : State) (f : Concord → Concord) : (s.modConcord f).fresh = s.fresh := rfl
@[simp] theorem State.modConcord_desk (s : State) (f : Concord → Concord) : (s.modConcord f).desk = s.desk := rfl
@[simp] theorem State.modConcord_now (s : State) (f : Concord → Concord) : (s.modConcord f).now = s.now := rfl
@[simp] theorem State.modConcord_position (s : State) (f : Concord → Concord) : (s.modConcord f).position = s.position := rfl

/-! ### modMap -/

@[simp] theorem State.modMap_pending (s : State) (f : MapSt → MapSt) : (s.modMap f).pending = s.pending := rfl
@[simp] theorem State.modMap_stamp (s : State) (f : MapSt → MapSt) : (s.modMap f).stamp = s.stamp := rfl
@[simp] theorem State.modMap_boot (s : State) (f : MapSt → MapSt) : (s.modMap f).boot = s.boot := rfl
@[simp] theorem State.modMap_vault (s : State) (f : MapSt → MapSt) : (s.modMap f).vault = s.vault := rfl
@[simp] theorem State.modMap_security (s : State) (f : MapSt → MapSt) : (s.modMap f).security = s.security := rfl
@[simp] theorem State.modMap_power (s : State) (f : MapSt → MapSt) : (s.modMap f).power = s.power := rfl
@[simp] theorem State.modMap_reference (s : State) (f : MapSt → MapSt) : (s.modMap f).reference = s.reference := rfl
@[simp] theorem State.modMap_ports (s : State) (f : MapSt → MapSt) : (s.modMap f).ports = s.ports := rfl
@[simp] theorem State.modMap_curator (s : State) (f : MapSt → MapSt) : (s.modMap f).curator = s.curator := rfl
@[simp] theorem State.modMap_fabric (s : State) (f : MapSt → MapSt) : (s.modMap f).fabric = s.fabric := rfl
@[simp] theorem State.modMap_images (s : State) (f : MapSt → MapSt) : (s.modMap f).images = s.images := rfl
@[simp] theorem State.modMap_net (s : State) (f : MapSt → MapSt) : (s.modMap f).net = s.net := rfl
@[simp] theorem State.modMap_accession (s : State) (f : MapSt → MapSt) : (s.modMap f).accession = s.accession := rfl
@[simp] theorem State.modMap_vision (s : State) (f : MapSt → MapSt) : (s.modMap f).vision = s.vision := rfl
@[simp] theorem State.modMap_concord (s : State) (f : MapSt → MapSt) : (s.modMap f).concord = s.concord := rfl
@[simp] theorem State.modMap_map (s : State) (f : MapSt → MapSt) : (s.modMap f).map = f s.map := rfl
@[simp] theorem State.modMap_sessions (s : State) (f : MapSt → MapSt) : (s.modMap f).sessions = s.sessions := rfl
@[simp] theorem State.modMap_collator (s : State) (f : MapSt → MapSt) : (s.modMap f).collator = s.collator := rfl
@[simp] theorem State.modMap_catalogue (s : State) (f : MapSt → MapSt) : (s.modMap f).catalogue = s.catalogue := rfl
@[simp] theorem State.modMap_heldAccess (s : State) (f : MapSt → MapSt) : (s.modMap f).heldAccess = s.heldAccess := rfl
@[simp] theorem State.modMap_fresh (s : State) (f : MapSt → MapSt) : (s.modMap f).fresh = s.fresh := rfl
@[simp] theorem State.modMap_desk (s : State) (f : MapSt → MapSt) : (s.modMap f).desk = s.desk := rfl
@[simp] theorem State.modMap_now (s : State) (f : MapSt → MapSt) : (s.modMap f).now = s.now := rfl
@[simp] theorem State.modMap_position (s : State) (f : MapSt → MapSt) : (s.modMap f).position = s.position := rfl

/-! ### modSessions -/

@[simp] theorem State.modSessions_pending (s : State) (f : Sessions → Sessions) : (s.modSessions f).pending = s.pending := rfl
@[simp] theorem State.modSessions_stamp (s : State) (f : Sessions → Sessions) : (s.modSessions f).stamp = s.stamp := rfl
@[simp] theorem State.modSessions_boot (s : State) (f : Sessions → Sessions) : (s.modSessions f).boot = s.boot := rfl
@[simp] theorem State.modSessions_vault (s : State) (f : Sessions → Sessions) : (s.modSessions f).vault = s.vault := rfl
@[simp] theorem State.modSessions_security (s : State) (f : Sessions → Sessions) : (s.modSessions f).security = s.security := rfl
@[simp] theorem State.modSessions_power (s : State) (f : Sessions → Sessions) : (s.modSessions f).power = s.power := rfl
@[simp] theorem State.modSessions_reference (s : State) (f : Sessions → Sessions) : (s.modSessions f).reference = s.reference := rfl
@[simp] theorem State.modSessions_ports (s : State) (f : Sessions → Sessions) : (s.modSessions f).ports = s.ports := rfl
@[simp] theorem State.modSessions_curator (s : State) (f : Sessions → Sessions) : (s.modSessions f).curator = s.curator := rfl
@[simp] theorem State.modSessions_fabric (s : State) (f : Sessions → Sessions) : (s.modSessions f).fabric = s.fabric := rfl
@[simp] theorem State.modSessions_images (s : State) (f : Sessions → Sessions) : (s.modSessions f).images = s.images := rfl
@[simp] theorem State.modSessions_net (s : State) (f : Sessions → Sessions) : (s.modSessions f).net = s.net := rfl
@[simp] theorem State.modSessions_accession (s : State) (f : Sessions → Sessions) : (s.modSessions f).accession = s.accession := rfl
@[simp] theorem State.modSessions_vision (s : State) (f : Sessions → Sessions) : (s.modSessions f).vision = s.vision := rfl
@[simp] theorem State.modSessions_concord (s : State) (f : Sessions → Sessions) : (s.modSessions f).concord = s.concord := rfl
@[simp] theorem State.modSessions_map (s : State) (f : Sessions → Sessions) : (s.modSessions f).map = s.map := rfl
@[simp] theorem State.modSessions_sessions (s : State) (f : Sessions → Sessions) : (s.modSessions f).sessions = f s.sessions := rfl
@[simp] theorem State.modSessions_collator (s : State) (f : Sessions → Sessions) : (s.modSessions f).collator = s.collator := rfl
@[simp] theorem State.modSessions_catalogue (s : State) (f : Sessions → Sessions) : (s.modSessions f).catalogue = s.catalogue := rfl
@[simp] theorem State.modSessions_heldAccess (s : State) (f : Sessions → Sessions) : (s.modSessions f).heldAccess = s.heldAccess := rfl
@[simp] theorem State.modSessions_fresh (s : State) (f : Sessions → Sessions) : (s.modSessions f).fresh = s.fresh := rfl
@[simp] theorem State.modSessions_desk (s : State) (f : Sessions → Sessions) : (s.modSessions f).desk = s.desk := rfl
@[simp] theorem State.modSessions_now (s : State) (f : Sessions → Sessions) : (s.modSessions f).now = s.now := rfl
@[simp] theorem State.modSessions_position (s : State) (f : Sessions → Sessions) : (s.modSessions f).position = s.position := rfl

/-! ### modCollator -/

@[simp] theorem State.modCollator_pending (s : State) (f : Collator → Collator) : (s.modCollator f).pending = s.pending := rfl
@[simp] theorem State.modCollator_stamp (s : State) (f : Collator → Collator) : (s.modCollator f).stamp = s.stamp := rfl
@[simp] theorem State.modCollator_boot (s : State) (f : Collator → Collator) : (s.modCollator f).boot = s.boot := rfl
@[simp] theorem State.modCollator_vault (s : State) (f : Collator → Collator) : (s.modCollator f).vault = s.vault := rfl
@[simp] theorem State.modCollator_security (s : State) (f : Collator → Collator) : (s.modCollator f).security = s.security := rfl
@[simp] theorem State.modCollator_power (s : State) (f : Collator → Collator) : (s.modCollator f).power = s.power := rfl
@[simp] theorem State.modCollator_reference (s : State) (f : Collator → Collator) : (s.modCollator f).reference = s.reference := rfl
@[simp] theorem State.modCollator_ports (s : State) (f : Collator → Collator) : (s.modCollator f).ports = s.ports := rfl
@[simp] theorem State.modCollator_curator (s : State) (f : Collator → Collator) : (s.modCollator f).curator = s.curator := rfl
@[simp] theorem State.modCollator_fabric (s : State) (f : Collator → Collator) : (s.modCollator f).fabric = s.fabric := rfl
@[simp] theorem State.modCollator_images (s : State) (f : Collator → Collator) : (s.modCollator f).images = s.images := rfl
@[simp] theorem State.modCollator_net (s : State) (f : Collator → Collator) : (s.modCollator f).net = s.net := rfl
@[simp] theorem State.modCollator_accession (s : State) (f : Collator → Collator) : (s.modCollator f).accession = s.accession := rfl
@[simp] theorem State.modCollator_vision (s : State) (f : Collator → Collator) : (s.modCollator f).vision = s.vision := rfl
@[simp] theorem State.modCollator_concord (s : State) (f : Collator → Collator) : (s.modCollator f).concord = s.concord := rfl
@[simp] theorem State.modCollator_map (s : State) (f : Collator → Collator) : (s.modCollator f).map = s.map := rfl
@[simp] theorem State.modCollator_sessions (s : State) (f : Collator → Collator) : (s.modCollator f).sessions = s.sessions := rfl
@[simp] theorem State.modCollator_collator (s : State) (f : Collator → Collator) : (s.modCollator f).collator = f s.collator := rfl
@[simp] theorem State.modCollator_catalogue (s : State) (f : Collator → Collator) : (s.modCollator f).catalogue = s.catalogue := rfl
@[simp] theorem State.modCollator_heldAccess (s : State) (f : Collator → Collator) : (s.modCollator f).heldAccess = s.heldAccess := rfl
@[simp] theorem State.modCollator_fresh (s : State) (f : Collator → Collator) : (s.modCollator f).fresh = s.fresh := rfl
@[simp] theorem State.modCollator_desk (s : State) (f : Collator → Collator) : (s.modCollator f).desk = s.desk := rfl
@[simp] theorem State.modCollator_now (s : State) (f : Collator → Collator) : (s.modCollator f).now = s.now := rfl
@[simp] theorem State.modCollator_position (s : State) (f : Collator → Collator) : (s.modCollator f).position = s.position := rfl

/-! ### modCat -/

@[simp] theorem State.modCat_pending (s : State) (f : Catalogue → Catalogue) : (s.modCat f).pending = s.pending := rfl
@[simp] theorem State.modCat_stamp (s : State) (f : Catalogue → Catalogue) : (s.modCat f).stamp = s.stamp := rfl
@[simp] theorem State.modCat_boot (s : State) (f : Catalogue → Catalogue) : (s.modCat f).boot = s.boot := rfl
@[simp] theorem State.modCat_vault (s : State) (f : Catalogue → Catalogue) : (s.modCat f).vault = s.vault := rfl
@[simp] theorem State.modCat_security (s : State) (f : Catalogue → Catalogue) : (s.modCat f).security = s.security := rfl
@[simp] theorem State.modCat_power (s : State) (f : Catalogue → Catalogue) : (s.modCat f).power = s.power := rfl
@[simp] theorem State.modCat_reference (s : State) (f : Catalogue → Catalogue) : (s.modCat f).reference = s.reference := rfl
@[simp] theorem State.modCat_ports (s : State) (f : Catalogue → Catalogue) : (s.modCat f).ports = s.ports := rfl
@[simp] theorem State.modCat_curator (s : State) (f : Catalogue → Catalogue) : (s.modCat f).curator = s.curator := rfl
@[simp] theorem State.modCat_fabric (s : State) (f : Catalogue → Catalogue) : (s.modCat f).fabric = s.fabric := rfl
@[simp] theorem State.modCat_images (s : State) (f : Catalogue → Catalogue) : (s.modCat f).images = s.images := rfl
@[simp] theorem State.modCat_net (s : State) (f : Catalogue → Catalogue) : (s.modCat f).net = s.net := rfl
@[simp] theorem State.modCat_accession (s : State) (f : Catalogue → Catalogue) : (s.modCat f).accession = s.accession := rfl
@[simp] theorem State.modCat_vision (s : State) (f : Catalogue → Catalogue) : (s.modCat f).vision = s.vision := rfl
@[simp] theorem State.modCat_concord (s : State) (f : Catalogue → Catalogue) : (s.modCat f).concord = s.concord := rfl
@[simp] theorem State.modCat_map (s : State) (f : Catalogue → Catalogue) : (s.modCat f).map = s.map := rfl
@[simp] theorem State.modCat_sessions (s : State) (f : Catalogue → Catalogue) : (s.modCat f).sessions = s.sessions := rfl
@[simp] theorem State.modCat_collator (s : State) (f : Catalogue → Catalogue) : (s.modCat f).collator = s.collator := rfl
@[simp] theorem State.modCat_catalogue (s : State) (f : Catalogue → Catalogue) : (s.modCat f).catalogue = f s.catalogue := rfl
@[simp] theorem State.modCat_heldAccess (s : State) (f : Catalogue → Catalogue) : (s.modCat f).heldAccess = s.heldAccess := rfl
@[simp] theorem State.modCat_fresh (s : State) (f : Catalogue → Catalogue) : (s.modCat f).fresh = s.fresh := rfl
@[simp] theorem State.modCat_desk (s : State) (f : Catalogue → Catalogue) : (s.modCat f).desk = s.desk := rfl
@[simp] theorem State.modCat_now (s : State) (f : Catalogue → Catalogue) : (s.modCat f).now = s.now := rfl
@[simp] theorem State.modCat_position (s : State) (f : Catalogue → Catalogue) : (s.modCat f).position = s.position := rfl

end Sys2Proof.Machine
end

