-- ==== Sys2Proof/Laws/Jobs.lean ====
section
/-! SUPPORT. How a command of a job begins and ends, said once. -/
namespace Sys2Proof.Machine

theorem State.modJob_eq (s : State) (n : Nat) (f : Job → Job) : s.modCirc (fun c => c.modJob n f) = s.withJob n f := by
  simp only [State.modCirc, Circ.modJob, mapIf, State.withJob, beq_iff_eq]

/-- A job that ends: its first ending stands (R105). -/
theorem State.finish_eq (s : State) (n : Nat) (e : Ending) :
    s.finish n e = s.withJob n (fun i => { i with ending := some (i.ending.getD e) }) := by
  rw [State.finish, State.modJob_eq]
  congr 1
  funext i
  obtain ⟨_, _, _, _, _, _, _, x, _⟩ := i
  cases x <;> rfl

theorem leads_of {c : Instr} {s t : State} {p : State → Prop} (h : exec c s = .next t) (hp : p t) : Leads c s p := ⟨t, h, hp⟩

theorem State.took_eq (s : State) (n : Nat) : s.modCirc (fun c => c.modJob n (fun i => { i with started := true })) = s.took n := by
  simp only [State.modCirc, Circ.modJob, mapIf, State.took, State.withJob, beq_iff_eq]

/-- A job that its unit took and that ends. -/
@[simp] theorem State.took_finish (s : State) (n : Nat) (e : Ending) : (s.took n).finish n e = s.ended n e := by
  simp only [State.finish, State.modCirc, Circ.modJob, mapIf, State.took, State.ended, State.withJob, List.map_map, beq_iff_eq]
  congr 3
  refine List.map_congr_left fun i _ => ?_
  simp only [Function.comp]
  split
  · next h => simp only [h]; cases i.ending <;> rfl
  · rfl

/-- A job that may start is taken, and its command goes on. -/
theorem State.begin_of_startable {s : State} {n op : Nat} {j : Job} (h : s.Startable n op j) (k : Job → State → State) :
    s.begin n op k = k j (s.took n) := by
  obtain ⟨h1, h2, h3, h4, h5⟩ := h
  simp only [State.begin, h1, h2, h3, h4, h5, State.took_eq]
  simp

/-- The same for a command that reads the job's data buffer. -/
theorem State.beginRead_of_startable {s : State} {n op : Nat} {j : Job} (h : s.Startable n op j) (b : Bytes)
    (k : Job → Bytes → State → State) : s.beginRead n op (some b) k = k j (takePad (dataLenOf j.slip) b) (s.took n) :=
  State.begin_of_startable h _

/-- A command whose job may not start, or names no job of its opcode, changes nothing. -/
theorem State.begin_of_not_startable {s : State} {n op : Nat}
    (h : ∀ j, s.job n = some j → opcodeOf j.slip = op → s.desk.circ.canStart j = false) (k : Job → State → State) :
    s.begin n op k = s := by
  unfold State.begin
  split
  · rfl
  · next j hj =>
    have := h j hj
    split
    · rfl
    · next hn => simp_all

/-- A job whose deadline has passed is answered without being started. -/
theorem State.begin_of_late {s : State} {n op : Nat} {j : Job} (h1 : s.job n = some j) (h2 : opcodeOf j.slip = op)
    (h3 : s.desk.circ.canStart j = true) (h4 : s.passed (deadlineOf j.slip) = true) (k : Job → State → State) :
    s.begin n op k = s.finish n (refusalByCirculation stPartialDeadline 0) := by
  simp [State.begin, h1, h2, h3, h4]

/-- A job in flight bears its number. -/
theorem State.Startable.num_eq {s : State} {n op : Nat} {j : Job} (h : s.Startable n op j) : j.num = n := by
  simpa using List.find?_some h.1

@[simp] theorem State.took_queue (s : State) (n q : Nat) : (s.took n).desk.circ.queue q = s.desk.circ.queue q := rfl

end Sys2Proof.Machine
end

