-- ==== Sys2Proof/Laws/Storage.lean ====
section
/-! SUPPORT. Keyed lists and storage: a read after a write, and the canonical form that every write keeps. -/
namespace Sys2Proof.Machine

/-! ## Keyed lists -/

section
variable {α : Type}

@[simp] theorem amGet_amSet_self (m : List (Nat × α)) (k : Nat) (a : α) : amGet (amSet m k a) k = some a := by
  induction m with
  | nil => simp [amSet, amGet]
  | cons e m ih =>
    obtain ⟨j, b⟩ := e
    unfold amSet
    split
    · simp [amGet]
    · split
      · simp [amGet]
      · next h => rw [amGet, if_neg (Ne.symm h), ih]

theorem amGet_amSet_ne (m : List (Nat × α)) {k i : Nat} (a : α) (h : i ≠ k) : amGet (amSet m k a) i = amGet m i := by
  induction m with
  | nil => simp [amSet, amGet, Ne.symm h]
  | cons e m ih =>
    obtain ⟨j, b⟩ := e
    unfold amSet
    split
    · simp [amGet, Ne.symm h]
    · split
      · next hk => subst hk; simp [amGet, Ne.symm h]
      · simp [amGet, ih]

theorem amGet_amDel_ne (m : List (Nat × α)) {k i : Nat} (h : i ≠ k) : amGet (amDel m k) i = amGet m i := by
  induction m with
  | nil => rfl
  | cons e m ih =>
    obtain ⟨j, b⟩ := e
    unfold amDel
    split
    · next hk => subst hk; simp [amGet, Ne.symm h]
    · simp [amGet, ih]

/-- A list in canonical form: every key after the first is above it, and the rest is canonical. -/
theorem amWf_cons (j : Nat) (b : α) (m : List (Nat × α)) :
    amWf ((j, b) :: m) = true ↔ (∀ e ∈ m, j < e.1) ∧ amWf m = true := by
  induction m generalizing j b with
  | nil => simp [amWf]
  | cons e m ih =>
    obtain ⟨k, c⟩ := e
    rw [amWf, Bool.and_eq_true, decide_eq_true_eq]
    constructor
    · rintro ⟨h, w⟩
      refine ⟨fun e he => ?_, w⟩
      rcases List.mem_cons.1 he with rfl | he
      · exact h
      · exact Nat.lt_trans h (((ih k c).1 w).1 e he)
    · rintro ⟨h, w⟩
      exact ⟨h _ (List.mem_cons_self ..), w⟩

theorem mem_amSet {m : List (Nat × α)} {k : Nat} {a : α} {e : Nat × α} (h : e ∈ amSet m k a) : e = (k, a) ∨ e ∈ m := by
  induction m with
  | nil => simpa [amSet] using h
  | cons f m ih =>
    obtain ⟨j, b⟩ := f
    unfold amSet at h
    split at h
    · simpa using h
    · split at h
      · rcases List.mem_cons.1 h with h | h
        · exact .inl h
        · exact .inr (List.mem_cons_of_mem _ h)
      · rcases List.mem_cons.1 h with h | h
        · exact .inr (h ▸ List.mem_cons_self ..)
        · exact (ih h).imp id (List.mem_cons_of_mem _)

theorem mem_amDel {m : List (Nat × α)} {k : Nat} {e : Nat × α} (h : e ∈ amDel m k) : e ∈ m := by
  induction m with
  | nil => exact h
  | cons f m ih =>
    obtain ⟨j, b⟩ := f
    unfold amDel at h
    split at h
    · exact List.mem_cons_of_mem _ h
    · rcases List.mem_cons.1 h with h | h
      · exact h ▸ List.mem_cons_self ..
      · exact List.mem_cons_of_mem _ (ih h)

theorem amWf_amSet {m : List (Nat × α)} (k : Nat) (a : α) (h : amWf m = true) : amWf (amSet m k a) = true := by
  induction m with
  | nil => rfl
  | cons e m ih =>
    obtain ⟨j, b⟩ := e
    obtain ⟨h1, h2⟩ := (amWf_cons _ _ _).1 h
    unfold amSet
    split
    · next hk =>
      refine (amWf_cons _ _ _).2 ⟨fun e he => ?_, h⟩
      rcases List.mem_cons.1 he with rfl | he
      · exact hk
      · exact Nat.lt_trans hk (h1 e he)
    · split
      · next hk => subst hk; exact (amWf_cons _ _ _).2 ⟨h1, h2⟩
      · next hk hj =>
        refine (amWf_cons _ _ _).2 ⟨fun e he => ?_, ih h2⟩
        rcases mem_amSet he with rfl | he
        · simp only; omega
        · exact h1 e he

theorem amWf_amDel {m : List (Nat × α)} (k : Nat) (h : amWf m = true) : amWf (amDel m k) = true := by
  induction m with
  | nil => rfl
  | cons e m ih =>
    obtain ⟨j, b⟩ := e
    obtain ⟨h1, h2⟩ := (amWf_cons _ _ _).1 h
    unfold amDel
    split
    · exact h2
    · exact (amWf_cons _ _ _).2 ⟨fun e he => h1 e (mem_amDel he), ih h2⟩

theorem amGet_none_of_lt {m : List (Nat × α)} {k : Nat} (h : ∀ e ∈ m, k < e.1) : amGet m k = none := by
  induction m with
  | nil => rfl
  | cons e m ih =>
    obtain ⟨j, b⟩ := e
    have hj := h (j, b) (List.mem_cons_self ..)
    simp only at hj
    rw [amGet, if_neg (by omega)]
    exact ih (fun e he => h e (List.mem_cons_of_mem _ he))

theorem amGet_amDel_self {m : List (Nat × α)} (k : Nat) (h : amWf m = true) : amGet (amDel m k) k = none := by
  induction m with
  | nil => rfl
  | cons e m ih =>
    obtain ⟨j, b⟩ := e
    obtain ⟨h1, h2⟩ := (amWf_cons _ _ _).1 h
    unfold amDel
    split
    · next hj => subst hj; exact amGet_none_of_lt h1
    · next hj => rw [amGet, if_neg hj]; exact ih h2
end

/-! ## Bytes (log 2) -/

theorem cellsWf_iff (m : List Host.Cell) : cellsWf m = true ↔ amWf m = true ∧ ∀ e ∈ m, e.2 ≠ 0 := by
  simp [cellsWf]

/-- A write keeps the canonical form. -/
theorem cellSet_wf {m : List Host.Cell} (a : Nat) (b : Byte) (h : cellsWf m = true) : cellsWf (cellSet m a b) = true := by
  rw [cellsWf_iff] at h ⊢
  unfold cellSet
  split
  · exact ⟨amWf_amDel _ h.1, fun e he => h.2 e (mem_amDel he)⟩
  · next hb =>
    refine ⟨amWf_amSet _ _ h.1, fun e he => ?_⟩
    rcases mem_amSet he with rfl | he
    · exact hb
    · exact h.2 e he

/-- A byte reads as it was written. -/
theorem cellGet_cellSet_self {m : List Host.Cell} (a : Nat) (b : Byte) (h : cellsWf m = true) : cellGet (cellSet m a b) a = b := by
  unfold cellSet cellGet amGetD
  split
  · next hb => rw [amGet_amDel_self _ ((cellsWf_iff _).1 h).1, hb]; rfl
  · rw [amGet_amSet_self]; rfl

/-- A write leaves every other byte alone. -/
theorem cellGet_cellSet_ne (m : List Host.Cell) {a i : Nat} (b : Byte) (h : i ≠ a) : cellGet (cellSet m a b) i = cellGet m i := by
  unfold cellSet cellGet amGetD
  split
  · rw [amGet_amDel_ne _ h]
  · rw [amGet_amSet_ne _ _ h]

theorem cellsSet_wf {m : List Host.Cell} (a : Nat) (l : Bytes) (h : cellsWf m = true) : cellsWf (cellsSet m a l) = true := by
  induction l generalizing m a with
  | nil => exact h
  | cons b l ih => exact ih _ (cellSet_wf _ _ h)

/-- Bytes written outside an address leave it alone. -/
theorem cellGet_cellsSet_out (m : List Host.Cell) (a : Nat) (l : Bytes) (i : Nat) (h : i < a ∨ a + l.length ≤ i) :
    cellGet (cellsSet m a l) i = cellGet m i := by
  induction l generalizing m a with
  | nil => rfl
  | cons b l ih =>
    rw [List.length_cons] at h
    rw [cellsSet, ih _ _ (by omega), cellGet_cellSet_ne _ _ (by omega)]

/-- Bytes written from an address on read back in place. -/
theorem cellGet_cellsSet_in {m : List Host.Cell} (a : Nat) (l : Bytes) (i : Nat) (hi : i < l.length) (h : cellsWf m = true) :
    cellGet (cellsSet m a l) (a + i) = l[i] := by
  induction l generalizing m a i with
  | nil => simp at hi
  | cons b l ih =>
    cases i with
    | zero => rw [cellsSet, cellGet_cellsSet_out _ _ _ _ (.inl (by omega)), Nat.add_zero, cellGet_cellSet_self _ _ h]; rfl
    | succ i =>
      rw [cellsSet, show a + (i + 1) = a + 1 + i by omega, ih _ _ (by simpa using hi) (cellSet_wf _ _ h)]
      rfl

theorem cellsGet_cellsSet {m : List Host.Cell} (a : Nat) (l : Bytes) (h : cellsWf m = true) : cellsGet (cellsSet m a l) a l.length = l := by
  refine List.ext_getElem (by simp [cellsGet]) fun i h1 h2 => ?_
  simp only [cellsGet, List.getElem_map, List.getElem_range]
  exact cellGet_cellsSet_in a l i h2 h

theorem cellsGet_cellsSet_out (m : List Host.Cell) (a : Nat) (l : Bytes) (b n : Nat) (h : b + n ≤ a ∨ a + l.length ≤ b) :
    cellsGet (cellsSet m a l) b n = cellsGet m b n := by
  refine List.map_congr_left fun i hi => cellGet_cellsSet_out _ _ _ _ ?_
  rw [List.mem_range] at hi
  omega

/-! ## Words (R72, R78) -/

theorem Store.wf_iff (m : Store) : m.wf = true ↔ cellsWf m.data = true ∧ cellsWf m.check = true := by simp [Store.wf]

theorem Store.putWord_wf {m : Store} (w : Nat) (c : Bytes) (h : m.wf = true) : (m.putWord w c).wf = true := by
  rw [Store.wf_iff] at h ⊢
  exact ⟨cellsSet_wf _ _ h.1, cellsSet_wf _ _ h.2⟩

theorem Store.writeWord_wf {m : Store} (w : Nat) (d : Bytes) (h : m.wf = true) : (m.writeWord w d).wf = true := m.putWord_wf _ _ h

theorem Store.poison_wf {m : Store} (w : Nat) (h : m.wf = true) : (m.poison w).wf = true := m.putWord_wf _ _ h

/-- A codeword reads as it was stored. -/
theorem Store.word_putWord_self {m : Store} (w : Nat) (c : Bytes) (hc : c.length = 35) (h : m.wf = true) : (m.putWord w c).word w = c := by
  rw [Store.wf_iff] at h
  have h1 : (c.take 3).length = 3 := by simp [hc]
  have h2 : (c.drop 3).length = 32 := by simp [hc]
  have e1 := cellsGet_cellsSet (3 * w) (c.take 3) h.2
  have e2 := cellsGet_cellsSet (32 * w) (c.drop 3) h.1
  rw [h1] at e1
  rw [h2] at e2
  show cellsGet _ (3 * w) 3 ++ cellsGet _ (32 * w) 32 = c
  rw [Store.putWord, dataOf]
  simp only
  rw [e1, e2, List.take_append_drop]

/-- Another word reads as before. -/
theorem Store.word_putWord_ne (m : Store) {w v : Nat} (c : Bytes) (hc : c.length = 35) (h : v ≠ w) : (m.putWord w c).word v = m.word v := by
  have h1 : (c.take 3).length = 3 := by simp [hc]
  have h2 : (c.drop 3).length = 32 := by simp [hc]
  show cellsGet _ (3 * v) 3 ++ cellsGet _ (32 * v) 32 = _
  rw [Store.putWord, dataOf]
  simp only
  rw [cellsGet_cellsSet_out _ _ _ _ _ (by rw [h1]; omega), cellsGet_cellsSet_out _ _ _ _ _ (by rw [h2]; omega)]
  rfl

theorem length_takePad (n : Nat) (l : Bytes) : (takePad n l).length = n := by
  simp [takePad, zeros]
  omega

theorem length_encodeWord (d : Bytes) (h : d.length = 32) : (encodeWord d).length = 35 := by
  simp [encodeWord, checkBytes, h]

/-- A word written whole reads as its codeword, and every other word as before. -/
theorem Store.word_writeWord {m : Store} (w : Nat) (d : Bytes) (h : m.wf = true) (v : Nat) :
    (m.writeWord w d).word v = if v = w then encodeWord (takePad 32 d) else m.word v := by
  have hl := length_encodeWord _ (length_takePad 32 d)
  split
  · next e => rw [e]; exact m.word_putWord_self w _ hl h
  · next e => exact m.word_putWord_ne _ hl e

/-! ## The Stack and the SRAM (R76 to R78) -/

theorem State.putStackWord_wf {s : State} (w : Nat) (d : Bytes) (h : s.fabric.stack.store.wf = true) :
    (s.putStackWord w d).fabric.stack.store.wf = true := Store.writeWord_wf _ _ h

theorem State.readStackWord_wf {s : State} (w : Nat) (h : s.fabric.stack.store.wf = true) :
    (s.readStackWord w).2.fabric.stack.store.wf = true := by
  unfold State.readStackWord
  extract_lets m cw v
  split
  · exact h
  · show (State.modStack _ _).fabric.stack.store.wf = true
    unfold State.modStack
    simp only
    split
    · exact Store.poison_wf _ h
    · exact h
  · exact h

theorem State.writeStackWord_wf {s : State} (w : Nat) (d : Bytes) (mask : List Bool) (h : s.fabric.stack.store.wf = true) :
    (s.writeStackWord w d mask).1.fabric.stack.store.wf = true := by
  unfold State.writeStackWord
  split
  · exact State.putStackWord_wf _ _ h
  · extract_lets r
    split
    · exact State.readStackWord_wf _ h
    · exact State.putStackWord_wf _ _ (State.readStackWord_wf _ h)

theorem State.writeStackWords_wf {s : State} (d : Bytes) (mask : List Bool) (i : Nat) (l : List Nat)
    (h : s.fabric.stack.store.wf = true) : (s.writeStackWords d mask i l).1.fabric.stack.store.wf = true := by
  induction l generalizing s i with
  | nil => exact h
  | cons w l ih => exact ih _ (State.writeStackWord_wf _ _ _ h)

theorem State.readStackWords_wf {s : State} (l : List Nat) (h : s.fabric.stack.store.wf = true) :
    (s.readStackWords l).2.fabric.stack.store.wf = true := by
  induction l generalizing s with
  | nil => exact h
  | cons w l ih => exact ih (State.readStackWord_wf _ h)

/-- Storage at reset is canonical. -/
theorem reset_store_wf : State.reset.fabric.stack.store.wf = true := rfl

end Sys2Proof.Machine
end

