-- ==== Sys2Proof/Laws/Notices.lean ====
section
/-! SUPPORT. What telling the desk of happenings can do: it writes entries into event queues, and leaves the jobs and every
other queue alone (R99, R100, R493, R539). -/
namespace Sys2Proof.Machine

@[simp] theorem Circ.queue_setQueue_self (c : Circ) (q : Nat) (x : Queue) : (c.setQueue q x).queue q = x := by
  simp [Circ.setQueue, Circ.queue, amGetD]

theorem Circ.queue_setQueue_ne (c : Circ) {q r : Nat} (x : Queue) (h : r ≠ q) : (c.setQueue q x).queue r = c.queue r := by
  simp [Circ.setQueue, Circ.queue, amGetD, amGet_amSet_ne _ _ h]

/-- What notices can do to Circulation: other contexts for event queues, and more output. -/
def Told (d e : Desk) : Prop :=
  (∃ qs, e.circ = { d.circ with queues := qs }) ∧ (∀ q, (d.circ.queue q).kind ≠ .event → e.circ.queue q = d.circ.queue q) ∧
    ∃ l, e.out = d.out ++ l

theorem Told.refl (d : Desk) : Told d d := ⟨⟨_, rfl⟩, fun _ _ => rfl, [], (List.append_nil _).symm⟩

theorem Told.trans {d e f : Desk} (h : Told d e) (g : Told e f) : Told d f := by
  obtain ⟨⟨a, ha⟩, hq, l, hl⟩ := h
  obtain ⟨⟨b, hb⟩, gq, m, hm⟩ := g
  refine ⟨⟨b, by rw [hb, ha]⟩, fun q hk => ?_, l ++ m, by rw [hm, hl, List.append_assoc]⟩
  have := hq q hk
  rw [gq q (by rw [this]; exact hk), this]

theorem told_of_circ {d e : Desk} (h : e.circ = d.circ) (ho : e.out = d.out) : Told d e :=
  ⟨⟨_, h⟩, fun _ _ => by rw [h], [], by rw [ho, List.append_nil]⟩

theorem told_setQueue {d e : Desk} (q : Nat) (x : Queue) (h : e.circ = d.circ.setQueue q x) (hk : (d.circ.queue q).kind = .event)
    (ho : ∃ l, e.out = d.out ++ l) : Told d e := by
  refine ⟨⟨_, h⟩, fun r hr => ?_, ho⟩
  rw [h]
  refine Circ.queue_setQueue_ne _ _ fun e => hr ?_
  rw [e, hk]

theorem raiseSource_told (now n : Nat) (d : Desk) : Told d (raiseSource now n d).1 := by
  unfold raiseSource
  split
  · exact Told.refl _
  · extract_lets x fresh y again
    split
    · exact told_of_circ rfl rfl
    · split <;> exact told_of_circ rfl rfl

theorem recordError_told (now : Nat) (r : Report) (d : Desk) : Told d (recordError now r d).1 := by
  unfold recordError
  extract_lets
  split
  · exact told_of_circ rfl rfl
  · split <;> exact told_of_circ rfl rfl

theorem postEvent_told (now q : Nat) (e : EventIn) (d : Desk) : Told d (postEvent now q e d).1 := by
  unfold postEvent
  extract_lets o q x l r
  split
  · exact Told.refl _
  · next hk =>
    have hk : (d.circ.queue q).kind = .event := Decidable.not_not.1 hk
    split
    · exact told_setQueue _ _ rfl hk ⟨[], (List.append_nil _).symm⟩
    · exact told_setQueue _ _ rfl hk ⟨[], (List.append_nil _).symm⟩
    · exact told_setQueue _ _ rfl hk ⟨[], (List.append_nil _).symm⟩
    · split
      · exact told_setQueue _ _ rfl hk ⟨_, rfl⟩
      · exact told_setQueue _ _ rfl hk ⟨_, List.append_assoc _ _ _⟩

theorem notify_told (now k : Nat) (l : List Notice) (d : Desk) : Told d (notify now k l d) := by
  induction k generalizing l d with
  | zero => exact Told.refl _
  | succ k ih =>
    cases l with
    | nil => exact Told.refl _
    | cons n l =>
      refine Told.trans ?_ (ih _ _)
      cases n with
      | raise n => exact raiseSource_told _ _ _
      | event q e => exact postEvent_told _ _ _ _
      | errata r => exact recordError_told _ _ _

theorem State.tell_told (s : State) (l : List Notice) : Told s.desk (s.tell l).desk := notify_told _ _ _ _

/-- Telling the desk leaves the jobs alone. -/
@[simp] theorem State.tell_jobs (s : State) (l : List Notice) : (s.tell l).desk.circ.jobs = s.desk.circ.jobs := by
  obtain ⟨⟨qs, h⟩, _⟩ := s.tell_told l
  rw [h]

@[simp] theorem State.tell_job (s : State) (l : List Notice) (n : Nat) : (s.tell l).job n = s.job n := by
  simp only [State.job, Circ.job, State.tell_jobs]

/-- Telling the desk leaves every queue that is no event queue alone. -/
theorem State.tell_queue (s : State) (l : List Notice) {q : Nat} (h : (s.desk.circ.queue q).kind ≠ .event) :
    (s.tell l).desk.circ.queue q = s.desk.circ.queue q := (s.tell_told l).2.1 q h

/-- What has left the device stays. -/
theorem State.mem_tell_out (s : State) (l : List Notice) {o : Output} (h : o ∈ s.desk.out) : o ∈ (s.tell l).desk.out := by
  obtain ⟨_, _, m, hm⟩ := s.tell_told l
  rw [hm]
  exact List.mem_append_left _ h

end Sys2Proof.Machine
end

