-- ==== Sys2Proof/Laws/Orderly.lean ====
section
/-! SUPPORT. What each command does to the queue and to the held accesses; the commands that are not here keep both by the lemmas
of the Keep files, through `Keeps.orderly` and `Trails.orderly`. -/
namespace Sys2Proof.Machine

/-- An answer that takes no command from the queue, adds none, and keeps the held accesses in order. -/
def Orderly (s : State) : Answer → Prop
  | .next t => t.pending = s.pending ∧ (s.HeldInOrder → t.HeldInOrder)
  | .fault _ => True
  | .refused _ => True

theorem Follows.orderly {s t : State} (h : Follows s.keep t.keep) : t.pending = s.pending ∧ (s.HeldInOrder → t.HeldInOrder) := by
  refine ⟨h.1, fun hs => ?_⟩
  rcases h.2 with e | e
  · have eh : t.heldAccess = s.heldAccess := congrArg Prod.fst e
    have es : (t.power.sleep == SleepState.awake) = (s.power.sleep == SleepState.awake) := congrArg Prod.snd e
    refine ⟨fun ht => ?_, by rw [eh]; exact hs.2⟩
    rw [eh]
    apply hs.1
    rw [ht] at es
    simpa using es.symm
  · have eh : t.heldAccess = [] := congrArg Prod.fst e
    exact ⟨fun _ => eh, by rw [eh]; rfl⟩

theorem Keeps.orderly {s : State} {a : Answer} (h : Keeps s a) : Orderly s a := by
  cases a with
  | next t => exact Follows.orderly (h ▸ Follows.refl _)
  | fault _ => trivial
  | refused _ => trivial

theorem Trails.orderly {s : State} {a : Answer} (h : Trails s a) : Orderly s a := by
  cases a with
  | next t => exact Follows.orderly h
  | fault _ => trivial
  | refused _ => trivial

/-- What a PCIe access can do: nothing, its own effect on an awake device, or a wake with the access held (R516). -/
theorem pcieAccess_orderly (s : State) (c : Instr) (k : State → State) (hc : c.isPcieAccess = true)
    (hk : Follows s.keep (k s).keep) : Orderly s (.next (s.pcieAccess c k)) := by
  show (s.pcieAccess c k).pending = s.pending ∧ (s.HeldInOrder → (s.pcieAccess c k).HeldInOrder)
  unfold State.pcieAccess
  split
  · exact ⟨rfl, id⟩
  · split
    · exact hk.orderly
    · next h =>
      have e := State.startWake_keep s 0 0
      have ep : (s.startWake 0 0).pending = s.pending := congrArg Prod.fst e
      have es : ((s.startWake 0 0).power.sleep == SleepState.awake) = (s.power.sleep == SleepState.awake) := congrArg (fun k => k.2.2) e
      refine ⟨ep, fun hs => ⟨fun ht => ?_, ?_⟩⟩
      · rw [show (s.startWake 0 0).power.sleep = SleepState.awake from ht] at es
        exact absurd (by simpa using es.symm) h
      · show (s.heldAccess ++ [c]).all Instr.isPcieAccess = true
        rw [List.all_append, hs.2]
        simp [hc]

theorem execBellRaise_orderly (word : BitVec 32) (s : State) : Orderly s (execBellRaise word s) :=
  pcieAccess_orderly _ _ _ rfl (by rw [State.raiseWord_keep]; exact Follows.refl _)
theorem execBellStormedClear_orderly (firmware : Bool) (word : Nat) (value : BitVec 32) (s : State) :
    Orderly s (execBellStormedClear firmware word value s) := by
  unfold execBellStormedClear
  split
  · exact (Keeps.orderly ((keeps_next _ _).2 (State.clearStormed_keep _ _ _ _)))
  · exact pcieAccess_orderly _ _ _ rfl (by rw [State.clearStormed_keep]; exact Follows.refl _)

theorem execMsixUnmask_orderly (vector : Nat) (s : State) : Orderly s (execMsixUnmask vector s) :=
  pcieAccess_orderly _ _ _ rfl (by rw [State.unmaskVector_keep]; exact Follows.refl _)

theorem execBellSourceRecordWrite_orderly (source word : Nat) (value : BitVec 32) (s : State) : Orderly s (execBellSourceRecordWrite source word value s) :=
  pcieAccess_orderly _ _ _ rfl (by rw [State.writeSource_keep]; exact Follows.refl _)

theorem execDoorbellWrite_orderly (offset : Nat) (data : Bytes) (s : State) : Orderly s (execDoorbellWrite offset data s) :=
  pcieAccess_orderly _ _ _ rfl (by rw [State.doorbells_keep]; exact Follows.refl _)

theorem execCircFixedGo_orderly (value : BitVec 32) (s : State) : Orderly s (execCircFixedGo value s) :=
  pcieAccess_orderly _ _ _ rfl (by rw [State.writeGo_keep]; exact Follows.refl _)

theorem execCircFixedReset_orderly (value : BitVec 32) (s : State) : Orderly s (execCircFixedReset value s) :=
  pcieAccess_orderly _ _ _ rfl (by rw [State.writeFixedReset_keep]; exact Follows.refl _)

theorem execRegisterLowHalfRead_orderly (offset width : Nat) (s : State) : Orderly s (execRegisterLowHalfRead offset width s) :=
  pcieAccess_orderly _ _ _ rfl (by rw [State.answerRead_keep]; exact Follows.refl _)

theorem execStampSecondsRead_orderly (s : State) : Orderly s (execStampSecondsRead s) :=
  pcieAccess_orderly _ _ _ rfl (by rw [State.answerRead_keep]; exact Follows.refl _)

theorem execBootGo_orderly (value : BitVec 32) (s : State) : Orderly s (execBootGo value s) :=
  pcieAccess_orderly _ _ _ rfl (by rw [State.writeBootGo_keep]; exact Follows.refl _)

theorem execDeviceReset_orderly (value : BitVec 32) (s : State) : Orderly s (execDeviceReset value s) :=
  pcieAccess_orderly _ _ _ rfl (State.writeKey_follows _ _ _ (Follows.refl _))

theorem execRegisterWrite_orderly (offset width : Nat) (value : BitVec 64) (whole : Bool) (s : State) :
    Orderly s (execRegisterWrite offset width value whole s) :=
  pcieAccess_orderly _ _ _ rfl (State.writeRegister_follows _ _ _ _ _ _ (Follows.refl _))

/-- The commands that wait and the accesses held. -/
def State.queues (s : State) : List Instr × List Instr := (s.pending, s.heldAccess)

theorem queues_of_keep {s t : State} (h : t.keep = s.keep) : t.queues = s.queues := by
  have h1 : t.pending = s.pending := congrArg Prod.fst h
  have h2 : t.heldAccess = s.heldAccess := congrArg (fun k => k.2.1) h
  unfold State.queues
  rw [h1, h2]

/-- A command of a job that keeps everything, or leaves the device not awake with both queues as they were. -/
theorem begin_orderly (s : State) (n op : Nat) (f : Job → State → State)
    (hf : ∀ j s, (f j s).keep = s.keep ∨ (f j s).queues = s.queues ∧ (f j s).power.sleep ≠ .awake) :
    Orderly s (.next (s.begin n op f)) := by
  have h : (s.begin n op f).keep = s.keep ∨ (s.begin n op f).queues = s.queues ∧ (s.begin n op f).power.sleep ≠ .awake := by
    unfold State.begin
    split
    · exact .inl rfl
    · split
      · exact .inl rfl
      · split
        · exact .inl rfl
        · split
          · exact .inl rfl
          · exact hf _ _
  rcases h with h | ⟨h, hn⟩
  · exact Keeps.orderly h
  · have h2 : (s.begin n op f).heldAccess = s.heldAccess := congrArg Prod.snd h
    exact ⟨congrArg Prod.fst h, fun hs => ⟨fun ht => absurd ht hn, by rw [h2]; exact hs.2⟩⟩

/-- What a SLEEP can do: end refused, or send the device to sleep with both queues as they were (R514, R515). -/
theorem execSleep_orderly (job : Nat) (locked : Bool) (s : State) : Orderly s (execSleep job locked s) := by
  refine begin_orderly _ _ _ _ fun j s => ?_
  split
  · exact .inl (State.finish_keep _ _ _)
  · split
    · exact .inl (State.finish_keep _ _ _)
    · have h (t : State) : t.clocksOff.queues = t.queues ∧ t.clocksOff.power.sleep ≠ .awake :=
        ⟨rfl, fun h => SleepState.noConfusion h⟩
      refine .inr ⟨(h _).1.trans (queues_of_keep ?_), (h _).2⟩
      rw [State.signal_keep, State.complete_keep, State.finish_keep, State.modPower_keep _ _ rfl, State.holdTime_keep,
        State.parkLinks_keep, State.carrelsOff_keep]

end Sys2Proof.Machine
end

