-- ==== Sys2Proof/WellFormed.lean ====
section
/-! DEFINITION. Which commands are well formed: the numbers a command names lie where the device has such objects. -/
namespace Sys2Proof

/-- A command names objects that the device has. -/
def Instr.wellFormed : Instr → Bool
  -- a carrel of the 256 (R21)
  | .carrelWake c => decide (c < 256)
  | .stageLoad c _ _ _ => decide (c < 256)
  | .stageLoadEnd c _ => decide (c < 256)
  | .inputToken c _ _ => decide (c < 256)
  | .handoverData c _ _ => decide (c < 256)
  | .stepEnd c _ _ _ => decide (c < 256)
  | .creditReturn (.carrel c _) _ => decide (c < 256)
  | .creditReturn (.input h _ _) _ => decide (h < 65536)
  | .stageUnbind c => decide (c < 256)
  | .carrelGate c => decide (c < 256)
  | .carrelFault c _ _ _ => decide (c < 256)
  | .carrelRelease c _ => decide (c < 256)
  | .carrelRetire c => decide (c < 256)
  -- a circulation queue (R80)
  | .queueDrainEnd q => decide (q < 1048576)
  | .returnStallRelease q => decide (q < 1048576)
  | .returnStalledTimer q => decide (q < 1048576)
  | .eventsLost q => decide (q < 1048576)
  | .coalesceTimeout q => decide (q < 1048576)
  | .txEntryFetch q _ _ => decide (q < 1048576)
  -- a Bell source (R494)
  | .raiseMessage x => decide (x < 4096)
  | .stormWindowEnd x => decide (x < 4096)
  | .stormHoldExpiry x => decide (x < 4096)
  | .complete c x => decide (c < 8) && decide (x < 4096)
  | .inServiceTimeout c x => decide (c < 8) && decide (x < 4096)
  -- a librarian core (R500)
  | .claim c => decide (c < 8)
  | .thresholdWrite c _ => decide (c < 8)
  | .thresholdExit c _ => decide (c < 8)
  | .coreWake c => decide (c < 8)
  | .watchdogExpiry c => decide (c < 8)
  -- a vector (R494)
  | .msixUnmask v => decide (v < 2048)
  -- a local logical port (R440)
  | .portTrainingEnd p _ => decide (p < 16)
  | .portTrainRetry p => decide (p < 16)
  | .portSignalLoss p => decide (p < 16)
  | .ethFrameReceive p _ _ _ _ => decide (p < 16)
  | .videoPacket p => decide (p < 16)
  | .samplePacket p => decide (p < 16)
  | .pointPacket p => decide (p < 16)
  | .queryPart p => decide (p < 16)
  | .ptpMessage p _ _ _ => decide (p < 16)
  | .ptpSend p _ _ => decide (p < 16)
  -- a Jalzel port (R455)
  | .jalzelSignal p => decide (p < 7)
  | .jalzelTrainingEnd p _ => decide (p < 7)
  | .jalzelTrainRetry p => decide (p < 7)
  | .jalzelLoss p => decide (p < 7)
  | .jalzelFrame p _ => decide (p < 7)
  | .replayRequest p _ => decide (p < 7)
  | .replayRequestTimeout p => decide (p < 7)
  | .readReq p => decide (p < 7)
  | .readData p => decide (p < 7)
  | .write p _ => decide (p < 7)
  | .writeAck p => decide (p < 7)
  | .token p => decide (p < 7)
  | .queuePost p => decide (p < 7)
  | .bell p => decide (p < 7)
  | .bulk p => decide (p < 7)
  | .control p => decide (p < 7)
  | .parkedLinkRetrain p => decide (p < 7)
  -- a flash engine (R403)
  | .nandReadEnd e _ _ _ _ _ => decide (e < 64)
  | .nandProgramEnd e _ _ => decide (e < 64)
  | .nandEraseEnd e _ _ => decide (e < 64)
  -- a quadrant (R21)
  | .quadrantClockStop q => decide (q < 4)
  | .quadrantClockStart q => decide (q < 4)
  | .operatingPointChange q _ => decide (q < 4)
  -- a member of the room (R462)
  | .inkingAck m _ _ => decide (m < 8)
  | .shelvingEnd _ m => decide (m < 8)
  | .searchRequest m _ _ => decide (m < 8)
  | .searchMemberResult _ m _ => decide (m < 8)
  | .remoteMatchRequest m _ _ _ _ _ _ _ _ => decide (m < 8)
  | .remoteMatchAnswer _ m _ _ _ => decide (m < 8)
  -- a context index (R290)
  | .queryAssemblyTimeout i => decide (i < 65536)
  | .queryServe i _ _ => decide (i < 65536)
  | .smallSolveEnd i => decide (i < 65536)
  | .bestEffortTimeout i => decide (i < 65536)
  | .sessionExpired i => decide (i < 65536)
  -- an image handle (R153)
  | .partialImageTimeout h => decide (h < 65536)
  -- a stream (R181)
  | .frameMarkerGrace n => decide (n < 65536)
  | .framePeriodTimeout n => decide (n < 65536)
  | .pointSetTimeout n => decide (n < 65536)
  | .frameBufferRelease n _ => decide (n < 65536)
  | .streamSilent n => decide (n < 65536)
  | .frameStageEnd n _ _ _ _ _ _ _ => decide (n < 65536)
  | .frameEnd n _ => decide (n < 65536)
  | .pairWaitTimeout n _ => decide (n < 65536)
  -- a word of BELL_STORMED (R583)
  | .bellStormedClear _ w _ => decide (w < 128)
  -- a core or a vector (R506)
  | .stormLimitAdapt core n => decide (n < if core then 8 else 2048)
  -- a word of a host source's record (R584)
  | .bellSourceRecordWrite x w _ => decide (1024 ≤ x) && decide (x < 4096) && decide (w < 4)
  -- a doorbell of the window (R87)
  | .doorbellWrite o _ => decide (o < 8 * 1048576)
  -- a read of the Stack (R140)
  | .stackReadRequest _ _ u _ => decide (1 ≤ u)
  -- a LUN of a flash engine (R433)
  | .nandBusyTimeout e ce lun => decide (e < 64) && decide (ce < 8) && decide (lun < 8)
  -- a phase of a large solve (R377)
  | .solveDeadline _ p => decide (p < 4)
  -- an input and an output of the time services (R485, R486)
  | .captureEdge i _ _ _ => decide (i < 9)
  | .pulseEdge o => decide (o < 8)
  -- a class of error (R537)
  | .errataRecord c u i _ _ _ _ _ _ => decide (c < 5) && decide (u < 65536) && decide (i < 65536)
  -- a PLL (R512)
  | .pllLock p => decide (p < 6)
  -- the eight sensors (R521)
  | .thermalSensorRead t => decide (t.length = 8)
  -- a rail (R598)
  | .railFault r => decide (r < 9)
  -- an access of the setup window; a read also of the doorbell window behind it (R575, R587)
  | .registerWrite o w _ _ => decide (o < 16777216) && (decide (w = 32) || decide (w = 64))
  | .registerLowHalfRead o w => decide (o < 25165824) && (decide (w = 32) || decide (w = 64))
  -- a wake source (R516)
  | .wakeEvent x _ => decide (x < 7)
  -- the straps (R602)
  | .powerOnReset straps => straps.all (fun x => decide (x.bootMode < 4) && decide (x.position < 8))
  -- data poisoned in a unit (R546)
  | .unitFatalError u i _ _ _ _ _ => decide (u < 65536) && decide (i < 65536)
  | .deviceFatalError u i _ _ _ _ => decide (u < 65536) && decide (i < 65536)
  | .unitRecovered u i _ _ _ => decide (u < 65536) && decide (i < 65536)
  | .unitResetRetry u i _ _ => decide (u < 65536) && decide (i < 65536)
  | _ => true

end Sys2Proof
end

