-- ==== Sys2Proof/Tests/Slice0.lean ====
section
/-! SUPPORT. Tests of the model: terms that are not well formed, and for each clause of a statement that has hypotheses a
small state and operands that meet all of them. -/
namespace Sys2Proof.Tests
open Sys2Proof Sys2Proof.Machine
set_option Elab.async false
set_option linter.all false

/-! ## Commands that are not well formed -/

/-- Not a carrel of the 256 (R21). -/
theorem test_wf_carrel_of_the_256 :
    [Instr.carrelWake 256,
    Instr.stageLoad 256 0 0 0,
    Instr.stageLoadEnd 256 false,
    Instr.inputToken 256 0 none,
    Instr.handoverData 256 0 none,
    Instr.stepEnd 256 0 [] [],
    Instr.creditReturn (.carrel 256 0) 0,
    Instr.creditReturn (.input 65536 0 0) 0,
    Instr.stageUnbind 256,
    Instr.carrelGate 256,
    Instr.carrelFault 256 0 none [],
    Instr.carrelRelease 256 false,
    Instr.carrelRetire 256].all (fun c => !c.wellFormed) = true := by decide

/-- Not a circulation queue (R80). -/
theorem test_wf_circulation_queue :
    [Instr.queueDrainEnd 1048576,
    Instr.returnStallRelease 1048576,
    Instr.returnStalledTimer 1048576,
    Instr.eventsLost 1048576,
    Instr.coalesceTimeout 1048576,
    Instr.txEntryFetch 1048576 none none].all (fun c => !c.wellFormed) = true := by decide

/-- Not a Bell source (R494). -/
theorem test_wf_bell_source :
    [Instr.raiseMessage 4096,
    Instr.stormWindowEnd 4096,
    Instr.stormHoldExpiry 4096,
    Instr.complete 8 0,
    Instr.complete 0 4096,
    Instr.inServiceTimeout 8 0,
    Instr.inServiceTimeout 0 4096].all (fun c => !c.wellFormed) = true := by decide

/-- Not a librarian core (R500). -/
theorem test_wf_librarian_core :
    [Instr.claim 8,
    Instr.thresholdWrite 8 0,
    Instr.thresholdExit 8 0,
    Instr.coreWake 8,
    Instr.watchdogExpiry 8].all (fun c => !c.wellFormed) = true := by decide

/-- Not a vector (R494). -/
theorem test_wf_vector :
    [Instr.msixUnmask 2048].all (fun c => !c.wellFormed) = true := by decide

/-- Not a local logical port (R440). -/
theorem test_wf_local_logical_port :
    [Instr.portTrainingEnd 16 false,
    Instr.portTrainRetry 16,
    Instr.portSignalLoss 16,
    Instr.ethFrameReceive 16 [] false 0 0,
    Instr.videoPacket 16,
    Instr.samplePacket 16,
    Instr.pointPacket 16,
    Instr.queryPart 16,
    Instr.ptpMessage 16 [] 0 none,
    Instr.ptpSend 16 0 0].all (fun c => !c.wellFormed) = true := by decide

/-- Not a Jalzel port (R455). -/
theorem test_wf_jalzel_port :
    [Instr.jalzelSignal 7,
    Instr.jalzelTrainingEnd 7 false,
    Instr.jalzelTrainRetry 7,
    Instr.jalzelLoss 7,
    Instr.jalzelFrame 7 [],
    Instr.replayRequest 7 0,
    Instr.replayRequestTimeout 7,
    Instr.readReq 7,
    Instr.readData 7,
    Instr.write 7 false,
    Instr.writeAck 7,
    Instr.token 7,
    Instr.queuePost 7,
    Instr.bell 7,
    Instr.bulk 7,
    Instr.control 7,
    Instr.parkedLinkRetrain 7].all (fun c => !c.wellFormed) = true := by decide

/-- Not a flash engine (R403). -/
theorem test_wf_flash_engine :
    [Instr.nandReadEnd 64 0 0 0 [] false,
    Instr.nandProgramEnd 64 0 false,
    Instr.nandEraseEnd 64 0 false].all (fun c => !c.wellFormed) = true := by decide

/-- Not a quadrant (R21). -/
theorem test_wf_quadrant :
    [Instr.quadrantClockStop 4,
    Instr.quadrantClockStart 4,
    Instr.operatingPointChange 4 0].all (fun c => !c.wellFormed) = true := by decide

/-- Not a member of the room (R462). -/
theorem test_wf_member_of_the_room :
    [Instr.inkingAck 8 [] [],
    Instr.shelvingEnd 0 8,
    Instr.searchRequest 8 0 none,
    Instr.searchMemberResult 0 8 none,
    Instr.remoteMatchRequest 8 0 0 0 [] [] [] [] [],
    Instr.remoteMatchAnswer 0 8 0 [] []].all (fun c => !c.wellFormed) = true := by decide

/-- Not a context index (R290). -/
theorem test_wf_context_index :
    [Instr.queryAssemblyTimeout 65536,
    Instr.queryServe 65536 [] [],
    Instr.smallSolveEnd 65536,
    Instr.bestEffortTimeout 65536,
    Instr.sessionExpired 65536].all (fun c => !c.wellFormed) = true := by decide

/-- Not an image handle (R153). -/
theorem test_wf_image_handle :
    [Instr.partialImageTimeout 65536].all (fun c => !c.wellFormed) = true := by decide

/-- Not a stream (R181). -/
theorem test_wf_stream :
    [Instr.frameMarkerGrace 65536,
    Instr.framePeriodTimeout 65536,
    Instr.pointSetTimeout 65536,
    Instr.frameBufferRelease 65536 0,
    Instr.streamSilent 65536,
    Instr.frameStageEnd 65536 0 none [] [] [] [] false,
    Instr.frameEnd 65536 0,
    Instr.pairWaitTimeout 65536 0].all (fun c => !c.wellFormed) = true := by decide

/-- Not a word of BELL_STORMED (R583). -/
theorem test_wf_word_of_bell_stormed :
    [Instr.bellStormedClear false 128 0].all (fun c => !c.wellFormed) = true := by decide

/-- Not a core or a vector (R506). -/
theorem test_wf_core_or_a_vector :
    [Instr.stormLimitAdapt true 8,
    Instr.stormLimitAdapt false 2048].all (fun c => !c.wellFormed) = true := by decide

/-- Not a word of a host source's record (R584). -/
theorem test_wf_word_of_a_host_source_s_record :
    [Instr.bellSourceRecordWrite 1023 0 0,
    Instr.bellSourceRecordWrite 4096 0 0,
    Instr.bellSourceRecordWrite 1024 4 0].all (fun c => !c.wellFormed) = true := by decide

/-- Not a doorbell of the window (R87). -/
theorem test_wf_doorbell_of_the_window :
    [Instr.doorbellWrite 8388608 []].all (fun c => !c.wellFormed) = true := by decide

/-- Not a read of the Stack (R140). -/
theorem test_wf_read_of_the_stack :
    [Instr.stackReadRequest 0 0 0 none].all (fun c => !c.wellFormed) = true := by decide

/-- Not a LUN of a flash engine (R433). -/
theorem test_wf_lun_of_a_flash_engine :
    [Instr.nandBusyTimeout 64 0 0,
    Instr.nandBusyTimeout 0 8 0,
    Instr.nandBusyTimeout 0 0 8].all (fun c => !c.wellFormed) = true := by decide

/-- Not a phase of a large solve (R377). -/
theorem test_wf_phase_of_a_large_solve :
    [Instr.solveDeadline (.job 0) 4].all (fun c => !c.wellFormed) = true := by decide

/-- Not an input and an output of the time services (R485, R486). -/
theorem test_wf_input_and_an_output_of_the_time_services :
    [Instr.captureEdge 9 false 0 0,
    Instr.pulseEdge 8].all (fun c => !c.wellFormed) = true := by decide

/-- Not a class of error (R537). -/
theorem test_wf_class_of_error :
    [Instr.errataRecord 5 0 0 0 0 0 0 0 0,
    Instr.errataRecord 0 65536 0 0 0 0 0 0 0,
    Instr.errataRecord 0 0 65536 0 0 0 0 0 0].all (fun c => !c.wellFormed) = true := by decide

/-- Not a PLL (R512). -/
theorem test_wf_pll :
    [Instr.pllLock 6].all (fun c => !c.wellFormed) = true := by decide

/-- Not the eight sensors (R521). -/
theorem test_wf_eight_sensors :
    [Instr.thermalSensorRead []].all (fun c => !c.wellFormed) = true := by decide

/-- Not a rail (R598). -/
theorem test_wf_rail :
    [Instr.railFault 9].all (fun c => !c.wellFormed) = true := by decide

/-- Not an access of the setup window; a read also of the doorbell window behind it (R575, R587). -/
theorem test_wf_access_of_the_setup_window_a_read_also_of_the_doorbell_window_behind_it :
    [Instr.registerWrite 16777216 32 0 true,
    Instr.registerWrite 0 16 0 true,
    Instr.registerLowHalfRead 25165824 32,
    Instr.registerLowHalfRead 0 16].all (fun c => !c.wellFormed) = true := by decide

/-- Not a wake source (R516). -/
theorem test_wf_wake_source :
    [Instr.wakeEvent 7 0].all (fun c => !c.wellFormed) = true := by decide

/-- Not the straps (R602). -/
theorem test_wf_straps :
    [Instr.powerOnReset (some ⟨4, 0, false⟩),
    Instr.powerOnReset (some ⟨0, 8, false⟩)].all (fun c => !c.wellFormed) = true := by decide

/-- Not data poisoned in a unit (R546). -/
theorem test_wf_data_poisoned_in_a_unit :
    [Instr.unitFatalError 65536 0 0 0 0 0 ⟨[], [], [], [], [], []⟩,
    Instr.unitFatalError 0 65536 0 0 0 0 ⟨[], [], [], [], [], []⟩,
    Instr.deviceFatalError 65536 0 0 0 0 0,
    Instr.deviceFatalError 0 65536 0 0 0 0,
    Instr.unitRecovered 65536 0 false 0 [],
    Instr.unitRecovered 0 65536 false 0 [],
    Instr.unitResetRetry 65536 0 false 0,
    Instr.unitResetRetry 0 65536 false 0].all (fun c => !c.wellFormed) = true := by decide

/-! ## Small states -/

/-- A call slip of an opcode with some fields (offset, size, value). -/
def slip (op : Nat) (fs : List (Nat × Nat × Nat)) : Slip := pack 512 ((0, 2, op) :: fs)

/-- The job of a call slip read from slot 0 of queue 0. -/
def jobOf (x : Slip) : Job := { num := 0, sq := 0, slot := 0, gen := 1, slip := x }

/-- A state with one job in flight, that of a call slip, and no other. -/
def withSlip (x : Slip) (s : State) : State := s.modCirc (fun c => { c with jobs := [jobOf x] })

/-- The state at reset with one job in flight. -/
def atJob (x : Slip) : State := withSlip x State.reset

/-- A state with a context for a queue. -/
def qs (q : Nat) (x : Queue) (s : State := State.reset) : State := s.withQueue q x

/-- An active event queue of 16 slots without a vector. -/
def evq : Queue := { state := .active, kind := .event, log2 := 4, vector := 0xFFFF }

/-- A state with a Bell source. -/
def srcs (n : Nat) (x : BellSource) (s : State := State.reset) : State := s.withSource n x

/-- A state whose setup window is open. -/
def opened (s : State := State.reset) : State := { s with boot := { s.boot with window := true } }

/-- A state one second after record time 0. -/
def later (s : State := State.reset) : State := { s with stamp := { s.stamp with seconds := 1 } }

/-- A state with the first Bell core as given. -/
def core0 (c : BellCore) (s : State := State.reset) : State := s.modBell (fun b => b.modCore 0 (fun _ => c))

/-- A state with Bell core 0 asleep and MSI-X vector 5 as given, its source pending. -/
def atVector (e : MsixEntry) (awake : Bool) : State :=
  opened ((srcs 2053 { defaultSource 2053 with pending := true }).modBell (fun b => { b.setVector 5 e with vectorsAwake := awake }))

/-- A state with a carrel. -/
def car (c : Nat) (x : Carrel) (s : State := State.reset) : State := s.setCarrel c x

/-- A state with an image. -/
def imgs (h : Nat) (x : Image) (s : State := State.reset) : State := s.setImage h x

/-- A loaded image of one byte-less stage. -/
def anImage : Image := { state := .loaded, serving := true, budget := 1, sq := 0, content := [], received := 0 }

/-- A stage slot of image 1. -/
def aBound : Bound := { handle := 1, stage := 0, slot := 0, serving := true }

/-- A state whose first quadrant has its clock. -/
def clocked (s : State := State.reset) : State := s.modQuadrant 0 (fun x => { x with clockOn := true })

/-- A descriptor of a video stream of 16 by 16 monochrome pixels at 30 Hz, of a sample stream of one channel, of a point stream. -/
def videoDesc : Bytes := packB 64 [(1, 1, 255), (2, 2, 5000), (32, 4, 30000), (36, 1, 96), (37, 1, 1), (38, 1, 8), (40, 2, 16), (42, 2, 16),
  (44, 1, 2), (52, 4, 2)]
def sampleDesc : Bytes := packB 64 [(0, 1, 1), (1, 1, 255), (2, 2, 5000), (32, 4, 1600), (45, 1, 1), (48, 4, 10), (52, 4, 2)]
def pointDesc : Bytes := packB 64 [(0, 1, 2), (1, 1, 255), (2, 2, 5000), (32, 4, 30000), (44, 1, 2), (48, 4, 16), (52, 4, 2)]

/-- A stream as OPEN_STREAM leaves it, its buffers in vault 0. -/
def aStream (d : Bytes) : Stream := { State.reset.freshStream (streamDescOf d) with vault := 0, bandVault := 0 }

/-- A state with a stream. -/
def strm (k : Nat) (x : Stream) (s : State := State.reset) : State := s.setStream k x

/-- Addresses and ports of a packet for UDP port 5000. -/
def route : Reply :=
  { srcMac := 1, dstMac := 2, vlan := 0, ip := 4, srcAddr := 0xFFFF0A000001, dstAddr := 0xFFFF0A000002, srcPort := 9, dstPort := 5000 }

/-- A packet that waits for a station at port 0. -/
def arrived (data : Bytes) : Arrival := { time := 0, port := 0, frame := udpFrame route data }

/-- A state with a frame that waits for a station at port 0. -/
def atStation (a : Arrival) (s : State) : State := s.modPort 0 (fun x => { x with stations := [a] })

/-- An RTP packet of line 0, its timestamp and sequence number as given. -/
def rtpPacket (seq time : Nat) : Bytes :=
  [0x80, 96] ++ be 2 seq ++ be 4 time ++ be 4 7 ++ be 2 0 ++ be 2 16 ++ be 2 0 ++ be 2 0 ++ List.replicate 16 9

/-- An open frame with a timestamp. -/
def aFrame (time : Nat) : Frame :=
  { buffer := some 0, number := 0, rtp := time, ssrc := 7, arrival := 0, capture := 0, implausible := false, sourceChanged := false, seqs := [1] }

/-- An open point set of two parts. -/
def aSet : PointSet :=
  { buffer := some 0, number := 0, set := 5, parts := 2, sourceId := 0, arrival := 0, capture := 0, implausible := false }

/-- A state with a graph of stream 3. -/
def grph (g : Graph) (s : State := State.reset) : State := s.setGraph 3 g

/-- A call slip of a DEFINE_GRAPH of stream 3 that makes features. -/
def graphSlip : Slip := slip 0x0701 [(32, 2, 3), (34, 2, 0xFFFF), (36, 1, 1), (37, 1, 4), (39, 1, 1), (40, 2, 0xF002), (44, 2, 1), (46, 2, 1), (48, 4, 1),
  (54, 2, 1), (56, 4, 2)]

/-- A state with the Concordance unit as given. -/
def conc (c : Concord) (s : State := State.reset) : State := s.modConcord (fun _ => c)

/-- A grid descriptor; fp32 one is 0x3F800000, fp64 one 0x3FF0000000000000. -/
def gridBytes : Bytes := packB 64 [(12, 4, 1000), (16, 2, 50), (18, 2, 50), (24, 2, 0xF003), (26, 2, 2550), (28, 4, 0x3F800000), (32, 2, 1),
  (34, 2, 1), (40, 4, 2)]

/-- A binding descriptor of point stream 9. -/
def bindBytes : Bytes := packB 896 [(0, 2, 9), (2, 1, 1), (3, 1, 8), (8, 4, 0x3F800000), (40, 8, 0x3FF0000000000000)]

/-- The binding that it describes, encoding apart. -/
def aBinding : Binding := { bindingOf bindBytes with encoding := [], scale := [], homography := [] }

/-- A closed epoch. -/
def anEpoch : Epoch := { number := 3, instant := 150000000, closeTime := 200000000 }

/-- A session descriptor of a flow-bound session. -/
def sessionBytes : Bytes := packB 256 [(3, 1, 1), (4, 1, 255), (6, 2, 5000), (12, 4, 2), (16, 4, 100), (20, 2, 1), (22, 1, 1), (23, 1, 1),
  (24, 2, 6), (26, 2, 1), (28, 4, 86400), (40, 4, 0x3F800000), (44, 4, 0x3F800000), (48, 4, 0x3F800000), (54, 2, 1),
  (88, 8, 0x3FF0000000000000), (122, 2, 16), (124, 2, 16), (192, 1, 1)]

/-- An open session. -/
def aSession : Session := { desc := sessionDescOf sessionBytes [], bucket := 0 }

/-- A state with session 5. -/
def sess (x : Session) (s : State := State.reset) : State := { s with sessions := { s.sessions with open_ := [(5, x)] } }

/-- A query that is closed. -/
def aQuery : Query :=
  { seq := 1, parts := 1, capture := 5, kind := 0, flags := 0, width := 0, height := 0, lastAt := 0, answer := .packet 0 route, source := 1 }

/-- A state with a query part that waits at port 0. -/
def atSession (a : Arrival) (s : State) : State := s.modPort 0 (fun x => { x with sessions := [a] })

/-- A host-bound session that takes queries of ranges. -/
def hostSession : Session := { aSession with desc := { aSession.desc with host := true, kinds := 4, bindQueue := 0 } }

/-- A query of four ranges for session 5, by SUBMIT_QUERY. -/
def rangesBytes : Bytes := packB 448 ([(0, 2, 0x5A53), (2, 1, 1), (3, 1, 3), (4, 4, 5), (8, 4, 1), (14, 2, 1), (16, 8, 5), (24, 1, 2), (26, 2, 4)] ++
  [0, 1, 2, 3].flatMap (fun i => [(76 + 20 * i, 4, 0x3F800000), (80 + 20 * i, 4, 0x3F800000)]))

/-- A query part of session 5 for a first part of two, of one range, with its last 16 bytes as given. -/
def partBytes (tag : Bytes) : Bytes := packB 84 [(0, 2, 0x5A53), (2, 1, 1), (3, 1, 3), (4, 4, 5), (8, 4, 1), (14, 2, 2), (16, 8, 5), (24, 1, 2),
  (26, 2, 1)] ++ tag

/-- A filter at rest. -/
def aFilter : Filter := { p := Vec3.zero, q := Quat.one, v := Vec3.zero, w := Vec3.zero, t := 0, cov := [] }

/-- A query in service. -/
def aService (step : ServeStep) : Service :=
  { query := { aQuery with kind := 2 }, step := step, edition := 0, cut := [], fromDraft := false, base := none, predicted := some aFilter, misses := 0 }

/-- A state with the map as given. -/
def mp (m : MapSt) (s : State := State.reset) : State := s.modMap (fun _ => m)

/-- An edit without records. -/
def anEdit : Edit := { verdict := 0, depends := 0, base := 0, eventQueue := 2, writes := [], sheets := [], pencilTime := 0 }

/-- Member 1 of a room in which member 0 is present. -/
def room (s : State := State.reset) : State :=
  { s with boot := { s.boot with position := 1 }
           net := { s.net with jalzel := modAt s.net.jalzel 0 (fun x => { x with state := .up, partner := some 0 }) } }

/-- The clerk of a room in which member 1 is present. -/
def clerk (s : State := State.reset) : State :=
  { s with net := { s.net with jalzel := modAt s.net.jalzel 0 (fun x => { x with state := .up, partner := some 1 }) } }

/-- A state in which a member holds sheet 7. -/
def held7 (m : Nat) (s : State := State.reset) : State := s.modMap (fun x => { x with flash := { x.flash with sheets := [(7, m)] } })

/-- A state with the Curator as given. -/
def cur (c : Curator) (s : State := State.reset) : State := s.modCurator (fun _ => c)

/-- A host problem of one fixed pose block and one anchor residual, its defaults, and the problem read from it. -/
def solveBytes : Bytes := packB 384 ([(0, 4, 0x5A434F4C), (8, 4, 1), (12, 4, 1), (65, 1, 1), (96, 8, 0x3FF0000000000000), (128, 1, 4)] ++
  (List.range 6).map (fun i => (192 + 4 * i, 4, 0x3F800000)))
def solveSlip : Slip := slip 0x0401 [(24, 4, 384)]
def solveQ : SolveParams := { maxIterations := 50, refineMax := 4, covariance := false, residualOut := false, tau := 40, rho := 20, lambda0 := f64dec 1 4, tolCost := f64dec 1 10, tolStep := f64dec 1 9 }
def aProblem : Problem :=
  match hostProblem solveQ 384 solveBytes with
  | .ok r => r.1
  | .error _ => { cameras := [], blocks := [], residuals := [], gravity := 0 }

/-- A state with one started job and one large solve of it. -/
def solving (x : LargeSolve) (s : State := State.reset) : State :=
  (s.modCirc (fun c => { c with jobs := [{ jobOf solveSlip with started := true }] })).modCollator (fun c => { c with solves := [x] })

/-- A collection of 64 int8 elements whose codebook reads as zeros. -/
def aColl : Collection := { half := false, dim := 64, book := some [] }

/-- A state with the Catalogue as given. -/
def cat (c : Catalogue) (s : State := State.reset) : State := s.modCat (fun _ => c)

/-- A Catalogue with that collection as collection 2. -/
def aCat : Catalogue := { collections := [(2, aColl)] }

/-- A search of 4 vectors, by the one job in flight. -/
def searchSlip : Slip := slip 0x0501 [(24, 4, 384), (32, 1, 2), (33, 1, 4), (34, 2, 4)]
def aSearch : Search :=
  { owner := .job 0, params := searchParams searchSlip, vector := zeros 64, list := 128, expand := 256, waiting := [0] }
def aServed : Served := { member := 0, number := 1, snapshot := { gen := 0, addEnd := 0, deletes := 0 } }
def aResult : MemberResult :=
  { member := 0, snapshot := aServed.snapshot, hits := [], expansions := 0, deleted := 0, filtered := 0, flags := 0 }

/-- A fold whose step keeps 0 leaves 0. -/
theorem foldl_zero (f : F32 → Nat → F32) (h : ∀ e, f 0 e = 0) (l : List Nat) : l.foldl f 0 = 0 := by
  induction l with
  | nil => rfl
  | cons a l ih => rw [List.foldl_cons, h, ih]

/-- A table of zeros under a codebook of zeros is finite. -/
theorem zero_table (k : Nat) (y : Collection) (q : List F32) (hq : ∀ i, q.getD i 0 = 0) (hb : ∀ s c e, y.centroid k s c e = 0) :
    (codeTable k y q).finite = true := by
  have h : ∀ (s e : Nat) (c : Nat), f32fma (f32sub (q.getD (s * y.width + e) 0) (y.centroid k s c e))
      (f32sub (q.getD (s * y.width + e) 0) (y.centroid k s c e)) 0 = 0 := by
    intro s e c; rw [hq, hb]; decide +kernel
  simp only [CodeTable.finite, codeTable, List.all_map, List.all_eq_true, Function.comp]
  intro s _ c _
  rw [foldl_zero _ (fun e => h s e c)]; decide +kernel

/-- The elements of a vector of zeros are zeros. -/
theorem zero_elements (i : Nat) (b : Bytes) (hb : ∀ i, b.getD i 0 = 0) : (aColl.elements b).getD i 0 = 0 := by
  simp only [aColl, Collection.elements, List.getD_eq_getElem?_getD, List.getElem?_map]
  cases (List.range 64)[i]? with
  | none => rfl
  | some j =>
    have : b.getD j 0 = 0 := hb j
    simp only [List.getD_eq_getElem?_getD] at this
    simp only [Option.map_some, Option.getD_some, this]
    rw [if_neg (by decide)]; decide +kernel

/-- A vector of zeros has a finite table. -/
theorem zero_code (k : Nat) (b : Bytes) (hb : ∀ i, b.getD i 0 = 0) : (codeTable k aColl (aColl.elements b)).finite = true :=
  zero_table k aColl _ (fun i => zero_elements i b hb) (fun s c e => by simp [Collection.centroid, aColl, fldB]; rfl)

/-- The bytes of a run of zeros are zeros. -/
theorem zeros_get (n i : Nat) : (zeros n).getD i 0 = 0 := by
  simp only [zeros, List.getD_eq_getElem?_getD, List.getElem?_replicate]; split <;> rfl

/-- The bytes of a part of a run of zeros are zeros. -/
theorem zeros_part_get (n o k i : Nat) : (((zeros n).drop o).take k).getD i 0 = 0 := by
  have : ((zeros n).drop o).take k = zeros (min k (n - o)) := by simp [zeros]
  rw [this]; exact zeros_get _ _

/-- A field of a run of zeros is zero. -/
theorem zeros_fld (n o k : Nat) : fldB (zeros n) o k = 0 := by
  have h : ∀ m, unle (zeros m) = 0 := by
    intro m; induction m with
    | zero => rfl
    | succ m ih =>
      show (0 : Byte).toNat + 256 * unle (zeros m) = 0
      rw [ih]; rfl
  have : ((zeros n).drop o).take k = zeros (min k (n - o)) := by simp [zeros]
  rw [fldB, this, h]

/-- A shelf engine with one LUN of four blocks of two pages. -/
def aLun : Lun := { ce := 0, lun := 0, blocks := 4, pages := 2 }
def withLun (c : Catalogue) : Catalogue := { c with engines := { luns := [aLun] } :: List.replicate 63 {} }

/-- A state with graph 3 of a 16 by 16 stream, its one frame in flight as given. -/
def running3 (r : FrameRun) (g : Graph → Graph := id) (s : State := State.reset) : State :=
  grph (g { set := graphSetOf graphSlip, state := .running, inFlight := [r] })
    (strm 3 { aStream videoDesc with buffers := [.frame (aFrame 1000) [.graph 3 0], .free] } s)
def aRun (stage : Nat) : FrameRun := { number := 0, buffer := 0, stage := stage, restart := false, deliveredAt := 0 }
def aField : Field :=
  { number := 0, refNumber := 0, capture := 0, refCapture := 0, width := 16, height := 16, levels := 1, flags := 0, valid := 256, noTexture := 0, occluded := 0, outside := 0
    beyond := 0, motion := 512 }

/-- A state whose Ethernet port 0 is as given. -/
def port0 (x : LogPort) (s : State := State.reset) : State := s.modPort 0 (fun _ => x)

/-- A port that is up with its addresses; a frame for it; an ARP request for it. -/
def upPort : LogPort := { state := .up, mac := 2, unicast := [0xFFFF0A000002] }
def aPacket : Bytes := udpFrame route (zeros 40)
def arpFrame : Bytes := be 6 (2 ^ 48 - 1) ++ be 6 1 ++ be 2 0x0806 ++ be 8 0x0001080006040001 ++ be 6 1 ++ be 4 0x0A000001 ++ be 6 0 ++
  be 4 0x0A000002 ++ zeros 18

/-- A flow rule of UDP port 5000 for queue 9, a receive queue, and a transmit queue with one entry. -/
def aRule : FlowRule := { queue := 9, udpPort := 5000, port := 0xFF, matchAddr := false, source := 0 }
def recvq : Queue := { state := .active, kind := .receive, log2 := 4, vector := 0xFFFF }
def sendq : Queue := { state := .active, kind := .transmit, log2 := 4, tail := 1, vector := 0xFFFF }
def ruled (s : State := State.reset) : State := { s with net := { s.net with rules := [(7, aRule)] } }

/-- A state whose Jalzel port 0 is as given. -/
def jal0 (x : Jalzel) (s : State := State.reset) : State := s.modJalzel 0 (fun _ => x)

/-- A port that is up with member 1, a message from it, and a state in which that message waits. -/
def upLink : Jalzel := { state := .up, partner := some 1 }
def aMsg (kind address : Nat) (words : List Bytes) : LinkMsg :=
  { kind := kind, channel := 0, source := 1, dest := 0, address := address, words := words }
def inbox0 (m : LinkMsg) (s : State := State.reset) : State := jal0 { upLink with inbox := [m] } s

/-- The message of a Bell raise by member 1 as a link frame of one word. -/
def bellFrame : Bytes :=
  let h := packB 36 [(12, 4, 2 ^ 32 - 1), (17, 1, 1), (20, 2, 5), (22, 2, 6), (24, 2, 7), (26, 2, 8)]
  let w := (aMsg 7 288 []).header
  h ++ le 4 (crc32c ((h.drop 8).take 28)) ++ w ++ checkBytes w ++ zeros 3325

/-- A frame kept after so many replays. -/
def keptFrame (n : Nat) : TxFrame := { seq := 0, words := [], replays := n }

/-- A region at the copy base of member 1 opened to it. -/
def opened1 (s : State := State.reset) : State :=
  { s with net := { s.net with opened := [{ source := 1, base := copyBase 1, length := 4096 }] } }

/-- A state with the Datestamp unit as given. -/
def stampOf (x : Stamp) (s : State := State.reset) : State := s.modStamp (fun _ => x)

/-- A remainder just beyond what a tick may slew; a setting of a pulse; a state whose Errata log is as given; a corrected record. -/
def slewing (r : Int) : Stamp := { r := r }
def aPulse : PulseSet := { periodic := false, activeLow := false, start := 2000 * 2 ^ 32, fine := 0, widthNs := 10, periodNs := 0 }
def errata (l : ErrataLog) (s : State := State.reset) : State := s.modErrata (fun _ => l)
def aRecord : ErrRec :=
  { time := 0, seq := 9, cls := 1, depth := 0, flags := 0, scope := 0, unit := 2, inst := 3, code := 4, orig := 1, location := 5, parent := 0, count := 1, detail0 := 0, detail1 := 0 }
def aHandling : Handling := { seq := 9, cls := 3, scope := 3, unit := 2, inst := 3, seen := [2, 3] }

/-- A state past start step 2; a state whose power side is as given; its first quadrant as given. -/
def started (s : State := State.reset) : State := { s with boot := { s.boot with step := 2 } }
def pwr (x : Power) (s : State := State.reset) : State := { s with power := x }
def quad0 (q : Quadrant) : Power := { quadrants := q :: List.replicate 3 {} }

/-- A state with an attempt open at a step of the start. -/
def attempting (step : Nat) (b : Boot → Boot := id) (s : State := State.reset) : State :=
  { s with boot := b { s.boot with step := step }, vault := { s.vault with attempts := [{ serial := 4 }] } }

/-- A timing record of the defaults; the header of a configuration record. -/
def timingBytes : Bytes := packB 64 [(0, 1, 2), (4, 4, 100000), (15, 1, 248), (20, 4, 100), (24, 4, 1000), (32, 4, 2)]
def configBytes : Bytes := packB 64 [(0, 4, 0x5A434647), (4, 2, 1), (8, 4, 64), (12, 4, 0x88000026), (16, 2, 1)]
def configFields : ConfigFields :=
  { members := 3, perstAction := true, timing := timingBytes, ports := [], addresses := [], bad := none }

/-- A state with reference service as given; one whose setup window answers an awake, ready device; the boot registers of a push. -/
def refsv (r : Reference) (s : State := State.reset) : State := s.modReference (fun _ => r)
def atWindow (b : Boot → Boot) (s : State := State.reset) : State := { s with boot := { b s.boot with window := true } }
def pushBoot (b : Boot) : Boot := { b with gen := .waitImage, imageLen := 64, configLen := 64 }

/-- A unit in reset under record 9. -/
def aDown : DownUnit := { unit := 0x14, inst := 0, seq := 9 }

/-- A state with an event queue 9 as given. -/
def evq9 (x : Queue) : State := qs 9 x

/-- The content of a flow image and of a fusion image: one stage, its edges over the Stack. -/
def flowImg : Bytes := packB 288 [(18, 2, 1), (20, 2, 3), (128, 1, 3), (192, 1, 0xFF), (194, 1, 1), (224, 1, 0xFF), (226, 1, 1), (257, 1, 0xFF), (258, 1, 1)]
def fusionImg : Bytes := packB 320 [(18, 2, 1), (20, 2, 4), (192, 1, 0xFF), (194, 1, 1), (196, 4, 1658880), (224, 1, 0xFF), (226, 1, 1), (228, 4, 1327104),
  (257, 1, 0xFF), (258, 1, 1), (260, 4, 1048576), (289, 1, 0xFF), (290, 1, 1), (292, 4, 65600)]
def flowing (s : State := State.reset) : State := imgs 0xF002 { anImage with serving := false, content := flowImg } s
def fusing (s : State := State.reset) : State := imgs 0xF003 { anImage with serving := false, content := fusionImg } s

/-! ## Witnesses: states and operands that meet the hypotheses of a clause -/

/-- QueueTakenInOrder: a step on two waiting commands answers a state. -/
theorem wit_queue_taken_in_order_1 : ∃ t, ({ State.reset with pending := [.fastLimiterRelease, .startTimeout] } : State).pending =
    [.fastLimiterRelease, .startTimeout] ∧ step { State.reset with pending := [.fastLimiterRelease, .startTimeout] } = .next t :=
  ⟨_, rfl, rfl⟩

/-- HeldAccessesInOrder: a step holds an access of a sleeping device. -/
theorem wit_held_accesses_in_order_1 : let s : State := { opened (pwr { sleep := .asleep }) with pending := [.bootGo 1] }
    s.HeldInOrder ∧ ∃ t, step s = .next t ∧ t.heldAccess = [.bootGo 1] :=
  ⟨⟨fun _ => rfl, rfl⟩, _, rfl, rfl⟩

/-- StorageStaysCanonical: a write of the Stack answers a state. -/
theorem wit_storage_stays_canonical_1 : State.reset.fabric.stack.store.wf = true ∧
    Instr.atStack (.stackWriteRequest 256 64 (List.replicate 64 7) none) = true ∧
    ∃ t, exec (.stackWriteRequest 256 64 (List.replicate 64 7) none) State.reset = .next t :=
  ⟨by decide +kernel, rfl, _, rfl⟩

theorem wit_idle_step_1 :
    let s : State := State.reset
    s.pending = [] := by decide +kernel

theorem wit_queue_opcodes_1 :
    let x : Slip := slip 0x0801 [(32, 4, 3), (36, 1, 4), (37, 1, 4), (38, 2, 0xFFFF), (40, 8, 4096)]
    let s : State := atJob x
    let n : Nat := 0
    let j : Job := jobOf x
    s.Startable n 0x0801 j ∧
    createFieldsOk s.desk.circ j.slip = true ∧
    (s.queue (queueNamed j.slip)).state = .free ∧
    fixedOrStack (queueNamed j.slip) = false := by decide +kernel

theorem wit_queue_opcodes_2 :
    let x : Slip := slip 0x0802 [(32, 4, 3)]
    let s : State := withSlip x (qs 3 evq)
    let n : Nat := 0
    let j : Job := jobOf x
    s.Startable n 0x0802 j ∧
    fixedOrStack (queueNamed j.slip) = false ∧
    (((s.queue (queueNamed j.slip)).state = .active ∨ (s.queue (queueNamed j.slip)).state = .halted)) ∧
    (((s.queue (queueNamed j.slip)).kind = .ret → s.desk.circ.isPartner (queueNamed j.slip) = false)) := by decide +kernel

theorem wit_queue_opcodes_3 :
    let x : Slip := slip 0x0803 [(32, 4, 3)]
    let s : State := withSlip x (qs 3 { evq with state := .halted })
    let n : Nat := 0
    let j : Job := jobOf x
    s.Startable n 0x0803 j ∧
    fixedOrStack (queueNamed j.slip) = false ∧
    (((s.queue (queueNamed j.slip)).state = .active ∨ (s.queue (queueNamed j.slip)).state = .halted)) := by decide +kernel

theorem wit_queue_opcodes_4 :
    let x : Slip := slip 0x0804 [(32, 4, 3)]
    let s : State := withSlip x (qs 3 evq)
    let n : Nat := 0
    let j : Job := jobOf x
    s.Startable n 0x0804 j ∧
    fixedOrStack (queueNamed j.slip) = false := by decide +kernel

theorem wit_queue_opcodes_5 :
    let x : Slip := slip 0x0805 [(32, 4, 3), (38, 2, 5), (54, 2, 10), (56, 1, 4)]
    let s : State := withSlip x (qs 3 evq)
    let n : Nat := 0
    let j : Job := jobOf x
    s.Startable n 0x0805 j ∧
    coalescingOk j.slip = true ∧
    fixedOrStack (queueNamed j.slip) = false ∧
    (((s.queue (queueNamed j.slip)).state = .active ∨ (s.queue (queueNamed j.slip)).state = .halted)) ∧
    (((s.queue (queueNamed j.slip)).state = .halted ∨ (s.queue (queueNamed j.slip)).kind.deviceProduced = false ∨ fld j.slip 38 2 = noVector ∨ (s.queue (queueNamed j.slip)).unsignalled < max (fld j.slip 56 1) 1)) := by decide +kernel

theorem wit_queue_opcodes_6 :
    let x : Slip := slip 0x0805 [(32, 4, 3), (38, 2, 5), (54, 2, 10), (56, 1, 1)]
    let s : State := withSlip x (srcs 2053 { defaultSource 2053 with effLimit := 0 } (qs 3 { evq with entryTimes := [0] }))
    let n : Nat := 0
    let j : Job := jobOf x
    s.Startable n 0x0805 j ∧
    coalescingOk j.slip = true ∧
    fixedOrStack (queueNamed j.slip) = false ∧
    (s.queue (queueNamed j.slip)).state = .active ∧
    (s.queue (queueNamed j.slip)).kind.deviceProduced = true ∧
    fld j.slip 38 2 ≠ noVector ∧
    max (fld j.slip 56 1) 1 ≤ (s.queue (queueNamed j.slip)).unsignalled ∧
    (s.source (2048 + fld j.slip 38 2)).stormed = false ∧
    (s.source (2048 + fld j.slip 38 2)).effLimit = 0 := by decide +kernel

theorem wit_slips_read_and_started_1 :
    let s : State := qs 0 { state := .active, log2 := 4, gen := 1, tail := 1, quota := 4096 }
    let q : Nat := 0
    s.power.sleep = .awake ∧
    s.desk.circ.nextFetch (s.boot.gen = .minimal) = some q ∧
    (s.queue q).kind = .submission := by decide +kernel

theorem wit_slips_read_and_started_2 :
    let s : State := qs 0 { state := .active, log2 := 4, gen := 1, tail := 1, quota := 4096 }
    let q : Nat := 0
    s.power.sleep = .awake ∧
    s.desk.circ.nextFetch (s.boot.gen = .minimal) = some q ∧
    (s.queue q).kind = .submission := by decide +kernel

theorem wit_slips_read_and_started_3 :
    let j : Job := { jobOf (slip 0x0804 [(2, 2, 1)]) with held := true }
    let s : State := State.reset.modCirc (fun c => { c with jobs := [j] })
    let n : Nat := 0
    s.job n = some j ∧
    j.held = true ∧
    s.desk.circ.earlier j = [] := by decide +kernel

theorem wit_slips_read_and_started_4 :
    let x : Slip := slip 0x0804 [(8, 8, 5)]
    let s : State := withSlip x (later)
    let n : Nat := 0
    let j : Job := jobOf x
    s.job n = some j ∧
    j.started = false ∧
    s.passed (deadlineOf j.slip) = true := by decide +kernel

theorem wit_doorbells_and_drains_1 :
    let s : State := opened (qs 3 { state := .active, gen := 1, log2 := 4 })
    let q : Nat := 3
    let v : Nat := 0x1000F
    s.boot.window = true ∧
    s.power.sleep = .awake ∧
    hostResident q = true ∧
    q ≠ 0 ∧
    (s.queue q).state = .active ∧
    v < 2 ^ 24 ∧
    bitsOf v 23 16 = (s.queue q).gen ∧
    bitsOf v 15 0 < (s.queue q).slots ∧
    (s.queue q).moves (bitsOf v 15 0) = true := by decide +kernel

theorem wit_doorbells_and_drains_1b :
    let s : State := opened (qs 3 { evq with gen := 255, tail := 2 })
    let q : Nat := 3
    let v : Nat := 0xFF0001
    s.boot.window = true ∧
    s.power.sleep = .awake ∧
    hostResident q = true ∧
    q ≠ 0 ∧
    (s.queue q).state = .active ∧
    v < 2 ^ 24 ∧
    bitsOf v 23 16 = (s.queue q).gen ∧
    bitsOf v 15 0 < (s.queue q).slots ∧
    (s.queue q).moves (bitsOf v 15 0) = true := by decide +kernel

theorem wit_doorbells_and_drains_2 :
    let s : State := opened (qs 3 { state := .active, gen := 1, log2 := 4, head := 6, tail := 9 })
    let q : Nat := 3
    s.boot.window = true ∧
    s.power.sleep = .awake ∧
    hostResident q = true := by decide +kernel

theorem wit_doorbells_and_drains_3 :
    let s : State := opened
    let q : Nat := 524288
    s.boot.window = true ∧
    s.power.sleep = .awake ∧
    524288 ≤ q ∧
    q < 2 ^ 20 := by decide +kernel

theorem wit_doorbells_and_drains_4 :
    let s : State := qs 3 { state := .draining, drain := .reset 0 }
    let q : Nat := 3
    let n : Nat := 0
    (s.queue q).state = .draining ∧
    (s.queue q).drain = .reset n ∧
    s.desk.circ.drained q (.reset n) = true := by decide +kernel

theorem wit_doorbells_and_drains_5 :
    let s : State := qs 3 { state := .draining, drain := .destroy 0 }
    let q : Nat := 3
    let n : Nat := 0
    (s.queue q).state = .draining ∧
    (s.queue q).drain = .destroy n ∧
    s.desk.circ.drained q (.destroy n) = true := by decide +kernel

theorem wit_doorbells_and_drains_6 :
    let s : State := qs 1 { state := .draining, drain := .fixed }
    let q : Nat := 1
    (s.queue q).state = .draining ∧
    (s.queue q).drain = .fixed ∧
    s.desk.circ.drained q .fixed = true := by decide +kernel

theorem wit_doorbells_and_drains_7 :
    let s : State := qs 0 { state := .draining, drain := .fault }
    let q : Nat := 0
    q < 3 ∧
    (s.queue q).state = .draining ∧
    (s.queue q).drain = .fault := by decide +kernel

theorem wit_doorbells_and_drains_8 :
    let s : State := qs 3 { state := .draining, drain := .fault }
    let q : Nat := 3
    3 ≤ q ∧
    (s.queue q).state = .draining ∧
    (s.queue q).drain = .fault ∧
    s.desk.circ.drained q .fault = true := by decide +kernel

theorem wit_returns_written_1 :
    let e : Ending := endWith []
    let j : Job := { jobOf (slip 0x0804 []) with ending := some e }
    let s : State := (qs 1 { state := .active, kind := .ret, log2 := 4, vector := 0xFFFF }).modCirc (fun c => { c with jobs := [j] })
    let n : Nat := 0
    s.job n = some j ∧
    j.ending = some e ∧
    j.waiting = false ∧
    s.desk.circ.path (s.desk.circ.returnOf j.sq) = .write ∧
    s.desk.circ.returnOf j.sq ≠ j.sq := by decide +kernel

theorem wit_returns_written_2 :
    let e : Ending := endWith []
    let j : Job := { jobOf (slip 0x0804 []) with ending := some e, waiting := true }
    let s : State := (qs 1 { state := .active, kind := .ret, log2 := 4, vector := 0xFFFF }).modCirc (fun c => { c with jobs := [j], waiting := [0] })
    let q : Nat := 1
    (s.queue q).state = .active ∧
    (s.queue q).kind = .ret ∧
    (s.queue q).full = false ∧
    s.desk.circ.firstWaiting q = some j ∧
    j.ending = some e ∧
    j.sq ≠ q := by decide +kernel

theorem wit_returns_written_3 :
    let e := endWith []
    let j : Job := { jobOf (slip 0x0804 []) with ending := some e, waiting := true }
    let s : State := later ((qs 1 { state := .active, kind := .ret, log2 := 4, vector := 0xFFFF }).modCirc (fun c => { c with jobs := [j], waiting := [0], stalls := [(1, 5)] }))
    let q : Nat := 1
    let since : Nat := 5
    s.desk.circ.stalled q = true ∧
    amGet s.desk.circ.stalls q = some since ∧
    since + 100000000 ≤ s.now := by decide +kernel

theorem wit_returns_written_4 :
    let s : State := qs 2 { evq with lost := 3 }
    let q : Nat := 2
    (s.queue q).state = .active ∧
    (s.queue q).kind = .event ∧
    (s.queue q).lost ≠ 0 ∧
    (s.queue q).full = false := by decide +kernel

theorem wit_returns_written_5 :
    let s : State := later (qs 2 { evq with vector := 7, entryTimes := [1], coalTime := 9 })
    let q : Nat := 2
    let a : Nat := 1
    let l : List Nat := []
    (s.queue q).state = .active ∧
    (s.queue q).kind.deviceProduced = true ∧
    hostResident q = true ∧
    (s.queue q).vector ≠ noVector ∧
    (s.queue q).coalTime ≠ 0 ∧
    (s.queue q).entryTimes = a :: l ∧
    a + (s.queue q).coalTime * 1000 ≤ s.now := by decide +kernel

theorem wit_raises_pend_1 :
    let s : State := State.reset
    let n : Nat := 5
    raisable n = true ∧
    (s.source n).stormed = false ∧
    (s.source n).openAt = none := by decide +kernel

theorem wit_raises_pend_1b :
    let s : State := State.reset
    let n : Nat := 1023
    raisable n = true ∧
    (s.source n).stormed = false ∧
    (s.source n).openAt = none := by decide +kernel

theorem wit_raises_pend_2 :
    let s : State := srcs 5 { defaultSource 5 with openAt := some 0, count := 15 }
    let n : Nat := 5
    let o : Nat := 0
    raisable n = true ∧
    (s.source n).stormed = false ∧
    (s.source n).openAt = some o ∧
    s.now < o + (s.source n).windowUs * 1000 ∧
    (((s.source n).effLimit = 0 ∨ (s.source n).count < (s.source n).effLimit)) := by decide +kernel

theorem wit_raises_pend_3 :
    let s : State := srcs 5 { defaultSource 5 with stormed := true, dropped := 3 }
    let n : Nat := 5
    raisable n = true ∧
    (s.source n).stormed = true := by decide +kernel

theorem wit_raises_pend_4 :
    let s : State := srcs 5 { defaultSource 5 with openAt := some 0, count := 16 }
    let n : Nat := 5
    let o : Nat := 0
    raisable n = true ∧
    (s.source n).stormed = false ∧
    (s.source n).openAt = some o ∧
    s.now < o + (s.source n).windowUs * 1000 ∧
    (s.source n).effLimit ≠ 0 ∧
    (s.source n).effLimit ≤ (s.source n).count := by decide +kernel

theorem wit_raises_pend_5 :
    let s : State := opened
    let word : BitVec 32 := 1024
    s.boot.window = true ∧
    s.power.sleep = .awake ∧
    1024 ≤ word.toNat ∧
    word.toNat ≤ 2047 := by decide +kernel

theorem wit_raises_pend_5b :
    let s : State := opened
    let word : BitVec 32 := 2047
    s.boot.window = true ∧
    s.power.sleep = .awake ∧
    1024 ≤ word.toNat ∧
    word.toNat ≤ 2047 := by decide +kernel

theorem wit_storm_guard_1 :
    let s : State := later (srcs 5 { defaultSource 5 with openAt := some 0, count := 2 })
    let n : Nat := 5
    let o : Nat := 0
    (s.source n).openAt = some o ∧
    o + (s.source n).windowUs * 1000 ≤ s.now := by decide +kernel

theorem wit_storm_guard_2 :
    let s : State := State.reset
    let n : Nat := 5
    ((∀ o, (s.source n).openAt = some o → s.now < o + (s.source n).windowUs * 1000)) := by simp [State.source, Bell.source, State.reset]; decide

theorem wit_storm_guard_2b :
    let s : State := srcs 5 { defaultSource 5 with openAt := some 0, count := 2 }
    let n : Nat := 5
    ((∀ o, (s.source n).openAt = some o → s.now < o + (s.source n).windowUs * 1000)) := by decide +kernel

theorem wit_storm_guard_3 :
    let s : State := srcs 5 { defaultSource 5 with stormed := true, dropped := 3 }
    let n : Nat := 5
    (((s.source n).holdMs = 0 ∨ (s.source n).stormed = false ∨ s.now < (s.source n).stormedAt + (s.source n).holdMs * 1000000)) := by decide +kernel

theorem wit_storm_guard_4 :
    let s : State := later (srcs 5 { defaultSource 5 with stormed := true, dropped := 3 })
    let n : Nat := 5
    (s.source n).holdMs ≠ 0 ∧
    (s.source n).stormed = true ∧
    (s.source n).stormedAt + (s.source n).holdMs * 1000000 ≤ s.now := by decide +kernel

theorem wit_storm_guard_5 :
    let s : State := srcs 4095 { defaultSource 4095 with stormed := true, dropped := 3 }
    let firmware : Bool := true
    let w : Nat := 127
    let i : Nat := 31
    i < 32 ∧
    32 * w + i < 4096 ∧
    (s.source (32 * w + i)).stormed = true ∧
    ((firmware = true ∨ s.boot.window = true ∧ s.power.sleep = .awake ∧ 1024 ≤ 32 * w + i)) := by decide +kernel

theorem wit_storm_guard_5b :
    let s : State := opened (srcs 1024 { defaultSource 1024 with stormed := true })
    let firmware : Bool := false
    let w : Nat := 32
    let i : Nat := 0
    i < 32 ∧
    32 * w + i < 4096 ∧
    (s.source (32 * w + i)).stormed = true ∧
    ((firmware = true ∨ s.boot.window = true ∧ s.power.sleep = .awake ∧ 1024 ≤ 32 * w + i)) := by decide +kernel

theorem wit_storm_guard_6 :
    let s : State := opened (srcs 1024 { defaultSource 1024 with stormed := true })
    let firmware : Bool := false
    ((firmware = true ∨ s.boot.window = true ∧ s.power.sleep = .awake)) := by decide +kernel

theorem wit_storm_guard_7 :
    let s : State := later (core0 { threshold := 1 } (srcs 5 { defaultSource 5 with pending := true, pendingAt := 3, target := .core 0, priority := 9, stormLimit := 16, effLimit := 16 }))
    let core : Bool := true
    let number : Nat := 0
    let target : BellTarget := .core 0
    let e : Nat × Nat := (5, 9)
    target = (if core then .core number else .vector number) ∧
    e ∈ s.desk.bell.candidates (fun p => p = target) ∧
    (s.source e.1).pendingAt + 1000000 < s.now := by decide +kernel

theorem wit_storm_guard_8 :
    let s : State := later (srcs 5 { defaultSource 5 with stormLimit := 16, effLimit := 4 } ((State.reset).modBell (fun b => { b with adaptAt := [(0, 0)] })))
    let core : Bool := true
    let number : Nat := 0
    let since : Nat := 0
    let target : BellTarget := .core 0
    target = (if core then .core number else .vector number) ∧
    (∀ e ∈ s.desk.bell.candidates (fun p => p = target), s.now ≤ (s.source e.1).pendingAt + 1000000) ∧
    amGet s.desk.bell.adaptAt target.code = some since ∧
    since + 1000000000 ≤ s.now := by decide +kernel

theorem wit_storm_guard_9 :
    let s : State := State.reset
    let core : Bool := true
    let number : Nat := 0
    let target : BellTarget := .core 0
    target = (if core then .core number else .vector number) ∧
    (∀ e ∈ s.desk.bell.candidates (fun p => p = target), s.now ≤ (s.source e.1).pendingAt + 1000000) ∧
    ((∀ since, amGet s.desk.bell.adaptAt target.code = some since → s.now < since + 1000000000)) := by decide +kernel

theorem wit_storm_guard_10 :
    let x : BellSource := defaultSource 5
    x.stormLimit ≠ 0 ∧
    x.effLimit ≤ x.stormLimit := by decide +kernel

theorem wit_claims_take_the_highest_1 :
    let l : List (Nat × Nat) := [(1, 2), (2, 3), (3, 3)]
    let n : Nat := 2
    let p : Nat := 3
    l.Pairwise (fun a b => a.1 < b.1) ∧
    pickHighest l = some (n, p) := by decide +kernel

theorem wit_claims_take_the_highest_2 :
    let s : State := srcs 17 { defaultSource 17 with pending := true }
    let core : Nat := 0
    let n : Nat := 17
    let p : Nat := 15
    core < 8 ∧
    (s.desk.bell.settle.core core).stack.length < 15 ∧
    s.desk.bell.settle.pickCore core = some (n, p) ∧
    n ≠ 0 := by decide +kernel

theorem wit_claims_take_the_highest_3 :
    let s : State := State.reset
    let core : Nat := 7
    core < 8 ∧
    s.desk.bell.settle.pickCore core = none := by decide +kernel

theorem wit_claims_take_the_highest_4 :
    let e : InService := { source := 5, priority := 3, saved := 0, entry := false, exit := false }
    let l : List InService := []
    let s : State := core0 { stack := [e] }
    let core : Nat := 0
    let source : Nat := 5
    core < 8 ∧
    (s.desk.bell.core core).stack = e :: l ∧
    e.source = source := by decide +kernel

theorem wit_claims_take_the_highest_5 :
    let e : InService := { source := 5, priority := 3, saved := 0, entry := false, exit := false }
    let l : List InService := []
    let s : State := core0 { stack := [e] }
    let core : Nat := 0
    let source : Nat := 6
    core < 8 ∧
    (s.desk.bell.core core).stack = e :: l ∧
    e.source ≠ source := by decide +kernel

theorem wit_cores_and_thresholds_1 :
    let core : Nat := 0
    core < 8 := by decide +kernel

theorem wit_cores_and_thresholds_2 :
    let e : InService := { source := 5, priority := 3, saved := 9, entry := true, exit := false }
    let l : List InService := []
    let s : State := core0 { stack := [e] }
    let core : Nat := 0
    core < s.desk.bell.cores.length ∧
    core < 8 ∧
    (s.desk.bell.core core).stack = e :: l := by decide +kernel

theorem wit_cores_and_thresholds_3 :
    let s : State := srcs 17 { defaultSource 17 with pending := true } (core0 { sleeping := true })
    let core : Nat := 0
    let n : Nat := 17
    let p : Nat := 15
    s.boot.gen ≠ .minimal ∧
    (s.desk.bell.settle.core core).sleeping = true ∧
    s.desk.bell.settle.pickCore core = some (n, p) := by decide +kernel

theorem wit_cores_and_thresholds_4 :
    let s : State := (srcs 17 { defaultSource 17 with pending := true } (core0 { sleeping := true })).modBoot (fun b => { b with gen := .minimal })
    s.boot.gen = .minimal := by decide +kernel

theorem wit_cores_and_thresholds_5 :
    let e : InService := { source := 5, priority := 3, saved := 0, entry := false, exit := false, since := 0 }
    let s : State := later (core0 { stack := [e] })
    let core : Nat := 0
    let source : Nat := 5
    e ∈ (s.desk.bell.core core).stack ∧
    e.source = source ∧
    e.told = false ∧
    e.since + 10000000 < s.now := by decide +kernel

theorem wit_cores_and_thresholds_6 :
    let e := { source := 5, priority := 3, saved := 0, entry := false, exit := false, since := 0 }
    let s : State := core0 { stack := [e] }
    let core : Nat := 0
    let source : Nat := 5
    ((∀ e ∈ (s.desk.bell.core core).stack, e.source = source → e.told = false → s.now ≤ e.since + 10000000)) := by decide +kernel

theorem wit_vectors_deliver_1 :
    let s : State := atVector { addr := 0xFEE00000, data := 5, masked := false } true
    let n : Nat := 2053
    let p : Nat := 8
    let v : Nat := 5
    pickHighest (s.desk.bell.settle.candidates s.desk.bell.settle.sendable) = some (n, p) ∧
    (s.desk.bell.settle.source n).place = .vector v ∧
    s.desk.bell.settle.vectorsAwake = true ∧
    (s.desk.bell.settle.vectorEntry v).masked = false := by decide +kernel

theorem wit_vectors_deliver_2 :
    let s : State := atVector { addr := 0xFEE00000, data := 5 } true
    let n : Nat := 2053
    let p : Nat := 8
    let v : Nat := 5
    pickHighest (s.desk.bell.settle.candidates s.desk.bell.settle.sendable) = some (n, p) ∧
    (s.desk.bell.settle.source n).place = .vector v ∧
    s.desk.bell.settle.vectorsAwake = true ∧
    (s.desk.bell.settle.vectorEntry v).masked = true := by decide +kernel

theorem wit_vectors_deliver_3 :
    let s : State := atVector { addr := 0xFEE00000, data := 5 } false
    let n : Nat := 2053
    let p : Nat := 8
    let v : Nat := 5
    pickHighest (s.desk.bell.settle.candidates s.desk.bell.settle.sendable) = some (n, p) ∧
    (s.desk.bell.settle.source n).place = .vector v ∧
    s.desk.bell.settle.vectorsAwake = false := by decide +kernel

theorem wit_vectors_deliver_4 :
    let s : State := atVector { addr := 0xFEE00000, data := 5, pending := true } false
    let v : Nat := 5
    s.boot.window = true ∧
    s.power.sleep = .awake ∧
    v < 2048 ∧
    (s.desk.bell.vectorEntry v).pending = true := by decide +kernel

theorem wit_vectors_deliver_5 :
    let s : State := opened
    let v : Nat := 2047
    s.boot.window = true ∧
    s.power.sleep = .awake ∧
    v < 2048 ∧
    (s.desk.bell.vectorEntry v).pending = false := by decide +kernel

theorem wit_vectors_deliver_7 :
    let s : State := opened
    let n : Nat := 1024
    let value : BitVec 32 := 0x00640010
    s.boot.window = true ∧
    s.power.sleep = .awake ∧
    1024 ≤ n ∧
    n < 4096 ∧
    recordWriteBad n 1 value.toNat = false := by decide +kernel

theorem wit_vectors_deliver_7b :
    let s : State := opened
    let n : Nat := 4095
    let value : BitVec 32 := 0xEA60FFFF
    s.boot.window = true ∧
    s.power.sleep = .awake ∧
    1024 ≤ n ∧
    n < 4096 ∧
    recordWriteBad n 1 value.toNat = false := by decide +kernel

theorem wit_vectors_deliver_8 :
    let s : State := opened
    let n : Nat := 1024
    let value : BitVec 32 := 1000
    s.boot.window = true ∧
    s.power.sleep = .awake ∧
    1024 ≤ n ∧
    n < 4096 ∧
    recordWriteBad n 2 value.toNat = false ∧
    (s.source n).openAt = none := by decide +kernel

theorem wit_vectors_deliver_8b :
    let s : State := opened
    let n : Nat := 4095
    let value : BitVec 32 := 5
    s.boot.window = true ∧
    s.power.sleep = .awake ∧
    1024 ≤ n ∧
    n < 4096 ∧
    recordWriteBad n 2 value.toNat = false ∧
    (s.source n).openAt = none := by decide +kernel

theorem wit_vectors_deliver_9 :
    let s : State := opened
    let n : Nat := 1024
    let value : BitVec 32 := 0x100010
    s.boot.window = true ∧
    s.power.sleep = .awake ∧
    1024 ≤ n ∧
    n < 2048 ∧
    recordWriteBad n 0 value.toNat = false := by decide +kernel

theorem wit_vectors_deliver_10 :
    let s : State := opened
    let n : Nat := 2048
    let value : BitVec 32 := 0x10000F
    s.boot.window = true ∧
    s.power.sleep = .awake ∧
    2048 ≤ n ∧
    n < 4096 ∧
    recordWriteBad n 0 value.toNat = false := by decide +kernel

theorem wit_carrel_power_states_1 :
    let s : State := clocked
    let c : Nat := 0
    c < 256 ∧
    s.clockOf c = true ∧
    (s.carrel c).state = .off := by decide +kernel

theorem wit_carrel_power_states_2 :
    let s : State := car 119 { state := .retention, bound := some aBound } clocked
    let c : Nat := 119
    let b : Bound := aBound
    c < 256 ∧
    s.clockOf c = true ∧
    (s.carrel c).state = .retention ∧
    (s.carrel c).bound = some b ∧
    s.tokensLive c := by decide +kernel

theorem wit_carrel_power_states_3 :
    let s : State := car 3 { state := .ready, bound := some aBound } clocked
    let c : Nat := 3
    (s.carrel c).state = .ready ∧
    s.heldByJob c = false := by decide +kernel

theorem wit_carrel_power_states_4 :
    let s : State := car 3 { state := .ready, bound := some aBound, ins := [{ edge := 0, src := 0, slots := 2, held := [{ slot := 0, bytes := 4, seq := 0 }] }] } clocked
    let c : Nat := 3
    (s.carrel c).state = .ready ∧
    s.heldByJob c = true := by decide +kernel

theorem wit_carrel_power_states_5 :
    let s : State := car 255 { state := .idle } clocked
    let c : Nat := 255
    (s.carrel c).state = .idle := by decide +kernel

theorem wit_carrel_power_states_6 :
    let s : State := car 3 { state := .ready, bound := some aBound } clocked
    let c : Nat := 3
    (s.carrel c).state = .ready ∧
    s.heldByJob c = false := by decide +kernel

theorem wit_carrel_power_states_7 :
    let s : State := car 3 { state := .halted } clocked
    let c : Nat := 3
    (s.carrel c).state = .halted := by decide +kernel

theorem wit_carrel_power_states_8 :
    let c : Nat := 255
    c < 256 := by decide +kernel

theorem wit_steps_and_handovers_1 :
    let b : Bound := aBound
    let s : State := { car 3 { state := .running, bound := some b, outs := [{ edge := 0, dst := 0, slots := 2, credits := [0] }] } with
    fabric := { (car 3 { state := .running, bound := some b, outs := [{ edge := 0, dst := 0, slots := 2, credits := [0] }] }).fabric with credits := [{ to_ := .carrel 3 0, slot := 1 }] } }
    let c : Nat := 3
    let port : Nat := 0
    let slot : Nat := 1
    (s.carrel c).bound = some b ∧
    { to_ := .carrel c port, slot := slot } ∈ s.fabric.credits := by decide +kernel

theorem wit_steps_and_handovers_2 :
    let x : Image := { anImage with inCredits := [(0, 0, [0])] }
    let s : State := { imgs 1 x with fabric := { State.reset.fabric with credits := [{ to_ := .input 1 0 0, slot := 1 }] } }
    let h : Nat := 1
    let edge : Nat := 0
    let k : Nat := 0
    let slot : Nat := 1
    { to_ := .input h edge k, slot := slot } ∈ s.fabric.credits ∧
    s.image h = some x ∧
    (∀ r ∈ s.images.runs, r.handle ≠ h) := by decide +kernel

theorem wit_steps_and_handovers_3 :
    let s : State := State.reset
    let to_ : CreditTo := .carrel 3 0
    let slot : Nat := 1
    { to_ := to_, slot := slot } ∉ s.fabric.credits := by decide +kernel

theorem wit_steps_and_handovers_4 :
    let b : Bound := aBound
    let p : InPort := { edge := 0, src := 0, slots := 2 }
    let tok : Token := { slot := 1, bytes := 64, seq := 5 }
    let c : Nat := 3
    let port : Nat := 0
    let source : Nat := 7
    let sent : Option OutsideMsg := none
    let s0 : State := car 3 { state := .running, bound := some b, ins := [p] }
    let s : State := { car 3 { state := .running, bound := some b, ins := [p] } with fabric := { (car 3 { state := .running, bound := some b, ins := [p] }).fabric with mesh := [{ src := 7, dst := 3, serving := true, port := 0, body := .token tok }] } }
    s.Arrives c source sent port (.token tok) s0 ∧
    (s.carrel c).bound = some b ∧
    (s.carrel c).ins[port]? = some p ∧
    p.admits tok = true ∧
    s.deadToken tok = false ∧
    s.tokensLive c ∧
    (s.carrel c).state = .running := by decide +kernel

theorem wit_steps_and_handovers_4b :
    let b : Bound := aBound
    let p : InPort := { edge := 0, src := 0, slots := 2 }
    let tok : Token := { slot := 1, bytes := 64, seq := 5 }
    let c : Nat := 3
    let port : Nat := 0
    let source : Nat := 256
    let sent : Option OutsideMsg := some { port := 0, body := .token tok }
    let s0 : State := car 3 { state := .running, bound := some b, ins := [p] }
    let s : State := car 3 { state := .running, bound := some b, ins := [p] }
    s.Arrives c source sent port (.token tok) s0 ∧
    (s.carrel c).bound = some b ∧
    (s.carrel c).ins[port]? = some p ∧
    p.admits tok = true ∧
    s.deadToken tok = false ∧
    s.tokensLive c ∧
    (s.carrel c).state = .running := by decide +kernel

theorem wit_steps_and_handovers_5 :
    let b : Bound := aBound
    let p : InPort := { edge := 0, src := 0, slots := 2 }
    let tok : Token := { slot := 1, bytes := 64, seq := 5 }
    let c : Nat := 3
    let port : Nat := 0
    let source : Nat := 256
    let sent : Option OutsideMsg := some { port := 0, body := .token tok }
    let s0 : State := car 3 { state := .retention, bound := some b, ins := [p] } clocked
    let s : State := car 3 { state := .retention, bound := some b, ins := [p] } clocked
    let x : Carrel := { s.carrel c with ins := setAt (s.carrel c).ins port { p with held := p.held ++ [tok] } }
    s.Arrives c source sent port (.token tok) s0 ∧
    (s.carrel c).bound = some b ∧
    (s.carrel c).ins[port]? = some p ∧
    p.admits tok = true ∧
    s.deadToken tok = false ∧
    s.tokensLive c ∧
    (((s.carrel c).state = .ready ∨ (s.carrel c).state = .retention ∧ s.clockOf c = true)) ∧
    x = { s.carrel c with ins := setAt (s.carrel c).ins port { p with held := p.held ++ [tok] } } := by decide +kernel

theorem wit_steps_and_handovers_6 :
    let b : Bound := aBound
    let p : InPort := { edge := 0, src := 0, slots := 2 }
    let tok : Token := { slot := 1, bytes := 64, seq := 5, run := some 9 }
    let c : Nat := 3
    let port : Nat := 0
    let source : Nat := 256
    let sent : Option OutsideMsg := some { port := 0, body := .token tok }
    let s0 : State := imgs 1 { anImage with content := packB 256 [(128, 1, 0xFF)] } (car 3 { state := .running, bound := some b, ins := [p] })
    let s : State := imgs 1 { anImage with content := packB 256 [(128, 1, 0xFF)] } (car 3 { state := .running, bound := some b, ins := [p] })
    let m : CreditMsg := { to_ := .input 1 0 0, slot := 1 }
    s.Arrives c source sent port (.token tok) s0 ∧
    (s.carrel c).bound = some b ∧
    (s.carrel c).ins[port]? = some p ∧
    p.admits tok = true ∧
    s.deadToken tok = true ∧
    tok.far = none ∧
    s.creditOf b p tok.slot = some m := by decide +kernel

theorem wit_steps_and_handovers_7 :
    let b : Bound := aBound
    let p := { edge := 0, src := 0, slots := 2 }
    let tok : Token := { slot := 2, bytes := 64, seq := 5 }
    let c : Nat := 3
    let port : Nat := 0
    let source : Nat := 7
    let sent : Option OutsideMsg := none
    let s0 : State := car 7 { state := .running } (car 3 { state := .running, bound := some b, ins := [p] })
    let s : State := { car 7 { state := .running } (car 3 { state := .running, bound := some b, ins := [p] }) with fabric := { (car 7 { state := .running } (car 3 { state := .running, bound := some b, ins := [p] })).fabric with mesh := [{ src := 7, dst := 3, serving := true, port := 0, body := .token tok }] } }
    s.Arrives c source sent port (.token tok) s0 ∧
    (s.carrel c).bound = some b ∧
    ((∀ p, (s.carrel c).ins[port]? = some p → p.slots ≤ tok.slot ∨ ∃ h ∈ p.held, h.slot = tok.slot)) ∧
    (((s.carrel source).state = .running ∨ (s.carrel source).state = .ready)) := by decide +kernel

theorem wit_steps_and_handovers_8 :
    let b : Bound := aBound
    let p : InPort := { edge := 0, src := 0, slots := 2 }
    let i : Image := { anImage with content := packB 256 [(20, 2, 1), (132, 4, 64)] }
    let e : EdgeEnt := edgeEnt i.content 0
    let data : Bytes := List.replicate 32 7
    let marks : List Bool := []
    let slot : Nat := 1
    let offset : Nat := 32
    let c : Nat := 3
    let port : Nat := 0
    let source : Nat := 7
    let sent : Option OutsideMsg := none
    let s0 : State := imgs 1 i (car 3 { state := .running, bound := some b, ins := [p] })
    let s : State := { imgs 1 i (car 3 { state := .running, bound := some b, ins := [p] }) with fabric := { (imgs 1 i (car 3 { state := .running, bound := some b, ins := [p] })).fabric with mesh := [{ src := 7, dst := 3, serving := true, port := 0, body := .data slot offset data marks }] } }
    s.Arrives c source sent port (.data slot offset data marks) s0 ∧
    ((sent = none ∨ data.length ≤ 4096)) ∧
    (s.carrel c).bound = some b ∧
    (s.carrel c).ins[port]? = some p ∧
    s.image b.handle = some i ∧
    edgeEnt i.content p.edge = e ∧
    e.medium = 0 ∧
    slot < p.slots ∧
    offset + data.length ≤ e.slotBytes := by decide +kernel

theorem wit_steps_and_handovers_8b :
    let b : Bound := aBound
    let p : InPort := { edge := 0, src := 0, slots := 2 }
    let i : Image := { anImage with content := packB 256 [(20, 2, 1), (132, 4, 64)] }
    let e : EdgeEnt := edgeEnt i.content 0
    let data : Bytes := List.replicate 32 7
    let marks : List Bool := [true]
    let slot : Nat := 0
    let offset : Nat := 0
    let c : Nat := 3
    let port : Nat := 0
    let source : Nat := 256
    let sent : Option OutsideMsg := some { port := 0, body := .data slot offset data marks }
    let s0 : State := imgs 1 i (car 3 { state := .running, bound := some b, ins := [p] })
    let s : State := imgs 1 i (car 3 { state := .running, bound := some b, ins := [p] })
    s.Arrives c source sent port (.data slot offset data marks) s0 ∧
    ((sent = none ∨ data.length ≤ 4096)) ∧
    (s.carrel c).bound = some b ∧
    (s.carrel c).ins[port]? = some p ∧
    s.image b.handle = some i ∧
    edgeEnt i.content p.edge = e ∧
    e.medium = 0 ∧
    slot < p.slots ∧
    offset + data.length ≤ e.slotBytes := by decide +kernel

theorem wit_steps_and_handovers_9 :
    let b : Bound := aBound
    let p := { edge := 0, src := 0, slots := 2 }
    let i : Image := { anImage with content := packB 256 [(20, 2, 1), (132, 4, 64)] }
    let data : Bytes := List.replicate 32 7
    let marks : List Bool := []
    let slot : Nat := 1
    let offset : Nat := 64
    let c : Nat := 3
    let port : Nat := 0
    let source : Nat := 7
    let sent : Option OutsideMsg := none
    let s0 : State := imgs 1 i (car 7 { state := .ready } (car 3 { state := .running, bound := some b, ins := [p] }))
    let s : State := { imgs 1 i (car 7 { state := .ready } (car 3 { state := .running, bound := some b, ins := [p] })) with fabric := { (imgs 1 i (car 7 { state := .ready } (car 3 { state := .running, bound := some b, ins := [p] }))).fabric with mesh := [{ src := 7, dst := 3, serving := true, port := 0, body := .data slot offset data marks }] } }
    s.Arrives c source sent port (.data slot offset data marks) s0 ∧
    ((sent = none ∨ data.length ≤ 4096)) ∧
    (s.carrel c).bound = some b ∧
    s.image b.handle = some i ∧
    ((∀ p, (s.carrel c).ins[port]? = some p → (edgeEnt i.content p.edge).medium ≠ 0 ∨ p.slots ≤ slot ∨ (edgeEnt i.content p.edge).slotBytes < offset + data.length)) ∧
    (((s.carrel source).state = .running ∨ (s.carrel source).state = .ready)) := by decide +kernel

theorem wit_steps_and_handovers_10 :
    let b : Bound := aBound
    let i : Image := anImage
    let s : State := imgs 1 i (car 3 { state := .running, bound := some b })
    let c : Nat := 3
    (s.carrel c).state = .running ∧
    (s.carrel c).bound = some b ∧
    s.image b.handle = some i ∧
    (s.carrel c).run = none ∧
    s.tokensLive c ∧
    (∀ p ∈ (s.carrel c).ins, ∀ t ∈ p.held, t.far = none) := by decide +kernel

theorem wit_steps_and_handovers_11 :
    let b : Bound := aBound
    let i : Image := { anImage with content := packB 256 [(20, 2, 1), (128, 1, 0), (129, 1, 1), (132, 4, 64)], placed := [(1, 0, 9)] }
    let p : OutPort := { edge := 0, dst := 0, slots := 2, credits := [0, 1] }
    let e : EdgeEnt := edgeEnt i.content 0
    let d : Send := { port := 0, slot := 1, offset := 0, addr := 64, bytes := 32, seq := 3 }
    let q : Nat × Nat × Nat := (1, 0, 9)
    let s : State := imgs 1 i (car 3 { state := .running, bound := some b, outs := [p] })
    let c : Nat := 3
    (s.carrel c).state = .running ∧
    (s.carrel c).bound = some b ∧
    s.image b.handle = some i ∧
    (s.carrel c).run = none ∧
    (s.carrel c).outs[d.port]? = some p ∧
    edgeEnt i.content p.edge = e ∧
    e.to_ ≠ 0xFF ∧
    e.medium = 0 ∧
    d.far = none ∧
    d.slot < p.slots ∧
    d.slot ∈ p.credits ∧
    d.offset + d.bytes ≤ e.slotBytes ∧
    i.placed.find? (fun q => q.1 == e.to_ && q.2.1 == p.dst) = some q := by decide +kernel

theorem wit_steps_and_handovers_12 :
    let b : Bound := aBound
    let i : Image := { anImage with content := packB 256 [(20, 2, 1), (128, 1, 0), (129, 1, 1), (132, 4, 64)], placed := [(1, 0, 9)] }
    let p : OutPort := { edge := 0, dst := 0, slots := 2, credits := [] }
    let d : Send := { port := 0, slot := 1, offset := 0, addr := 64, bytes := 32, seq := 3 }
    let s : State := imgs 1 i (car 3 { state := .running, bound := some b, outs := [p] })
    let c : Nat := 3
    (s.carrel c).state = .running ∧
    (s.carrel c).bound = some b ∧
    s.image b.handle = some i ∧
    (s.carrel c).outs[d.port]? = some p ∧
    (edgeEnt i.content p.edge).to_ ≠ 0xFF ∧
    d.slot < p.slots ∧
    d.offset + d.bytes ≤ (edgeEnt i.content p.edge).slotBytes ∧
    p.credits = [] := by decide +kernel

theorem wit_steps_and_handovers_13 :
    let b : Bound := aBound
    let i : Image := { anImage with content := packB 256 [(20, 2, 1), (128, 1, 0), (129, 1, 1), (132, 4, 64)], placed := [(1, 0, 9)] }
    let p := { edge := 0, dst := 0, slots := 2, credits := [0] }
    let d : Send := { port := 0, slot := 1, offset := 0, addr := 64, bytes := 32, seq := 3 }
    let s : State := imgs 1 i (car 3 { state := .running, bound := some b, outs := [p] })
    let c : Nat := 3
    (s.carrel c).state = .running ∧
    (s.carrel c).bound = some b ∧
    s.image b.handle = some i ∧
    ((∀ p, (s.carrel c).outs[d.port]? = some p → p.slots ≤ d.slot ∨ (edgeEnt i.content p.edge).slotBytes < d.offset + d.bytes ∨ ((edgeEnt i.content p.edge).to_ ≠ 0xFF ∧ p.credits ≠ [] ∧ d.slot ∉ p.credits))) := by decide +kernel

theorem wit_steps_and_handovers_13b :
    let b : Bound := aBound
    let i : Image := { anImage with content := packB 256 [(20, 2, 1), (128, 1, 0), (129, 1, 1), (132, 4, 64)], placed := [(1, 0, 9)] }
    let d : Send := { port := 0, slot := 1, offset := 0, addr := 64, bytes := 32, seq := 3 }
    let s : State := imgs 1 i (car 3 { state := .running, bound := some b })
    let c : Nat := 3
    (s.carrel c).state = .running ∧
    (s.carrel c).bound = some b ∧
    s.image b.handle = some i ∧
    ((∀ p, (s.carrel c).outs[d.port]? = some p → p.slots ≤ d.slot ∨ (edgeEnt i.content p.edge).slotBytes < d.offset + d.bytes ∨ ((edgeEnt i.content p.edge).to_ ≠ 0xFF ∧ p.credits ≠ [] ∧ d.slot ∉ p.credits))) := by decide +kernel

theorem wit_steps_and_handovers_14 :
    let s : State := car 3 { state := .running, bound := some aBound }
    let c : Nat := 3
    (s.carrel c).state = .running := by decide +kernel

theorem wit_stack_reads_back_1 :
    let s : State := State.reset
    let source : Nat := 256
    let addr : Nat := 2 ^ 35 - 64
    let data : Bytes := List.replicate 64 7
    s.fabric.stack.store.wf = true ∧
    addr % 64 = 0 ∧
    data.length % 64 = 0 ∧
    64 ≤ data.length ∧
    data.length ≤ 4096 ∧
    addr + data.length ≤ 2 ^ 35 ∧
    ((256 ≤ source ∨ s.mayReach source addr data.length true = true)) := by decide +kernel

theorem wit_stack_reads_back_2 :
    let s : State := State.reset
    let source : Nat := 256
    let addr : Nat := 2 ^ 35 - 64
    let units : Nat := 1
    addr % 64 = 0 ∧
    1 ≤ units ∧
    units ≤ 64 ∧
    addr + 64 * units ≤ 2 ^ 35 ∧
    ((256 ≤ source ∨ s.mayReach source addr (64 * units) false = true)) ∧
    ((∀ i, i < 2 * units → decideWord (s.fabric.stack.store.word (addr / 32 + i)) = .clean)) := by decide +kernel

theorem wit_stack_reads_back_3 :
    let s : State := car 3 { state := .running, bound := some aBound }
    let source : Nat := 3
    let addr : Nat := 2 ^ 35 - 64
    let units : Nat := 1
    let data : Bytes := List.replicate 64 7
    let mask : Option (List Bool) := none
    (s.carrel source).state = .running ∧
    source < 256 ∧
    addr % 64 = 0 ∧
    1 ≤ units ∧
    units ≤ 64 ∧
    addr + 64 * units ≤ 2 ^ 35 ∧
    data.length = 64 * units ∧
    ((∀ m, mask = some m → m.length = data.length)) := by decide +kernel

theorem wit_stack_reads_back_4 :
    let addr : Nat := 32
    let units : Nat := 1
    addr + 64 * units ≤ 2 ^ 35 ∧
    ((addr % 64 ≠ 0 ∨ units = 0 ∨ 64 < units)) := by decide +kernel

theorem wit_stack_reads_back_4b :
    let addr : Nat := 0
    let units : Nat := 65
    addr + 64 * units ≤ 2 ^ 35 ∧
    ((addr % 64 ≠ 0 ∨ units = 0 ∨ 64 < units)) := by decide +kernel

theorem wit_stack_reads_back_5 :
    let addr : Nat := 0
    let data : Bytes := [7]
    addr + data.length ≤ 2 ^ 35 ∧
    ((addr % 64 ≠ 0 ∨ data.length % 64 ≠ 0 ∨ data.length = 0 ∨ 4096 < data.length)) := by decide +kernel

theorem wit_stack_reads_back_6 :
    let addr : Nat := 2 ^ 35
    let units : Nat := 1
    2 ^ 35 < addr + 64 * units := by decide +kernel

theorem wit_stack_reads_back_7 :
    let addr : Nat := 2 ^ 35
    let data : Bytes := [7]
    2 ^ 35 < addr + data.length := by decide +kernel

theorem wit_stack_reads_back_9 :
    let s : State := State.reset.modStack (fun m => { m with store := { data := [(96, 9)], check := [] }, writeBack := [3] })
    let w : Nat := 3
    let p : Nat := 3
    let v : Byte := 9
    w ∈ s.fabric.stack.writeBack ∧
    decideWord (s.fabric.stack.store.word w) = .oneByte p v := by decide +kernel

theorem wit_images_loaded_1 :
    let x : Slip := slip 0x0101 [(6, 2, 0), (24, 4, 64), (40, 2, 1)]
    let s : State := atJob x
    let n : Nat := 0
    let j : Job := jobOf x
    let h : Nat := 1
    s.Startable n 0x0101 j ∧
    fld j.slip 32 2 = 0 ∧
    pieceOk j.slip = true ∧
    fld j.slip 36 4 = 0 ∧
    fld j.slip 35 1 = 0 ∧
    s.freeHandle = some h := by decide +kernel

theorem wit_images_loaded_2 :
    let j : Job := jobOf (slip 0x0101 [(32, 2, 1), (34, 1, 1), (35, 1, 1), (40, 2, 1)])
    let x : Image := { anImage with state := .partial_ }
    let s : State := withSlip (j.slip) (imgs 1 x)
    let y : Image := { x with content := x.content ++ takePad (dataLenOf j.slip) [], received := x.received + dataLenOf j.slip, pieceAt := s.now }
    let n : Nat := 0
    let h : Nat := 1
    let b : Bytes := []
    s.Startable n 0x0101 j ∧
    fld j.slip 32 2 = h ∧
    h ≠ 0 ∧
    s.image h = some x ∧
    pieceOk j.slip = true ∧
    x.follows j = true ∧
    fld j.slip 35 1 = 1 ∧
    y = { x with content := x.content ++ takePad (dataLenOf j.slip) b, received := x.received + dataLenOf j.slip, pieceAt := s.now } ∧
    y.received = imgLen y.content := by decide +kernel

theorem wit_images_loaded_3 :
    let x : Image := { anImage with state := .partial_ }
    let s : State := stampOf { seconds := 10 } (imgs 1 x)
    let h : Nat := 1
    s.image h = some x ∧
    x.state = .partial_ ∧
    x.pieceAt + 10000000000 ≤ s.now := by decide +kernel

theorem wit_images_loaded_4 :
    let i : Image := { anImage with state := .placing 0, content := packB 256 [(18, 2, 1), (26, 2, 1), (130, 2, 1)] }
    let s : State := imgs 1 i (car 255 { state := .idle })
    let c : Nat := 255
    let h : Nat := 1
    let stage : Nat := 0
    let slot : Nat := 0
    s.image h = some i ∧
    c < 256 ∧
    (s.carrel c).state = .idle ∧
    (s.carrel c).bound = none ∧
    s.takes h i (stage, slot) = true ∧
    (stage, slot, c) ∉ i.failed ∧
    s.spillIn (bayOf c) + spilledBytes i.content stage slot ≤ 64 * 2 ^ 20 ∧
    s.taken i.serving < s.share i.serving ∧
    (∀ e ∈ s.fabric.carrels, e.2.bound ≠ some { handle := h, stage := stage, slot := slot, serving := i.serving }) := by decide +kernel

theorem wit_images_loaded_5 :
    let i : Image := { anImage with state := .placing 0, content := packB 256 [(18, 2, 1), (26, 2, 1), (130, 2, 1)] }
    let b : Bound := aBound
    let s : State := (imgs 1 i (car 9 { state := .loading, bound := some b })).modCirc (fun c => { c with
    jobs := [{ jobOf (slip 0x0101 []) with started := true }] })
    let c : Nat := 9
    let n : Nat := 0
    (s.carrel c).state = .loading ∧
    (s.carrel c).bound = some b ∧
    s.image b.handle = some i ∧
    i.state = .placing n ∧
    s.running n = true ∧
    (∀ e ∈ slotSections i.content b.stage b.slot, digest (sectionBytes i.content e) = e.digest) := by decide +kernel

theorem wit_images_loaded_6 :
    let i : Image := { anImage with state := .placing 0, content := packB 256 [(18, 2, 1), (26, 2, 1), (130, 2, 1)] }
    let b : Bound := aBound
    let s : State := (imgs 1 i (car 9 { state := .loading, bound := some b })).modCirc (fun c => { c with
    jobs := [{ jobOf (slip 0x0101 []) with started := true }] })
    let c : Nat := 9
    let n : Nat := 0
    (s.carrel c).state = .loading ∧
    (s.carrel c).bound = some b ∧
    s.image b.handle = some i ∧
    i.state = .placing n ∧
    s.running n = true ∧
    (∀ f ∈ i.failed, ¬(f.1 = b.stage ∧ f.2.1 = b.slot)) := by decide +kernel

theorem wit_images_loaded_7 :
    let i : Image := { anImage with state := .placing 0, content := packB 256 [(18, 2, 1), (26, 2, 1), (130, 2, 1)], failed := [(0, 0, 8)] }
    let b : Bound := aBound
    let s : State := (imgs 1 i (car 9 { state := .loading, bound := some b })).modCirc (fun c => { c with
    jobs := [{ jobOf (slip 0x0101 []) with started := true }] })
    let c : Nat := 9
    let n : Nat := 0
    (s.carrel c).state = .loading ∧
    (s.carrel c).bound = some b ∧
    s.image b.handle = some i ∧
    i.state = .placing n ∧
    s.running n = true ∧
    (∃ f ∈ i.failed, f.1 = b.stage ∧ f.2.1 = b.slot) := by decide +kernel

theorem wit_images_loaded_8 :
    let j : Job := jobOf (slip 0x0102 [(32, 2, 1)])
    let x : Image := anImage
    let s : State := withSlip j.slip (imgs 1 x)
    let n : Nat := 0
    s.Startable n 0x0102 j ∧
    s.image (fld j.slip 32 2) = some x ∧
    x.default_ = false ∧
    x.state = .loaded ∧
    x.queues = [] ∧
    s.handleNamed (fld j.slip 32 2) = false := by decide +kernel

theorem wit_images_loaded_9 :
    let j : Job := jobOf (slip 0x0102 [(32, 2, 1)])
    let x : Image := { anImage with queues := [3] }
    let s : State := withSlip j.slip (imgs 1 x)
    let n : Nat := 0
    s.Startable n 0x0102 j ∧
    s.image (fld j.slip 32 2) = some x ∧
    ((x.default_ = true ∨ x.queues ≠ [])) := by decide +kernel

theorem wit_images_run_1 :
    let j : Job := jobOf (slip 0x0103 [(32, 4, 3), (36, 2, 1)])
    let x : Image := anImage
    let s : State := withSlip j.slip (imgs 1 x (qs 3 { state := .active, serving := true }))
    let n : Nat := 0
    let q : Nat := 3
    let h : Nat := 1
    s.Startable n 0x0103 j ∧
    fld j.slip 32 4 = q ∧
    fld j.slip 36 2 = h ∧
    s.image h = some x ∧
    x.default_ = false ∧
    x.state = .loaded ∧
    (s.queue q).kind = .submission ∧
    (s.queue q).state ≠ .free ∧
    (s.queue q).serving = x.serving ∧
    ((imgStateful x.content = true → ∀ r ∈ x.queues, r = q)) := by decide +kernel

theorem wit_images_run_2 :
    let j : Job := jobOf (slip 0x0104 [(32, 4, 3), (36, 2, 1)])
    let x : Image := { anImage with queues := [3] }
    let s : State := withSlip j.slip (imgs 1 x)
    let n : Nat := 0
    let q : Nat := 3
    let h : Nat := 1
    s.Startable n 0x0104 j ∧
    fld j.slip 32 4 = q ∧
    fld j.slip 36 2 = h ∧
    s.image h = some x ∧
    q ∈ x.queues ∧
    x.unbinding = [] ∧
    (s.took n).runsFrom h q = false := by decide +kernel

theorem wit_images_run_3 :
    let j : Job := jobOf (slip 0x0104 [(32, 4, 3), (36, 2, 1)])
    let x : Image := { anImage with queues := [3] }
    let s : State := (imgs 1 x).modCirc (fun c => { c with jobs := [{ jobOf (slip 0x0110 [(32, 2, 1)]) with num := 1, sq := 3, started := true }, j] })
    let n : Nat := 0
    let q : Nat := 3
    let h : Nat := 1
    s.Startable n 0x0104 j ∧
    fld j.slip 32 4 = q ∧
    fld j.slip 36 2 = h ∧
    s.image h = some x ∧
    q ∈ x.queues ∧
    x.unbinding = [] ∧
    (s.took n).runsFrom h q = true := by decide +kernel

theorem wit_images_run_4 :
    let j : Job := jobOf (slip 0x0105 [(32, 2, 1), (24, 4, 64)])
    let x : Image := anImage
    let s : State := withSlip j.slip (imgs 1 x)
    let n : Nat := 0
    let h : Nat := 1
    s.Startable n 0x0105 j ∧
    fld j.slip 32 2 = h ∧
    s.image h = some x ∧
    x.state = .loaded ∧
    64 + 32 * imgStages x.content ≤ dataLenOf j.slip := by decide +kernel

theorem wit_images_run_5 :
    let j : Job := jobOf (slip 0x0105 [(32, 2, 1), (24, 4, 63)])
    let x : Image := anImage
    let s : State := withSlip j.slip (imgs 1 x)
    let n : Nat := 0
    let h : Nat := 1
    s.Startable n 0x0105 j ∧
    fld j.slip 32 2 = h ∧
    s.image h = some x ∧
    x.state = .loaded ∧
    dataLenOf j.slip < 64 + 32 * imgStages x.content := by decide +kernel

theorem wit_images_run_6 :
    let j : Job := jobOf (slip 0x0110 [(32, 2, 1), (40, 8, 5)])
    let x : Image := { anImage with queues := [0] }
    let s : State := withSlip j.slip (imgs 1 x)
    let n : Nat := 0
    let h : Nat := 1
    s.Startable n 0x0110 j ∧
    fld j.slip 32 2 = h ∧
    s.image h = some x ∧
    x.state = .loaded ∧
    x.complete = true ∧
    (s.runsOf h).length < x.places ∧
    fld j.slip 34 6 = 0 ∧
    fld j.slip 48 16 = 0 ∧
    dataLenOf j.slip = edgeBytes (inputEdges x.content) + edgeBytes (outputEdges x.content) ∧
    j.sq ∈ x.queues ∧
    (∀ p ∈ x.unbinding, p.1 ≠ j.sq) := by decide +kernel

theorem wit_images_run_7 :
    let j : Job := jobOf (slip 0x0110 [(24, 4, 64), (32, 2, 1)])
    let x : Image := { anImage with queues := [0], placed := [(0, 0, 3)], content := packB 192 [(16, 2, 1), (18, 2, 1), (20, 2, 1), (130, 2, 1)] ++ packB 32 [(0, 1, 0xFF), (3, 1, 1), (4, 4, 64)] }
    let s : State := withSlip j.slip (imgs 1 x)
    let n : Nat := 0
    let h : Nat := 1
    let edge : Nat := 0
    let k : Nat := 0
    let e : EdgeEnt := edgeEnt x.content 0
    s.Startable n 0x0110 j ∧
    fld j.slip 32 2 = h ∧
    s.image h = some x ∧
    x.state = .loaded ∧
    x.complete = true ∧
    fld j.slip 34 6 = 0 ∧
    fld j.slip 48 16 = 0 ∧
    dataLenOf j.slip = edgeBytes (inputEdges x.content) + edgeBytes (outputEdges x.content) ∧
    j.sq ∈ x.queues ∧
    (∀ p ∈ x.unbinding, p.1 ≠ j.sq) ∧
    (∀ r ∈ s.images.runs, r.handle ≠ h) ∧
    inputNumbers x.content = [edge] ∧
    edgeEnt x.content edge = e ∧
    e.medium = 0 ∧
    x.inputSlot edge = some k := by decide +kernel

theorem wit_images_run_8 :
    let j : Job := jobOf (slip 0x0110 [(32, 2, 1)])
    let x : Image := { anImage with content := packB 64 [(6, 2, 1)] }
    let r : Run := { job := 1, handle := 1, sq := 0, seedOffset := 0, startAt := 0 }
    let s : State := ({ imgs 1 x with images := { table := [(1, x)], runs := [r] } } : State).modCirc (fun c => { c with
    jobs := [{ jobOf (slip 0x0110 [(32, 2, 1)]) with num := 1, started := true }, j] })
    let n : Nat := 0
    let h : Nat := 1
    s.job n = some j ∧
    fld j.slip 32 2 = h ∧
    s.image h = some x ∧
    ((x.places ≤ (s.runsOf h).length ∨ x.state = .loaded ∧ x.complete = false)) := by decide +kernel

theorem wit_images_run_9 :
    let x : Image := anImage
    let r : Run := { job := 0, handle := 1, sq := 0, seedOffset := 0, startAt := 0, expired := true }
    let s : State := { atJob (slip 0x0110 [(32, 2, 1)]) with images := { table := [(1, x)], runs := [r] } }
    let n : Nat := 0
    s.images.runs.find? (fun r => r.job == n) = some r ∧
    s.image r.handle = some x ∧
    ((r.expired = true ∨ ∃ o ∈ r.outputs, outputDone x.content o = false)) := by decide +kernel

theorem wit_images_run_10 :
    let x : Image := { anImage with content := packB 256 [(16, 2, 1), (18, 2, 1)] }
    let r : Run := { job := 0, handle := 1, sq := 0, seedOffset := 0, startAt := 0, outputs := [(0, [1], [], true)] }
    let s : State := { atJob (slip 0x0110 [(32, 2, 1)]) with images := { table := [(1, x)], runs := [r] } }
    let n : Nat := 0
    s.images.runs.find? (fun r => r.job == n) = some r ∧
    s.image r.handle = some x ∧
    r.expired = false ∧
    (∀ o ∈ r.outputs, outputDone x.content o = true) ∧
    (∃ o ∈ r.outputs, o.2.2.2 = true) := by decide +kernel

theorem wit_images_run_11 :
    let x : Image := anImage
    let r : Run := { job := 0, handle := 1, sq := 0, seedOffset := 0, startAt := 0 }
    let s : State := { atJob (slip 0x0110 [(32, 2, 1)]) with images := { table := [(1, x)], runs := [r] } }
    let n : Nat := 0
    s.images.runs.find? (fun r => r.job == n) = some r ∧
    s.image r.handle = some x ∧
    r.expired = false ∧
    (∀ o ∈ r.outputs, outputDone x.content o = true) ∧
    (∀ o ∈ r.outputs, o.2.2.2 = false) := by decide +kernel

theorem wit_images_run_12 :
    let x : Image := anImage
    let r : Run := { job := 0, handle := 1, sq := 0, seedOffset := 0, startAt := 0 }
    let j : Job := { jobOf (slip 0x0110 [(8, 8, 5), (32, 2, 1)]) with started := true }
    let s : State := later { (State.reset.modCirc (fun c => { c with jobs := [j] })) with images := { table := [(1, x)], runs := [r] } }
    let n : Nat := 0
    s.images.runs.find? (fun r => r.job == n) = some r ∧
    s.job n = some j ∧
    s.passed (deadlineOf j.slip) = true ∧
    s.image r.handle = some x ∧
    (∀ e ∈ s.fabric.carrels, e.2.stepOf n = false) := by decide +kernel

theorem wit_images_run_13 :
    let j : Job := { jobOf (slip 0x0110 [(8, 8, 5), (32, 2, 1)]) with started := true }
    let r : Run := { job := 0, handle := 1, sq := 0, seedOffset := 0, startAt := 0 }
    let s : State := later { (car 3 { state := .running, bound := some aBound, ins := [{ edge := 0, src := 0, slots := 2, held := [{ slot := 0, bytes := 4, seq := 0, run := some 0 }] }] } (State.reset.modCirc (fun c => { c with jobs := [j] }))) with images := { table := [(1, anImage)], runs := [r] } }
    let n : Nat := 0
    s.images.runs.find? (fun r => r.job == n) = some r ∧
    s.job n = some j ∧
    s.passed (deadlineOf j.slip) = true ∧
    (∃ e ∈ s.fabric.carrels, e.2.stepOf n = true) := by decide +kernel

theorem wit_images_run_14 :
    let j : Job := { jobOf (slip 0x0110 [(32, 2, 1)]) with started := true }
    let s : State := State.reset.modCirc (fun c => { c with jobs := [j] })
    let n : Nat := 0
    s.job n = some j ∧
    s.passed (deadlineOf j.slip) = false := by decide +kernel

theorem wit_streams_opened_1 :
    let x : Slip := slip 0x0820 [(24, 4, 64), (32, 2, 1023)]
    let s : State := atJob x
    let n : Nat := 0
    let j : Job := jobOf x
    let k : Nat := 1023
    let b : Bytes := videoDesc
    let d : StreamDesc := streamDescOf b
    s.Startable n 0x0820 j ∧
    fld j.slip 32 2 = k ∧
    paramsClear j.slip [(32, 2)] = true ∧
    k ≤ 1023 ∧
    dataLenOf j.slip = 64 ∧
    s.stream k = none ∧
    b.length = 64 ∧
    d = streamDescOf b ∧
    s.streamDescOk b = true ∧
    d.udpPort ≠ 319 ∧
    d.udpPort ≠ 320 ∧
    (∀ e ∈ s.accession.streams, e.2.desc.same d = false) ∧
    s.streamRoom k d = true ∧
    s.frameStoreUsed + s.streamBytes d ≤ frameStoreBytes := by decide +kernel

theorem wit_streams_opened_2 :
    let j : Job := jobOf (slip 0x0821 [(32, 2, 9)])
    let x : Stream := aStream videoDesc
    let s : State := withSlip j.slip (strm 9 x)
    let n : Nat := 0
    let k : Nat := 9
    s.Startable n 0x0821 j ∧
    fld j.slip 32 2 = k ∧
    paramsClear j.slip [(32, 2)] = true ∧
    k ≤ 1023 ∧
    s.stream k = some x ∧
    x.closing = none ∧
    ((∀ e ∈ x.buffers, e = .free ∨ e = .filling)) ∧
    s.boundTo k = none ∧
    (∀ g ∈ s.vision.graphs, g.1 ≠ k ∧ g.2.set.pair ≠ some k) ∧
    (∀ c ∈ x.channels, c.pending = []) := by decide +kernel

theorem wit_streams_opened_3 :
    let j : Job := jobOf (slip 0x0822 [(24, 4, 64), (32, 2, 9)])
    let x : Stream := aStream videoDesc
    let s : State := withSlip j.slip (strm 9 x)
    let n : Nat := 0
    let k : Nat := 9
    s.Startable n 0x0822 j ∧
    fld j.slip 32 2 = k ∧
    paramsClear j.slip [(32, 2)] = true ∧
    k ≤ 1023 ∧
    s.stream k = some x ∧
    64 ≤ dataLenOf j.slip := by decide +kernel

theorem wit_streams_opened_4 :
    let x : Stream := { aStream videoDesc with openedAt := 0 }
    let s : State := later (strm 9 x)
    let k : Nat := 9
    s.stream k = some x ∧
    x.silent = false ∧
    x.closing = none ∧
    max x.lastArrival x.openedAt + x.desc.silence ≤ s.now := by decide +kernel

theorem wit_packets_taken_1 :
    let a : Arrival := arrived (rtpPacket 2 1000)
    let f : Frame := aFrame 1000
    let x : Stream := { aStream videoDesc with frame := some f, buffers := [.filling, .free] }
    let s : State := atStation a (strm 3 x)
    let l : Nat := 0
    let n : Nat := 3
    let r : Rtp := rtpOf ((parseFrame a.frame).data a.frame)
    s.PacketFor l 0 n x a ∧
    r = rtpOf ((parseFrame a.frame).data a.frame) ∧
    videoFault x.desc r = none ∧
    x.frame = some f ∧
    f.rtp = r.timestamp ∧
    ((x.ssrc = none ∨ x.ssrc = some r.ssrc)) := by decide +kernel

theorem wit_packets_taken_2 :
    let a : Arrival := arrived (rtpPacket 2 1000)
    let x : Stream := aStream videoDesc
    let s : State := atStation a (strm 3 x)
    let l : Nat := 0
    let n : Nat := 3
    let r : Rtp := rtpOf ((parseFrame a.frame).data a.frame)
    s.PacketFor l 0 n x a ∧
    r = rtpOf ((parseFrame a.frame).data a.frame) ∧
    videoFault x.desc r = none ∧
    x.frame = none ∧
    x.isClosed r.timestamp = false ∧
    x.poolWait = false ∧
    x.sramBand = false ∧
    ((x.ssrc = none ∨ x.ssrc = some r.ssrc)) := by decide +kernel

theorem wit_packets_taken_3 :
    let a : Arrival := arrived ([0x80, 97] ++ (rtpPacket 2 1000).drop 2)
    let x : Stream := aStream videoDesc
    let s : State := atStation a (strm 3 x)
    let l : Nat := 0
    let n : Nat := 3
    let reason : Nat := 2
    s.PacketFor l 0 n x a ∧
    videoFault x.desc (rtpOf ((parseFrame a.frame).data a.frame)) = some reason := by decide +kernel

theorem wit_packets_taken_4 :
    let b : Bytes := packB 32 [(0, 2, 0x5A53), (2, 1, 1), (3, 1, 1), (8, 8, 40), (24, 2, 1), (26, 2, 2)] ++ List.replicate 4 0
    let a : Arrival := arrived b
    let x : Stream := { aStream sampleDesc with expected := some 40 }
    let s : State := atStation a (strm 3 x)
    let l : Nat := 0
    let n : Nat := 3
    s.PacketFor l 1 n x a ∧
    b = (parseFrame a.frame).data a.frame ∧
    sampleFault x.desc b = none ∧
    x.desc.preset = 0 ∧
    x.desc.timing = 0 ∧
    x.expected = some (fldB b 8 8) ∧
    (fldB b 29 1).testBit 1 = false := by decide +kernel

theorem wit_packets_taken_5 :
    let b : Bytes := packB 32 [(0, 2, 0x5A53), (2, 1, 1), (3, 1, 2), (16, 4, 5), (20, 2, 1), (22, 2, 2), (24, 2, 1)] ++ List.replicate (pointBytes 0) 0
    let a : Arrival := arrived b
    let q : PointSet := aSet
    let x : Stream := { aStream pointDesc with set := some q, buffers := [.filling, .free] }
    let s : State := atStation a (strm 3 x)
    let l : Nat := 0
    let n : Nat := 3
    s.PacketFor l 2 n x a ∧
    b = (parseFrame a.frame).data a.frame ∧
    pointFault x.desc b = none ∧
    x.set = some q ∧
    q.set = fldB b 16 4 ∧
    q.parts = fldB b 22 2 ∧
    q.got = [] ∧
    q.dropped = [] ∧
    fldB b 24 2 ≤ x.desc.capacity ∧
    1 < fldB b 22 2 := by decide +kernel

theorem wit_packets_taken_6 :
    let f : Frame := { aFrame 1000 with marker := some 0 }
    let x : Stream := { aStream videoDesc with frame := some f, buffers := [.filling, .free] }
    let s : State := later (strm 3 x)
    let k : Nat := 3
    let m : Nat := 0
    s.stream k = some x ∧
    x.frame = some f ∧
    f.marker = some m ∧
    m + 50000 ≤ s.now := by decide +kernel

theorem wit_packets_taken_7 :
    let f : Frame := aFrame 1000
    let x : Stream := { aStream videoDesc with frame := some f, buffers := [.filling, .free] }
    let s : State := later (strm 3 x)
    let k : Nat := 3
    s.stream k = some x ∧
    x.frame = some f ∧
    f.arrival + x.desc.twoPeriods ≤ s.now := by decide +kernel

theorem wit_packets_taken_8 :
    let p : PointSet := aSet
    let x : Stream := { aStream pointDesc with set := some p, buffers := [.filling, .free] }
    let s : State := later (strm 3 x)
    let k : Nat := 3
    s.stream k = some x ∧
    x.set = some p ∧
    p.arrival + x.desc.twoPeriods ≤ s.now := by decide +kernel

theorem wit_chains_and_tables_1 :
    let x : Slip := slip 0x0824 [(24, 4, 4), (32, 1, 15), (33, 1, 3), (34, 1, 4), (36, 2, 1)]
    let s : State := atJob x
    let n : Nat := 0
    let j : Job := jobOf x
    let c : Nat := 15
    let b : Bytes := le 4 0x3F800000
    s.Startable n 0x0824 j ∧
    fld j.slip 32 1 = c ∧
    c ≤ 15 ∧
    3 ≤ fld j.slip 33 1 ∧
    fld j.slip 33 1 ≤ 5 ∧
    fld j.slip 34 1 ∈ [4, 8, 16, 32, 64] ∧
    1 ≤ fld j.slip 36 2 ∧
    fld j.slip 36 2 ≤ 255 ∧
    paramsClear j.slip [(32, 3), (36, 2)] = true ∧
    dataLenOf j.slip = 4 * fld j.slip 36 2 ∧
    b.length = dataLenOf j.slip ∧
    (tapsOf j.slip b).all f32finite = true ∧
    (tapsOf j.slip b).reverse = tapsOf j.slip b ∧
    s.chainNamed c = false := by decide +kernel

theorem wit_chains_and_tables_2 :
    let x : Stream := { desc := { streamDescOf sampleDesc with channels := 8, preset := 1 }, openedAt := 0, channels := List.replicate 8 {} }
    let j : Job := jobOf (slip 0x0825 [(32, 2, 9), (34, 1, 7), (36, 1, 4), (40, 4, 0x40000000), (44, 4, 0x3F800000)])
    let s : State := withSlip j.slip (strm 9 x)
    let n : Nat := 0
    let k : Nat := 9
    s.Startable n 0x0825 j ∧
    fld j.slip 32 2 = k ∧
    s.stream k = some x ∧
    x.desc.kind = 1 ∧
    x.desc.preset ≠ 0 ∧
    x.closing = none ∧
    fld j.slip 34 1 < x.desc.channels ∧
    channelSetOk j.slip = true := by decide +kernel

theorem wit_chains_and_tables_3 :
    let x : Stream := aStream sampleDesc
    let j : Job := jobOf (slip 0x0826 [(24, 4, 32), (32, 2, 9)])
    let s : State := withSlip j.slip (strm 9 x)
    let n : Nat := 0
    let k : Nat := 9
    s.Startable n 0x0826 j ∧
    fld j.slip 32 2 = k ∧
    s.stream k = some x ∧
    x.desc.kind = 1 ∧
    32 * x.desc.channels ≤ dataLenOf j.slip := by decide +kernel

theorem wit_chains_and_tables_4 :
    let b : Bytes := packB 96 [(0, 4, 0x5A524D50), (4, 2, 16), (6, 2, 16), (8, 2, 16), (10, 2, 16), (12, 1, 4), (14, 2, 2), (16, 2, 2)]
    let j : Job := jobOf (slip 0x0705 [(24, 4, 96), (32, 4, 5)])
    let s : State := atJob j.slip
    let n : Nat := 0
    let k : Nat := 5
    s.Startable n 0x0705 j ∧
    fld j.slip 32 4 = k ∧
    k ≠ 0 ∧
    paramsClear j.slip [(32, 4)] = true ∧
    amGet s.accession.remaps k = none ∧
    s.accession.remaps.length < 256 ∧
    b.length = dataLenOf j.slip ∧
    remapHeaderOk b (dataLenOf j.slip) = true ∧
    (remapFrom b).band ≤ 1024 ∧
    s.frameStoreUsed + (remapFrom b).bytes ≤ frameStoreBytes := by decide +kernel

theorem wit_chains_and_tables_5 :
    let j : Job := jobOf (slip 0x0706 [(32, 4, 5)])
    let s : State := withSlip j.slip { State.reset with accession := { remaps := [(5, remapFrom [])] } }
    let n : Nat := 0
    let k : Nat := 5
    s.Startable n 0x0706 j ∧
    fld j.slip 32 4 = k ∧
    k ≠ 0 ∧
    paramsClear j.slip [(32, 4)] = true ∧
    (amGet s.accession.remaps k).isSome = true ∧
    (∀ e ∈ s.accession.streams, e.2.desc.remap ≠ k) := by decide +kernel

theorem wit_graphs_run_1 :
    let x : Stream := { aStream videoDesc with buffers := List.replicate 8 .free, desc := { streamDescOf videoDesc with buffers := 8 } }
    let j : Job := jobOf graphSlip
    let s : State := withSlip j.slip (strm 3 x flowing)
    let n : Nat := 0
    let k : Nat := 3
    let g : GraphSet := graphSetOf j.slip
    let c : Bytes := flowImg
    s.Startable n 0x0701 j ∧
    fld j.slip 32 2 = k ∧
    g = graphSetOf j.slip ∧
    s.stream k = some x ∧
    x.desc.kind = 0 ∧
    x.closing = none ∧
    s.graph k = none ∧
    s.flowImage g.flowImage = some c ∧
    ((g.flow = true → flowFits c g (s.planeSize x.desc).1 (s.planeSize x.desc).2 = true)) ∧
    s.pairBad k x g = false ∧
    g.depth + 2 ≤ x.desc.buffers ∧
    s.graphFieldsOk j.slip = true ∧
    g.stagesOk = true := by decide +kernel

theorem wit_graphs_run_2 :
    let x : Stream := { aStream videoDesc with buffers := List.replicate 8 .free, desc := { streamDescOf videoDesc with buffers := 8 } }
    let j : Job := jobOf graphSlip
    let s : State := withSlip j.slip (strm 3 x)
    let n : Nat := 0
    let k : Nat := 3
    s.Startable n 0x0701 j ∧
    fld j.slip 32 2 = k ∧
    s.stream k = some x ∧
    s.flowImage (graphSetOf j.slip).flowImage = none := by decide +kernel

theorem wit_graphs_run_3 :
    let g : Graph := { set := graphSetOf graphSlip }
    let x : Stream := aStream videoDesc
    let j : Job := jobOf (slip 0x0702 [(32, 2, 3)])
    let s : State := withSlip j.slip (grph g (strm 3 x))
    let n : Nat := 0
    let k : Nat := 3
    s.Startable n 0x0702 j ∧
    fld j.slip 32 2 = k ∧
    paramsClear j.slip [(32, 2)] = true ∧
    s.graph k = some g ∧
    s.stream k = some x ∧
    g.state = .defined ∧
    x.closing = none ∧
    s.frameStoreUsed + graphBytes g.set (s.planeSize x.desc).1 (s.planeSize x.desc).2 ≤ frameStoreBytes := by decide +kernel

theorem wit_graphs_run_4 :
    let g : Graph := { set := graphSetOf graphSlip, state := .running, inFlight := [{ number := 1, buffer := 0, stage := 2, restart := false, deliveredAt := 0 }] }
    let j : Job := jobOf (slip 0x0703 [(32, 2, 3)])
    let s : State := withSlip j.slip (grph g (strm 3 (aStream videoDesc)))
    let n : Nat := 0
    let k : Nat := 3
    s.Startable n 0x0703 j ∧
    fld j.slip 32 2 = k ∧
    paramsClear j.slip [(32, 2)] = true ∧
    s.graph k = some g ∧
    g.state = .running ∧
    g.inFlight ≠ [] := by decide +kernel

theorem wit_graphs_run_5 :
    let g : Graph := { set := graphSetOf graphSlip, state := .running }
    let j : Job := jobOf (slip 0x0703 [(32, 2, 3)])
    let s : State := withSlip j.slip (grph g (strm 3 (aStream videoDesc)))
    let n : Nat := 0
    let k : Nat := 3
    s.Startable n 0x0703 j ∧
    fld j.slip 32 2 = k ∧
    paramsClear j.slip [(32, 2)] = true ∧
    s.graph k = some g ∧
    g.state = .running ∧
    g.inFlight = [] ∧
    (s.stream k).any (·.closing.isSome) = false ∧
    (g.set.pair.bind s.stream).any (·.closing.isSome) = false := by decide +kernel

theorem wit_graphs_run_6 :
    let g : Graph := { set := graphSetOf graphSlip }
    let j : Job := jobOf (slip 0x0704 [(24, 4, 64), (32, 2, 3)])
    let s : State := withSlip j.slip (grph g)
    let n : Nat := 0
    let k : Nat := 3
    s.Startable n 0x0704 j ∧
    fld j.slip 32 2 = k ∧
    paramsClear j.slip [(32, 2)] = true ∧
    s.graph k = some g ∧
    64 ≤ dataLenOf j.slip := by decide +kernel

theorem wit_graphs_run_7 :
    let g : Graph := { set := graphSetOf graphSlip }
    let j : Job := jobOf (slip 0x0707 [(32, 2, 3)])
    let s : State := withSlip j.slip (grph g)
    let n : Nat := 0
    let k : Nat := 3
    s.Startable n 0x0707 j ∧
    fld j.slip 32 2 = k ∧
    paramsClear j.slip [(32, 2)] = true ∧
    s.graph k = some g ∧
    g.state = .defined := by decide +kernel

theorem wit_graphs_run_8 :
    let r : FrameRun := { number := 0, buffer := 0, stage := 2, restart := false, deliveredAt := 0 }
    let g : Graph := { set := { graphSetOf graphSlip with stereo := true, pair := some 4 }, state := .running, inFlight := [r] }
    let f : Frame := aFrame 1000
    let x : Stream := { aStream videoDesc with buffers := [.frame f [], .free] }
    let c : Nat × Frame := (0, f)
    let s : State := later (grph g (strm 3 x (strm 4 x)))
    let k : Nat := 3
    let number : Nat := 0
    let p : Nat := 4
    s.graph k = some g ∧
    g.frame number = some r ∧
    g.set.pair = some p ∧
    s.stream p = some x ∧
    s.frameIn k r.buffer = some f ∧
    g.set.stereo = true ∧
    r.stage = 2 ∧
    r.other = none ∧
    r.deliveredAt + x.desc.twoPeriods ≤ s.now ∧
    choosePair g.set.pairTol f.capture (s.pairFrames p) = some c := by decide +kernel

theorem wit_graphs_run_9 :
    let l : List (Nat × Frame) := [(0, { aFrame 1000 with capture := 900 }), (1, { aFrame 1000 with capture := 1100 })]
    let tol : Nat := 1
    let capture : Nat := 1000
    let c : Nat × Frame := (0, { aFrame 1000 with capture := 900 })
    choosePair tol capture l = some c := by decide +kernel

theorem wit_graphs_run_10 :
    let r : FrameRun := { number := 0, buffer := 0, stage := 6, restart := false, deliveredAt := 0 }
    let g : Graph := { set := graphSetOf graphSlip, state := .running, inFlight := [r] }
    let s : State := grph g (strm 3 { aStream videoDesc with buffers := [.frame (aFrame 1000) [.graph 3 0], .free] })
    let k : Nat := 3
    let number : Nat := 0
    s.graph k = some g ∧
    g.frame number = some r ∧
    r.stage = 6 := by decide +kernel

theorem wit_fusion_commands_1 :
    let x : Slip := slip 0x0601 [(24, 4, 64)]
    let s : State := withSlip x (fusing)
    let n : Nat := 0
    let j : Job := jobOf x
    let b : Bytes := gridBytes
    s.Startable n 0x0601 j ∧
    dataLenOf j.slip = 64 ∧
    fld j.slip 32 32 = 0 ∧
    b.length = 64 ∧
    s.gridOk b = true ∧
    s.concord.state ≠ .running ∧
    s.concord.state ≠ .stopping ∧
    s.gridImageOk (gridSetOf b).image = true := by decide +kernel

theorem wit_fusion_commands_2 :
    let g : GridSet := gridSetOf gridBytes
    let x : Slip := slip 0x0602 []
    let s : State := withSlip x (later (conc { grid := some g, state := .set }))
    let n : Nat := 0
    let j : Job := jobOf x
    let t0 : Nat := (s.now / g.period + 1) * g.period
    s.Startable n 0x0602 j ∧
    s.concord.grid = some g ∧
    fld j.slip 40 24 = 0 ∧
    s.concord.state = .set ∧
    t0 = (if fld j.slip 32 8 = 0 then (s.now / g.period + 1) * g.period else fld j.slip 32 8) := by decide +kernel

theorem wit_fusion_commands_3 :
    let e : Epoch := anEpoch
    let x : Slip := slip 0x0603 []
    let s : State := withSlip x (conc { grid := some (gridSetOf gridBytes), state := .running, computing := some e })
    let n : Nat := 0
    let j : Job := jobOf x
    s.Startable n 0x0603 j ∧
    fld j.slip 32 32 = 0 ∧
    s.concord.state = .running ∧
    s.concord.computing = some e ∧
    s.concord.closing = none := by decide +kernel

theorem wit_fusion_commands_4 :
    let x : Slip := slip 0x0603 []
    let s : State := withSlip x (conc { grid := some (gridSetOf gridBytes), state := .running })
    let n : Nat := 0
    let j : Job := jobOf x
    s.Startable n 0x0603 j ∧
    fld j.slip 32 32 = 0 ∧
    s.concord.state = .running ∧
    s.concord.computing = none ∧
    s.concord.amending = false ∧
    s.concord.closing = none := by decide +kernel

theorem wit_fusion_commands_5 :
    let x : Slip := slip 0x0604 [(24, 4, 896), (32, 2, 255)]
    let s : State := withSlip x (strm 9 (aStream pointDesc))
    let n : Nat := 0
    let j : Job := jobOf x
    let k : Nat := 255
    let b : Bytes := bindBytes
    s.Startable n 0x0604 j ∧
    fld j.slip 32 2 = k ∧
    k ≤ 255 ∧
    fld j.slip 34 30 = 0 ∧
    b.length = dataLenOf j.slip ∧
    bindingOk b (dataLenOf j.slip) = true ∧
    amGet s.concord.bindings k = none ∧
    s.boundTo (bindingOf b).stream = none ∧
    s.sourceMatches (bindingOf b) = true := by decide +kernel

theorem wit_fusion_commands_6 :
    let x : Binding := aBinding
    let j : Job := jobOf (slip 0x0605 [(32, 2, 4)])
    let s : State := withSlip j.slip (conc { grid := some (gridSetOf gridBytes), state := .running, bindings := [(4, x)] })
    let n : Nat := 0
    let k : Nat := 4
    s.Startable n 0x0605 j ∧
    fld j.slip 32 2 = k ∧
    k ≤ 255 ∧
    fld j.slip 34 30 = 0 ∧
    amGet s.concord.bindings k = some x := by decide +kernel

theorem wit_fusion_commands_6b :
    let x : Binding := aBinding
    let j : Job := jobOf (slip 0x0605 [(32, 2, 4)])
    let s : State := withSlip j.slip (conc { grid := some (gridSetOf gridBytes), state := .set, bindings := [(4, x)] })
    let n : Nat := 0
    let k : Nat := 4
    s.Startable n 0x0605 j ∧
    fld j.slip 32 2 = k ∧
    k ≤ 255 ∧
    fld j.slip 34 30 = 0 ∧
    amGet s.concord.bindings k = some x := by decide +kernel

theorem wit_fusion_commands_7 :
    let x : Slip := slip 0x0606 [(32, 2, 4)]
    let s : State := withSlip x (conc { bindings := [(4, aBinding)] })
    let n : Nat := 0
    let j : Job := jobOf x
    let k : Nat := 4
    s.Startable n 0x0606 j ∧
    fld j.slip 32 2 = k ∧
    k ≤ 255 ∧
    fld j.slip 34 30 = 0 ∧
    (amGet s.concord.bindings k).isSome = true := by decide +kernel

theorem wit_fusion_commands_8 :
    let x : Slip := slip 0x0607 [(32, 2, 4)]
    let s : State := withSlip x (conc { bindings := [(4, aBinding)] })
    let n : Nat := 0
    let j : Job := jobOf x
    let k : Nat := 4
    s.Startable n 0x0607 j ∧
    fld j.slip 32 2 = k ∧
    k ≤ 255 ∧
    fld j.slip 34 30 = 0 ∧
    (amGet s.concord.bindings k).isSome = true := by decide +kernel

theorem wit_fusion_commands_9 :
    let x : Slip := slip 0x0608 [(24, 4, 64)]
    let s : State := atJob x
    let n : Nat := 0
    let j : Job := jobOf x
    s.Startable n 0x0608 j ∧
    fld j.slip 32 32 = 0 ∧
    64 ≤ dataLenOf j.slip := by decide +kernel

theorem wit_fusion_commands_10 :
    let x : Slip := slip 0x0609 [(24, 4, 48)]
    let s : State := withSlip x (conc { bindings := [(4, aBinding)] })
    let n : Nat := 0
    let j : Job := jobOf x
    s.Startable n 0x0609 j ∧
    fld j.slip 32 32 = 0 ∧
    48 * s.concord.bindings.length ≤ dataLenOf j.slip := by decide +kernel

theorem wit_fusion_commands_11 :
    let l : TrackList := { seq := 1, amendment := false, header := zeros 64, tracks := [zeros 64, zeros 64] }
    let x : Slip := slip 0x0610 [(24, 4, 192)]
    let s : State := withSlip x (conc { lists := [l] })
    let n : Nat := 0
    let j : Job := jobOf x
    let k : Nat := 1
    s.Startable n 0x0610 j ∧
    fld j.slip 36 28 = 0 ∧
    128 ≤ dataLenOf j.slip ∧
    s.concord.listAfter (fld j.slip 32 4) = some l ∧
    k = min l.tracks.length ((dataLenOf j.slip - 128) / 64) := by decide +kernel

theorem wit_fusion_commands_12 :
    let x : Slip := slip 0x0610 [(24, 4, 128), (32, 4, 1)]
    let s : State := withSlip x (conc { lists := [{ seq := 1, amendment := false, header := zeros 64, tracks := [] }] })
    let n : Nat := 0
    let j : Job := jobOf x
    s.job n = some j ∧
    fld j.slip 36 28 = 0 ∧
    128 ≤ dataLenOf j.slip ∧
    s.concord.listAfter (fld j.slip 32 4) = none := by decide +kernel

theorem wit_epochs_close_1 :
    let s : State := errata { down := [{ unit := 0x15, inst := 0, seq := 9 }] } (conc { reached := [{ stream := 9, number := 0, instant := 5, implausible := true, data := .set [] }] })
    s.unitWorks 0x0015 0 = false := by decide +kernel

theorem wit_epochs_close_2 :
    let g : GridSet := gridSetOf gridBytes
    let x : Binding := aBinding
    let b : Nat := 4
    let u : Reached := { stream := 9, number := 0, instant := 5, implausible := true, data := .set [] }
    let rest : List Reached := []
    let s : State := conc { grid := some g, state := .running, bindings := [(4, x)], reached := [u] }
    s.unitWorks 0x0015 0 = true ∧
    s.concord.reached = u :: rest ∧
    s.concord.grid = some g ∧
    s.boundTo u.stream = some (b, x) ∧
    amGet s.concord.bindings b = some x ∧
    s.concord.state = .running ∧
    u.implausible = true := by decide +kernel

theorem wit_epochs_close_3 :
    let g : GridSet := gridSetOf gridBytes
    let x : Binding := aBinding
    let b : Nat := 4
    let u : Reached := { stream := 9, number := 0, instant := 50000001, implausible := false, data := .set [] }
    let rest : List Reached := []
    let s : State := conc { grid := some g, state := .running, bindings := [(4, x)], reached := [u], openEpoch := 1 }
    let e : Nat := 2
    s.unitWorks 0x0015 0 = true ∧
    s.concord.reached = u :: rest ∧
    s.concord.grid = some g ∧
    s.boundTo u.stream = some (b, x) ∧
    amGet s.concord.bindings b = some x ∧
    s.concord.state = .running ∧
    u.implausible = false ∧
    s.concord.origin < u.instant ∧
    e = epochOf s.concord.origin g.period u.instant ∧
    s.concord.openEpoch ≤ e ∧
    e ≤ s.concord.openEpoch + 1 := by decide +kernel

theorem wit_epochs_close_4 :
    let g : GridSet := gridSetOf gridBytes
    let s : State := later (conc { grid := some g, state := .running, openEpoch := 3 })
    s.concord.grid = some g ∧
    s.concord.state = .running ∧
    g.complete = false ∧
    s.concord.instant g s.concord.openEpoch + msNs g.closeDelayMs ≤ s.now ∧
    s.concord.computing = none ∧
    s.concord.amending = false ∧
    s.concord.closing = none := by decide +kernel

theorem wit_epochs_close_5 :
    let g : GridSet := gridSetOf gridBytes
    let e : Epoch := anEpoch
    let s : State := later (conc { grid := some g, state := .running, openEpoch := 4, computing := some e })
    s.concord.grid = some g ∧
    s.concord.state = .running ∧
    g.complete = false ∧
    s.concord.instant g s.concord.openEpoch + msNs g.closeDelayMs ≤ s.now ∧
    s.concord.computing = some e ∧
    s.concord.closing = none := by decide +kernel

theorem wit_epochs_close_6 :
    let g : GridSet := { gridSetOf gridBytes with complete := true }
    let s : State := later (conc { grid := some g, state := .running, openEpoch := 3 })
    s.concord.grid = some g ∧
    s.concord.state = .running ∧
    g.complete = true ∧
    s.concord.instant g s.concord.openEpoch + msNs g.closeLimitMs ≤ s.now ∧
    s.concord.computing = none ∧
    s.concord.amending = false ∧
    s.concord.closing = none := by decide +kernel

theorem wit_epochs_close_7 :
    let g : GridSet := gridSetOf gridBytes
    let s : State := later (conc { grid := some g, state := .running, openEpoch := 3, closing := some (5, false, true) })
    let due : Nat := 5
    let byLimit : Bool := false
    let overrun : Bool := true
    s.concord.grid = some g ∧
    s.concord.closing = some (due, byLimit, overrun) ∧
    s.stamp.refLost = false := by decide +kernel

theorem wit_epochs_close_8 :
    let g : GridSet := gridSetOf gridBytes
    let x : Binding := aBinding
    let b : Nat := 4
    let u : Reached := { stream := 9, number := 0, instant := 50000001, implausible := false, data := .set [] }
    let s : State := later (conc { grid := some g, state := .running, bindings := [(4, x)], reached := [u], openEpoch := 2, closing := some (5, false, false) })
    let due : Nat := 5
    let byLimit : Bool := false
    let overrun : Bool := false
    s.concord.grid = some g ∧
    s.concord.closing = some (due, byLimit, overrun) ∧
    s.stamp.refLost = false ∧
    s.concord.reached = [u] ∧
    s.boundTo u.stream = some (b, x) ∧
    s.concord.state = .running ∧
    u.implausible = false ∧
    s.concord.origin < u.instant ∧
    epochOf s.concord.origin g.period u.instant = s.concord.openEpoch := by decide +kernel

theorem wit_epochs_close_9 :
    let g : GridSet := gridSetOf gridBytes
    let e : Epoch := { anEpoch with failedTiles := 1 }
    let s : State := conc { grid := some g, state := .running, computing := some e }
    s.concord.grid = some g ∧
    s.concord.computing = some e ∧
    e.failedTiles ≠ 0 ∧
    e.retried = false := by decide +kernel

theorem wit_epochs_close_10 :
    let g : GridSet := gridSetOf gridBytes
    let e : Epoch := { anEpoch with failedTiles := 1, retried := true }
    let s : State := conc { grid := some g, state := .running, computing := some e }
    s.concord.grid = some g ∧
    s.concord.computing = some e ∧
    e.failedTiles ≠ 0 ∧
    e.retried = true ∧
    s.concord.state = .running := by decide +kernel

theorem wit_epochs_close_11 :
    let g : GridSet := gridSetOf gridBytes
    let e : Epoch := anEpoch
    let s : State := conc { grid := some g, state := .running, computing := some e }
    let runs : List (Bytes × Bytes) := (List.range 256).map (tileRun (s.gridImage g) e.number e.cells (s.concord.buffers.getD (e.number % 3) []))
    s.concord.grid = some g ∧
    s.concord.computing = some e ∧
    s.concord.state = .running ∧
    e.failedTiles = 0 ∧
    runs = (List.range 256).map (tileRun (s.gridImage g) e.number e.cells (s.concord.buffers.getD (e.number % 3) [])) := by
    intro g e s runs
    exact ⟨rfl, rfl, rfl, rfl, rfl⟩

theorem wit_epochs_close_12 :
    let g : GridSet := gridSetOf gridBytes
    let e : Epoch := anEpoch
    let s : State := conc { grid := some g, state := .running, retained := some e, amending := true }
    s.concord.grid = some g ∧
    s.concord.retained = some e ∧
    s.concord.state = .running ∧
    s.concord.amending = true := by decide +kernel

theorem wit_sessions_opened_1 :
    let x : Slip := slip 0x0201 [(24, 4, 256)]
    let s : State := atJob x
    let n : Nat := 0
    let j : Job := jobOf x
    let i : Nat := 0
    let b : Bytes := sessionBytes
    let r : Bytes := []
    let key : Bytes := (b.drop 192).take 32
    let d : SessionDesc := sessionDescOf b key
    s.Startable n 0x0201 j ∧
    dataLenOf j.slip = 256 ∧
    fld j.slip 32 32 = 0 ∧
    b.length = 256 ∧
    s.sessionDescOk b = true ∧
    fldB b 0 1 = s.position ∧
    s.position ∈ s.present ∧
    (((fldB b 5 1).testBit 0 = true → s.vault.sessionRoot = some r)) ∧
    key = (if (fldB b 5 1).testBit 0 then kmac32 r ((b.drop 192).take 32) "HTL8800 session key" else if (sessionDescOf b []).host then zeros 32 else (b.drop 192).take 32) ∧
    d = sessionDescOf b key ∧
    ((d.host = true → hostResident d.bindQueue = true ∧ (s.queue d.bindQueue).kind = .submission ∧ (s.queue d.bindQueue).state = .active ∧ (s.queue d.bindQueue).serving = true)) ∧
    s.sessions.open_.length < min 65536 s.curator.policy.maxSessions ∧
    s.admitted + d.rate * d.units ≤ s.uMax ∧
    s.sessions.index = some i := by decide +kernel

theorem wit_sessions_opened_2 :
    let x : Session := { aSession with closed := [aQuery] }
    let j : Job := jobOf (slip 0x0202 [(32, 4, 5)])
    let s : State := withSlip j.slip (sess x)
    let n : Nat := 0
    let i : Nat := 5
    s.Startable n 0x0202 j ∧
    dataLenOf j.slip = 0 ∧
    paramsClear j.slip [(32, 4)] = true ∧
    s.sessionNamed (fld j.slip 32 4) = some (i, x) ∧
    x.closing = false ∧
    ((x.service.isSome = true ∨ x.closed ≠ [])) := by decide +kernel

theorem wit_sessions_opened_3 :
    let x : Session := aSession
    let j : Job := jobOf (slip 0x0202 [(32, 4, 5)])
    let s : State := withSlip j.slip (sess x)
    let n : Nat := 0
    let i : Nat := 5
    s.Startable n 0x0202 j ∧
    dataLenOf j.slip = 0 ∧
    paramsClear j.slip [(32, 4)] = true ∧
    s.sessionNamed (fld j.slip 32 4) = some (i, x) ∧
    x.closing = false ∧
    x.service = none ∧
    x.closed = [] ∧
    amWf s.sessions.open_ = true := by decide +kernel

theorem wit_sessions_opened_4 :
    let x : Session := { aSession with closed := [aQuery] }
    let s : State := stampOf { seconds := 90000 } (sess x)
    let i : Nat := 5
    s.session i = some x ∧
    x.closing = false ∧
    x.desc.idle ≠ 0 ∧
    x.usedAt + x.desc.idle * 1000000000 ≤ s.now ∧
    ((x.service.isSome = true ∨ x.closed ≠ [])) := by decide +kernel

theorem wit_sessions_opened_5 :
    let x : Session := aSession
    let s : State := stampOf { seconds := 90000 } (sess x)
    let i : Nat := 5
    s.session i = some x ∧
    x.closing = false ∧
    x.desc.idle ≠ 0 ∧
    x.usedAt + x.desc.idle * 1000000000 ≤ s.now ∧
    x.service = none ∧
    x.closed = [] ∧
    amWf s.sessions.open_ = true := by decide +kernel

theorem wit_sessions_opened_6 :
    let x : Session := aSession
    let j : Job := jobOf (slip 0x0203 [(24, 4, 128), (32, 4, 5)])
    let s : State := withSlip j.slip (sess x)
    let n : Nat := 0
    let i : Nat := 5
    s.Startable n 0x0203 j ∧
    paramsClear j.slip [(32, 4)] = true ∧
    s.sessionNamed (fld j.slip 32 4) = some (i, x) ∧
    128 ≤ dataLenOf j.slip := by decide +kernel

theorem wit_sessions_opened_7 :
    let x : Session := aSession
    let j : Job := jobOf (slip 0x0204 [(32, 4, 5), (36, 1, 2), (37, 1, 64), (38, 2, 450), (40, 4, 120000)])
    let s : State := withSlip j.slip (sess x)
    let n : Nat := 0
    let i : Nat := 5
    let d : SessionDesc := { x.desc with burst := 64, units := 450, rate := 120000 }
    s.Startable n 0x0204 j ∧
    dataLenOf j.slip = 0 ∧
    paramsClear j.slip [(32, 4), (36, 8), (48, 8)] = true ∧
    s.sessionNamed (fld j.slip 32 4) = some (i, x) ∧
    fld j.slip 36 1 ≤ 2 ∧
    fld j.slip 37 1 ≤ 64 ∧
    fld j.slip 38 2 ≤ 450 ∧
    ((fld j.slip 40 4 = 0 ∨ 100 ≤ fld j.slip 40 4 ∧ fld j.slip 40 4 ≤ 120000)) ∧
    d = { x.desc with burst := if fld j.slip 37 1 = 0 then x.desc.burst else fld j.slip 37 1, units := if fld j.slip 38 2 = 0 then x.desc.units else fld j.slip 38 2, rate := if fld j.slip 40 4 = 0 then x.desc.rate else fld j.slip 40 4 } ∧
    ((d.rate * d.units ≤ x.desc.rate * x.desc.units ∨ s.admitted - x.desc.rate * x.desc.units + d.rate * d.units ≤ s.uMax)) := by decide +kernel

theorem wit_sessions_opened_8 :
    let x : Session := aSession
    let b : Bytes := packB 192 [(0, 8, 5), (32, 8, 0x3FF0000000000000)]
    let j : Job := jobOf (slip 0x0205 [(24, 4, 192), (32, 4, 5)])
    let s : State := withSlip j.slip (sess x)
    let n : Nat := 0
    let i : Nat := 5
    s.Startable n 0x0205 j ∧
    dataLenOf j.slip = 192 ∧
    b.length = 192 ∧
    fldB b 0 8 ≠ 0 ∧
    (poseAt b 8).ok = true ∧
    covOk b 64 6 = true ∧
    allZero (b.drop 148) = true ∧
    paramsClear j.slip [(32, 4)] = true ∧
    s.sessionNamed (fld j.slip 32 4) = some (i, x) := by decide +kernel

theorem wit_queries_served_1 :
    let a : Arrival := arrived (packB 48 [(4, 4, 5)])
    let s : State := atSession a State.reset
    let b : Bytes := packB 48 [(4, 4, 5)]
    let l : Nat := 0
    (s.netPort l).sessions.head? = some a ∧
    b = (parseFrame a.frame).data a.frame ∧
    8 ≤ b.length ∧
    fldB b 4 4 / 65536 = s.position ∧
    ((∀ x, s.session (fldB b 4 4 % 65536) = some x → x.closing = true ∨ x.desc.host = true)) := by decide +kernel

theorem wit_queries_served_2 :
    let b : Bytes := partBytes (zeros 16)
    let a : Arrival := arrived b
    let l : Nat := 0
    let i : Nat := 5
    let x : Session := { aSession with desc := { aSession.desc with kinds := 4 } }
    let s : State := atSession a (sess x)
    (s.netPort l).sessions.head? = some a ∧
    b = (parseFrame a.frame).data a.frame ∧
    48 ≤ b.length ∧
    b.length ≤ 8992 ∧
    s.sessionNamed (fldB b 4 4) = some (i, x) ∧
    x.desc.host = false ∧
    x.closing = false ∧
    ((x.desc.port = 0xFF ∨ x.desc.port = a.port)) := by decide +kernel

theorem wit_queries_served_3 :
    let b : Bytes := partBytes (zeros 16)
    let a : Arrival := arrived b
    let l : Nat := 0
    let i : Nat := 5
    let x : Session := { aSession with desc := { aSession.desc with kinds := 4 } }
    let s : State := atSession a (sess x)
    (s.netPort l).sessions.head? = some a ∧
    b = (parseFrame a.frame).data a.frame ∧
    48 ≤ b.length ∧
    b.length ≤ 8992 ∧
    s.sessionNamed (fldB b 4 4) = some (i, x) ∧
    x.desc.host = false ∧
    ((x.desc.port = 0xFF ∨ x.desc.port = a.port)) ∧
    x.closing = false ∧
    fldB b 0 2 = 0x5A53 ∧
    fldB b 2 1 = 1 ∧
    fldB b 3 1 = 3 ∧
    fldB b 25 1 ≤ 3 ∧
    ((fldB b 24 1 = 1 ∨ fldB b 28 4 = 0)) ∧
    2 ≤ fldB b 14 2 ∧
    fldB b 14 2 ≤ 256 ∧
    fldB b 12 2 < fldB b 14 2 ∧
    b.length = 48 + (if fldB b 12 2 = 0 then 32 else 0) + itemBytes (fldB b 24 1) * fldB b 26 2 ∧
    x.assembling = none := by decide +kernel

theorem wit_queries_served_4 :
    let x : Session := hostSession
    let b : Bytes := rangesBytes
    let j : Job := jobOf (slip 0x0210 [(24, 4, 448), (32, 4, 5)])
    let s : State := withSlip j.slip (sess x)
    let n : Nat := 0
    let i : Nat := 5
    let k : Nat := 160
    let c : Bytes := b.take k
    let q : Query := { seq := fldB c 8 4, parts := 1, capture := fldB c 16 8, kind := fldB c 24 1, flags := fldB c 25 1, width := fldB c 28 2, height := fldB c 30 2, got := [{ part := 0, body := c }], firstAt := s.now, lastAt := s.now, answer := .job n (fld j.slip 36 1), source := 0 }
    s.Startable n 0x0210 j ∧
    paramsClear j.slip [(32, 5)] = true ∧
    fld j.slip 36 1 ≤ 2 ∧
    b.length = dataLenOf j.slip ∧
    k = 80 + itemBytes (fldB b 24 1) * fldB b 26 2 ∧
    dataLenOf j.slip = up64 k + 256 ∧
    c = b.take k ∧
    s.sessionNamed (fld j.slip 32 4) = some (i, x) ∧
    x.desc.host = true ∧
    j.sq = x.desc.bindQueue ∧
    x.closing = false ∧
    fldB c 0 2 = 0x5A53 ∧
    fldB c 2 1 = 1 ∧
    fldB c 3 1 = 3 ∧
    fldB c 25 1 ≤ 3 ∧
    ((fldB c 24 1 = 1 ∨ fldB c 28 4 = 0)) ∧
    fldB c 12 2 = 0 ∧
    fldB c 14 2 = 1 ∧
    x.assembling = none ∧
    q = { seq := fldB c 8 4, parts := 1, capture := fldB c 16 8, kind := fldB c 24 1, flags := fldB c 25 1, width := fldB c 28 2, height := fldB c 30 2, got := [{ part := 0, body := c }], firstAt := s.now, lastAt := s.now, answer := .job n (fld j.slip 36 1), source := 0 } ∧
    x.desc.kinds.testBit q.kind = true ∧
    q.totalOk = true ∧
    ((q.kind = 1 → q.width = x.desc.camera.width ∧ q.height = x.desc.camera.height)) ∧
    q.capture ≠ 0 ∧
    timeGap q.capture s.now ≤ 2000000000 ∧
    q.finite = true ∧
    x.closed.length < (if x.service.isSome then 2 else 3) := by decide +kernel

theorem wit_queries_served_5 :
    let q : Query := aQuery
    let x : Session := { aSession with assembling := some q }
    let s : State := later (sess x)
    let i : Nat := 5
    s.session i = some x ∧
    x.assembling = some q ∧
    q.firstAt + x.desc.assemblyMs * 1000000 ≤ s.now := by decide +kernel

theorem wit_queries_served_6 :
    let q : Query := aQuery
    let x : Session := { aSession with closed := [q] }
    let s : State := later (sess x)
    let i : Nat := 5
    s.session i = some x ∧
    x.closed.find? (fun q => !q.guaranteed && decide (q.closedAt + 10000000 ≤ s.now)) = some q ∧
    x.closing = false := by decide +kernel

theorem wit_queries_served_7 :
    let q : Query := { aQuery with kind := 2 }
    let x : Session := { aSession with closed := [q] }
    let s : State := sess x
    let i : Nat := 5
    let rest : List Query := []
    s.unitWorks 0x0023 s.position = true ∧
    s.session i = some x ∧
    x.service = none ∧
    x.closed = q :: rest ∧
    x.closing = false ∧
    s.answerable q = true ∧
    x.lastSeq.any (seqNotAbove q.seq) = false ∧
    x.seed = none ∧
    x.newRead = none ∧
    x.mode ≠ .tracking ∧
    q.kind = 2 ∧
    (s.edition (if x.desc.read = 2 then x.desc.pin else s.map.lastInked)).isSome = true := by decide +kernel

theorem wit_queries_served_8 :
    let q : Query := { aQuery with kind := 2 }
    let x : Session := { aSession with closed := [q], desc := { aSession.desc with read := 2, pin := 7 } }
    let s : State := sess x
    let i : Nat := 5
    let rest : List Query := []
    s.unitWorks 0x0023 s.position = true ∧
    s.session i = some x ∧
    x.service = none ∧
    x.closed = q :: rest ∧
    x.closing = false ∧
    s.answerable q = true ∧
    x.lastSeq.any (seqNotAbove q.seq) = false ∧
    x.seed = none ∧
    x.newRead = none ∧
    s.edition (if x.desc.read = 2 then x.desc.pin else s.map.lastInked) = none := by decide +kernel

theorem wit_queries_served_10 :
    let w : List Nat := [1]
    let v : Service := aService (.matching w)
    let x : Session := { aSession with service := some v }
    let s : State := sess x
    let i : Nat := 5
    s.session i = some x ∧
    x.service = some v ∧
    v.step = .matching w := by decide +kernel

theorem wit_queries_served_11 :
    let v : Service := aService .solving
    let x : Session := { aSession with service := some v }
    let s : State := sess x
    let i : Nat := 5
    let f : Filter := aFilter
    s.session i = some x ∧
    x.service = some v ∧
    x.closing = false ∧
    s.answerable v.query = true ∧
    v.step = .solving ∧
    v.predicted = some f ∧
    v.outOfOrder = false ∧
    v.query.kind = 2 := by decide +kernel

theorem wit_edits_pencilled_1 :
    let j : Job := jobOf (slip 0x0301 [(24, 4, 128), (44, 4, 2)])
    let s : State := withSlip j.slip (mp { flash := { sheets := [(2147516416, 0)] } })
    let n : Nat := 0
    let b : Bytes := packB 128 [(0, 4, 0x5A454454), (4, 4, 1)]
    let t0 : Batch := { landmarks := [zeros 64], keyframes := [], edges := [], base := 0 }
    let dep : Nat := 0
    let base : Nat := s.map.lastInked
    let chain : List Nat := []
    let ws : List MapWrite := (t0.writes s.position (s.map.flash.lastId + 1) (s.view 0 []) (fun _ _ => false)).elim [] (·.1)
    let next : Nat := 2
    let w : Trial := s.tryWrites chain ws
    s.Startable n 0x0301 j ∧
    b.length = dataLenOf j.slip ∧
    batchOf (dataLenOf j.slip) b = some t0 ∧
    fld j.slip 32 8 = dep ∧
    fld j.slip 40 1 < 2 ∧
    fld j.slip 41 3 = 0 ∧
    fld j.slip 48 16 = 0 ∧
    s.eventQueueOk (fld j.slip 44 4) = true ∧
    base = (if t0.base = 0 then s.map.lastInked else t0.base) ∧
    (s.edition base).isSome = true ∧
    ((dep = 0 ∧ chain = [] ∨ dep ≠ 0 ∧ (s.edit dep).map (·.state) = some .pencilled ∧ chain = dep :: s.chain dep)) ∧
    t0.writes s.position (s.map.flash.lastId + 1) (s.view base chain) (fun tb id => ((s.view base chain).find tb id).isSome || ((s.roomEdition s.map.lastInked).find tb id).isSome || !(s.writersOf { table := tb, key := id, data := [] }).isEmpty) = some (ws, next) ∧
    w = s.tryWrites chain ws ∧
    w.touched.length ≤ 256 ∧
    (∀ m ∈ ws, s.inkedAfter base m = false ∧ ∀ k ∈ s.writersOf m, k ∈ chain) ∧
    (∀ k ∈ w.touched, s.sheetMissing k = false ∧ s.sheetMoving k = false ∧ (s.holder k).isSome = true) ∧
    s.ownPencilled < 4096 ∧
    s.pagesFit (s.trialPages w) = true := by decide +kernel

theorem wit_edits_pencilled_2 :
    let s : State := room
    let edit : Nat := 5
    let base : Nat := 0
    let batch : Bytes := packB 64 [(0, 4, 0x5A454454)]
    let t0 : Batch := { landmarks := [], keyframes := [], edges := [], base := 0 }
    bitsOf edit 58 56 ≠ s.position ∧
    batchOf batch.length batch = some t0 := by decide +kernel

theorem wit_edits_pencilled_2b :
    let s : State := mp { edits := [(5, anEdit)] } room
    let edit : Nat := 5
    let base : Nat := 0
    let batch : Bytes := packB 128 [(0, 4, 0x5A454454), (4, 4, 1), (64, 8, 9)]
    let t0 : Batch := { landmarks := [packB 64 [(0, 8, 9)]], keyframes := [], edges := [], base := 0 }
    bitsOf edit 58 56 ≠ s.position ∧
    batchOf batch.length batch = some t0 := by decide +kernel

theorem wit_edits_pencilled_3 :
    let e : Edit := anEdit
    let j : Job := jobOf (slip 0x0303 [(32, 8, 7)])
    let s : State := withSlip j.slip (mp { edits := [(7, e)] })
    let n : Nat := 0
    let m : Nat := 7
    s.Startable n 0x0303 j ∧
    fld j.slip 32 8 = m ∧
    fld j.slip 40 24 = 0 ∧
    dataLenOf j.slip = 0 ∧
    s.edit m = some e ∧
    e.state = .pencilled ∧
    (∀ x ∈ s.map.edits, x.2.job ≠ some n) := by decide +kernel

theorem wit_edits_pencilled_4 :
    let e : Edit := { anEdit with consumers := some [5] }
    let s : State := mp { edits := [(7, e)] } (sess aSession)
    let m : Nat := 7
    s.edit m = some e ∧
    e.inDraft = true := by decide +kernel

theorem wit_edits_pencilled_5 :
    let e : Edit := anEdit
    let j : Job := jobOf (slip 0x0302 [(32, 8, 7)])
    let s : State := withSlip j.slip (mp { edits := [(7, e)] })
    let n : Nat := 0
    let m : Nat := 7
    s.Startable n 0x0302 j ∧
    fld j.slip 32 8 = m ∧
    fld j.slip 40 24 = 0 ∧
    dataLenOf j.slip = 0 ∧
    s.edit m = some e ∧
    e.state = .pencilled ∧
    e.verdict = 0 ∧
    (∀ k ∈ e.sheets, s.sheetMissing k = false) ∧
    s.isClerk = true := by decide +kernel

theorem wit_edits_pencilled_6 :
    let x : Nat × Edit := (7, { anEdit with verdict := 1 })
    let s : State := later (mp { edits := [x] })
    s.isClerk = true ∧
    x ∈ s.map.edits ∧
    x.2.verdict = 1 ∧
    x.2.state = .pencilled ∧
    x.2.pencilTime + s.curator.policy.autoInkMs * 1000000 ≤ s.now := by decide +kernel

theorem wit_edits_pencilled_7 :
    let e : Edit := { anEdit with state := .inked }
    let s : State := mp { edits := [(7, e)] } { State.reset with stamp := { State.reset.stamp with seconds := 86400 } }
    let m : Nat := 7
    s.edit m = some e ∧
    e.inDraft = false ∧
    e.endTime + dayNs ≤ s.now := by decide +kernel

theorem wit_edits_pencilled_8 :
    let e : Edit := anEdit
    let j : Job := jobOf (slip 0x0304 [(24, 4, 64), (32, 8, 7)])
    let s : State := withSlip j.slip (mp { edits := [(7, e)] })
    let n : Nat := 0
    let m : Nat := 7
    s.Startable n 0x0304 j ∧
    fld j.slip 32 8 = m ∧
    fld j.slip 40 24 = 0 ∧
    64 ≤ dataLenOf j.slip ∧
    s.edit m = some e := by decide +kernel

theorem wit_editions_published_1 :
    let s : State := mp { edits := [(7, anEdit)], inkWaiting := [(0, [7])] }
    let set : List Nat := [7]
    let rest : List (Nat × List Nat) := []
    s.isClerk = true ∧
    s.map.inking = none ∧
    s.map.inkWaiting = (s.position, set) :: rest ∧
    s.inkingSet set ≠ [] := by decide +kernel

theorem wit_editions_published_2 :
    let k : Inking := { number := 1, member := 0, edits := [7], waiting := [1] }
    let r : Nat × List Nat := (1, [8])
    let s : State := mp { inking := some k }
    s.isClerk = true ∧
    s.map.inking = some k ∧
    r.1 ≠ s.position := by decide +kernel

theorem wit_editions_published_3 :
    let s : State := mp { edits := [(7, anEdit)] } room
    let edits : List Nat := [7]
    s.isClerk = false ∧
    ((∀ k ∈ s.setSheets (s.ordered edits), s.holder k = some s.position → s.sheetMissing k = false ∧ s.reference.state = .normal ∨ ∀ n ∈ s.ordered edits, ∀ e, s.edit n = some e → k ∉ e.sheets ∨ e.restores = some k)) ∧
    s.setPages (s.ordered edits) = [] := by decide +kernel

theorem wit_editions_published_4 :
    let k : Inking := { number := 1, member := 0, edits := [7], waiting := [1, 2] }
    let s : State := mp { inking := some k }
    let m : Nat := 1
    m ≠ s.position ∧
    s.map.inking = some k ∧
    m ∈ k.waiting ∧
    k.waiting.filter (· ≠ m) ≠ [] := by decide +kernel

theorem wit_editions_published_5 :
    let k : Inking := { number := 1, member := 0, edits := [7], waiting := [1] }
    let s : State := mp { inking := some k, edits := [(7, anEdit)] }
    let m : Nat := 1
    m ≠ s.position ∧
    s.map.inking = some k ∧
    k.waiting = [m] ∧
    k.missing = [] ∧
    k.noPage = [] ∧
    s.setMissing k.edits = false := by decide +kernel

theorem wit_editions_published_6 :
    let s : State := mp { edits := [(7, anEdit)] } room
    let number : Nat := 1
    let edits : List Nat := [7]
    let set : List Nat := [7]
    let k : Inking := { number := 1, member := 0, edits := [7], waiting := [], published := true }
    s.map.lastInked < number ∧
    ((s.map.inking = none ∧ s.isClerk = false ∧ set = edits ∨ s.map.inking = some k ∧ k.published = true ∧ k.number = number ∧ set = k.edits)) := by decide +kernel

theorem wit_editions_published_6b :
    let k : Inking := { number := 1, member := 0, edits := [7], waiting := [], published := true }
    let s : State := mp { edits := [(7, anEdit)], inking := some k }
    let number : Nat := 1
    let edits : List Nat := []
    let set : List Nat := [7]
    s.map.lastInked < number ∧
    ((s.map.inking = none ∧ s.isClerk = false ∧ set = edits ∨ s.map.inking = some k ∧ k.published = true ∧ k.number = number ∧ set = k.edits)) := by decide +kernel

theorem wit_editions_published_7 :
    let s : State := mp { lastInked := 4 }
    let number : Nat := 4
    number ≤ s.map.lastInked := by decide +kernel

theorem wit_editions_published_8 :
    let x : Shelving := { edition := { number := 4 }, waiting := [1, 2] }
    let s : State := mp { shelving := [x] }
    let edition : Nat := 4
    let m : Nat := 1
    s.map.shelving.find? (fun x => x.edition.number == edition) = some x ∧
    m ∈ x.waiting ∧
    m ≠ s.position ∧
    x.waiting.filter (· ≠ m) ≠ [] := by decide +kernel

theorem wit_editions_published_9 :
    let x : Shelving := { edition := { number := 4 }, waiting := [1] }
    let s : State := mp { shelving := [x] }
    let edition : Nat := 4
    let m : Nat := 1
    s.map.shelving.find? (fun x => x.edition.number == edition) = some x ∧
    x.waiting = [m] ∧
    ((m = s.position → s.mayWrite x.since (mapBytes (s.unshelved x.edition)) = true)) := by decide +kernel

theorem wit_editions_published_10 :
    let x : Shelving := { edition := { number := 4, sheets := [(7, [])] }, waiting := [0] }
    let s : State := mp { shelving := [x] } (cat { writeFree := 1000 })
    let edition : Nat := 4
    s.map.shelving.find? (fun x => x.edition.number == edition) = some x ∧
    s.position ∈ x.waiting ∧
    s.mayWrite x.since (mapBytes (s.unshelved x.edition)) = false := by decide +kernel

theorem wit_editions_published_11 :
    let x : Slip := slip 0x0305 []
    let s : State := atJob x
    let n : Nat := 0
    let j : Job := jobOf x
    let e : Nat := 0
    s.Startable n 0x0305 j ∧
    fld j.slip 32 8 = e ∧
    fld j.slip 40 24 = 0 ∧
    dataLenOf j.slip = 0 ∧
    (s.edition e).isSome = true ∧
    s.map.holds.length < 8 := by decide +kernel

theorem wit_editions_published_12 :
    let x : Slip := slip 0x0306 [(32, 8, 3)]
    let s : State := withSlip x (mp { holds := [3] })
    let n : Nat := 0
    let j : Job := jobOf x
    let e : Nat := 3
    s.Startable n 0x0306 j ∧
    fld j.slip 32 8 = e ∧
    fld j.slip 40 24 = 0 ∧
    dataLenOf j.slip = 0 ∧
    e ∈ s.map.holds := by decide +kernel

theorem wit_editions_published_13 :
    let x : Slip := slip 0x0307 [(24, 4, 64), (32, 4, 7)]
    let s : State := withSlip x (held7 0 (cur { moves := [{ kind := .sheet, object := 7, dest := 1 }] }))
    let n : Nat := 0
    let j : Job := jobOf x
    let sheet : Nat := 7
    s.Startable n 0x0307 j ∧
    fld j.slip 32 4 = sheet ∧
    fld j.slip 36 1 ≤ 1 ∧
    fld j.slip 37 3 = 0 ∧
    fld j.slip 40 8 = 0 ∧
    fld j.slip 48 16 = 0 ∧
    64 ≤ dataLenOf j.slip ∧
    (s.edition s.map.lastInked).isSome = true ∧
    s.sheetMissingIn s.map.lastInked sheet = false ∧
    s.sheetMoving sheet = true := by decide +kernel

theorem wit_editions_published_14 :
    let x : Slip := slip 0x0307 [(24, 4, 64), (36, 1, 1)]
    let s : State := atJob x
    let n : Nat := 0
    let j : Job := jobOf x
    let edition : Nat := 0
    let sheet : Nat := 0
    let cut : List Nat := s.draftCut
    let v : Edition := s.view s.map.lastInked cut
    let touching : List Nat := []
    let lm : List (Nat × Bytes) := v.inSheet .landmark sheet
    let kf : List (Nat × Bytes) := v.inSheet .keyframe sheet
    let ed : List (Nat × Bytes) := v.inSheet .edge sheet
    let body : Bytes := []
    let head : Bytes := packB 64 [(26, 1, 0)]
    s.Startable n 0x0307 j ∧
    fld j.slip 32 4 = sheet ∧
    fld j.slip 36 1 ≤ 2 ∧
    fld j.slip 37 3 = 0 ∧
    ((fld j.slip 36 1 ≠ 2 → fld j.slip 40 8 = 0)) ∧
    fld j.slip 48 16 = 0 ∧
    64 ≤ dataLenOf j.slip ∧
    edition = (if fld j.slip 36 1 = 2 then fld j.slip 40 8 else s.map.lastInked) ∧
    (s.edition edition).isSome = true ∧
    s.sheetMissingIn edition sheet = false ∧
    s.sheetMoving sheet = false ∧
    cut = (if fld j.slip 36 1 = 1 then s.draftCut else []) ∧
    v = s.view edition cut ∧
    touching = sortBy (fun a b => decide (a < b)) (cut.filter (fun n => (s.edit n).elim false (fun e => e.sheets.contains sheet))) ∧
    lm = v.inSheet .landmark sheet ∧
    kf = v.inSheet .keyframe sheet ∧
    ed = v.inSheet .edge sheet ∧
    body = touching.flatMap (le 8) ++ (lm ++ kf ++ ed).flatMap (·.2) ∧
    head = packB 64 [(0, 4, sheet), (4, 4, lm.length), (8, 4, kf.length), (12, 4, ed.length), (16, 8, edition), (24, 2, touching.length), (26, 1, (s.holder sheet).getD 0)] := by decide +kernel

theorem wit_editions_published_15 :
    let x : Slip := slip 0x0308 [(24, 4, 64)]
    let s : State := atJob x
    let n : Nat := 0
    let j : Job := jobOf x
    s.Startable n 0x0308 j ∧
    fld j.slip 32 32 = 0 ∧
    64 ≤ dataLenOf j.slip := by decide +kernel

theorem wit_curator_commands_1 :
    let b : Bytes := ({} : Policy).record
    let x : Slip := slip 0x0830 [(24, 4, 64)]
    let s : State := withSlip x (qs 2 evq)
    let n : Nat := 0
    let j : Job := jobOf x
    s.Startable n 0x0830 j ∧
    dataLenOf j.slip = 64 ∧
    paramsClear j.slip [] = true ∧
    b.length = 64 ∧
    s.policyOk b = true ∧
    s.present = [s.position] := by decide +kernel

theorem wit_curator_commands_2 :
    let b : Bytes := ({} : Policy).record
    let x : Slip := slip 0x0830 [(24, 4, 64)]
    let s : State := withSlip x (clerk (qs 2 evq))
    let n : Nat := 0
    let j : Job := jobOf x
    s.Startable n 0x0830 j ∧
    dataLenOf j.slip = 64 ∧
    paramsClear j.slip [] = true ∧
    b.length = 64 ∧
    s.policyOk b = true ∧
    s.isClerk = true ∧
    s.others ≠ [] := by decide +kernel

theorem wit_curator_commands_3 :
    let sheet : Nat := 7
    let m : Nat := 0
    let x : Slip := slip 0x0831 [(32, 4, 7)]
    let s : State := withSlip x ({ State.reset with net := { State.reset.net with members := 1 } })
    let n : Nat := 0
    let j : Job := jobOf x
    s.Startable n 0x0831 j ∧
    fld j.slip 32 4 = sheet ∧
    fld j.slip 36 1 = m ∧
    fld j.slip 37 27 = 0 ∧
    dataLenOf j.slip = 0 ∧
    s.net.members.testBit m = true ∧
    amGet s.curator.pins sheet = none ∧
    s.curator.pins.length < 4096 := by decide +kernel

theorem wit_curator_commands_4 :
    let sheet : Nat := 7
    let x : Slip := slip 0x0832 [(32, 4, 7)]
    let s : State := withSlip x (cur { pins := [(7, 0)] })
    let n : Nat := 0
    let j : Job := jobOf x
    s.Startable n 0x0832 j ∧
    fld j.slip 32 4 = sheet ∧
    fld j.slip 36 28 = 0 ∧
    dataLenOf j.slip = 0 := by decide +kernel

theorem wit_curator_commands_5 :
    let x : Slip := slip 0x0833 [(24, 4, 128)]
    let s : State := atJob x
    let n : Nat := 0
    let j : Job := jobOf x
    s.Startable n 0x0833 j ∧
    fld j.slip 32 32 = 0 ∧
    128 ≤ dataLenOf j.slip := by decide +kernel

theorem wit_curator_commands_6 :
    let sheet : Nat := 7
    let m : Move := { kind := .sheet, object := 7, dest := 1 }
    let s : State := cur { moves := [m] }
    s.curator.moves.find? (fun m => m.kind == .sheet && m.object == sheet) = some m ∧
    m.dest ∉ s.present := by decide +kernel

theorem wit_curator_commands_7 :
    let sheet : Nat := 7
    let m : Move := { kind := .sheet, object := 7, dest := 1 }
    let s : State := mp { State.reset.map with edits := [(1, { anEdit with sheets := [7] })] } (clerk (cur { moves := [m] }))
    s.curator.moves.find? (fun m => m.kind == .sheet && m.object == sheet) = some m ∧
    m.dest ∈ s.present ∧
    ((s.sheetBusy sheet = true ∨ m.asked = true)) := by decide +kernel

theorem wit_curator_commands_7b :
    let sheet : Nat := 7
    let m : Move := { kind := .sheet, object := 7, dest := 1, asked := true, copied := some 0 }
    let s : State := clerk (cur { moves := [m] })
    s.curator.moves.find? (fun m => m.kind == .sheet && m.object == sheet) = some m ∧
    m.dest ∈ s.present ∧
    ((s.sheetBusy sheet = true ∨ m.asked = true)) := by decide +kernel

theorem wit_curator_commands_8 :
    let sheet : Nat := 7
    let m : Move := { kind := .sheet, object := 7, dest := 1, copied := some 0 }
    let s : State := clerk (cur { moves := [m] })
    s.curator.moves.find? (fun m => m.kind == .sheet && m.object == sheet) = some m ∧
    m.dest ∈ s.present ∧
    s.sheetBusy sheet = false ∧
    m.asked = false ∧
    m.copied = some s.map.lastInked := by decide +kernel

theorem wit_curator_commands_9 :
    let sheet : Nat := 7
    let m : Move := { kind := .sheet, object := 7, dest := 1 }
    let s : State := held7 0 (clerk (cur { moves := [m] }))
    s.curator.moves.find? (fun m => m.kind == .sheet && m.object == sheet) = some m ∧
    m.dest ∈ s.present ∧
    s.sheetBusy sheet = false ∧
    m.asked = false ∧
    m.copied ≠ some s.map.lastInked := by decide +kernel

theorem wit_curator_commands_10 :
    let sheet : Nat := 7
    let v : Move := { kind := .sheet, object := 7, dest := 1, asked := true, copied := some 0 }
    let m : LinkMsg := aMsg 9 0x79 [le 8 7, le 8 1]
    let s : State := held7 0 (inbox0 m (cur { moves := [v] }))
    let p : Nat := 0
    (s.jalzel p).head 9 = some m ∧
    m.address = 0x79 ∧
    m.words.map unle = [sheet, 1] ∧
    s.isClerk = true ∧
    s.holder sheet = some s.position ∧
    s.sheetBusy sheet = false ∧
    s.curator.moves.find? (fun v => v.kind == .sheet && v.object == sheet && v.dest == m.source && v.asked) = some v ∧
    v.copied = some s.map.lastInked := by decide +kernel

theorem wit_curator_commands_11 :
    let sheet : Nat := 7
    let dest : Nat := 1
    let s : State := held7 0 (clerk (cur { policy := { moveMibS := 0 } }))
    s.unitWorks 0x0012 0 = true ∧
    s.mayMoveSheet sheet dest = true ∧
    s.curator.policy.moveMibS = 0 := by decide +kernel

theorem wit_curator_commands_12 :
    let sheet : Nat := 7
    let dest : Nat := 1
    let s : State := held7 0 (clerk)
    s.unitWorks 0x0012 0 = true ∧
    s.mayMoveSheet sheet dest = true ∧
    s.curator.policy.moveMibS ≠ 0 ∧
    (copyBytes (s.sheetVersions sheet)).length ≤ Region.scratch.bytes := by decide +kernel

theorem wit_curator_commands_13 :
    let x : Session := aSession
    let i : Nat := 5
    let dest : Nat := 3
    let e : Nat := 3072
    let s : State := sess x
    s.unitWorks 0x0012 0 = true ∧
    s.session i = some x ∧
    x.service = none ∧
    dest < 64 ∧
    s.unitOut 0x0002 dest = false ∧
    s.curator.policy.vaultMask.testBit dest = true ∧
    s.contextFree dest = some e := by decide +kernel

theorem wit_curator_commands_14 :
    let src : Nat := 0
    let dst : Nat := 1
    let b : Bound := aBound
    let s : State := imgs 1 anImage (car 0 { state := .ready, bound := some b } (car 1 { state := .idle }))
    s.unitWorks 0x0012 0 = true ∧
    (s.carrel src).bound = some b ∧
    (s.carrel src).state = .ready ∧
    s.heldByJob src = false ∧
    s.spillFits b dst = true ∧
    (s.carrel dst).state = .idle ∧
    dst < 256 ∧
    src ≠ dst := by decide +kernel

theorem wit_curator_commands_15 :
    let code : Nat := 1
    let p : Pinned := { code := 1, since := 0, told := 0 }
    let s : State := cur { pinned := [p] } (qs 2 evq (stampOf { seconds := 60 }))
    s.curator.pinned.find? (fun p => p.code == code) = some p ∧
    p.told + 60000000000 ≤ s.now := by decide +kernel

theorem wit_solves_run_1 :
    let b : Bytes := solveBytes
    let x : Slip := solveSlip
    let s : State := atJob x
    let n : Nat := 0
    let j : Job := jobOf x
    let q : SolveParams := solveQ
    s.Startable n 0x0401 j ∧
    b.length = dataLenOf j.slip ∧
    solveParams j.slip = some q := by decide +kernel

theorem wit_solves_run_1b :
    let b : Bytes := zeros 384
    let x : Slip := solveSlip
    let s : State := atJob x
    let n : Nat := 0
    let j : Job := jobOf x
    let q : SolveParams := solveQ
    s.Startable n 0x0401 j ∧
    b.length = dataLenOf j.slip ∧
    solveParams j.slip = some q := by decide +kernel

theorem wit_solves_run_2 :
    let b : Bytes := solveBytes
    let x : Slip := solveSlip
    let s : State := atJob x
    let n : Nat := 0
    let j : Job := jobOf x
    let q : SolveParams := solveQ
    let p : Problem := aProblem
    let blocks : List Bytes := (match hostProblem solveQ 384 solveBytes with | .ok r => r.2.1 | .error _ => [])
    let at_ : Nat := (match hostProblem solveQ 384 solveBytes with | .ok r => r.2.2 | .error _ => 0)
    s.Startable n 0x0401 j ∧
    b.length = dataLenOf j.slip ∧
    solveParams j.slip = some q ∧
    (hostProblem q (dataLenOf j.slip) b).toOption = some (p, blocks, at_) := by decide +kernel

theorem wit_solves_run_3 :
    let b : Bytes := packB 256 [(0, 4, 0x5A434D50), (8, 2, 1), (12, 4, 2), (64, 4, 7)]
    let x : Slip := slip 0x0402 [(24, 4, 256)]
    let s : State := withSlip x (qs 2 evq)
    let n : Nat := 0
    let j : Job := jobOf x
    let q : SolveParams := solveQ
    let edition : Nat := 0
    let cut : List Nat := []
    let p : Problem := (mapProblem (s.view edition cut) (requestSheets b).eraseDups (fldB b 5 1 = 1)).1
    s.Startable n 0x0402 j ∧
    b.length = dataLenOf j.slip ∧
    solveParams j.slip = some q ∧
    fldB b 0 4 = 0x5A434D50 ∧
    fldB b 4 1 ≤ 2 ∧
    fldB b 5 1 ≤ 1 ∧
    fldB b 6 1 ≤ 1 ∧
    ((fldB b 6 1 = 1 → fldB b 4 1 ≠ 2 ∧ s.ownPencilled < 4096)) ∧
    fldB b 7 1 = 0 ∧
    1 ≤ fldB b 8 2 ∧
    fldB b 8 2 ≤ 256 ∧
    fldB b 10 2 = 0 ∧
    s.eventQueueOk (fldB b 12 4) = true ∧
    ((fldB b 4 1 ≠ 2 → fldB b 16 8 = 0)) ∧
    allZero ((b.drop 24).take 40) = true ∧
    64 + (4 * fldB b 8 2 + 63) / 64 * 64 + 128 ≤ dataLenOf j.slip ∧
    allZero ((b.drop (64 + 4 * fldB b 8 2)).take ((4 * fldB b 8 2 + 63) / 64 * 64 - 4 * fldB b 8 2)) = true ∧
    edition = (if fldB b 4 1 = 2 then fldB b 16 8 else s.map.lastInked) ∧
    cut = (if fldB b 4 1 = 1 then s.draftCut else []) ∧
    (s.edition edition).isSome = true ∧
    (∀ k ∈ requestSheets b, s.sheetMissing k = false ∧ s.sheetMoving k = false) ∧
    p = (mapProblem (s.view edition cut) (requestSheets b).eraseDups (fldB b 5 1 = 1)).1 ∧
    p.covered = true ∧
    p.fits p.lay = true := by decide +kernel

theorem wit_solves_run_4 :
    let x : LargeSolve := { owner := .job 0, problem := aProblem, params := solveQ, entries := 0 }
    let n : Nat := 0
    let s : State := solving x
    s.solvesRunning = true ∧
    s.collator.solves.find? (·.progress.isNone) = some x ∧
    x.owner = .job n ∧
    x.map = none ∧
    s.solveOf (.job n) = some x ∧
    (s.collator.solves.filter (·.progress.isSome)).length < 2 ∧
    s.unitWorks 0x0013 0 = true ∧
    s.reference.state = .normal ∧
    solverCarrels x.entries ≤ s.freeCarrels false ∧
    s.passed x.deadline = false := by decide +kernel

theorem wit_solves_run_5 :
    let g : Progress := aProblem.start solveQ
    let o : SolveOwner := .job 0
    let x : LargeSolve := { owner := .job 0, problem := aProblem, params := solveQ, entries := 0, progress := some g }
    let s : State := solving x
    s.solvesRunning = true ∧
    s.solveOf o = some x ∧
    x.progress = some g := by decide +kernel

theorem wit_solves_run_6 :
    let g : Progress := aProblem.start solveQ
    let x : LargeSolve := { owner := .job 0, problem := aProblem, params := solveQ, entries := 0, progress := some g }
    let n : Nat := 0
    let j : Job := { jobOf solveSlip with started := true }
    let s : State := solving x
    s.solvesRunning = true ∧
    s.solveOf (.job n) = some x ∧
    x.owner = .job n ∧
    x.map = none ∧
    x.progress = some g ∧
    g.ended.isSome = true ∧
    s.job n = some j ∧
    j.ending = none := by decide +kernel

theorem wit_solves_run_7 :
    let g : Progress := { aProblem.start solveQ with ended := none }
    let x : LargeSolve := { owner := .job 0, problem := aProblem, params := solveQ, entries := 0, progress := some g, deadline := 5 }
    let n : Nat := 0
    let j : Job := { jobOf solveSlip with started := true }
    let s : State := later (solving x)
    s.solvesRunning = true ∧
    s.solveOf (.job n) = some x ∧
    x.owner = .job n ∧
    x.map = none ∧
    x.progress = some g ∧
    g.ended = none ∧
    s.passed x.deadline = true ∧
    s.job n = some j ∧
    j.ending = none := by decide +kernel

theorem wit_solves_run_8 :
    let b : Bytes := zeros 64
    let x : Slip := slip 0x0403 [(24, 4, 64)]
    let s : State := atJob x
    let n : Nat := 0
    let j : Job := jobOf x
    s.Startable n 0x0403 j ∧
    dataLenOf j.slip = 64 ∧
    fld j.slip 32 32 = 0 ∧
    b.length = 64 ∧
    solverPolicyOk b = true ∧
    s.present = [s.position] := by decide +kernel

theorem wit_solves_run_9 :
    let b : Bytes := zeros 32768
    let x : Slip := slip 0x0404 [(24, 4, 32768)]
    let s : State := atJob x
    let n : Nat := 0
    let j : Job := jobOf x
    s.Startable n 0x0404 j ∧
    dataLenOf j.slip = 32768 ∧
    fld j.slip 32 32 = 0 ∧
    b.length = 32768 ∧
    s.present = [s.position] := by decide +kernel

theorem wit_solves_run_10 :
    let x : Slip := slip 0x0405 [(24, 4, 64)]
    let s : State := atJob x
    let n : Nat := 0
    let j : Job := jobOf x
    s.Startable n 0x0405 j ∧
    fld j.slip 32 32 = 0 ∧
    64 ≤ dataLenOf j.slip := by decide +kernel

theorem wit_solves_run_11 :
    let w : LoopWork := { keyframe := 1, candidate := 2, region := [7] }
    let e : Edit := { anEdit with loop := some w }
    let n : Nat := 1
    let s : State := mp { State.reset.map with edits := [(1, e)] }
    let p : Problem := (mapProblem (s.view s.map.lastInked s.draftCut) w.region false).1
    s.edit n = some e ∧
    e.loop = some w ∧
    w.step = 2 ∧
    s.reference.state = .normal ∧
    s.loopWaits n w.region = false ∧
    p = (mapProblem (s.view s.map.lastInked s.draftCut) w.region false).1 ∧
    p.covered = true ∧
    p.fits p.lay = true := by decide +kernel

theorem wit_solves_run_12 :
    let w : LoopWork := { keyframe := 1, candidate := 2, region := [7] }
    let e : Edit := { anEdit with loop := some w, pencilTime := 5 }
    let n : Nat := 2
    let s : State := mp { State.reset.map with edits := [(1, { anEdit with verdict := 2, sheets := [7] }), (2, e)] }
    s.edit n = some e ∧
    e.loop = some w ∧
    s.loopWaits n w.region = true := by decide +kernel

theorem wit_searches_run_1 :
    let b : Bytes := zeros 384
    let x : Slip := searchSlip
    let s : State := withSlip x (cat aCat)
    let n : Nat := 0
    let j : Job := jobOf x
    let p : SearchParams := searchParams searchSlip
    let y : Collection := aColl
    s.Startable n 0x0501 j ∧
    b.length = dataLenOf j.slip ∧
    p = searchParams j.slip ∧
    searchBad j.slip = false ∧
    searchLarge j.slip = false ∧
    s.catalogue.coll p.coll = some y ∧
    dataLenOf j.slip = up64 (y.vecBytes + 256 + 16 * p.k) ∧
    (codeTable p.coll y (y.elements (b.take y.vecBytes))).finite = true ∧
    p.localOnly = true ∧
    s.catalogue.served.length < 1024 := by
    intro b x s n j p y
    exact ⟨by decide +kernel, by decide +kernel, rfl, by decide +kernel, by decide +kernel, by decide +kernel, by decide +kernel,
      zero_code _ _ (fun i => zeros_get 64 i), by decide +kernel, by decide +kernel⟩

theorem wit_searches_run_2 :
    let b : Bytes := zeros 384
    let x : Slip := slip 0x0501 [(24, 4, 384), (32, 1, 2)]
    let s : State := atJob x
    let n : Nat := 0
    let j : Job := jobOf x
    s.Startable n 0x0501 j ∧
    b.length = dataLenOf j.slip ∧
    searchBad j.slip = true := by decide +kernel

theorem wit_searches_run_3 :
    let b : Bytes := zeros 384
    let x : Slip := slip 0x0501 [(24, 4, 384), (32, 1, 2), (34, 2, 2000)]
    let s : State := atJob x
    let n : Nat := 0
    let j : Job := jobOf x
    s.Startable n 0x0501 j ∧
    b.length = dataLenOf j.slip ∧
    searchBad j.slip = false ∧
    searchLarge j.slip = true := by decide +kernel

theorem wit_searches_run_4 :
    let b : Bytes := zeros 384
    let x : Slip := slip 0x0501 [(24, 4, 384), (32, 1, 9), (34, 2, 4)]
    let s : State := atJob x
    let n : Nat := 0
    let j : Job := jobOf x
    s.Startable n 0x0501 j ∧
    b.length = dataLenOf j.slip ∧
    searchBad j.slip = false ∧
    searchLarge j.slip = false ∧
    s.catalogue.coll (searchParams j.slip).coll = none := by decide +kernel

theorem wit_searches_run_5 :
    let k : Nat := 1
    let x : Search := aSearch
    let v : Served := aServed
    let s : State := cat { aCat with searches := [(1, x)], served := [v] }
    amGet s.catalogue.searches k = some x ∧
    s.position ∈ x.waiting ∧
    s.servedOf s.position k = some v ∧
    v.result = none := by decide +kernel

theorem wit_searches_run_6 :
    let k : Nat := 1
    let n : Nat := 0
    let x : Search := aSearch
    let r : MemberResult := aResult
    let v : Served := { aServed with result := some r }
    let found : List SearchHit := (x.take_ r).merged.take x.params.k
    let s : State := withSlip searchSlip (cat { aCat with searches := [(1, x)], served := [v] })
    let j : Job := jobOf searchSlip
    amGet s.catalogue.searches k = some x ∧
    x.owner = .job n ∧
    x.waiting = [s.position] ∧
    s.servedOf s.position k = some v ∧
    v.result = some r ∧
    r.member = s.position ∧
    (x.take_ r).widens = false ∧
    s.job n = some j ∧
    j.ending = none ∧
    found = (x.take_ r).merged.take x.params.k := by decide +kernel

theorem wit_searches_run_7 :
    let k : Nat := 1
    let n : Nat := 0
    let x : Search := { aSearch with waiting := [1] }
    let j : Job := jobOf (slip 0x0501 [(24, 4, 384), (32, 1, 2), (33, 1, 4), (34, 2, 4), (8, 8, 5)])
    let s : State := later (withSlip j.slip (cat { aCat with searches := [(1, x)], served := [aServed] }))
    amGet s.catalogue.searches k = some x ∧
    x.owner = .job n ∧
    s.position ∉ x.waiting ∧
    s.job n = some j ∧
    j.ending = none ∧
    s.passed (deadlineOf j.slip) = true := by decide +kernel

theorem wit_catalogue_vectors_1 :
    let job : Nat := 0
    let k : Nat := 2
    let n : Nat := 1
    let first : Nat := 1
    let b : Bytes := zeros 128
    let x : Slip := slip 0x0502 [(24, 4, 128), (32, 1, 2), (34, 2, 1)]
    let y : Collection := aColl
    let vs : List (Bytes × Nat) := (List.range n).map (fun i => ((b.drop (y.vecBytes * i)).take y.vecBytes, fldB b (y.vecBytes * n + 8 * i) 8))
    let j : Job := jobOf x
    let s : State := withSlip x (cat aCat)
    s.Startable job 0x0502 j ∧
    b.length = dataLenOf j.slip ∧
    fld j.slip 32 1 = k ∧
    2 ≤ k ∧
    k ≤ 15 ∧
    fld j.slip 33 1 = 0 ∧
    fld j.slip 34 2 = n ∧
    1 ≤ n ∧
    n ≤ 4096 ∧
    fld j.slip 36 28 = 0 ∧
    s.catalogue.coll k = some y ∧
    dataLenOf j.slip = up64 (n * (y.vecBytes + 8)) ∧
    vs = (List.range n).map (fun i => ((b.drop (y.vecBytes * i)).take y.vecBytes, fldB b (y.vecBytes * n + 8 * i) 8)) ∧
    (∀ v ∈ vs, (codeTable k y (y.elements v.1)).finite = true) ∧
    s.catalogue.addenda.length + n ≤ 16777216 ∧
    s.catalogue.idRun n = some first := by
    intro job k n first b x y vs j s
    refine ⟨by decide +kernel, by decide +kernel, by decide +kernel, by decide, by decide, by decide +kernel, by decide +kernel, by decide,
      by decide, by decide +kernel, by decide +kernel, by decide +kernel, rfl, ?_, by decide +kernel, by decide +kernel⟩
    intro v hv
    have : v = (zeros 64, 0) := by
      have h : vs = [(zeros 64, 0)] := by decide +kernel
      rw [h] at hv; simpa using hv
    rw [this]; exact zero_code _ _ (fun i => zeros_get 64 i)

theorem wit_catalogue_vectors_2 :
    let job : Nat := 0
    let k : Nat := 2
    let n : Nat := 1
    let b : Bytes := zeros 128
    let x : Slip := slip 0x0502 [(24, 4, 128), (32, 1, 2), (34, 2, 1)]
    let y : Collection := aColl
    let j : Job := jobOf x
    let s : State := withSlip x (cat { aCat with addenda := List.replicate 16777216 { pos := 0, id := 1, attr := 0, coll := 2, code := [] } })
    s.Startable job 0x0502 j ∧
    b.length = dataLenOf j.slip ∧
    fld j.slip 32 1 = k ∧
    2 ≤ k ∧
    k ≤ 15 ∧
    fld j.slip 33 1 ≤ 1 ∧
    fld j.slip 34 2 = n ∧
    1 ≤ n ∧
    n ≤ 4096 ∧
    fld j.slip 36 28 = 0 ∧
    s.catalogue.coll k = some y ∧
    dataLenOf j.slip = up64 (n * (y.vecBytes + 8)) ∧
    (∀ i < n, (codeTable k y (y.elements ((b.drop (y.vecBytes * i)).take y.vecBytes))).finite = true) ∧
    16777216 < s.catalogue.addenda.length + n := by
    intro job k n b x y j s
    refine ⟨by decide +kernel, by decide +kernel, by decide +kernel, by decide, by decide, by decide +kernel, by decide +kernel, by decide,
      by decide, by decide +kernel, by decide +kernel, by decide +kernel, ?_, ?_⟩
    · intro i _; exact zero_code _ _ (zeros_part_get _ _ _)
    · show 16777216 < (List.replicate 16777216 _).length + 1
      rw [List.length_replicate]; decide

theorem wit_catalogue_vectors_3 :
    let job : Nat := 0
    let i : Nat := 5
    let b : Bytes := packB 64 [(0, 8, 5)]
    let x : Slip := slip 0x0503 [(24, 4, 64), (34, 2, 1)]
    let j : Job := jobOf x
    let s : State := withSlip x (cat { aCat with nextId := 6, addenda := [{ pos := 0, id := 5, attr := 0, coll := 2, code := [] }] })
    s.Startable job 0x0503 j ∧
    b.length = 64 ∧
    dataLenOf j.slip = 64 ∧
    fld j.slip 32 2 = 0 ∧
    fld j.slip 34 2 = 1 ∧
    fld j.slip 36 28 = 0 ∧
    fldB b 0 8 = i ∧
    i < 2 ^ 40 ∧
    i / 2 ^ 37 = s.position ∧
    s.catalogue.liveVector i = true ∧
    s.deletesStand = false ∧
    s.catalogue.pendingDeletes.length < 65536 := by decide +kernel

theorem wit_catalogue_vectors_4 :
    let job : Nat := 0
    let i : Nat := 5
    let b : Bytes := packB 64 [(0, 8, 5)]
    let x : Slip := slip 0x0503 [(24, 4, 64), (34, 2, 1)]
    let j : Job := jobOf x
    let s : State := withSlip x (cat { aCat with nextId := 6 })
    s.Startable job 0x0503 j ∧
    b.length = 64 ∧
    dataLenOf j.slip = 64 ∧
    fld j.slip 32 2 = 0 ∧
    fld j.slip 34 2 = 1 ∧
    fld j.slip 36 28 = 0 ∧
    fldB b 0 8 = i ∧
    i < 2 ^ 40 ∧
    i / 2 ^ 37 = s.position ∧
    s.catalogue.liveVector i = false := by decide +kernel

theorem wit_catalogue_vectors_4b :
    let job : Nat := 0
    let i : Nat := 5
    let b : Bytes := packB 64 [(0, 8, 5)]
    let x : Slip := slip 0x0503 [(24, 4, 64), (34, 2, 1)]
    let j : Job := jobOf x
    let s : State := withSlip x (cat { aCat with nextId := 5 })
    s.Startable job 0x0503 j ∧
    b.length = 64 ∧
    dataLenOf j.slip = 64 ∧
    fld j.slip 32 2 = 0 ∧
    fld j.slip 34 2 = 1 ∧
    fld j.slip 36 28 = 0 ∧
    fldB b 0 8 = i ∧
    i < 2 ^ 40 ∧
    i / 2 ^ 37 = s.position ∧
    s.catalogue.liveVector i = false := by decide +kernel

theorem wit_catalogue_vectors_5 :
    let x : Slip := slip 0x0504 []
    let s : State := atJob x
    let n : Nat := 0
    let j : Job := jobOf x
    s.Startable n 0x0504 j ∧
    fld j.slip 32 32 = 0 ∧
    dataLenOf j.slip = 0 ∧
    s.catalogue.reshelving = none ∧
    s.catalogue.previous = none ∧
    s.reference.state = .normal := by decide +kernel

theorem wit_catalogue_vectors_6 :
    let x : Slip := slip 0x0504 []
    let r : Reshelving := { cut := 3, deletes := 1, bad := [], jobs := [7] }
    let s : State := withSlip x (cat { aCat with reshelving := some r })
    let n : Nat := 0
    let j : Job := jobOf x
    s.Startable n 0x0504 j ∧
    fld j.slip 32 32 = 0 ∧
    dataLenOf j.slip = 0 ∧
    s.catalogue.reshelving = some r := by decide +kernel

theorem wit_catalogue_vectors_7 :
    let r : Reshelving := { cut := 0, deletes := 1, bad := [], jobs := [0] }
    let s : State := withSlip (slip 0x0504 []) (cat { aCat with collections := [], reshelving := some r, current := { number := 4, nodes := [(5, { id := 5, attr := 0, coll := 2, gen := 4, code := [], nbrs := [] })] }, tombstones := [5], deletes := 1 })
    let n : NewNodes := s.catalogue.reshelve r
    let number : Nat := (s.catalogue.current.number + 1) % 2 ^ 32
    let all : List Nat := sortBy (fun a b => decide (a < b)) (n.touched ++ s.rewritten n.touched)
    let live : List Nat := all.filter (fun g => n.nodes.any (fun e => segmentOf e.1 == g))
    s.catalogue.reshelving = some r ∧
    n = s.catalogue.reshelve r ∧
    number = (s.catalogue.current.number + 1) % 2 ^ 32 ∧
    all = sortBy (fun a b => decide (a < b)) (n.touched ++ s.rewritten n.touched) ∧
    live = all.filter (fun g => n.nodes.any (fun e => segmentOf e.1 == g)) ∧
    s.mayWrite r.since (live.length * segmentPages * 16384) = true ∧
    (writeSegments (stampNodes all number n.nodes) number (fun g => ((List.range 64).map s.engineFor).getD (g / 4096) 0) live s).isSome = true := by decide +kernel

theorem wit_catalogue_vectors_8 :
    let r : Reshelving := { cut := 0, deletes := 1, bad := [], jobs := [0] }
    let s : State := withSlip (slip 0x0504 []) (cat { aCat with writeFree := 1000, collections := [], reshelving := some r, current := { number := 4, nodes := [(5, { id := 5, attr := 0, coll := 2, gen := 4, code := [], nbrs := [] })] }, tombstones := [5], deletes := 1 })
    let n : NewNodes := s.catalogue.reshelve r
    s.catalogue.reshelving = some r ∧
    n = s.catalogue.reshelve r ∧
    s.mayWrite r.since (((sortBy (fun a b => decide (a < b)) (n.touched ++ s.rewritten n.touched)).filter (fun g => n.nodes.any (fun e => segmentOf e.1 == g))).length * segmentPages * 16384) = false := by decide +kernel

theorem wit_catalogue_vectors_9 :
    let s : State := State.reset
    s.catalogue.reshelving = none := by decide +kernel

theorem wit_catalogue_vectors_10 :
    let i : Nat := 5
    let x : Nat := 2
    let rest : List (Nat × Nat) := []
    let v : Served := aServed
    let s : State := cat { aCat with pendingDeletes := [(5, 2)], served := [v] }
    s.catalogue.pendingDeletes = (i, x) :: rest ∧
    v ∈ s.catalogue.served ∧
    v.snapshot.deletes < x := by decide +kernel

theorem wit_catalogue_vectors_11 :
    let i : Nat := 5
    let x : Nat := 2
    let rest : List (Nat × Nat) := []
    let s : State := cat { aCat with pendingDeletes := [(5, 2)], deletes := 2, served := [{ aServed with snapshot := { gen := 0, addEnd := 0, deletes := 2 } }] }
    s.catalogue.pendingDeletes = (i, x) :: rest ∧
    (∀ v ∈ s.catalogue.served, x ≤ v.snapshot.deletes) ∧
    s.catalogue.deleteWaiting = [] := by decide +kernel

theorem wit_catalogue_settings_1 :
    let n : Nat := 0
    let k : Nat := 2
    let dim : Nat := 64
    let b : Bytes := zeros 65536
    let x : Slip := slip 0x0505 [(24, 4, 65536), (32, 1, 2), (34, 2, 64)]
    let j : Job := jobOf x
    let s : State := atJob x
    s.Startable n 0x0505 j ∧
    b.length = 1024 * dim ∧
    fld j.slip 32 1 = k ∧
    2 ≤ k ∧
    k ≤ 15 ∧
    fld j.slip 33 1 ≤ 1 ∧
    fld j.slip 34 2 = dim ∧
    dim % 64 = 0 ∧
    64 ≤ dim ∧
    dim ≤ 1024 ∧
    fld j.slip 36 28 = 0 ∧
    dataLenOf j.slip = 1024 * dim ∧
    (∀ i < 256 * dim, f32finite (BitVec.ofNat 32 (fldB b (4 * i) 4)) = true) ∧
    s.catalogue.holdsNone k = true ∧
    s.others = [] := by
    intro n k dim b x j s
    exact ⟨by decide +kernel, List.length_replicate, by decide +kernel, by decide, by decide, by decide +kernel, by decide +kernel, by decide,
      by decide, by decide, by decide +kernel, by decide +kernel, fun i _ => by rw [zeros_fld]; decide +kernel, by decide +kernel,
      by decide +kernel⟩

theorem wit_catalogue_settings_2 :
    let n : Nat := 0
    let k : Nat := 1
    let dim : Nat := 64
    let b : Bytes := zeros 65536
    let x : Slip := slip 0x0505 [(24, 4, 65536), (32, 1, 1), (34, 2, 64)]
    let j : Job := jobOf x
    let s : State := atJob x
    s.Startable n 0x0505 j ∧
    b.length = 1024 * dim ∧
    fld j.slip 32 1 = k ∧
    k ≤ 15 ∧
    fld j.slip 33 1 ≤ 1 ∧
    fld j.slip 34 2 = dim ∧
    dim % 64 = 0 ∧
    64 ≤ dim ∧
    dim ≤ 1024 ∧
    fld j.slip 36 28 = 0 ∧
    dataLenOf j.slip = 1024 * dim ∧
    (∀ i < 256 * dim, f32finite (BitVec.ofNat 32 (fldB b (4 * i) 4)) = true) ∧
    (k < 2 ∨ s.catalogue.holdsNone k = false) := by
    intro n k dim b x j s
    exact ⟨by decide +kernel, List.length_replicate, by decide +kernel, by decide, by decide +kernel, by decide +kernel, by decide,
      by decide, by decide, by decide +kernel, by decide +kernel, fun i _ => by rw [zeros_fld]; decide +kernel, Or.inl (by decide)⟩

theorem wit_catalogue_settings_3 :
    let n : Nat := 0
    let w : Nat := 100
    let r : Nat := 95
    let p : Nat := 2
    let q : Nat := 2
    let j : Job := jobOf (slip 0x0507 [(32, 2, 100), (34, 1, 95), (35, 1, 2), (36, 4, 2)])
    let s : State := withSlip j.slip (qs 2 evq)
    s.Startable n 0x0507 j ∧
    fld j.slip 32 2 = w ∧
    fld j.slip 34 1 = r ∧
    fld j.slip 35 1 = p ∧
    fld j.slip 36 4 = q ∧
    100 ≤ w ∧
    w ≤ 60000 ∧
    10 ≤ r ∧
    r ≤ 95 ∧
    2 ≤ p ∧
    p ≤ 20 ∧
    s.eventQueueOk q = true ∧
    fld j.slip 40 24 = 0 ∧
    dataLenOf j.slip = 0 := by decide +kernel

theorem wit_catalogue_settings_3b :
    let n : Nat := 0
    let w : Nat := 60000
    let r : Nat := 10
    let p : Nat := 20
    let q : Nat := 2
    let j : Job := jobOf (slip 0x0507 [(32, 2, 60000), (34, 1, 10), (35, 1, 20), (36, 4, 2)])
    let s : State := withSlip j.slip (qs 2 evq)
    s.Startable n 0x0507 j ∧
    fld j.slip 32 2 = w ∧
    fld j.slip 34 1 = r ∧
    fld j.slip 35 1 = p ∧
    fld j.slip 36 4 = q ∧
    100 ≤ w ∧
    w ≤ 60000 ∧
    10 ≤ r ∧
    r ≤ 95 ∧
    2 ≤ p ∧
    p ≤ 20 ∧
    s.eventQueueOk q = true ∧
    fld j.slip 40 24 = 0 ∧
    dataLenOf j.slip = 0 := by decide +kernel

theorem wit_catalogue_settings_4 :
    let x : Slip := slip 0x0507 [(32, 2, 99), (34, 1, 95), (35, 1, 2), (36, 4, 2)]
    let s : State := withSlip x (qs 2 evq)
    let n : Nat := 0
    let j : Job := jobOf x
    s.Startable n 0x0507 j ∧
    ((fld j.slip 32 2 < 100 ∨ 60000 < fld j.slip 32 2 ∨ fld j.slip 34 1 < 10 ∨ 95 < fld j.slip 34 1 ∨ fld j.slip 35 1 < 2 ∨ 20 < fld j.slip 35 1 ∨ fld j.slip 40 24 ≠ 0 ∨ dataLenOf j.slip ≠ 0)) := by decide +kernel

theorem wit_catalogue_settings_5 :
    let x : Slip := slip 0x0506 [(24, 4, 128)]
    let s : State := atJob x
    let n : Nat := 0
    let j : Job := jobOf x
    s.Startable n 0x0506 j ∧
    fld j.slip 32 32 = 0 ∧
    128 ≤ dataLenOf j.slip := by decide +kernel

theorem wit_flash_operations_1 :
    let e : Nat := 0
    let b : Nat := 3
    let retries : Nat := 4
    let k : Nat := 3
    let l : Lun := aLun
    let s : State := cat (withLun aCat)
    lunOfBlock (s.engine e).luns b = some (l, k) ∧
    retries ≤ 4 := by decide +kernel

theorem wit_flash_operations_2 :
    let e : Nat := 0
    let b : Nat := 3
    let page : Nat := 0
    let k : Nat := 3
    let g : Nat := 0
    let i : Nat := 0
    let l : Lun := aLun
    let failed : List Nat := []
    let trailer : Bool := false
    let s : State := cat { withLun aCat with current := { segments := [(0, [3])], nodes := [(5, { id := 5, attr := 0, coll := 2, gen := 0, code := [], nbrs := [] })] } } (qs 2 evq)
    let bad : List Nat := [5]
    lunOfBlock (s.engine e).luns b = some (l, k) ∧
    ((failed ≠ [] ∨ trailer = false)) ∧
    s.catalogue.current.segmentOf e b = some (g, i) ∧
    bad = (s.catalogue.current.nodesIn g (i * l.pages + page)).filter (fun n => !trailer || failed.contains (n % 65536 % 6)) := by decide +kernel

theorem wit_flash_operations_2b :
    let e : Nat := 0
    let b : Nat := 3
    let page : Nat := 0
    let k : Nat := 3
    let g : Nat := 0
    let i : Nat := 0
    let l : Lun := aLun
    let failed : List Nat := [5]
    let trailer : Bool := true
    let s : State := cat { withLun aCat with current := { segments := [(0, [3])], nodes := [(5, { id := 5, attr := 0, coll := 2, gen := 0, code := [], nbrs := [] })] } } (qs 2 evq)
    let bad : List Nat := [5]
    lunOfBlock (s.engine e).luns b = some (l, k) ∧
    ((failed ≠ [] ∨ trailer = false)) ∧
    s.catalogue.current.segmentOf e b = some (g, i) ∧
    bad = (s.catalogue.current.nodesIn g (i * l.pages + page)).filter (fun n => !trailer || failed.contains (n % 65536 % 6)) := by decide +kernel

theorem wit_flash_operations_3 :
    let e : Nat := 0
    let b : Nat := 3
    let k : Nat := 3
    let l : Lun := aLun
    let p : LogPage := { engine := 0, block := 3, recs := [.delete 7] }
    let s : State := withSlip (slip 0x0503 []) (cat { withLun aCat with logPages := [p], durable := [(0, 1, endWith [])] })
    e < 64 ∧
    s.catalogue.engines.length = 64 ∧
    lunOfBlock (s.engine e).luns b = some (l, k) ∧
    s.catalogue.logPages.find? (fun p => p.engine == e && p.block == b) = some p := by decide +kernel

theorem wit_flash_operations_4 :
    let e : Nat := 0
    let b : Nat := 3
    let k : Nat := 3
    let l : Lun := aLun
    let s : State := cat { withLun aCat with logPages := [{ engine := 0, block := 3, recs := [.delete 7] }] } (qs 2 evq)
    e < 64 ∧
    s.catalogue.engines.length = 64 ∧
    lunOfBlock (s.engine e).luns b = some (l, k) ∧
    ((s.engine e).block b).retired = false := by decide +kernel

theorem wit_flash_operations_5 :
    let e : Nat := 0
    let b : Nat := 3
    let k : Nat := 3
    let l : Lun := aLun
    let s : State := cat (withLun aCat)
    lunOfBlock (s.engine e).luns b = some (l, k) := by decide +kernel

theorem wit_flash_operations_6 :
    let e : Nat := 0
    let b : Nat := 3
    let k : Nat := 3
    let l : Lun := aLun
    let s : State := cat (withLun aCat) (qs 2 evq)
    e < 64 ∧
    s.catalogue.engines.length = 64 ∧
    lunOfBlock (s.engine e).luns b = some (l, k) ∧
    ((s.engine e).block b).retired = false := by decide +kernel

theorem wit_flash_operations_7 :
    let e : Nat := 0
    let ce : Nat := 0
    let lun : Nat := 0
    let l : Lun := aLun
    let s : State := cat (withLun aCat)
    e < 64 ∧
    s.catalogue.engines.length = 64 ∧
    (s.engine e).luns.find? (fun l => l.ce == ce && l.lun == lun) = some l ∧
    l.inService = true ∧
    l.unused = false := by decide +kernel

theorem wit_flash_operations_7b :
    let e : Nat := 0
    let ce : Nat := 0
    let lun : Nat := 0
    let l : Lun := { aLun with retrying := true }
    let s : State := cat { withLun aCat with engines := { luns := [l] } :: List.replicate 63 {} } (qs 2 evq)
    e < 64 ∧
    s.catalogue.engines.length = 64 ∧
    (s.engine e).luns.find? (fun l => l.ce == ce && l.lun == lun) = some l ∧
    l.inService = true ∧
    l.unused = false := by decide +kernel

theorem wit_flash_operations_8 :
    let s : State := State.reset
    (s.catalogue.logOpen = [] ∨ s.now < s.catalogue.logSince + 10000000) := by decide +kernel

theorem wit_flash_operations_9 :
    let r : LogRec := .delete 7
    let e : Nat := 0
    let b : Nat := 3
    let p : Nat := 1
    let s : State := later (cat { aCat with logOpen := [r], engines := { luns := [aLun], filling := some (3, 1) } :: List.replicate 63 {} })
    r ∈ s.catalogue.logOpen ∧
    s.catalogue.logSince + 10000000 ≤ s.now ∧
    e < 64 ∧
    s.catalogue.engines.length = 64 ∧
    s.writable[s.catalogue.logCount % max s.writable.length 1]? = some e ∧
    (s.engine e).filling = some (b, p) ∧
    p < (s.engine e).pages b := by decide +kernel

theorem wit_frame_stages_end_1 :
    let k : Nat := 3
    let number : Nat := 0
    let r : FrameRun := { aRun 2 with other := some (0, 0) }
    let field : Option Bytes := some (packB 64 [(0, 4, 256)])
    let g : Graph := { set := graphSetOf graphSlip, state := .running, inFlight := [r] }
    let s : State := running3 r id (imgs (graphSetOf graphSlip).flowImage { anImage with ownerSigned := true })
    let x : Field := fieldWritten 16 16 (packB 64 [(0, 4, 256)])
    s.graph k = some g ∧
    g.frame number = some r ∧
    r.stage = 2 ∧
    g.inStage 2 number ∧
    s.reference.state = .normal ∧
    s.fieldFor k g r field = some x := by decide +kernel

theorem wit_frame_stages_end_2 :
    let k : Nat := 3
    let number : Nat := 0
    let r : FrameRun := aRun 3
    let g : Graph := { set := graphSetOf graphSlip, state := .running, inFlight := [r] }
    let s : State := running3 r
    s.graph k = some g ∧
    g.frame number = some r ∧
    r.stage = 3 ∧
    g.inStage 3 number ∧
    s.reference.state = .normal := by decide +kernel

theorem wit_frame_stages_end_3 :
    let k : Nat := 3
    let number : Nat := 0
    let r : FrameRun := aRun 4
    let f : Frame := aFrame 1000
    let g : Graph := { set := graphSetOf graphSlip, state := .running, inFlight := [r] }
    let s : State := running3 r id (conc { state := .running, bindings := [(1, { aBinding with stream := 3, source := 0 })] })
    s.graph k = some g ∧
    g.frame number = some r ∧
    r.stage = 4 ∧
    g.inStage 4 number ∧
    s.reference.state = .normal ∧
    s.frameIn k r.buffer = some f := by decide +kernel

theorem wit_frame_stages_end_4 :
    let k : Nat := 3
    let number : Nat := 0
    let r : FrameRun := { aRun 5 with restart := true }
    let f : Frame := aFrame 1000
    let batch : Bytes := []
    let g : Graph := { set := graphSetOf graphSlip, state := .running, inFlight := [r] }
    let s : State := running3 r
    let x : Stream := (s.stream 3).getD (aStream videoDesc)
    s.graph k = some g ∧
    g.frame number = some r ∧
    r.stage = 5 ∧
    g.inStage 5 number ∧
    s.batchMoving batch = false ∧
    s.reference.state = .normal ∧
    ((∀ q ∈ g.inFlight, q.number < number → 5 < q.stage)) ∧
    s.stream k = some x ∧
    s.frameIn k r.buffer = some f ∧
    r.restart = true := by decide +kernel

theorem wit_frame_stages_end_5 :
    let k : Nat := 3
    let number : Nat := 0
    let msum : Nat := 2
    let r : FrameRun := { aRun 5 with field := some aField }
    let f : Frame := aFrame 1000
    let batch : Bytes := []
    let g : Graph := { set := { graphSetOf graphSlip with keyMotion := 2, keyMaxGap := 5, validMin := 100, flow := true }, state := .running, inFlight := [r] }
    let s : State := running3 r (fun x => { x with set := g.set })
    let x : Stream := (s.stream 3).getD (aStream videoDesc)
    s.graph k = some g ∧
    g.frame number = some r ∧
    r.stage = 5 ∧
    g.inStage 5 number ∧
    s.batchMoving batch = false ∧
    s.reference.state = .normal ∧
    ((∀ q ∈ g.inFlight, q.number < number → 5 < q.stage)) ∧
    s.stream k = some x ∧
    s.frameIn k r.buffer = some f ∧
    r.restart = false ∧
    msum = (g.msum + r.meanMotion) % 2 ^ 64 ∧
    g.set.validMin * ((s.planeSize x.desc).1 * (s.planeSize x.desc).2) ≤ (r.field.elim 0 (·.valid)) * 100 ∧
    ((g.set.keyMotion ≤ msum ∨ g.set.keyMaxGap ≤ g.gap + 1)) := by decide +kernel

theorem wit_frame_stages_end_6 :
    let k : Nat := 3
    let number : Nat := 0
    let msum : Nat := 2
    let r : FrameRun := { aRun 5 with field := some aField }
    let f : Frame := aFrame 1000
    let batch : Bytes := []
    let g : Graph := { set := { graphSetOf graphSlip with keyMotion := 3, keyMaxGap := 5, validMin := 100, flow := true }, state := .running, inFlight := [r] }
    let s : State := running3 r (fun x => { x with set := g.set })
    let x : Stream := (s.stream 3).getD (aStream videoDesc)
    s.graph k = some g ∧
    g.frame number = some r ∧
    r.stage = 5 ∧
    g.inStage 5 number ∧
    s.batchMoving batch = false ∧
    s.reference.state = .normal ∧
    ((∀ q ∈ g.inFlight, q.number < number → 5 < q.stage)) ∧
    s.stream k = some x ∧
    s.frameIn k r.buffer = some f ∧
    r.restart = false ∧
    msum = (g.msum + r.meanMotion) % 2 ^ 64 ∧
    msum < g.set.keyMotion ∧
    g.gap + 1 < g.set.keyMaxGap := by decide +kernel

theorem wit_frame_stages_end_7 :
    let k : Nat := 3
    let number : Nat := 0
    let r : FrameRun := aRun 5
    let g : Graph := { set := graphSetOf graphSlip, state := .running, inFlight := [r] }
    let s : State := running3 r
    s.graph k = some g ∧
    g.frame number = some r ∧
    r.stage ≤ 5 ∧
    g.inStage r.stage number ∧
    s.reference.state = .normal := by decide +kernel

theorem wit_frames_steered_1 :
    let l : Nat := 0
    let s : State := State.reset
    (s.netPort l).state ≠ .up := by decide +kernel

theorem wit_frames_steered_2 :
    let l : Nat := 0
    let n : Nat := 0
    let ok : Bool := false
    let s : State := port0 upPort (qs 2 evq)
    l < 16 ∧
    s.net.ports.length = 16 ∧
    (s.netPort l).state = .up ∧
    (ok = false ∨ n ≠ 0) := by decide +kernel

theorem wit_frames_steered_2b :
    let l : Nat := 0
    let n : Nat := 1
    let ok : Bool := true
    let s : State := port0 upPort (qs 2 evq)
    l < 16 ∧
    s.net.ports.length = 16 ∧
    (s.netPort l).state = .up ∧
    (ok = false ∨ n ≠ 0) := by decide +kernel

theorem wit_frames_steered_3 :
    let l : Nat := 0
    let f : Bytes := aPacket
    let s : State := port0 { upPort with mac := 3 }
    l < 16 ∧
    s.net.ports.length = 16 ∧
    (s.netPort l).state = .up ∧
    60 ≤ f.length ∧
    f.length ≤ 9212 ∧
    (parseFrame f).etherType ≠ 0x8808 ∧
    ((parseFrame f).tags = 0 ∨ (parseFrame f).tags = 1 ∧ (parseFrame f).vlan % 4096 = (s.netPort l).vlan) ∧
    (s.netPort l).takesMac (parseFrame f).dst = false := by decide +kernel

theorem wit_frames_steered_4 :
    let l : Nat := 0
    let f : Bytes := aPacket
    let s : State := port0 upPort (strm 3 (aStream videoDesc))
    s.GoodFrame l f ∧
    s.power.sleep = .awake ∧
    s.steer l (s.arrival l f) (parseFrame f) = .station := by decide +kernel

theorem wit_frames_steered_5 :
    let l : Nat := 0
    let f : Bytes := udpFrame route (packB 48 [(0, 2, 0x5A53), (3, 1, 3), (4, 4, 5)])
    let s : State := port0 upPort (sess aSession)
    s.GoodFrame l f ∧
    s.power.sleep = .awake ∧
    s.steer l (s.arrival l f) (parseFrame f) = .session := by decide +kernel

theorem wit_frames_steered_6 :
    let l : Nat := 0
    let rule : Nat := 7
    let q : Nat := 9
    let f : Bytes := aPacket
    let s : State := port0 upPort (ruled (qs 9 recvq))
    s.GoodFrame l f ∧
    s.power.sleep = .awake ∧
    s.steer l (s.arrival l f) (parseFrame f) = .rule rule q ∧
    (s.queue q).kind = .receive ∧
    (s.queue q).state = .active ∧
    f.length ≤ 2048 ∧
    1 ≤ (s.queue q).room ∧
    (s.queue q).tail < (s.queue q).slots := by decide +kernel

theorem wit_frames_steered_7 :
    let l : Nat := 0
    let rule : Nat := 7
    let q : Nat := 9
    let f : Bytes := aPacket
    let s : State := port0 upPort (ruled)
    s.GoodFrame l f ∧
    s.power.sleep = .awake ∧
    s.steer l (s.arrival l f) (parseFrame f) = .rule rule q ∧
    ((s.queue q).kind ≠ .receive ∨ (s.queue q).state ≠ .active ∨ (s.queue q).room < (f.length + 2047) / 2048) := by decide +kernel

theorem wit_frames_steered_8 :
    let l : Nat := 0
    let a : Nat := 0xFFFF0A000002
    let f : Bytes := arpFrame
    let s : State := port0 upPort
    l < 16 ∧
    s.net.ports.length = 16 ∧
    (s.netPort l).state = .up ∧
    60 ≤ f.length ∧
    f.length ≤ 9212 ∧
    (parseFrame f).etherType = 0x0806 ∧
    (parseFrame f).lengthBad = false ∧
    ((parseFrame f).tags = 0 ∨ (parseFrame f).tags = 1 ∧ (parseFrame f).vlan % 4096 = (s.netPort l).vlan) ∧
    (s.netPort l).takesMac (parseFrame f).dst = true ∧
    fldBE f ((parseFrame f).body + 6) 2 = 1 ∧
    arpTarget f (parseFrame f) = some a ∧
    a ∈ (s.netPort l).unicast := by decide +kernel

theorem wit_frames_steered_9 :
    let q : Nat := 9
    let u : Nat := 5000
    let p : Nat := 0xFF
    let k : Nat := 0
    let x : Slip := slip 0x0842 [(32, 4, 9), (36, 2, 5000), (38, 1, 0xFF)]
    let j : Job := jobOf x
    let n : Nat := 0
    let s : State := withSlip x (qs 9 recvq)
    s.Startable n 0x0842 j ∧
    fld j.slip 32 4 = q ∧
    fld j.slip 36 2 = u ∧
    fld j.slip 38 1 = p ∧
    ((p = 0xFF ∨ p ≤ 127)) ∧
    fld j.slip 39 1 ≤ 1 ∧
    fld j.slip 56 8 = 0 ∧
    s.receiveQueue q = true ∧
    u ≠ 319 ∧
    u ≠ 320 ∧
    (∀ e ∈ s.accession.streams, e.2.desc.udpPort ≠ u) ∧
    u ∉ s.sessionPortList ∧
    freeRule s.net.rules = some k := by decide +kernel

theorem wit_frames_steered_10 :
    let n : Nat := 0
    let k : Nat := 7
    let r : FlowRule := aRule
    let j : Job := jobOf (slip 0x0843 [(32, 2, 7)])
    let s : State := withSlip j.slip (ruled)
    s.Startable n 0x0843 j ∧
    fld j.slip 32 2 = k ∧
    fld j.slip 34 30 = 0 ∧
    k < 4096 ∧
    amGet s.net.rules k = some r := by decide +kernel

theorem wit_frames_steered_11 :
    let q : Nat := 9
    let l : Nat := 0
    let e : Slip := pack 512 [(8, 2, 82), (10, 1, 0), (11, 1, 3)]
    let s : State := port0 upPort (qs 9 sendq)
    (s.queue q).kind = .transmit ∧
    (s.queue q).state = .active ∧
    (s.queue q).head ≠ (s.queue q).tail ∧
    hostResident q = true ∧
    txEntryOk e = true ∧
    fld e 10 1 = l ∧
    (s.netPort l).state = .up ∧
    s.net.ports.length = 16 ∧
    s.hostWaits q = false := by decide +kernel

theorem wit_frames_steered_12 :
    let l : Nat := 0
    let m : PtpOut := { kind := 8, seq := 5 }
    let ms : List PtpOut := []
    let s : State := port0 { upPort with sync := [m], answers := [aPacket] }
    l < 16 ∧
    s.net.ports.length = 16 ∧
    (s.netPort l).state = .up ∧
    (s.netPort l).left = 0 ∧
    (s.netPort l).sync = m :: ms := by decide +kernel

theorem wit_frames_steered_13 :
    let q : Nat := 9
    let s : State := port0 { upPort with host := [(9, aPacket)] }
    s.hostWaits q = true := by decide +kernel

theorem wit_frames_steered_14 :
    let q : Nat := 9
    let e : Slip := pack 512 [(8, 2, 59)]
    let s : State := qs 9 sendq
    (s.queue q).kind = .transmit ∧
    (s.queue q).state = .active ∧
    (s.queue q).head ≠ (s.queue q).tail ∧
    hostResident q = true ∧
    txEntryOk e = false ∧
    s.hostWaits q = false := by decide +kernel

theorem wit_frames_steered_15 :
    let q : Nat := 9
    let s : State := qs 9 sendq (qs 2 evq)
    (s.queue q).kind = .transmit ∧
    (s.queue q).state = .active ∧
    (s.queue q).head ≠ (s.queue q).tail ∧
    hostResident q = true ∧
    s.hostWaits q = false := by decide +kernel

theorem wit_frames_steered_16 :
    let l : Nat := 0
    let f : Bytes := aPacket
    let fs : List Bytes := []
    let s : State := port0 { upPort with answers := [f], host := [(9, arpFrame)] }
    l < 16 ∧
    s.net.ports.length = 16 ∧
    (s.netPort l).state = .up ∧
    (s.netPort l).left = 0 ∧
    (s.netPort l).sync = [] ∧
    (s.netPort l).answers = f :: fs := by decide +kernel

theorem wit_frames_steered_17 :
    let l : Nat := 0
    let q : Nat := 9
    let h : Bytes := aPacket
    let s : State := port0 { upPort with host := [(9, h)] }
    l < 16 ∧
    s.net.ports.length = 16 ∧
    (s.netPort l).state = .up ∧
    (s.netPort l).left = 0 ∧
    (s.netPort l).sync = [] ∧
    (s.netPort l).answers = [] ∧
    (q, h) ∈ (s.netPort l).host ∧
    ((∀ e ∈ (s.netPort l).host, e.1 = q → e = (q, h))) ∧
    ((∀ e ∈ (s.netPort l).host, (s.netPort l).turn < q ∧ (e.1 ≤ (s.netPort l).turn ∨ q ≤ e.1) ∨ q ≤ e.1 ∧ e.1 ≤ (s.netPort l).turn)) := by decide +kernel

theorem wit_frames_steered_17b :
    let l : Nat := 0
    let q : Nat := 9
    let h : Bytes := aPacket
    let s : State := port0 { upPort with host := [(9, h), (3, arpFrame)], turn := 5 }
    l < 16 ∧
    s.net.ports.length = 16 ∧
    (s.netPort l).state = .up ∧
    (s.netPort l).left = 0 ∧
    (s.netPort l).sync = [] ∧
    (s.netPort l).answers = [] ∧
    (q, h) ∈ (s.netPort l).host ∧
    ((∀ e ∈ (s.netPort l).host, e.1 = q → e = (q, h))) ∧
    ((∀ e ∈ (s.netPort l).host, (s.netPort l).turn < q ∧ (e.1 ≤ (s.netPort l).turn ∨ q ≤ e.1) ∨ q ≤ e.1 ∧ e.1 ≤ (s.netPort l).turn)) := by decide +kernel

theorem wit_frames_steered_17c :
    let l : Nat := 0
    let q : Nat := 3
    let h : Bytes := aPacket
    let s : State := port0 { upPort with host := [(9, arpFrame), (3, h)], turn := 9 }
    l < 16 ∧
    s.net.ports.length = 16 ∧
    (s.netPort l).state = .up ∧
    (s.netPort l).left = 0 ∧
    (s.netPort l).sync = [] ∧
    (s.netPort l).answers = [] ∧
    (q, h) ∈ (s.netPort l).host ∧
    ((∀ e ∈ (s.netPort l).host, e.1 = q → e = (q, h))) ∧
    ((∀ e ∈ (s.netPort l).host, (s.netPort l).turn < q ∧ (e.1 ≤ (s.netPort l).turn ∨ q ≤ e.1) ∨ q ≤ e.1 ∧ e.1 ≤ (s.netPort l).turn)) := by decide +kernel

theorem wit_ports_train_1 :
    let k : Nat := 3
    let q : Nat := 9
    let j : Job := jobOf (slip 0x0840 [(32, 1, 3), (33, 1, 2), (36, 4, 9)])
    let s : State := withSlip j.slip (qs 9 recvq)
    let n : Nat := 0
    s.Startable n 0x0840 j ∧
    fld j.slip 32 1 = k ∧
    k ≤ 3 ∧
    fld j.slip 33 1 ≤ 2 ∧
    fld j.slip 34 1 ≤ 1 ∧
    fld j.slip 35 1 ≤ 1 ∧
    fld j.slip 36 4 = q ∧
    fld j.slip 40 24 = 0 ∧
    ((q = 0 ∨ s.receiveQueue q = true)) ∧
    (s.phys k).job = none ∧
    s.net.ports.length = 16 ∧
    s.net.phys.length = 4 := by decide +kernel

theorem wit_ports_train_2 :
    let l : Nat := 0
    let s : State := port0 { state := .training, failed := true } (qs 2 evq)
    l < 16 ∧
    s.net.ports.length = 16 ∧
    (s.netPort l).state = .training := by decide +kernel

theorem wit_ports_train_3 :
    let l : Nat := 0
    let n : Nat := 0
    let j : Job := jobOf (slip 0x0840 [(32, 1, 0)])
    let s : State := port0 { state := .training } ({ withSlip j.slip State.reset with net := { State.reset.net with phys := { provided := true, job := some 0 } :: List.replicate 3 {} } })
    l < 16 ∧
    s.net.ports.length = 16 ∧
    s.net.phys.length = 4 ∧
    (s.netPort l).state = .training ∧
    ((∀ i < 4, 4 * (l / 4) + i ≠ l → (s.netPort (4 * (l / 4) + i)).state ≠ .training)) ∧
    (s.phys (l / 4)).job = some n ∧
    s.job n = some j ∧
    j.ending = none := by decide +kernel

theorem wit_ports_train_4 :
    let l : Nat := 0
    let s : State := port0 { state := .training } (qs 2 evq)
    l < 16 ∧
    s.net.ports.length = 16 ∧
    (s.netPort l).state = .training := by decide +kernel

theorem wit_ports_train_5 :
    let l : Nat := 0
    let s : State := stampOf { seconds := 1 } (port0 { state := .down, failed := true } ({ State.reset with net := { State.reset.net with phys := { provided := true } :: List.replicate 3 {} } }))
    l < 16 ∧
    s.net.ports.length = 16 ∧
    (s.netPort l).state = .down ∧
    (s.netPort l).failed = true ∧
    (s.netPort l).failedAt + 1000000000 ≤ s.now ∧
    s.portGiven l = true := by decide +kernel

theorem wit_ports_train_6 :
    let l : Nat := 0
    let s : State := State.reset
    ((s.netPort l).state ≠ .down ∨ (s.netPort l).failed = false ∨ s.now < (s.netPort l).failedAt + 1000000000) := by decide +kernel

theorem wit_ports_train_7 :
    let l : Nat := 0
    let s : State := port0 upPort (qs 2 evq)
    l < 16 ∧
    s.net.ports.length = 16 ∧
    (s.netPort l).state = .up := by decide +kernel

theorem wit_ports_train_8 :
    let b : Bytes := packB 256 [(2, 2, 5), (4, 2, 0), (8, 2, 0x0200), (76, 2, 0xFFFF), (78, 2, 0x1111)]
    let x : Slip := slip 0x0841 [(24, 4, 256)]
    let s : State := atJob x
    let n : Nat := 0
    let j : Job := jobOf x
    s.Startable n 0x0841 j ∧
    dataLenOf j.slip = 256 ∧
    fld j.slip 32 32 = 0 ∧
    b.length = 256 ∧
    addressOk b = true ∧
    s.net.ports.length = 16 := by decide +kernel

theorem wit_ports_train_9 :
    let l : Nat := 15
    let j : Job := jobOf (slip 0x0844 [(24, 4, 64), (32, 1, 15)])
    let s : State := withSlip j.slip State.reset
    let n : Nat := 0
    let x : LogPort := {}
    s.Startable n 0x0844 j ∧
    fld j.slip 32 1 = l ∧
    l ≤ 15 ∧
    fld j.slip 33 31 = 0 ∧
    64 ≤ dataLenOf j.slip ∧
    x = s.netPort l := by decide +kernel

theorem wit_ports_train_10 :
    let p : Nat := 6
    let j : Job := jobOf (slip 0x0845 [(24, 4, 64), (32, 1, 6)])
    let s : State := withSlip j.slip State.reset
    let n : Nat := 0
    let x : Jalzel := {}
    s.Startable n 0x0845 j ∧
    fld j.slip 32 1 = p ∧
    p ≤ 6 ∧
    fld j.slip 33 31 = 0 ∧
    64 ≤ dataLenOf j.slip ∧
    x = s.jalzel p := by decide +kernel

theorem wit_links_up_1 :
    let p : Nat := 6
    let s : State := State.reset
    p < 7 ∧
    (s.jalzel p).state = .down ∧
    s.boot.gen ≠ .minimal := by decide +kernel

theorem wit_links_up_2 :
    let s : State := { State.reset with boot := { State.reset.boot with gen := .minimal } }
    s.boot.gen = .minimal := by decide +kernel

theorem wit_links_up_3 :
    let p : Nat := 0
    let s : State := jal0 { state := .training }
    (s.jalzel p).state = .training := by decide +kernel

theorem wit_links_up_4 :
    let p : Nat := 0
    let s : State := jal0 { state := .training }
    (s.jalzel p).state = .training ∧
    (s.jalzel p).retraining = false := by decide +kernel

theorem wit_links_up_5 :
    let p : Nat := 0
    let s : State := stampOf { seconds := 1 } (jal0 { failed := true })
    (s.jalzel p).state = .down ∧
    (s.jalzel p).failed = true ∧
    (s.jalzel p).failedAt + 100000000 ≤ s.now ∧
    s.boot.gen ≠ .minimal := by decide +kernel

theorem wit_links_up_6 :
    let p : Nat := 0
    let m : Nat := 1
    let s : State := jal0 upLink
    (s.jalzel p).state = .up ∧
    (s.jalzel p).parked = false ∧
    (s.jalzel p).partner = some m := by decide +kernel

theorem wit_links_up_7 :
    let p : Nat := 0
    let s : State := jal0 { state := .refused }
    (s.jalzel p).parked = false ∧
    (s.jalzel p).retraining = false ∧
    ((s.jalzel p).state = .training ∨ (s.jalzel p).state = .identifying ∨ (s.jalzel p).state = .refused) := by decide +kernel

theorem wit_links_up_8 :
    let p : Nat := 0
    let ordering : Nat := 0x88000026
    let stepping : Nat := 0
    let position : Nat := 1
    let s : State := jal0 { state := .identifying } { State.reset with net := { State.reset.net with members := 3 } }
    let measurement : Bytes := s.security.firmware
    let members : Nat := 3
    (s.jalzel p).state = .identifying ∧
    (s.jalzel p).retraining = false ∧
    ordering = 0x88000026 ∧
    stepping = 0 ∧
    measurement = s.security.firmware ∧
    members = s.net.members ∧
    position < 8 ∧
    position ≠ s.position ∧
    s.net.members.testBit position = true ∧
    ((∀ q < 7, q ≠ p → (s.jalzel q).joined = true → (s.jalzel q).partner ≠ some position)) := by decide +kernel

theorem wit_links_up_9 :
    let p : Nat := 0
    let ordering : Nat := 0x88000026
    let stepping : Nat := 0
    let position : Nat := 2
    let s : State := jal0 { state := .identifying } { State.reset with net := { State.reset.net with members := 3 } }
    let measurement : Bytes := s.security.firmware
    let members : Nat := 3
    p < 7 ∧
    s.net.jalzel.length = 7 ∧
    (s.jalzel p).state = .identifying ∧
    (s.jalzel p).retraining = false ∧
    (ordering ≠ 0x88000026 ∨ stepping ≠ 0 ∨ measurement ≠ s.security.firmware ∨ members ≠ s.net.members ∨ position = s.position ∨ s.net.members.testBit position = false) := by decide +kernel

theorem wit_links_up_11 :
    let p : Nat := 0
    let f : Bytes := bellFrame
    let s : State := jal0 upLink
    p < 7 ∧
    s.net.jalzel.length = 7 ∧
    (s.jalzel p).state = .up ∧
    (s.jalzel p).parked = false ∧
    f.length = 3400 ∧
    headerCrcOk f = true ∧
    fldB f 16 1 = 0 ∧
    notBeyond (fldB f 12 4) (((s.jalzel p).nextSeq + 2 ^ 32 - 1) % 2 ^ 32) = true ∧
    fldB f 8 4 = ((s.jalzel p).accepted + 1) % 2 ^ 32 ∧
    (∀ d ∈ frameDecisions f, d.2.2 ≠ .uncorrectable) := by decide +kernel

theorem wit_links_up_12 :
    let p : Nat := 0
    let f : Bytes := zeros 3400
    let s : State := jal0 upLink
    (s.jalzel p).state = .up ∧
    (s.jalzel p).parked = false ∧
    f.length = 3400 ∧
    headerCrcOk f = false := by decide +kernel

theorem wit_links_up_13 :
    let p : Nat := 0
    let f : Bytes := zeros 3400
    let s : State := jal0 { upLink with parked := true } { State.reset with power := { State.reset.power with sleep := .asleep } }
    (s.jalzel p).state = .up ∧
    (s.jalzel p).parked = true ∧
    f.length = 3400 ∧
    s.power.sleep = .asleep := by decide +kernel

theorem wit_links_up_14 :
    let p : Nat := 0
    let ack : Nat := 2 ^ 32 - 1
    let k : TxFrame := keptFrame 14
    let rest : List TxFrame := [{ keptFrame 0 with seq := 1 }]
    let s : State := jal0 { upLink with nextSeq := 2, kept := [keptFrame 14, { keptFrame 0 with seq := 1 }] }
    p < 7 ∧
    s.net.jalzel.length = 7 ∧
    (s.jalzel p).state = .up ∧
    (s.jalzel p).parked = false ∧
    notBeyond ack (((s.jalzel p).nextSeq + 2 ^ 32 - 1) % 2 ^ 32) = true ∧
    (s.jalzel p).kept.filter (fun f => !notBeyond f.seq ack) = k :: rest ∧
    k.replays + 1 < 16 ∧
    (s.jalzel p).waiting = [] := by decide +kernel

theorem wit_links_up_15 :
    let p : Nat := 0
    let ack : Nat := 2 ^ 32 - 1
    let k : TxFrame := keptFrame 15
    let rest : List TxFrame := []
    let s : State := jal0 { upLink with nextSeq := 1, kept := [keptFrame 15] }
    p < 7 ∧
    s.net.jalzel.length = 7 ∧
    (s.jalzel p).state = .up ∧
    (s.jalzel p).parked = false ∧
    notBeyond ack (((s.jalzel p).nextSeq + 2 ^ 32 - 1) % 2 ^ 32) = true ∧
    (s.jalzel p).kept.filter (fun f => !notBeyond f.seq ack) = k :: rest ∧
    16 ≤ k.replays + 1 := by decide +kernel

theorem wit_links_up_16 :
    let p : Nat := 0
    let s : State := stampOf { nanos := 2000 } (jal0 { upLink with asked := true })
    (s.jalzel p).state = .up ∧
    (s.jalzel p).parked = false ∧
    (s.jalzel p).asked = true ∧
    (s.jalzel p).askedAt + 2000 ≤ s.now := by decide +kernel

theorem wit_link_messages_taken_1 :
    let p : Nat := 0
    let addr : Nat := copyBase 1
    let n : Nat := 2
    let m : LinkMsg := aMsg 1 (copyBase 1 + 2 * 2 ^ 40) []
    let s : State := inbox0 m (opened1)
    (s.jalzel p).head 1 = some m ∧
    addr = bitsOf m.address 34 0 ∧
    n = bitsOf m.address 47 40 ∧
    1 ≤ n ∧
    n ≤ 64 ∧
    addr % 64 = 0 ∧
    s.openedTo m.source addr (64 * n) = true ∧
    s.unitDown 0x0002 (vaultOfWord (addr / 32)) = false ∧
    s.LinkFree p m.source (m.channel / 2 * 2 + 1) (1 + 2 * n) ∧
    (∀ i < 2 * n, decideWord (s.fabric.stack.store.word (addr / 32 + i)) = .clean) := by decide +kernel

theorem wit_link_messages_taken_2 :
    let p : Nat := 0
    let m : LinkMsg := aMsg 1 (copyBase 1 + 2 * 2 ^ 40) []
    let s : State := inbox0 m
    (s.jalzel p).head 1 = some m ∧
    p < 7 ∧
    s.net.jalzel.length = 7 ∧
    s.openedTo m.source (bitsOf m.address 34 0) (64 * bitsOf m.address 47 40) = false := by decide +kernel

theorem wit_link_messages_taken_3 :
    let p : Nat := 0
    let m : LinkMsg := aMsg 2 0 [zeros 32]
    let r : LinkReq := { tag := 0, write := false, address := 0 }
    let s : State := jal0 { upLink with inbox := [m], open_ := [r] }
    (s.jalzel p).head 2 = some m ∧
    p < 7 ∧
    s.net.jalzel.length = 7 ∧
    r ∈ (s.jalzel p).open_ ∧
    r.tag = m.tag ∧
    r.write = false := by decide +kernel

theorem wit_link_messages_taken_4 :
    let p : Nat := 0
    let addr : Nat := copyBase 1
    let d : Bytes := List.replicate 32 7
    let m : LinkMsg := aMsg 3 (copyBase 1) [d]
    let s : State := inbox0 m (opened1)
    (s.jalzel p).head 3 = some m ∧
    addr = bitsOf m.address 34 0 ∧
    m.words = [d] ∧
    d.length = 32 ∧
    m.poison = 0 ∧
    addr % 32 = 0 ∧
    s.openedTo m.source addr 32 = true ∧
    s.LinkFree p m.source (m.channel / 2 * 2 + 1) 1 ∧
    s.fabric.stack.store.wf = true := by decide +kernel

theorem wit_link_messages_taken_5 :
    let p : Nat := 0
    let m : LinkMsg := aMsg 4 0 []
    let r : LinkReq := { tag := 0, write := true, address := 0 }
    let s : State := jal0 { upLink with inbox := [m], open_ := [r] }
    (s.jalzel p).head 4 = some m ∧
    p < 7 ∧
    s.net.jalzel.length = 7 ∧
    r ∈ (s.jalzel p).open_ ∧
    r.tag = m.tag ∧
    r.write = true := by decide +kernel

theorem wit_link_messages_taken_6 :
    let s : State := State.reset
    s.net.farTokens = [] := by decide +kernel

theorem wit_link_messages_taken_7 :
    let p : Nat := 0
    let tag : Nat := 5
    let t : FarToken := { port := 0, tags := [5], msg := aMsg 5 0 [zeros 32] }
    let s : State := { State.reset with net := { State.reset.net with farTokens := [t] } }
    s.net.farTokens = [t] ∧
    t.port = p ∧
    t.tags = [tag] := by decide +kernel

theorem wit_link_messages_taken_8 :
    let p : Nat := 0
    let m : LinkMsg := aMsg 4 0 []
    let s : State := inbox0 m
    (s.jalzel p).head 4 = some m ∧
    (∀ r ∈ (s.jalzel p).open_, r.tag ≠ m.tag) ∧
    p < 7 ∧
    s.net.jalzel.length = 7 := by decide +kernel

theorem wit_link_messages_taken_9 :
    let p : Nat := 0
    let c : Nat := 9
    let port : Nat := 0
    let w : Bytes := packB 32 [(0, 2, 9), (3, 1, 1), (4, 4, 64), (8, 4, 3)]
    let m : LinkMsg := aMsg 5 0 [w]
    let b : Bound := aBound
    let x : InPort := { edge := 0, src := 0, slots := 2 }
    let s : State := inbox0 m (car 9 { state := .running, bound := some b, ins := [x] })
    (s.jalzel p).head 5 = some m ∧
    m.words = [w] ∧
    c = fldB w 0 2 ∧
    port = fldB w 2 1 ∧
    (s.carrel c).bound = some b ∧
    (s.carrel c).ins[port]? = some x ∧
    fldB w 3 1 < x.slots ∧
    (∀ h ∈ x.held, h.slot ≠ fldB w 3 1) ∧
    (s.carrel c).state = .running ∧
    (∀ y ∈ (s.carrel c).ins, ∀ h ∈ y.held, s.deadToken h = false) := by decide +kernel

theorem wit_link_messages_taken_10 :
    let p : Nat := 0
    let w : Bytes := packB 32 [(0, 2, 9), (3, 1, 1)]
    let m : LinkMsg := aMsg 5 0 [w]
    let s : State := inbox0 m
    (s.jalzel p).head 5 = some m ∧
    m.words = [w] ∧
    ((∀ x, (s.carrel (fldB w 0 2)).ins[fldB w 2 1]? = some x → x.slots ≤ fldB w 3 1 ∨ ∃ h ∈ x.held, h.slot = fldB w 3 1)) := by decide +kernel

theorem wit_link_messages_taken_11 :
    let p : Nat := 0
    let l : Nat := 2
    let m : LinkMsg := aMsg 6 524289 [packB 32 [(0, 1, 2), (16, 4, 64)], zeros 32, zeros 32]
    let f : Bytes := (m.words.flatten.drop 32).take (fldB m.words.flatten 16 4)
    let s : State := inbox0 m (State.reset.modPort 2 (fun _ => upPort))
    (s.jalzel p).head 6 = some m ∧
    m.poison = 0 ∧
    m.address % 2 = 1 ∧
    524288 ≤ m.address ∧
    m.address < 1048576 ∧
    fldB m.words.flatten 0 1 = 16 * s.position + l ∧
    l < 16 ∧
    f = (m.words.flatten.drop 32).take (fldB m.words.flatten 16 4) ∧
    (s.netPort l).state = .up ∧
    s.net.ports.length = 16 := by decide +kernel

theorem wit_link_messages_taken_12 :
    let p : Nat := 0
    let m : LinkMsg := { aMsg 6 524289 [packB 32 [(0, 1, 2), (16, 4, 64)], zeros 32, zeros 32] with poison := 1 }
    let s : State := inbox0 m
    (s.jalzel p).head 6 = some m ∧
    m.poison ≠ 0 := by decide +kernel

theorem wit_link_messages_taken_13 :
    let p : Nat := 0
    let m : LinkMsg := aMsg 7 288 []
    let s : State := inbox0 m
    (s.jalzel p).head 7 = some m ∧
    256 + 32 * m.source ≤ m.address ∧
    m.address < 288 + 32 * m.source ∧
    m.source < 8 := by decide +kernel

theorem wit_link_messages_taken_13b :
    let p : Nat := 0
    let m : LinkMsg := aMsg 7 319 []
    let s : State := inbox0 m
    (s.jalzel p).head 7 = some m ∧
    256 + 32 * m.source ≤ m.address ∧
    m.address < 288 + 32 * m.source ∧
    m.source < 8 := by decide +kernel

theorem wit_link_messages_taken_14 :
    let p : Nat := 0
    let m : LinkMsg := aMsg 7 320 []
    let s : State := inbox0 m
    (s.jalzel p).head 7 = some m ∧
    (m.address < 256 + 32 * m.source ∨ 288 + 32 * m.source ≤ m.address) := by decide +kernel

theorem wit_link_messages_taken_15 :
    let p : Nat := 0
    let m : LinkMsg := aMsg 8 (0x13 * 2 ^ 32) [zeros 32]
    let s : State := inbox0 m
    (s.jalzel p).head 8 = some m ∧
    m.address / 2 ^ 32 = 0x13 := by decide +kernel

theorem wit_link_messages_taken_16 :
    let p : Nat := 0
    let m : LinkMsg := aMsg 9 0x6C [packB 32 [(0, 4, 7)]]
    let s : State := inbox0 m (cur { pins := [(7, 0), (8, 0)] })
    (s.jalzel p).head 9 = some m ∧
    m.address = 0x6C := by decide +kernel

theorem wit_link_messages_taken_17 :
    let p : Nat := 0
    let m : LinkMsg := aMsg 9 0x74 [zeros 32, packB 32 [(0, 4, 4096)]]
    let s : State := inbox0 m
    (s.jalzel p).head 9 = some m ∧
    m.address = 0x74 := by decide +kernel

theorem wit_link_messages_taken_18 :
    let p : Nat := 0
    let m : LinkMsg := aMsg 9 0x75 []
    let s : State := inbox0 m (opened1)
    (s.jalzel p).head 9 = some m ∧
    m.address = 0x75 := by decide +kernel

theorem wit_link_messages_taken_19 :
    let p : Nat := 0
    let m : LinkMsg := aMsg 9 0x77 [le 8 9]
    let s : State := inbox0 m (car 9 { state := .running, bound := some aBound })
    (s.jalzel p).head 9 = some m ∧
    m.address = 0x77 := by decide +kernel

theorem wit_counter_advances_2 :
    let x : Stamp := {}
    x.inc = BitVec.ofNat 64 nominalInc := by decide +kernel

theorem wit_counter_advances_3 :
    let s : State := stampOf { nanos := 999999995, fraction := 7, r := 9 }
    let add : BitVec 64 := s.stamp.inc + BitVec.ofInt 64 s.stamp.slew
    let t : Nat := s.stamp.fraction.toNat + (add &&& 0xFFFFFFFF#64).toNat
    let n : BitVec 32 := s.stamp.nanos + (add >>> 32).setWidth 32 + BitVec.ofNat 32 (t / 2 ^ 32)
    s.stamp.ops = [] ∧
    s.stamp.refLost = false ∧
    add = s.stamp.inc + BitVec.ofInt 64 s.stamp.slew ∧
    t = s.stamp.fraction.toNat + (add &&& 0xFFFFFFFF#64).toNat ∧
    n = s.stamp.nanos + (add >>> 32).setWidth 32 + BitVec.ofNat 32 (t / 2 ^ 32) := by decide +kernel

theorem wit_counter_advances_4 :
    let x : Stamp := slewing (2147483 + 1)
    x.hi < x.r := by decide +kernel

theorem wit_counter_advances_5 :
    let x : Stamp := slewing 2147483
    x.r ≤ x.hi ∧
    x.lo ≤ x.r := by decide +kernel

theorem wit_counter_advances_5b :
    let x : Stamp := slewing (-2147483)
    x.r ≤ x.hi ∧
    x.lo ≤ x.r := by decide +kernel

theorem wit_counter_advances_6 :
    let x : Stamp := slewing (-2147484)
    x.r ≤ x.hi ∧
    x.r < x.lo := by decide +kernel

theorem wit_counter_advances_8 :
    let s : State := stampOf { nanos := 999999999, fraction := 7, r := 9 }
    s.stamp.ops = [] ∧
    s.stamp.refLost = false ∧
    s.stamp.timing.slewPpb ≤ 1000000 ∧
    incOk s.stamp.timing.slewPpb s.stamp.inc = true ∧
    s.stamp.nanos.toNat < 1000000000 ∧
    s.stamp.seconds.toNat < 2 ^ 64 - 1 := by decide +kernel

theorem wit_counter_commands_1 :
    let off : Int := -1000000000 * 2 ^ 32
    let x : Slip := slip 0x0851 [(32, 8, 2 ^ 64 - 1000000000 * 2 ^ 32)]
    let s : State := withSlip x (stampOf { timing := { source := 1 } })
    let n : Nat := 0
    let j : Job := jobOf x
    s.Startable n 0x0851 j ∧
    fld j.slip 40 24 = 0 ∧
    off = toInt 64 (fld j.slip 32 8) ∧
    s.stamp.timing.source ≤ 1 ∧
    s.isClerk = true ∧
    off.natAbs ≤ 1000000000 * 2 ^ 32 ∧
    (remainderAfter s.stamp.r s.stamp.ops + off).natAbs ≤ 1000000000 * 2 ^ 32 := by decide +kernel

theorem wit_counter_commands_2 :
    let off : Int := 1000000000 * 2 ^ 32 + 1
    let x : Slip := slip 0x0851 [(32, 8, 1000000000 * 2 ^ 32 + 1)]
    let s : State := withSlip x (stampOf { timing := { source := 1 } })
    let n : Nat := 0
    let j : Job := jobOf x
    s.Startable n 0x0851 j ∧
    fld j.slip 40 24 = 0 ∧
    off = toInt 64 (fld j.slip 32 8) ∧
    s.stamp.timing.source ≤ 1 ∧
    s.isClerk = true ∧
    (1000000000 * 2 ^ 32 < off.natAbs ∨ 1000000000 * 2 ^ 32 < (remainderAfter s.stamp.r s.stamp.ops + off).natAbs) := by decide +kernel

theorem wit_counter_commands_2b :
    let off : Int := 1
    let x : Slip := slip 0x0851 [(32, 8, 1)]
    let s : State := withSlip x (stampOf { timing := { source := 1 }, r := 1000000000 * 2 ^ 32 })
    let n : Nat := 0
    let j : Job := jobOf x
    s.Startable n 0x0851 j ∧
    fld j.slip 40 24 = 0 ∧
    off = toInt 64 (fld j.slip 32 8) ∧
    s.stamp.timing.source ≤ 1 ∧
    s.isClerk = true ∧
    (1000000000 * 2 ^ 32 < off.natAbs ∨ 1000000000 * 2 ^ 32 < (remainderAfter s.stamp.r s.stamp.ops + off).natAbs) := by decide +kernel

theorem wit_counter_commands_3 :
    let x : Slip := slip 0x0852 [(32, 8, 21474836481)]
    let s : State := withSlip x (stampOf { timing := { source := 1 } })
    let n : Nat := 0
    let j : Job := jobOf x
    s.Startable n 0x0852 j ∧
    fld j.slip 40 24 = 0 ∧
    s.stamp.timing.source ≤ 1 ∧
    s.isClerk = true ∧
    incOk s.stamp.timing.slewPpb (BitVec.ofNat 64 (fld j.slip 32 8)) = true := by decide +kernel

theorem wit_counter_commands_4 :
    let x : Slip := slip 0x0853 [(32, 8, 7), (40, 4, 999999999)]
    let s : State := withSlip x (stampOf { timing := { source := 1 } })
    let n : Nat := 0
    let j : Job := jobOf x
    s.Startable n 0x0853 j ∧
    fld j.slip 48 16 = 0 ∧
    s.stamp.timing.source ≤ 1 ∧
    s.isClerk = true ∧
    s.accession.streams = [] ∧
    s.concord.state ≠ .running ∧
    s.concord.state ≠ .stopping ∧
    fld j.slip 40 4 ≤ 999999999 ∧
    (fld j.slip 32 8 ≠ 0 ∨ fld j.slip 40 4 ≠ 0) := by decide +kernel

theorem wit_counter_commands_5 :
    let c : Instr := .adjustTime 0
    let x : Slip := slip 0x0851 []
    let s : State := atJob x
    let n : Nat := 0
    let j : Job := jobOf x
    ((1 < s.stamp.timing.source ∨ s.isClerk = false)) ∧
    ((c = .adjustTime n ∧ s.Startable n 0x0851 j ∧ fld j.slip 40 24 = 0) ∨ (c = .setIncrement n ∧ s.Startable n 0x0852 j ∧ fld j.slip 40 24 = 0) ∨ (c = .hardSet n ∧ s.Startable n 0x0853 j ∧ fld j.slip 48 16 = 0)) := by decide +kernel

theorem wit_counter_commands_5b :
    let c : Instr := .setIncrement 0
    let x : Slip := slip 0x0852 []
    let s : State := atJob x
    let n : Nat := 0
    let j : Job := jobOf x
    ((1 < s.stamp.timing.source ∨ s.isClerk = false)) ∧
    ((c = .adjustTime n ∧ s.Startable n 0x0851 j ∧ fld j.slip 40 24 = 0) ∨ (c = .setIncrement n ∧ s.Startable n 0x0852 j ∧ fld j.slip 40 24 = 0) ∨ (c = .hardSet n ∧ s.Startable n 0x0853 j ∧ fld j.slip 48 16 = 0)) := by decide +kernel

theorem wit_counter_commands_5c :
    let c : Instr := .hardSet 0
    let x : Slip := slip 0x0853 []
    let s : State := atJob x
    let n : Nat := 0
    let j : Job := jobOf x
    ((1 < s.stamp.timing.source ∨ s.isClerk = false)) ∧
    ((c = .adjustTime n ∧ s.Startable n 0x0851 j ∧ fld j.slip 40 24 = 0) ∨ (c = .setIncrement n ∧ s.Startable n 0x0852 j ∧ fld j.slip 40 24 = 0) ∨ (c = .hardSet n ∧ s.Startable n 0x0853 j ∧ fld j.slip 48 16 = 0)) := by decide +kernel

theorem wit_counter_commands_6 :
    let n : Nat := 0
    let off : Int := 5
    let j : Job := jobOf (slip 0x0851 [(32, 8, 5)])
    let s : State := withSlip j.slip (stampOf { ops := [.adjust (some 0) 5] })
    s.stamp.ops = [.adjust (some n) off] ∧
    s.stamp.refLost = false ∧
    s.concord.closing = none ∧
    s.job n = some j ∧
    j.ending = none := by decide +kernel

theorem wit_counter_commands_7 :
    let n : Nat := 0
    let inc : BitVec 64 := 21474836481
    let j : Job := jobOf (slip 0x0852 [])
    let s : State := withSlip j.slip (stampOf { ops := [.setInc (some 0) 21474836481] })
    s.stamp.ops = [.setInc (some n) inc] ∧
    s.stamp.refLost = false ∧
    s.concord.closing = none ∧
    s.job n = some j ∧
    j.ending = none := by decide +kernel

theorem wit_counter_commands_8 :
    let n : Nat := 0
    let sec : BitVec 64 := 7
    let ns : BitVec 32 := 8
    let frac : BitVec 32 := 9
    let j : Job := jobOf (slip 0x0853 [])
    let s : State := withSlip j.slip (stampOf { ops := [.hardSet (some 0) 7 8 9], r := 5 })
    s.stamp.ops = [.hardSet (some n) sec ns frac] ∧
    s.stamp.refLost = false ∧
    s.concord.closing = none ∧
    s.job n = some j ∧
    j.ending = none := by decide +kernel

theorem wit_counter_commands_9 :
    let s : State := stampOf { refLost := true }
    s.stamp.refLost = true := by decide +kernel

theorem wit_counter_commands_10 :
    let x : Slip := slip 0x0850 [(24, 4, 64)]
    let s : State := withSlip x (qs 2 evq)
    let n : Nat := 0
    let j : Job := jobOf x
    let b : Bytes := packB 64 [(0, 1, 2), (4, 4, 100000), (12, 1, 0), (15, 1, 248), (20, 4, 100), (24, 4, 1000), (32, 4, 2)]
    s.Startable n 0x0850 j ∧
    dataLenOf j.slip = 64 ∧
    fld j.slip 32 32 = 0 ∧
    b.length = 64 ∧
    s.timingOk b = true := by decide +kernel

theorem wit_counter_commands_11 :
    let n : Nat := 0
    let j : Job := jobOf (slip 0x0854 [(24, 4, 64)])
    let s : State := withSlip j.slip (stampOf { r := 5 })
    let x : Stamp := { r := 5 }
    s.Startable n 0x0854 j ∧
    fld j.slip 32 32 = 0 ∧
    64 ≤ dataLenOf j.slip ∧
    x = s.stamp := by decide +kernel

theorem wit_counter_commands_12 :
    let o : Nat := 7
    let p : Pulse := {}
    let x : Slip := slip 0x0855 [(32, 1, 7), (33, 1, 1), (36, 4, 10), (40, 8, 1000)]
    let s : State := atJob x
    let n : Nat := 0
    let j : Job := jobOf x
    let g : PulseSet := { aPulse with start := 1000 * 2 ^ 32 }
    s.Startable n 0x0855 j ∧
    pulseOk j.slip = true ∧
    fld j.slip 32 1 = o ∧
    s.stamp.pulses[o]? = some p ∧
    p.high = false ∧
    pulseOf j.slip = some g ∧
    ((g.periodic = true ∨ s.stamp.units + 1000 * 2 ^ 32 ≤ g.start)) := by decide +kernel

theorem wit_counter_commands_12b :
    let o : Nat := 7
    let p : Pulse := {}
    let x : Slip := slip 0x0855 [(32, 1, 7), (33, 1, 2), (36, 4, 10), (40, 8, 5), (48, 8, 20)]
    let s : State := atJob x
    let n : Nat := 0
    let j : Job := jobOf x
    let g : PulseSet := { aPulse with start := 5 * 2 ^ 32, periodic := true, periodNs := 20 }
    s.Startable n 0x0855 j ∧
    pulseOk j.slip = true ∧
    fld j.slip 32 1 = o ∧
    s.stamp.pulses[o]? = some p ∧
    p.high = false ∧
    pulseOf j.slip = some g ∧
    ((g.periodic = true ∨ s.stamp.units + 1000 * 2 ^ 32 ≤ g.start)) := by decide +kernel

theorem wit_counter_commands_13 :
    let o : Nat := 7
    let p : Pulse := { high := true }
    let x : Slip := slip 0x0855 [(32, 1, 7)]
    let s : State := withSlip x (stampOf { pulses := List.replicate 8 { high := true } })
    let n : Nat := 0
    let j : Job := jobOf x
    s.Startable n 0x0855 j ∧
    pulseOk j.slip = true ∧
    fld j.slip 32 1 = o ∧
    s.stamp.pulses[o]? = some p ∧
    p.high = true ∧
    ((∀ g, pulseOf j.slip = some g → g.periodic = true ∨ s.stamp.units + 1000 * 2 ^ 32 ≤ g.start)) := by decide +kernel

theorem wit_counter_commands_14 :
    let x : PulseSet := { aPulse with start := 3000 * 2 ^ 32 }
    let g : PulseSet := aPulse
    let accepted : Nat := 500
    let p : Pulse := { high := true, setting := some g, next := some (some x, accepted) }
    p.next = some (some x, accepted) ∧
    x.periodic = false := by decide +kernel

theorem wit_counter_commands_15 :
    let x : PulseSet := { aPulse with periodic := true, periodNs := 10 }
    let g : PulseSet := aPulse
    let accepted : Nat := 500
    let p : Pulse := { high := true, setting := some g, next := some (some x, accepted) }
    p.next = some (some x, accepted) ∧
    x.periodic = true := by decide +kernel

theorem wit_counter_commands_15b :
    let x : PulseSet := { aPulse with periodic := true, periodNs := 10 }
    let g : PulseSet := aPulse
    let accepted : Nat := 500
    let p : Pulse := { high := true, setting := some g, next := some (some x, accepted) }
    p.next = some (some x, accepted) ∧
    x.periodic = true := by decide +kernel

theorem wit_counter_commands_16 :
    let g : PulseSet := { aPulse with periodic := true, periodNs := 10 }
    let from_ : Nat := 2005 * 2 ^ 32
    0 < g.periodNs ∧
    g.start < from_ := by decide +kernel

theorem wit_counter_commands_17 :
    let x : Slip := slip 0x0855 [(32, 1, 7), (33, 1, 1), (36, 4, 10), (40, 8, 999)]
    let s : State := atJob x
    let n : Nat := 0
    let j : Job := jobOf x
    let g : PulseSet := { aPulse with start := 999 * 2 ^ 32 }
    s.Startable n 0x0855 j ∧
    pulseOk j.slip = true ∧
    pulseOf j.slip = some g ∧
    g.periodic = false ∧
    g.start < s.stamp.units + 1000 * 2 ^ 32 := by decide +kernel

theorem wit_counter_commands_18 :
    let i : Nat := 8
    let x : Slip := slip 0x0856 [(32, 1, 8), (33, 1, 3), (34, 1, 9), (36, 4, 1000000)]
    let s : State := atJob x
    let n : Nat := 0
    let j : Job := jobOf x
    let c : Capture := {}
    s.Startable n 0x0856 j ∧
    fld j.slip 32 1 = i ∧
    i ≤ 8 ∧
    fld j.slip 33 1 ≤ 3 ∧
    fld j.slip 35 1 = 0 ∧
    fld j.slip 36 4 ≤ 1000000 ∧
    fld j.slip 40 24 = 0 ∧
    s.stamp.captures[i]? = some c := by decide +kernel

theorem wit_time_sources_1 :
    let s : State := State.reset
    (s.stamp.timing.source < 2 ∨ s.stamp.state = .unset ∨ s.stamp.state = .free ∨ s.isClerk = false) := by decide +kernel

theorem wit_time_sources_2 :
    let offset : Int := 100 * 2 ^ 16
    let s : State := stampOf { state := .locking, near := 15 } (qs 2 evq)
    2 ≤ s.stamp.timing.source ∧
    s.isClerk = true ∧
    s.stamp.state = .locking ∧
    offset.natAbs ≤ s.stamp.timing.lockNs * 2 ^ 16 := by decide +kernel

theorem wit_time_sources_2b :
    let offset : Int := -100 * 2 ^ 16
    let s : State := stampOf { state := .locking, near := 3 }
    2 ≤ s.stamp.timing.source ∧
    s.isClerk = true ∧
    s.stamp.state = .locking ∧
    offset.natAbs ≤ s.stamp.timing.lockNs * 2 ^ 16 := by decide +kernel

theorem wit_time_sources_3 :
    let offset : Int := 400 * 2 ^ 16 + 1
    let s : State := stampOf { state := .locked, far := 3 } (qs 2 evq)
    2 ≤ s.stamp.timing.source ∧
    s.isClerk = true ∧
    s.stamp.state = .locked ∧
    4 * s.stamp.timing.lockNs * 2 ^ 16 < offset.natAbs := by decide +kernel

theorem wit_time_sources_3b :
    let offset : Int := -400 * 2 ^ 16 - 1
    let s : State := stampOf { state := .locked, far := 2 }
    2 ≤ s.stamp.timing.source ∧
    s.isClerk = true ∧
    s.stamp.state = .locked ∧
    4 * s.stamp.timing.lockNs * 2 ^ 16 < offset.natAbs := by decide +kernel

theorem wit_time_sources_4 :
    let s : State := stampOf { state := .locked } (qs 2 evq)
    ((s.stamp.timing.source = 2 ∧ s.stamp.ptpUntil ≤ s.now) ∨ (3 ≤ s.stamp.timing.source ∧ ∀ t, s.stamp.lastPps = some t → t + 2000000000 ≤ s.now)) ∧
    s.isClerk = true ∧
    (s.stamp.state = .locking ∨ s.stamp.state = .locked) := by decide +kernel

theorem wit_time_sources_4b :
    let s : State := stampOf { state := .locking } (qs 2 evq)
    ((s.stamp.timing.source = 2 ∧ s.stamp.ptpUntil ≤ s.now) ∨ (3 ≤ s.stamp.timing.source ∧ ∀ t, s.stamp.lastPps = some t → t + 2000000000 ≤ s.now)) ∧
    s.isClerk = true ∧
    (s.stamp.state = .locking ∨ s.stamp.state = .locked) := by decide +kernel

theorem wit_time_sources_5 :
    let offset : Int := 65536000000000
    let delay : Nat := 2 ^ 32 - 1
    let s : State := room
    s.isClerk = false ∧
    s.power.sleep = .awake ∧
    offset.natAbs ≤ 65536000000000 ∧
    delay < 2 ^ 32 ∧
    (remainderAfter s.stamp.r s.stamp.ops - offset * 2 ^ 16).natAbs ≤ 1000000000 * 2 ^ 32 := by decide +kernel

theorem wit_time_sources_6 :
    let s : State := State.reset
    s.isClerk = true := by decide +kernel

theorem wit_time_sources_7 :
    let stamp : Nat := 1001
    let s : State := State.reset
    onTime s.stamp.timing.ppsWindowNs stamp = false := by decide +kernel

theorem wit_time_sources_8 :
    let stamp : Nat := 1000000000
    let last : Nat := 500000001
    let s : State := stampOf { lastPps := some last }
    onTime s.stamp.timing.ppsWindowNs stamp = true ∧
    s.stamp.lastPps = some last ∧
    last ≤ stamp ∧
    stamp < last + 500000000 := by decide +kernel

theorem wit_time_sources_9 :
    let stamp : Nat := 1000000000
    let s : State := stampOf { lastPps := some 500000000 }
    onTime s.stamp.timing.ppsWindowNs stamp = true ∧
    s.stamp.lastPps.all (fun last => decide (last + 500000000 ≤ stamp)) = true := by decide +kernel

theorem wit_time_sources_9b :
    let stamp : Nat := 999999000
    let s : State := State.reset
    onTime s.stamp.timing.ppsWindowNs stamp = true ∧
    s.stamp.lastPps.all (fun last => decide (last + 500000000 ≤ stamp)) = true := by decide +kernel

theorem wit_time_sources_11 :
    let s : State := stampOf { r := 5 }
    s.stamp.refLost = false ∧
    s.stamp.ops = [] ∧
    s.stamp.pinnedAt = none := by decide +kernel

theorem wit_time_sources_11b :
    let s : State := stampOf { r := 2 ^ 60 }
    s.stamp.refLost = false ∧
    s.stamp.ops = [] ∧
    s.stamp.pinnedAt = none := by decide +kernel

theorem wit_time_sources_12 :
    let port : Nat := 15
    let kind : Nat := 11
    let s : State := ({ State.reset with net := { State.reset.net with ports := List.replicate 16 upPort } } : State).modStamp (fun x => { x with state := .locked, timing := { x.timing with roles := 2 * 4 ^ 15 } })
    port ≤ 15 ∧
    (s.net.ports.getD port {}).state = .up ∧
    kind = 11 ∧
    s.stamp.role port = 2 ∧
    s.stamp.state = .locked ∧
    (s.isClerk = true ∨ s.stamp.keeperLocked = true) ∧
    s.net.ports.length = 16 := by decide +kernel

theorem wit_time_sources_13 :
    let port : Nat := 0
    let s : State := (port0 upPort).modStamp (fun x => { x with state := .locked, timing := { x.timing with roles := 2 } })
    port ≤ 15 ∧
    (s.net.ports.getD port {}).state = .up ∧
    s.stamp.role port = 2 ∧
    s.servesTime = true ∧
    s.net.ports.length = 16 ∧
    (s.netPort port).left = 0 ∧
    (s.netPort port).sync = [] ∧
    (s.stamp.timing.profile = 2 ∨ s.stamp.timing.stepMode = 0) := by decide +kernel

theorem wit_time_sources_14 :
    let port : Nat := 0
    let s : State := stampOf { state := .locked }
    (s.stamp.role port ≠ 2 ∨ s.servesTime = false) := by decide +kernel

theorem wit_time_sources_14b :
    let port : Nat := 0
    let s : State := stampOf { timing := { roles := 2 } }
    (s.stamp.role port ≠ 2 ∨ s.servesTime = false) := by decide +kernel

theorem wit_time_sources_15 :
    let port : Nat := 0
    let m : Bytes := zeros 33
    let s : State := stampOf { timing := { roles := 1 } } (port0 upPort (qs 2 evq))
    port ≤ 15 ∧
    s.stamp.role port ≠ 0 ∧
    (s.net.ports.getD port {}).state = .up ∧
    m.length < 34 := by decide +kernel

theorem wit_time_sources_16 :
    let port : Nat := 0
    let m : Bytes := [0x0B, 2, 0, 64] ++ zeros 16 ++ be 8 5 ++ be 2 1 ++ zeros 34
    let data : Nat := fldBE m 47 16 * 2 ^ 80 + 5 * 65536 + 1
    let src : Nat := 5 * 65536 + 1
    let s : State := stampOf { timing := { roles := 1 } } (port0 upPort)
    port ≤ 15 ∧
    s.stamp.role port = 1 ∧
    (s.net.ports.getD port {}).state = .up ∧
    ptpType m = 11 ∧
    src = ptpSource m ∧
    data = fldBE m 47 16 * 2 ^ 80 + src ∧
    s.stamp.parentData.all (fun d => decide (data ≤ d)) = true := by decide +kernel

theorem wit_time_sources_17 :
    let o : Nat := 7
    let g : PulseSet := aPulse
    let p : Pulse := { setting := some g, target := 5 }
    let s : State := stampOf { pulses := List.replicate 8 p }
    s.stamp.pulses[o]? = some p ∧
    p.setting = some g ∧
    p.high = false ∧
    p.target < s.stamp.units + s.stamp.nextAdd ∧
    s.stamp.refLost = false := by decide +kernel

theorem wit_time_sources_18 :
    let o : Nat := 7
    let g : PulseSet := aPulse
    let p : Pulse := { setting := some g, target := 5 * 2 ^ 32 }
    let s : State := stampOf { pulses := List.replicate 8 p }
    s.stamp.pulses[o]? = some p ∧
    p.setting = some g ∧
    s.stamp.units + s.stamp.nextAdd ≤ (if p.high then p.trailing else p.target) := by decide +kernel

theorem wit_time_sources_18b :
    let o : Nat := 7
    let g : PulseSet := aPulse
    let p : Pulse := { setting := some g, target := 5, high := true, trailing := 5 * 2 ^ 32 }
    let s : State := stampOf { pulses := List.replicate 8 p }
    s.stamp.pulses[o]? = some p ∧
    p.setting = some g ∧
    s.stamp.units + s.stamp.nextAdd ≤ (if p.high then p.trailing else p.target) := by decide +kernel

theorem wit_time_sources_19 :
    let i : Nat := 8
    let rising : Bool := true
    let c : Capture := { edge := 1, minIntervalUs := 1, last := some 0, suppressed := 4, seq := 2 ^ 32 - 1 }
    let s : State := stampOf { captures := List.replicate 9 c } (qs 2 evq)
    s.stamp.captures[i]? = some c ∧
    edgeTaken c.edge rising = true := by decide +kernel

theorem wit_time_sources_20 :
    let i : Nat := 8
    let stamp : Nat := 999
    let last : Nat := 0
    let rising : Bool := false
    let c : Capture := { edge := 3, minIntervalUs := 1, last := some 0 }
    let s : State := stampOf { captures := List.replicate 9 c }
    s.stamp.captures[i]? = some c ∧
    edgeTaken c.edge rising = true ∧
    c.last = some last ∧
    last ≤ stamp ∧
    stamp < last + c.minIntervalUs * 1000 := by decide +kernel

theorem wit_errata_recorded_1 :
    let cls : Nat := 1
    let unit : Nat := 2
    let inst : Nat := 3
    let code : Nat := 4
    let flags : Nat := 0
    let scope : Nat := 0
    let location : Nat := 5
    let d0 : Nat := 0
    let d1 : Nat := 0
    let s : State := State.reset
    cls ≤ 4 ∧
    s.desk.errata.handlings = [] ∧
    s.desk.errata.holding.length < 64 ∧
    ((cls = 1 → mergeTarget s.now { cls := cls, unit := unit, inst := inst, code := code, flags := flags &&& 0x16, scope := scope, location := location, detail0 := d0, detail1 := d1 } s.desk.errata = none)) := by decide +kernel

theorem wit_errata_recorded_1b :
    let cls : Nat := 4
    let unit : Nat := 2
    let inst : Nat := 3
    let code : Nat := 4
    let flags : Nat := 0xFF
    let scope : Nat := 2
    let location : Nat := 5
    let d0 : Nat := 6
    let d1 : Nat := 7
    let s : State := qs 2 evq
    cls ≤ 4 ∧
    s.desk.errata.handlings = [] ∧
    s.desk.errata.holding.length < 64 ∧
    ((cls = 1 → mergeTarget s.now { cls := cls, unit := unit, inst := inst, code := code, flags := flags &&& 0x16, scope := scope, location := location, detail0 := d0, detail1 := d1 } s.desk.errata = none)) := by decide +kernel

theorem wit_errata_recorded_3 :
    let unit : Nat := 2
    let inst : Nat := 3
    let code : Nat := 4
    let flags : Nat := 0
    let scope : Nat := 0
    let location : Nat := 5
    let d0 : Nat := 0
    let d1 : Nat := 0
    let e : ErrRec := aRecord
    let s : State := errata { holding := [e], lastCorrected := [9] }
    s.desk.errata.handlings = [] ∧
    mergeTarget s.now { cls := 1, unit := unit, inst := inst, code := code, flags := flags &&& 0x16, scope := scope, location := location, detail0 := d0, detail1 := d1 } s.desk.errata = some e := by decide +kernel

theorem wit_errata_recorded_4 :
    let now : Nat := 1000000000
    let r : Report := { cls := 1, unit := 2, inst := 3, code := 4, location := 5 }
    let l : ErrataLog := { ring := [aRecord], lastCorrected := [9] }
    let e : ErrRec := aRecord
    mergeTarget now r l = some e := by decide +kernel

theorem wit_errata_recorded_5 :
    let cls : Nat := 3
    let h : Handling := aHandling
    let hs : List Handling := []
    let s : State := errata { handlings := [h], sequence := 9 } (qs 2 evq)
    2 ≤ cls ∧
    cls ≤ 3 ∧
    s.desk.errata.handlings = h :: hs ∧
    cls ∈ h.seen ∧
    hs.length < 7 := by decide +kernel

theorem wit_errata_recorded_5b :
    let cls : Nat := 2
    let h : Handling := aHandling
    let hs : List Handling := [aHandling, aHandling, aHandling, aHandling, aHandling, aHandling]
    let s : State := errata { handlings := h :: hs, sequence := 9 } (qs 2 evq)
    2 ≤ cls ∧
    cls ≤ 3 ∧
    s.desk.errata.handlings = h :: hs ∧
    cls ∈ h.seen ∧
    hs.length < 7 := by decide +kernel

theorem wit_errata_recorded_6 :
    let r : ErrRec := aRecord
    let rest : List ErrRec := []
    let s : State := errata { holding := [r] }
    s.desk.errata.holding = r :: rest ∧
    s.desk.errata.ring.length < 65536 := by decide +kernel

theorem wit_errata_recorded_7 :
    let r : ErrRec := aRecord
    let rest : List ErrRec := []
    let s : State := errata { holding := [r], ring := List.replicate 65536 r }
    s.desk.errata.holding = r :: rest ∧
    65536 ≤ s.desk.errata.ring.length := by
    intro r rest s
    exact ⟨rfl, Nat.le_of_eq List.length_replicate.symm⟩

theorem wit_errata_recorded_8 :
    let seq : Nat := 9
    let h : Handling := aHandling
    let s : State := errata { handlings := [h], sequence := 9, down := [{ unit := 2, inst := 3, seq := 9, out := true }] } (qs 2 evq)
    s.handling seq = some h ∧
    h.cls ≠ 4 ∧
    ((∀ d ∈ s.desk.errata.down, d.seq = seq → d.out = true)) := by decide +kernel

theorem wit_errata_recorded_9 :
    let seq : Nat := 9
    let h : Handling := aHandling
    let s : State := errata { handlings := [h], sequence := 9, down := [{ unit := 2, inst := 3, seq := 9 }] }
    s.handling seq = some h ∧
    ((h.cls = 4 ∨ ∃ d ∈ s.desk.errata.down, d.seq = seq ∧ d.out = false)) := by decide +kernel

theorem wit_errata_recorded_9b :
    let seq : Nat := 9
    let h : Handling := { aHandling with cls := 4 }
    let s : State := errata { handlings := [h], sequence := 9 }
    s.handling seq = some h ∧
    ((h.cls = 4 ∨ ∃ d ∈ s.desk.errata.down, d.seq = seq ∧ d.out = false)) := by decide +kernel

theorem wit_units_fail_1 :
    let n : Nat := 0
    let j : Job := jobOf (slip 0x0501 [])
    let s : State := withSlip j.slip (qs 2 evq)
    s.desk.errata.handlings = [] ∧
    s.job n = some j ∧
    j.ending = none := by decide +kernel

theorem wit_units_fail_2 :
    let recorded : Nat := 3
    let s : State := State.reset
    recorded ≠ 0 ∧
    s.handling recorded = none := by decide +kernel

theorem wit_units_fail_3 :
    let core : Nat := 0
    let s : State := qs 2 evq
    core < 8 ∧
    s.ports.coreState.length = 8 ∧
    s.ports.duties.length = 8 ∧
    s.ports.watchdog.length = 8 ∧
    s.desk.errata.handlings = [] := by decide +kernel

theorem wit_units_fail_3b :
    let core : Nat := 7
    let s : State := qs 2 evq
    core < 8 ∧
    s.ports.coreState.length = 8 ∧
    s.ports.duties.length = 8 ∧
    s.ports.watchdog.length = 8 ∧
    s.desk.errata.handlings = [] := by decide +kernel

theorem wit_units_fail_4 :
    let seq : Nat := 9
    let h : Handling := { aHandling with cls := 2 }
    let s : State := errata { handlings := [h], sequence := 9 } (qs 2 evq)
    s.handling seq = some h ∧
    h.cls = 2 ∧
    s.fabric.stack.store.wf = true := by decide +kernel

theorem wit_units_fail_5 :
    let n : Nat := 0
    let seq : Nat := 9
    let h : Handling := { aHandling with cls := 2 }
    let j : Job := jobOf (slip 0x0501 [])
    let s : State := withSlip j.slip (errata { handlings := [h], sequence := 9 } (qs 2 evq))
    s.handling seq = some h ∧
    h.cls = 2 ∧
    s.job n = some j ∧
    j.ending = none := by decide +kernel

theorem wit_units_fail_6 :
    let seq : Nat := 9
    let s : State := State.reset
    s.handling seq = none := by decide +kernel

theorem wit_sleep_and_wake_1 :
    let locked : Bool := false
    let x : Slip := slip 0x0870 []
    let s : State := withSlip x (strm 3 (aStream videoDesc))
    let n : Nat := 0
    let j : Job := jobOf x
    s.Startable n 0x0870 j ∧
    sleepFieldsOk j.slip = true ∧
    s.keptAwake n locked = true := by decide +kernel

theorem wit_sleep_and_wake_2 :
    let locked : Bool := false
    let x : Slip := slip 0x0870 [(32, 1, 3), (34, 2, 0x1FF), (36, 2, 7), (40, 8, 9)]
    let s : State := withSlip x (car 0 { state := .idle } (car 1 { state := .retired } (jal0 upLink)))
    let n : Nat := 0
    let j : Job := jobOf x
    s.Startable n 0x0870 j ∧
    sleepFieldsOk j.slip = true ∧
    s.keptAwake n locked = false ∧
    amWf s.fabric.carrels = true := by decide +kernel

theorem wit_sleep_and_wake_3 :
    let source : Nat := 5
    let port : Nat := 8
    let s : State := pwr { sleep := .asleep, captureMask := 0x100 }
    s.wakeEnabled source port = true ∧
    s.power.sleep = .asleep := by decide +kernel

theorem wit_sleep_and_wake_3b :
    let source : Nat := 0
    let port : Nat := 8
    let s : State := pwr { sleep := .asleep }
    s.wakeEnabled source port = true ∧
    s.power.sleep = .asleep := by decide +kernel

theorem wit_sleep_and_wake_4 :
    let source : Nat := 5
    let port : Nat := 8
    let s : State := pwr { sleep := .asleep, captureMask := 0xFF }
    s.wakeEnabled source port = false := by decide +kernel

theorem wit_sleep_and_wake_6 :
    let q : Nat := 0
    let s : State := started (pwr (quad0 { starting := true }))
    s.pllMayLock = true ∧
    q < 4 ∧
    (s.quadrant q).starting = true := by decide +kernel

theorem wit_sleep_and_wake_7 :
    let q : Nat := 0
    let s : State := started (pwr { quad0 { starting := true } with coreMv := 700 })
    s.pllMayLock = true ∧
    q < 4 ∧
    s.power.quadrants.length = 4 ∧
    (s.quadrant q).starting = true ∧
    (railWindow (s.quadrant q).point).1 ≤ s.power.coreMv ∧
    (s.quadrant q).point ≤ 5 := by decide +kernel

theorem wit_sleep_and_wake_8 :
    let s : State := started
    s.pllMayLock = true ∧
    s.power.sleep = .awake := by decide +kernel

theorem wit_sleep_and_wake_9 :
    let source : Nat := 3
    let port : Nat := 2
    let s : State := started (pwr { sleep := .waking 3 2, libPll := true } (qs 2 evq))
    s.pllMayLock = true ∧
    s.power.sleep = .waking source port ∧
    s.power.libPll = true ∧
    s.heldAccess = [] ∧
    s.power.railWaiting = none := by decide +kernel

theorem wit_sleep_and_wake_10 :
    let p : Nat := 0
    let s : State := jal0 { upLink with parked := true }
    s.power.sleep = .awake ∧
    (s.jalzel p).parked = true ∧
    p < 7 ∧
    s.net.jalzel.length = 7 := by decide +kernel

theorem wit_sleep_and_wake_11 :
    let p : Nat := 0
    let s : State := State.reset
    (s.power.sleep ≠ .awake ∨ (s.jalzel p).parked = false) := by decide +kernel

theorem wit_clocks_and_power_1 :
    let q : Nat := 0
    let s : State := pwr (quad0 { clockOn := true, pllLocked := true }) (car 0 { state := .retention })
    (s.quadrant q).clockOn = true ∧
    s.curator.policy.quadrantSleep.testBit q = true ∧
    (s.quadrant q).wanted = none ∧
    ((∀ e ∈ s.fabric.carrels, quadrantOf e.1 = q → e.2.state.still = true)) := by decide +kernel

theorem wit_clocks_and_power_2 :
    let q : Nat := 0
    let s : State := pwr (quad0 { clockOn := true, pllLocked := true }) (car 0 { state := .running })
    ((s.quadrant q).clockOn = false ∨ s.curator.policy.quadrantSleep.testBit q = false ∨ (s.quadrant q).wanted.isSome = true ∨ (∃ e ∈ s.fabric.carrels, quadrantOf e.1 = q ∧ e.2.state.still = false)) := by decide +kernel

theorem wit_clocks_and_power_3 :
    let q : Nat := 0
    let s : State := pwr (quad0 { clockOn := true, pllLocked := true }) (cur { policy := { quadrantSleep := 14 } } (car 0 { state := .retention }))
    q < 4 ∧
    (s.quadrant q).clockOn = true ∧
    s.curator.policy.quadrantSleep.testBit q = false ∧
    (s.quadrant q).wanted = none ∧
    ((∀ e ∈ s.fabric.carrels, quadrantOf e.1 = q → e.2.state.still = true)) := by decide +kernel

theorem wit_clocks_and_power_4 :
    let s : State := pwr (quad0 { clockOn := true, pllLocked := true }) (cur { policy := { quadrantSleep := 15 }, pinned := [{ code := 6, since := 0 }] } (car 0 { state := .running }))
    (∀ k < 4, s.curator.policy.quadrantSleep.testBit k = true) := by decide +kernel

theorem wit_clocks_and_power_4b :
    let s : State := cur { policy := { quadrantSleep := 15 } }
    (∀ k < 4, s.curator.policy.quadrantSleep.testBit k = true) := by decide +kernel

theorem wit_clocks_and_power_5 :
    let q : Nat := 0
    let s : State := State.reset
    s.power.sleep = .awake ∧
    s.power.tripped = false ∧
    s.boot.gen ≠ .minimal ∧
    (s.quadrant q).clockOn = false := by decide +kernel

theorem wit_clocks_and_power_6 :
    let q : Nat := 0
    let mv : Nat := 700
    let p : Nat := 0
    let s : State := pwr { quad0 { clockOn := true, point := 1, wanted := some 0 } with coreMv := 700 }
    s.power.sleep = .awake ∧
    s.power.tripped = false ∧
    (s.quadrant q).clockOn = true ∧
    s.power.avsPending = none ∧
    s.railOk mv = true ∧
    (s.quadrant q).wanted = some p ∧
    mv ≤ s.power.coreMv ∧
    (railWindow p).1 ≤ s.power.coreMv ∧
    s.power.quadrants.length = 4 ∧
    q < 4 := by decide +kernel

theorem wit_clocks_and_power_7 :
    let q : Nat := 0
    let mv : Nat := 750
    let s : State := pwr { quad0 { clockOn := true, point := 1, wanted := some 0 } with coreMv := 690 }
    s.power.sleep = .awake ∧
    s.power.tripped = false ∧
    (s.quadrant q).clockOn = true ∧
    s.power.avsPending = none ∧
    s.railOk mv = true ∧
    (((s.quadrant q).wanted.isSome = true ∧ s.power.coreMv < mv ∨ (s.quadrant q).wanted = none ∧ mv ≠ s.power.coreMv)) := by decide +kernel

theorem wit_clocks_and_power_7b :
    let q : Nat := 0
    let mv : Nat := 660
    let s : State := pwr { quad0 { clockOn := true, point := 1 } with coreMv := 690 }
    s.power.sleep = .awake ∧
    s.power.tripped = false ∧
    (s.quadrant q).clockOn = true ∧
    s.power.avsPending = none ∧
    s.railOk mv = true ∧
    (((s.quadrant q).wanted.isSome = true ∧ s.power.coreMv < mv ∨ (s.quadrant q).wanted = none ∧ mv ≠ s.power.coreMv)) := by decide +kernel

theorem wit_clocks_and_power_8 :
    let mv : Nat := 659
    let s : State := pwr { quad0 { clockOn := true, point := 1 } with coreMv := 690 }
    s.railOk mv = false := by decide +kernel

theorem wit_clocks_and_power_9 :
    let mv : Nat := 700
    let s : State := pwr { quad0 { clockOn := true, point := 1, wanted := some 0 } with avsPending := some 700 }
    s.power.avsPending = some mv := by decide +kernel

theorem wit_clocks_and_power_10 :
    let mv : Nat := 700
    let s : State := pwr { avsPending := some 700, avsFailures := 1 }
    s.power.avsPending = some mv ∧
    s.power.avsFailures < 2 := by decide +kernel

theorem wit_clocks_and_power_11 :
    let noResponse : Bool := true
    let s : State := pwr { avsPending := some 700, avsFailures := 2 } (qs 2 evq)
    s.power.avsPending.isSome = true ∧
    ((noResponse = true → 2 ≤ s.power.avsFailures)) := by decide +kernel

theorem wit_clocks_and_power_11b :
    let noResponse : Bool := false
    let s : State := pwr { avsPending := some 700 } (qs 2 evq)
    s.power.avsPending.isSome = true ∧
    ((noResponse = true → 2 ≤ s.power.avsFailures)) := by decide +kernel

theorem wit_clocks_and_power_12 :
    let s : State := State.reset
    s.power.sleep = .awake ∧
    s.power.tripped = false := by decide +kernel

theorem wit_clocks_and_power_13 :
    let power : Nat := 6586
    let q : Nat := 0
    let s : State := pwr (quad0 { clockOn := true, point := 4 }) (qs 2 evq)
    s.power.sleep = .awake ∧
    s.power.tripped = false ∧
    s.boot.gen ≠ .minimal ∧
    98 * (16 * s.powerLimit) < 100 * power ∧
    s.downQuadrant = some q ∧
    s.power.quadrants.length = 4 ∧
    q < 4 := by decide +kernel

theorem wit_clocks_and_power_14 :
    let power : Nat := 6047
    let q : Nat := 0
    let s : State := pwr { quad0 { clockOn := true, point := 5 } with lowIntervals := 99 }
    s.power.sleep = .awake ∧
    s.power.tripped = false ∧
    s.boot.gen ≠ .minimal ∧
    100 * power < 90 * (16 * s.powerLimit) ∧
    s.power.lowIntervals = 99 ∧
    s.power.throttled = false ∧
    s.upQuadrant = some q ∧
    s.power.quadrants.length = 4 ∧
    q < 4 := by decide +kernel

theorem wit_clocks_and_power_15 :
    let s : State := qs 2 evq
    s.power.sleep = .awake ∧
    s.power.tripped = false ∧
    s.power.limiterOn = false := by decide +kernel

theorem wit_clocks_and_power_17 :
    let x : Slip := slip 0x0871 [(24, 4, 64)]
    let s : State := atJob x
    let n : Nat := 0
    let j : Job := jobOf x
    s.Startable n 0x0871 j ∧
    fld j.slip 32 32 = 0 ∧
    64 ≤ dataLenOf j.slip := by decide +kernel

theorem wit_clocks_and_power_18 :
    let x : Slip := slip 0x0872 [(24, 4, 64)]
    let s : State := atJob x
    let n : Nat := 0
    let j : Job := jobOf x
    s.Startable n 0x0872 j ∧
    fld j.slip 32 32 = 0 ∧
    64 ≤ dataLenOf j.slip := by decide +kernel

theorem wit_thermal_limits_1 :
    let temps : List Int := [0, 1, 2, 3, 4, 25600, 26880, -10240]
    let s : State := qs 2 evq
    s.power.sleep = .awake ∧
    s.power.tripped = false ∧
    temps.length = 8 ∧
    s.power.sensors.length = 8 := by decide +kernel

theorem wit_thermal_limits_2 :
    let temps : List Int := [0, 1, 2, 3, 4, 5, 6, 25599]
    let s : State := State.reset
    s.power.sleep = .awake ∧
    s.power.tripped = false ∧
    temps.length = 8 ∧
    s.power.sensors.length = 8 ∧
    s.power.throttled = false ∧
    (∀ x ∈ s.power.sensors, x.holds = false) ∧
    (∀ t ∈ temps, t < 25600) := by decide +kernel

theorem wit_thermal_limits_3 :
    let temps : List Int := [0, 1, 2, 25600, 4, 5, 6, 25599]
    let i : Nat := 3
    let s : State := qs 2 evq
    s.power.sleep = .awake ∧
    s.power.tripped = false ∧
    temps.length = 8 ∧
    s.power.sensors.length = 8 ∧
    s.power.quadrants.length = 4 ∧
    s.power.throttled = false ∧
    s.power.alert = false ∧
    (∀ x ∈ s.power.sensors, x.holds = false) ∧
    i < 4 ∧
    25600 ≤ temps.getD i 0 ∧
    temps.getD i 0 < 26880 ∧
    ((∀ k < 8, k ≠ i → temps.getD k 0 < 25600)) := by decide +kernel

theorem wit_thermal_limits_3b :
    let temps : List Int := [26879, 1, 2, 0, 4, 5, 6, 25599]
    let i : Nat := 0
    let s : State := qs 2 evq
    s.power.sleep = .awake ∧
    s.power.tripped = false ∧
    temps.length = 8 ∧
    s.power.sensors.length = 8 ∧
    s.power.quadrants.length = 4 ∧
    s.power.throttled = false ∧
    s.power.alert = false ∧
    (∀ x ∈ s.power.sensors, x.holds = false) ∧
    i < 4 ∧
    25600 ≤ temps.getD i 0 ∧
    temps.getD i 0 < 26880 ∧
    ((∀ k < 8, k ≠ i → temps.getD k 0 < 25600)) := by decide +kernel

theorem wit_thermal_limits_4 :
    let temps : List Int := [0, 1, 2, 0, 4, 5, 6, 26880]
    let i : Nat := 7
    let s : State := qs 2 evq
    s.power.sleep = .awake ∧
    s.power.tripped = false ∧
    temps.length = 8 ∧
    s.power.sensors.length = 8 ∧
    i < 8 ∧
    26880 ≤ temps.getD i 0 ∧
    (s.power.sensors.getD i {}).temp < 26880 := by decide +kernel

theorem wit_thermal_limits_5 :
    let temps : List Int := [0, 1, 2, 0, 4, 5, 6, 25087]
    let s : State := pwr { throttled := true, coolReads := 99 } (qs 2 evq)
    s.power.sleep = .awake ∧
    s.power.tripped = false ∧
    temps.length = 8 ∧
    s.power.sensors.length = 8 ∧
    s.power.throttled = true ∧
    s.power.coolReads = 99 ∧
    (∀ t ∈ temps, t < 25088) := by decide +kernel

theorem wit_thermal_limits_6 :
    let temps : List Int := [0, 1, 2, 0, 4, 5, 6, 25600]
    let x : Int := 25600
    let s : State := pwr { sleep := .asleep }
    s.power.sleep = .asleep ∧
    s.power.tripped = false ∧
    temps.length = 8 ∧
    x ∈ temps ∧
    25600 ≤ x := by decide +kernel

theorem wit_reset_kinds_2 :
    let s : State := qs 2 evq
    s.vault.failures < 3 ∧
    s.vault.settled = true := by decide +kernel

theorem wit_reset_kinds_3 :
    let s : State := qs 2 evq
    s.ports.porLow = false ∧
    s.vault.failures < 3 ∧
    s.vault.settled = true := by decide +kernel

theorem wit_reset_kinds_4 :
    let s : State := qs 2 evq
    s.released = true ∧
    s.vault.failures < 3 ∧
    s.vault.settled = true := by decide +kernel

theorem wit_reset_kinds_5 :
    let s : State := pwr { tripped := true }
    s.released = false := by decide +kernel

theorem wit_reset_kinds_6 :
    let s : State := qs 2 evq
    s.released = true := by decide +kernel

theorem wit_reset_kinds_8 :
    let s : State := qs 2 evq
    s.released = true := by decide +kernel

theorem wit_reset_kinds_9 :
    let rail : Nat := 8
    let s : State := { qs 2 evq with boot := { State.reset.boot with gen := .ready } }
    s.released = true ∧
    rail ≤ 8 ∧
    rail ≠ 7 ∧
    s.boot.gen = .ready ∧
    s.power.sleep = .awake := by decide +kernel

theorem wit_reset_kinds_10 :
    let rail : Nat := 6
    let s : State := pwr { sleep := .asleep } { qs 2 evq with boot := { State.reset.boot with gen := .ready } }
    s.released = true ∧
    rail ≤ 8 ∧
    rail ≠ 7 ∧
    s.boot.gen = .ready ∧
    s.power.sleep = .asleep := by decide +kernel

theorem wit_reset_kinds_11 :
    let s : State := stampOf { state := .locked } (qs 2 evq)
    s.stamp.refLost = false ∧
    s.ports.porLow = false ∧
    s.power.tripped = false := by decide +kernel

theorem wit_reset_kinds_13 :
    let x : Sensor := { hot := 10 }
    let s : State := pwr { sensors := x :: List.replicate 7 {} } (qs 2 evq)
    s.released = true ∧
    x ∈ s.power.sensors ∧
    10 ≤ x.hot := by decide +kernel

theorem wit_reset_kinds_14 :
    let s : State := State.reset
    (∀ x ∈ s.power.sensors, x.hot < 10) := by decide +kernel

theorem wit_start_steps_1 :
    let s : State := attempting 1
    s.starting = true ∧
    s.boot.step = 1 := by decide +kernel

theorem wit_start_steps_1b :
    let s : State := attempting 1 (fun b => { b with coldWait := true })
    s.starting = true ∧
    s.boot.step = 1 := by decide +kernel

theorem wit_start_steps_2 :
    let s : State := attempting 2 id (pwr { ringPll := true, libPll := true })
    s.starting = true ∧
    s.boot.step = 2 := by decide +kernel

theorem wit_start_steps_3 :
    let s : State := attempting 3
    s.starting = true ∧
    s.boot.step = 3 := by decide +kernel

theorem wit_start_steps_4 :
    let s : State := attempting 4 (fun b => { b with source := 2 })
    s.starting = true ∧
    s.boot.step = 4 := by decide +kernel

theorem wit_start_steps_4b :
    let s : State := attempting 4
    s.starting = true ∧
    s.boot.step = 4 := by decide +kernel

theorem wit_start_steps_5 :
    let a : Attempt := { serial := 4 }
    let l : List Attempt := []
    let s : State := attempting 5
    s.starting = true ∧
    s.boot.step = 5 ∧
    ((s.boot.source = 2 → s.boot.accepted = true)) ∧
    s.vault.attempts = a :: l := by decide +kernel

theorem wit_start_steps_6 :
    let s : State := attempting 6
    s.starting = true ∧
    s.boot.step = 6 := by decide +kernel

theorem wit_start_steps_7 :
    let b : Bytes := configBytes
    let f : ConfigFields := configFields
    let a : Attempt := { serial := 4 }
    let l : List Attempt := []
    let s : State := attempting 7 id (qs 2 evq)
    s.starting = true ∧
    s.boot.step = 7 ∧
    itemTargetOk b = true ∧
    configHeaderBad b = none ∧
    f.bad = none ∧
    s.configFieldsOk f = true ∧
    s.vault.attempts = a :: l := by decide +kernel

theorem wit_start_steps_8 :
    let images : List (Nat × Bytes) := [(0xF001, []), (0xF002, []), (0xF003, [])]
    let x : Nat × Bytes := (0xF001, [])
    let y : Nat × Bytes := (0xF002, [])
    let z : Nat × Bytes := (0xF003, [])
    let a : Attempt := { serial := 4 }
    let l : List Attempt := []
    let s : State := attempting 8
    s.starting = true ∧
    s.boot.step = 8 ∧
    images.find? (fun e => e.1 == 0xF001) = some x ∧
    images.find? (fun e => e.1 == 0xF002) = some y ∧
    images.find? (fun e => e.1 == 0xF003) = some z ∧
    s.vault.attempts = a :: l := by decide +kernel

theorem wit_start_steps_9 :
    let s : State := attempting 9
    s.starting = true ∧
    s.boot.step = 9 := by decide +kernel

theorem wit_start_steps_9b :
    let s : State := attempting 9 id { State.reset with net := { State.reset.net with formed := true } }
    s.starting = true ∧
    s.boot.step = 9 := by decide +kernel

theorem wit_start_steps_10 :
    let s : State := attempting 10 id (held7 0 (qs 2 evq))
    s.starting = true ∧
    s.boot.step = 10 := by decide +kernel

theorem wit_start_steps_11 :
    let a : Attempt := { serial := 4 }
    let l : List Attempt := []
    let s : State := attempting 11 (fun b => { b with raiseFloor := true, imageVersion := 5 }) (qs 2 evq)
    s.starting = true ∧
    s.boot.step = 11 ∧
    s.vault.attempts = a :: l := by decide +kernel

theorem wit_start_steps_12 :
    let reason : Nat := 8
    let a : Attempt := { serial := 4 }
    let l : List Attempt := []
    let s : State := attempting 7 id (stampOf { seconds := 120 })
    s.starting = true ∧
    s.vault.attempts = a :: l ∧
    reason ≠ 0 := by decide +kernel

theorem wit_start_steps_13 :
    let a : Attempt := { serial := 4 }
    let l : List Attempt := []
    let s : State := attempting 7 id (stampOf { seconds := 120 })
    s.starting = true ∧
    s.vault.attempts = a :: l ∧
    s.boot.releasedAt + 120000000000 ≤ s.now := by decide +kernel

theorem wit_start_steps_14 :
    let a : Attempt := { serial := 4 }
    let l : List Attempt := []
    let s : State := attempting 5 (fun b => { b with gen := .waitImage, source := 2 }) (stampOf { seconds := 10 })
    s.starting = true ∧
    s.boot.gen = .waitImage ∧
    s.boot.accepted = false ∧
    s.vault.attempts = a :: l ∧
    s.boot.waitAt + 10000000000 ≤ s.now := by decide +kernel

theorem wit_start_steps_15 :
    let s : State := attempting 11 (fun b => { b with gen := .ready })
    s.starting = false := by decide +kernel

theorem wit_minimal_mode_1 :
    let s : State := { qs 2 evq with boot := { State.reset.boot with gen := .minimal, colophonDue := true } }
    s.boot.gen = .minimal ∧
    s.boot.colophonDue = true ∧
    (s.queue 2).state = .active := by decide +kernel

theorem wit_minimal_mode_2 :
    let s : State := State.reset
    (s.boot.gen ≠ .minimal ∨ s.boot.colophonDue = false ∨ (s.queue 2).state ≠ .active) := by decide +kernel

theorem wit_minimal_mode_3 :
    let x : Slip := slip 0x0878 [(24, 4, 576)]
    let s : State := atJob x
    let n : Nat := 0
    let j : Job := jobOf x
    s.Startable n 0x0878 j ∧
    fld j.slip 32 32 = 0 ∧
    576 ≤ dataLenOf j.slip := by decide +kernel

theorem wit_minimal_mode_4 :
    let x : Slip := slip 0x0879 []
    let s : State := atJob x
    let n : Nat := 0
    let j : Job := jobOf x
    s.Startable n 0x0879 j ∧
    fld j.slip 32 32 = 0 ∧
    s.released = true ∧
    s.vault.settled = true := by decide +kernel

theorem wit_minimal_mode_5 :
    let d : Nat := 1
    let b : Bytes := packB 128 [(8, 4, 64)]
    let x : Slip := slip 0x087A [(24, 4, 128), (32, 1, 1)]
    let s : State := atJob x
    let n : Nat := 0
    let j : Job := jobOf x
    let image : Bytes := packB 64 [(8, 4, 64)]
    let record : Bytes := zeros 64
    s.Startable n 0x087A j ∧
    b.length = dataLenOf j.slip ∧
    fld j.slip 32 1 = d ∧
    d ≤ 1 ∧
    fld j.slip 33 31 = 0 ∧
    image = b.take (fldB b 8 4) ∧
    record = b.drop (fldB b 8 4) := by decide +kernel

theorem wit_management_ports_4 :
    let s : State := stampOf { seconds := 7 }
    s.released = true ∧
    s.vault.failures < 3 ∧
    s.vault.settled = true := by decide +kernel

theorem wit_management_ports_5 :
    let s : State := pwr { tripped := true }
    s.released = false := by decide +kernel

theorem wit_management_ports_7 :
    let d : Byte := 0x5A
    d ≠ 0xA5 := by decide +kernel

theorem wit_management_ports_8 :
    let s : State := State.reset
    s.released = true ∧
    s.vault.settled = true := by decide +kernel

theorem wit_management_ports_11 :
    let o : BitVec 16 := 32
    o.toNat % 32 = 0 := by decide +kernel

theorem wit_management_ports_13 :
    let pec : Bool := false
    let typ : Bool := true
    let c : Instr := .smbRetryStart 0xA5 pec typ
    (pec && typ) = false ∧
    c ∈ [.smbReadStatus pec typ, .smbWake pec typ, .smbDeviceReset 0xA5 pec typ, .smbRetryStart 0xA5 pec typ, .smbReadTemperature pec typ, .smbReadPower pec typ, .smbColophonOffset 0 pec typ, .smbColophonRead pec typ] := by decide +kernel

theorem wit_management_ports_14 :
    let s : State := pwr { alert := true }
    s.power.alert = true := by decide +kernel

theorem wit_management_ports_15 :
    let s : State := State.reset
    s.power.alert = false := by decide +kernel

theorem wit_management_ports_18 :
    let i : TapInst := .extest
    let s : State := { State.reset with ports := { State.reset.ports with porLow := true } }
    (tapDrives i = false ∨ s.ports.porLow = true) := by decide +kernel

theorem wit_management_ports_18b :
    let i : TapInst := .bypass
    let s : State := State.reset
    (tapDrives i = false ∨ s.ports.porLow = true) := by decide +kernel

theorem wit_management_ports_19 :
    let i : TapInst := .extest
    let s : State := State.reset
    tapDrives i = true ∧
    s.ports.porLow = false := by decide +kernel

theorem wit_reference_service_1 :
    let unit : Nat := 0x14
    let inst : Nat := 0
    let d : DownUnit := aDown
    let s : State := errata { down := [d], handlings := [aHandling], sequence := 9 } (qs 2 evq)
    s.desk.errata.downOf unit inst = some d ∧
    d.out = false := by decide +kernel

theorem wit_reference_service_2 :
    let unit : Nat := 0x14
    let inst : Nat := 0
    let d : DownUnit := aDown
    let s : State := errata { down := [d], handlings := [aHandling], sequence := 9 } (qs 2 evq)
    s.desk.errata.downOf unit inst = some d ∧
    d.out = false ∧
    d.tries = 0 := by decide +kernel

theorem wit_reference_service_3 :
    let inst : Nat := 0
    let d : DownUnit := { aDown with tries := 1 }
    let s : State := errata { down := [d], handlings := [aHandling], sequence := 9 } (qs 2 evq)
    s.desk.errata.downOf 0x0014 inst = some d ∧
    d.out = false ∧
    d.tries ≠ 0 ∧
    s.reference.state = .normal := by decide +kernel

theorem wit_reference_service_4 :
    let inst : Nat := 0
    let d : DownUnit := { aDown with unit := 2, tries := 1 }
    let s : State := sess aSession (errata { down := [d], sequence := 9, handlings := [{ aHandling with unit := 2, inst := 0 }] } (qs 2 evq))
    s.desk.errata.downOf 0x0002 inst = some d ∧
    d.out = false ∧
    d.tries ≠ 0 ∧
    amWf s.sessions.open_ = true := by decide +kernel

theorem wit_reference_service_5 :
    let unit : Nat := 0x14
    let inst : Nat := 0
    let d : DownUnit := { aDown with tries := 2, out := true }
    let s : State := stampOf { seconds := 60 } (errata { down := [d], sequence := 9 } (qs 2 evq))
    s.desk.errata.downOf unit inst = some d ∧
    d.out = true ∧
    d.triedAt + 60000000000 ≤ s.now := by decide +kernel

theorem wit_reference_service_6 :
    let unit : Nat := 0x14
    let inst : Nat := 0
    let d : DownUnit := { aDown with tries := 2, out := true }
    let s : State := stampOf { seconds := 60 } (errata { down := [d], sequence := 9 } (qs 2 evq))
    s.desk.errata.downOf unit inst = some d ∧
    d.out = true ∧
    d.triedAt + 60000000000 ≤ s.now := by decide +kernel

theorem wit_reference_service_7 :
    let unit : Nat := 0x14
    let inst : Nat := 0
    let s : State := State.reset
    s.desk.errata.downOf unit inst = none := by decide +kernel

theorem wit_reference_service_8 :
    let s : State := refsv { state := .entering, hostCause := true, enterJobs := [0] } (withSlip (slip 0x0881 []) (cur { moves := [{ kind := .sheet, object := 7, dest := 1 }] } (cat { aCat with reshelving := some { cut := 0, deletes := 0, bad := [], jobs := [] } } (qs 2 evq))))
    s.reference.state = .entering ∧
    s.reference.hostCause = true := by decide +kernel

theorem wit_reference_service_9 :
    let s : State := refsv { state := .exiting }
    s.reference.state ≠ .entering := by decide +kernel

theorem wit_reference_service_10 :
    let s : State := refsv { state := .exiting, exitJobs := [0] } (withSlip (slip 0x0882 []) (qs 2 evq))
    s.reference.state = .exiting ∧
    s.reference.hostCause = false ∧
    s.elementCause = false ∧
    s.restoring = false := by decide +kernel

theorem wit_reference_service_11 :
    let s : State := refsv { state := .exiting, hostCause := true }
    (s.reference.hostCause = true ∨ s.elementCause = true ∨ s.restoring = true) := by decide +kernel

theorem wit_reference_service_11b :
    let s : State := refsv { state := .exiting } (errata { down := [{ aDown with out := true }] })
    (s.reference.hostCause = true ∨ s.elementCause = true ∨ s.restoring = true) := by decide +kernel

theorem wit_reference_service_12 :
    let x : Slip := slip 0x0881 []
    let s : State := atJob x
    let n : Nat := 0
    let j : Job := jobOf x
    s.Startable n 0x0881 j ∧
    fld j.slip 32 32 = 0 ∧
    s.reference.state = .normal := by decide +kernel

theorem wit_reference_service_13 :
    let x : Slip := slip 0x0881 []
    let s : State := withSlip x (refsv { state := .active })
    let n : Nat := 0
    let j : Job := jobOf x
    s.Startable n 0x0881 j ∧
    fld j.slip 32 32 = 0 ∧
    s.reference.state = .active := by decide +kernel

theorem wit_reference_service_14 :
    let x : Slip := slip 0x0882 []
    let s : State := withSlip x (refsv { state := .active, hostCause := true })
    let n : Nat := 0
    let j : Job := jobOf x
    s.Startable n 0x0882 j ∧
    fld j.slip 32 32 = 0 ∧
    s.reference.state = .active ∧
    s.elementCause = false ∧
    s.restoring = false := by decide +kernel

theorem wit_reference_service_15 :
    let x : Slip := slip 0x0882 []
    let s : State := withSlip x (refsv { state := .active, hostCause := true } (errata { down := [{ aDown with out := true }] }))
    let n : Nat := 0
    let j : Job := jobOf x
    s.Startable n 0x0882 j ∧
    fld j.slip 32 32 = 0 ∧
    s.elementCause = true := by decide +kernel

theorem wit_reference_service_16 :
    let x : Slip := slip 0x0880 [(24, 4, 128), (32, 4, 0)]
    let s : State := withSlip x (errata { ring := [aRecord], holding := [{ aRecord with seq := 10 }], sequence := 10 })
    let n : Nat := 0
    let j : Job := jobOf x
    let r : Bytes × Nat × Nat × Nat := s.desk.errata.read (fld j.slip 32 4) (dataLenOf j.slip / 64)
    s.Startable n 0x0880 j ∧
    fld j.slip 36 1 = 0 ∧
    fld j.slip 37 27 = 0 ∧
    64 ≤ dataLenOf j.slip ∧
    r = s.desk.errata.read (fld j.slip 32 4) (dataLenOf j.slip / 64) := by decide +kernel

theorem wit_reference_service_18 :
    let l : ErrataLog := { ring := [aRecord], sequence := 9, counts := [0, 1, 0, 0, 0] }
    let x : Slip := slip 0x0883 [(24, 4, 64)]
    let s : State := withSlip x (errata l)
    let n : Nat := 0
    let j : Job := jobOf x
    s.Startable n 0x0883 j ∧
    fld j.slip 32 32 = 0 ∧
    64 ≤ dataLenOf j.slip ∧
    l = s.desk.errata := by decide +kernel

theorem wit_reference_service_19 :
    let c : Nat := 4
    let q : Nat := 2
    let x : Slip := slip 0x0884 [(32, 1, 4), (36, 4, 2)]
    let s : State := withSlip x (qs 2 evq)
    let n : Nat := 0
    let j : Job := jobOf x
    s.Startable n 0x0884 j ∧
    fld j.slip 32 1 = c ∧
    c ≤ 4 ∧
    fld j.slip 33 3 = 0 ∧
    fld j.slip 36 4 = q ∧
    fld j.slip 40 24 = 0 ∧
    s.eventQueueOk q = true := by decide +kernel

theorem wit_owners_and_attestation_1 :
    let b : Bytes := zeros 3072
    let x : Slip := slip 0x0891 [(24, 4, 3072)]
    let s : State := atJob x
    let n : Nat := 0
    let j : Job := jobOf x
    s.Startable n 0x0891 j ∧
    dataLenOf j.slip = 3072 ∧
    b.length = 3072 := by decide +kernel

theorem wit_owners_and_attestation_2 :
    let b : Bytes := packB 3072 [(64, 1, 1), (68, 1, 7)]
    ownerAction b = 1 := by decide +kernel

theorem wit_owners_and_attestation_3 :
    let b : Bytes := packB 3072 [(64, 1, 2), (68, 1, 7)]
    ownerAction b = 2 := by decide +kernel

theorem wit_owners_and_attestation_4 :
    let b : Bytes := packB 3072 [(64, 1, 3)]
    ownerAction b = 3 := by decide +kernel

theorem wit_owners_and_attestation_5 :
    let b : Bytes := packB 3072 [(40, 4, 9), (64, 1, 4), (136, 1, 5)]
    ownerAction b = 4 := by decide +kernel

theorem wit_owners_and_attestation_7 :
    let b : Bytes := packB 3072 [(64, 1, 1)]
    let s : State := { State.reset with vault := { State.reset.vault with owned := true } }
    ((ownerAction b = 1 ∧ s.vault.owned = true ∨ ownerAction b ≠ 1 ∧ s.vault.owned = false ∨ ownerAction b ≠ 1 ∧ signerOf b = 2 ∧ fldB b 40 4 ≤ s.vault.ownerSeq ∨ ownerAction b ≠ 4 ∧ s.ownerImage = true)) := by decide +kernel

theorem wit_owners_and_attestation_7b :
    let b : Bytes := packB 3072 [(64, 1, 2)]
    let s : State := State.reset
    ((ownerAction b = 1 ∧ s.vault.owned = true ∨ ownerAction b ≠ 1 ∧ s.vault.owned = false ∨ ownerAction b ≠ 1 ∧ signerOf b = 2 ∧ fldB b 40 4 ≤ s.vault.ownerSeq ∨ ownerAction b ≠ 4 ∧ s.ownerImage = true)) := by decide +kernel

theorem wit_owners_and_attestation_7c :
    let b : Bytes := packB 3072 [(64, 1, 3)]
    let s : State := { imgs 5 { anImage with ownerSigned := true } with vault := { State.reset.vault with owned := true } }
    ((ownerAction b = 1 ∧ s.vault.owned = true ∨ ownerAction b ≠ 1 ∧ s.vault.owned = false ∨ ownerAction b ≠ 1 ∧ signerOf b = 2 ∧ fldB b 40 4 ≤ s.vault.ownerSeq ∨ ownerAction b ≠ 4 ∧ s.ownerImage = true)) := by decide +kernel

theorem wit_owners_and_attestation_8 :
    let leaf : Nat := 2 ^ 40 - 1
    let x : Slip := slip 0x0890 [(24, 4, 13184)]
    let s : State := withSlip x { State.reset with security := { State.reset.security with nextLeaf := 2 ^ 40 - 1, blockEnd := 2 ^ 40 } }
    let n : Nat := 0
    let j : Job := jobOf x
    s.Startable n 0x0890 j ∧
    13184 ≤ dataLenOf j.slip ∧
    leaf = s.security.nextLeaf ∧
    leaf < 2 ^ 40 ∧
    leaf < s.security.blockEnd := by decide +kernel

theorem wit_owners_and_attestation_9 :
    let leaf : Nat := 4096
    let x : Slip := slip 0x0890 [(24, 4, 13184)]
    let s : State := withSlip x { State.reset with security := { State.reset.security with nextLeaf := 4096, blockEnd := 4096 } }
    let n : Nat := 0
    let j : Job := jobOf x
    s.Startable n 0x0890 j ∧
    13184 ≤ dataLenOf j.slip ∧
    leaf = s.security.nextLeaf ∧
    leaf < 2 ^ 40 ∧
    s.security.blockEnd ≤ leaf := by decide +kernel

theorem wit_owners_and_attestation_10 :
    let x : Slip := slip 0x0890 [(24, 4, 13184)]
    let s : State := atJob x
    let n : Nat := 0
    let j : Job := jobOf x
    s.Startable n 0x0890 j ∧
    13184 ≤ dataLenOf j.slip ∧
    s.security.nextLeaf < 2 ^ 40 ∧
    s.security.blockEnd ≤ s.security.nextLeaf := by decide +kernel

theorem wit_owners_and_attestation_11 :
    let x : Slip := slip 0x0890 [(24, 4, 13184)]
    let s : State := withSlip x { State.reset with security := { State.reset.security with nextLeaf := 2 ^ 40 } }
    let n : Nat := 0
    let j : Job := jobOf x
    s.Startable n 0x0890 j ∧
    13184 ≤ dataLenOf j.slip ∧
    2 ^ 40 ≤ s.security.nextLeaf := by decide +kernel

theorem wit_setup_window_1 :
    let c : Instr := .bootGo 1
    let s : State := State.reset
    c.atWindow = true ∧
    s.boot.window = false := by decide +kernel

theorem wit_setup_window_2 :
    let c : Instr := .stampSecondsRead
    let s : State := opened (pwr { sleep := .asleep })
    c.atWindow = true ∧
    s.boot.window = true ∧
    s.power.sleep = .asleep := by decide +kernel

theorem wit_setup_window_3 :
    let o : Nat := 0x10018
    let s : State := opened
    s.boot.window = true ∧
    s.power.sleep = .awake ∧
    s.answers o = true ∧
    accessOk o 32 = true ∧
    msixArea o = false ∧
    is64 o = false ∧
    is64 (o - 4) = false := by decide +kernel

theorem wit_setup_window_4 :
    let o : Nat := 0x20018
    let s : State := opened (stampOf { r := -5 })
    s.boot.window = true ∧
    s.power.sleep = .awake ∧
    s.answers o = true ∧
    accessOk o 32 = true ∧
    msixArea o = false ∧
    is64 o = true ∧
    o ≠ 0x20000 := by decide +kernel

theorem wit_setup_window_5 :
    let o : Nat := 0x2001C
    let v : Nat := 7
    let s : State := opened { State.reset with ports := { State.reset.ports with latched := [(0x20018, 7)] } }
    s.boot.window = true ∧
    s.power.sleep = .awake ∧
    s.answers o = true ∧
    accessOk o 32 = true ∧
    msixArea o = false ∧
    is64 o = false ∧
    4 ≤ o ∧
    is64 (o - 4) = true ∧
    amGet s.ports.latched (o - 4) = some v := by decide +kernel

theorem wit_setup_window_6 :
    let s : State := opened (later)
    s.boot.window = true ∧
    s.power.sleep = .awake := by decide +kernel

theorem wit_setup_window_7 :
    let s : State := atWindow pushBoot
    s.boot.window = true ∧
    s.power.sleep = .awake ∧
    s.boot.gen = .waitImage ∧
    s.boot.accepted = false := by decide +kernel

theorem wit_setup_window_8 :
    let o : Nat := 0x21
    let w : Nat := 32
    let whole : Bool := true
    let s : State := atWindow pushBoot
    s.boot.window = true ∧
    s.power.sleep = .awake ∧
    s.answers o = true ∧
    (whole = false ∨ accessOk o w = false) := by decide +kernel

theorem wit_setup_window_8b :
    let o : Nat := 0x28
    let w : Nat := 32
    let whole : Bool := false
    let s : State := atWindow pushBoot
    s.boot.window = true ∧
    s.power.sleep = .awake ∧
    s.answers o = true ∧
    (whole = false ∨ accessOk o w = false) := by decide +kernel

theorem wit_setup_window_9 :
    let s : State := atWindow pushBoot
    s.boot.window = true ∧
    s.power.sleep = .awake ∧
    s.boot.gen = .waitImage ∧
    s.boot.accepted = false ∧
    s.boot.imageAddr % 64 = 0 ∧
    s.boot.configAddr % 64 = 0 ∧
    64 ≤ s.boot.imageLen ∧
    s.boot.imageLen ≤ 64 * 2 ^ 20 ∧
    s.boot.imageLen % 64 = 0 ∧
    64 ≤ s.boot.configLen ∧
    s.boot.configLen ≤ 64 * 2 ^ 10 ∧
    s.boot.configLen % 64 = 0 := by decide +kernel

theorem wit_setup_window_9b :
    let s : State := atWindow (fun b => { pushBoot b with imageLen := 64 * 2 ^ 20, configLen := 64 * 2 ^ 10 })
    s.boot.window = true ∧
    s.power.sleep = .awake ∧
    s.boot.gen = .waitImage ∧
    s.boot.accepted = false ∧
    s.boot.imageAddr % 64 = 0 ∧
    s.boot.configAddr % 64 = 0 ∧
    64 ≤ s.boot.imageLen ∧
    s.boot.imageLen ≤ 64 * 2 ^ 20 ∧
    s.boot.imageLen % 64 = 0 ∧
    64 ≤ s.boot.configLen ∧
    s.boot.configLen ≤ 64 * 2 ^ 10 ∧
    s.boot.configLen % 64 = 0 := by decide +kernel

theorem wit_setup_window_10 :
    let s : State := atWindow (fun b => { pushBoot b with imageLen := 64 * 2 ^ 20 + 64 })
    s.boot.window = true ∧
    s.power.sleep = .awake ∧
    s.boot.accepted = false ∧
    ((s.boot.gen ≠ .waitImage ∨ s.boot.imageAddr % 64 ≠ 0 ∨ s.boot.configAddr % 64 ≠ 0 ∨ s.boot.imageLen < 64 ∨ 64 * 2 ^ 20 < s.boot.imageLen ∨ s.boot.imageLen % 64 ≠ 0 ∨ s.boot.configLen < 64 ∨ 64 * 2 ^ 10 < s.boot.configLen ∨ s.boot.configLen % 64 ≠ 0)) := by decide +kernel

theorem wit_setup_window_10b :
    let s : State := atWindow id
    s.boot.window = true ∧
    s.power.sleep = .awake ∧
    s.boot.accepted = false ∧
    ((s.boot.gen ≠ .waitImage ∨ s.boot.imageAddr % 64 ≠ 0 ∨ s.boot.configAddr % 64 ≠ 0 ∨ s.boot.imageLen < 64 ∨ 64 * 2 ^ 20 < s.boot.imageLen ∨ s.boot.imageLen % 64 ≠ 0 ∨ s.boot.configLen < 64 ∨ 64 * 2 ^ 10 < s.boot.configLen ∨ s.boot.configLen % 64 ≠ 0)) := by decide +kernel

theorem wit_setup_window_11 :
    let s : State := opened
    s.boot.window = true ∧
    s.power.sleep = .awake := by decide +kernel

theorem wit_setup_window_12 :
    let s : State := opened (stampOf { seconds := 7 })
    s.boot.window = true ∧
    s.power.sleep = .awake ∧
    s.released = true ∧
    s.vault.failures < 3 ∧
    s.vault.settled = true := by decide +kernel

theorem wit_setup_window_14 :
    let v : BitVec 32 := 0xA4
    let s : State := opened
    s.boot.window = true ∧
    s.power.sleep = .awake ∧
    v ≠ 0xA5 := by decide +kernel

theorem wit_setup_window_15 :
    let q : Nat := 2
    let r : FixedReg := { ring := 4096, log2 := 16, vector := 2047, coalTime := 1000, coalCount := 2 }
    let s : State := atWindow (fun b => { b with gen := .ready }) (State.reset.modCirc (fun c => { c with fixed := [{}, {}, r] }))
    s.boot.window = true ∧
    s.power.sleep = .awake ∧
    s.boot.gen = .ready ∧
    (q = 1 ∨ q = 2) ∧
    (s.queue q).state = .free ∧
    s.desk.circ.fixed[q]? = some r ∧
    fixedFieldsOk q r = true := by decide +kernel

theorem wit_setup_window_16 :
    let r : FixedReg := { ring := 4096, log2 := 4 }
    let s : State := atWindow (fun b => { b with gen := .ready }) (State.reset.modCirc (fun c => { c with fixed := [r, {}, {}] }))
    s.boot.window = true ∧
    s.power.sleep = .awake ∧
    s.boot.gen = .ready ∧
    (s.queue 0).state = .free ∧
    s.desk.circ.fixed[0]? = some r ∧
    ((fixedFieldsOk 0 r = false ∨ (s.queue 1).state ≠ .active)) := by decide +kernel

theorem wit_setup_window_17 :
    let v : BitVec 32 := 7
    let s : State := opened
    s.boot.window = true ∧
    s.power.sleep = .awake ∧
    s.boot.gen = .starting ∧
    v.toNat < 8 := by decide +kernel

theorem wit_setup_window_18 :
    let s : State := opened (qs 2 evq (atJob (slip 0x0881 [])))
    s.boot.window = true ∧
    s.power.sleep = .awake ∧
    (s.queue 2).state = .active ∧
    ((∀ j ∈ s.desk.circ.jobs, j.waiting = true → s.desk.circ.returnOf j.sq ≠ 2)) := by decide +kernel

theorem wit_setup_window_19 :
    let j : Job := { jobOf (slip 0x0881 []) with ending := some (endWith []), waiting := true }
    let s : State := opened (qs 1 { state := .active, kind := .ret, log2 := 4, vector := 0xFFFF } (State.reset.modCirc (fun c => { c with jobs := [j] })))
    s.boot.window = true ∧
    s.power.sleep = .awake ∧
    (s.queue 1).state = .active ∧
    j ∈ s.desk.circ.jobs ∧
    j.waiting = true ∧
    s.desk.circ.returnOf j.sq = 1 := by decide +kernel

theorem wit_reset_meets_the_tables_13 :
    let v := 2047
    v < 2048 := by decide +kernel

theorem wit_unstartable_jobs_untouched_1 :
    let c : Instr := .queryCurator 0
    let n : Nat := 0
    let op : Nat := 0x0833
    let s : State := State.reset
    c.ofJob = some (n, op) ∧
    (s.job n).all (fun j => opcodeOf j.slip ≠ op || !s.desk.circ.canStart j) = true := by decide +kernel

theorem wit_unstartable_jobs_untouched_1b :
    let c : Instr := .queryCurator 0
    let n : Nat := 0
    let op : Nat := 0x0833
    let s : State := atJob (slip 0x0834 [])
    c.ofJob = some (n, op) ∧
    (s.job n).all (fun j => opcodeOf j.slip ≠ op || !s.desk.circ.canStart j) = true := by decide +kernel

theorem wit_unstartable_jobs_untouched_1c :
    let c : Instr := .queryCurator 0
    let n : Nat := 0
    let op : Nat := 0x0833
    let s : State := State.reset.modCirc (fun c => { c with jobs := [{ jobOf (slip 0x0833 []) with held := true }] })
    c.ofJob = some (n, op) ∧
    (s.job n).all (fun j => opcodeOf j.slip ≠ op || !s.desk.circ.canStart j) = true := by decide +kernel

theorem wit_late_jobs_answered_1 :
    let c : Instr := .queryCurator 0
    let n : Nat := 0
    let op : Nat := 0x0833
    let j : Job := jobOf (slip 0x0833 [(8, 8, 5)])
    let s : State := later (withSlip j.slip State.reset)
    c.ofJob = some (n, op) ∧
    s.job n = some j ∧
    opcodeOf j.slip = op ∧
    s.desk.circ.canStart j = true ∧
    s.passed (deadlineOf j.slip) = true ∧
    ((op = 0x0110 → s.runWaits n = false)) ∧
    ((op = 0x0610 → (s.concord.listAfter (fld j.slip 32 4)).isSome = true)) := by decide +kernel

theorem wit_word_code_corrects_2 :
    let c : Bytes := zeros 35
    syndrome c 1 = 0 ∧
    syndrome c 2 = 0 ∧
    syndrome c 4 = 0 := by decide +kernel

theorem wit_word_code_corrects_3 :
    let c : Bytes := modAt (encodeWord (List.replicate 32 7)) 34 (· ^^^ 0xFF)
    let p : Nat := 34
    syndrome c 1 ≠ 0 ∧
    syndrome c 2 ≠ 0 ∧
    syndrome c 4 ≠ 0 ∧
    gmul (syndrome c 2) (syndrome c 2) = gmul (syndrome c 1) (syndrome c 4) ∧
    p ≤ 34 ∧
    gmul (syndrome c 1) (alphaPow p) = syndrome c 2 := by decide +kernel

theorem wit_word_code_corrects_3b :
    let c : Bytes := modAt (encodeWord (List.replicate 32 7)) 0 (· ^^^ 1)
    let p : Nat := 0
    syndrome c 1 ≠ 0 ∧
    syndrome c 2 ≠ 0 ∧
    syndrome c 4 ≠ 0 ∧
    gmul (syndrome c 2) (syndrome c 2) = gmul (syndrome c 1) (syndrome c 4) ∧
    p ≤ 34 ∧
    gmul (syndrome c 1) (alphaPow p) = syndrome c 2 := by decide +kernel

theorem wit_word_code_corrects_4 :
    let c : Bytes := modAt (modAt (encodeWord (List.replicate 32 7)) 0 (· ^^^ 1)) 1 (· ^^^ 1)
    (syndrome c 1 ≠ 0 ∨ syndrome c 2 ≠ 0 ∨ syndrome c 4 ≠ 0) ∧
    ((syndrome c 1 = 0 ∨ syndrome c 2 = 0 ∨ syndrome c 4 = 0 ∨ gmul (syndrome c 2) (syndrome c 2) ≠ gmul (syndrome c 1) (syndrome c 4) ∨ ∀ p, p ≤ 34 → gmul (syndrome c 1) (alphaPow p) ≠ syndrome c 2)) := by decide +kernel

theorem wit_word_code_corrects_5 :
    let c : Bytes := zeros 35
    let p : Nat := 34
    c.length = 35 ∧
    p < 35 := by decide +kernel

theorem wit_word_code_corrects_6 :
    let d : Bytes := List.replicate 32 7
    d.length = 32 := by decide +kernel

theorem wit_word_code_corrects_7 :
    let d : Bytes := List.replicate 32 7
    let p : Nat := 34
    let v : Byte := 0xFF
    d.length = 32 ∧
    p < 35 ∧
    v ≠ 0 := by decide +kernel

theorem wit_events_written_1 :
    let q : Nat := 9
    let x : Queue := { evq with ringAddr := 4096, tail := 15, head := 3 }
    let s : State := evq9 x
    x = s.queue q ∧
    x.state = .active ∧
    x.kind = .event ∧
    x.lost = 0 ∧
    x.full = false ∧
    x.vector = noVector := by decide +kernel

theorem wit_events_written_2 :
    let q : Nat := 9
    let x : Queue := { evq with ringAddr := 4096, tail := 5, lost := 3 }
    let s : State := evq9 x
    x = s.queue q ∧
    x.state = .active ∧
    x.kind = .event ∧
    x.lost ≠ 0 ∧
    x.full = false ∧
    (x.tail + 2) % x.slots ≠ x.head ∧
    x.vector = noVector := by decide +kernel

theorem wit_events_written_3 :
    let q : Nat := 9
    let x : Queue := { evq with ringAddr := 4096, tail := 14, lost := 3 }
    let s : State := evq9 x
    x = s.queue q ∧
    x.state = .active ∧
    x.kind = .event ∧
    x.lost ≠ 0 ∧
    x.full = false ∧
    (x.tail + 2) % x.slots = x.head ∧
    x.vector = noVector := by decide +kernel

theorem wit_events_written_4 :
    let q : Nat := 9
    let x : Queue := { evq with ringAddr := 4096, tail := 15, head := 3, lost := 3 }
    let s : State := evq9 x
    x = s.queue q ∧
    x.state = .active ∧
    x.kind = .event ∧
    x.lost ≠ 0 ∧
    x.full = false ∧
    x.vector = noVector := by decide +kernel

theorem wit_events_written_5 :
    let q : Nat := 9
    let x : Queue := { evq with ringAddr := 4096, tail := 15, state := .halted }
    let s : State := evq9 x
    x = s.queue q ∧
    x.kind = .event ∧
    (x.state = .active ∧ x.full = true ∨ x.state = .halted ∨ x.state = .draining ∧ x.dying = false) := by decide +kernel

theorem wit_events_written_5b :
    let q : Nat := 9
    let x : Queue := { evq with ringAddr := 4096, tail := 14, head := 15 }
    let s : State := evq9 x
    x = s.queue q ∧
    x.kind = .event ∧
    (x.state = .active ∧ x.full = true ∨ x.state = .halted ∨ x.state = .draining ∧ x.dying = false) := by decide +kernel

theorem wit_events_written_6 :
    let q : Nat := 9
    let s : State := qs 2 evq
    ((s.queue q).state = .free ∨ (s.queue q).dying = true ∨ (s.queue q).kind ≠ .event) := by decide +kernel

theorem wit_events_written_7 :
    let s : State := qs 2 { kind := .event }
    (s.queue 2).state = .free ∧
    (s.queue 2).kind = .event := by decide +kernel

end Sys2Proof.Tests
end

section
/-! The word code's multiplication is that of a field, its syndromes are linear and vanish on every written word, and so a
single wrong byte is found and put right (R71 to R74). -/
namespace Sys2Proof.Machine

theorem xor_xor_cancel (x v : Byte) : x ^^^ v ^^^ v = x := by
  rw [BitVec.xor_assoc, BitVec.xor_self, BitVec.xor_zero]

/-! ## Multiplication in GF(2^8) (R71) -/

/-- Multiplication by α = 0x02, as each step of `gmulStep` does it to its first operand (R71). -/
def timesAlpha (a : Byte) : Byte := if a &&& 0x80 = 0x80 then (a <<< 1) ^^^ 0x1D else a <<< 1

theorem gmulStep_succ (k : Nat) (p a b : Byte) :
    gmulStep (k + 1) p a b = gmulStep k (if b &&& 1 = 1 then p ^^^ a else p) (timesAlpha a) (b >>> 1) := rfl

theorem timesAlpha_eq_msb (a : Byte) : timesAlpha a = (a <<< 1) ^^^ (if a.msb then 0x1D else 0) := by
  have top : a &&& 0x80 = if a.msb then 0x80 else 0 := BitVec.and_twoPow a 7
  rw [timesAlpha, top]
  cases a.msb with
  | false => exact BitVec.xor_zero.symm
  | true => rfl

theorem timesAlpha_xor (a b : Byte) : timesAlpha (a ^^^ b) = timesAlpha a ^^^ timesAlpha b := by
  have reduction : ∀ p q : Bool, (if p ^^ q then 0x1D else 0 : Byte) = (if p then 0x1D else 0) ^^^ (if q then 0x1D else 0) := by
    decide
  simp only [timesAlpha_eq_msb, BitVec.msb_xor, BitVec.shiftLeft_xor_distrib, reduction]
  ac_rfl

/-- The shift-and-add is linear in its sum and first operand together. -/
theorem gmulStep_xor (k : Nat) (p q a c b : Byte) :
    gmulStep k (p ^^^ q) (a ^^^ c) b = gmulStep k p a b ^^^ gmulStep k q c b := by
  induction k generalizing p q a c b with
  | zero => rfl
  | succ k ih =>
    simp only [gmulStep_succ, timesAlpha_xor, ← ih]
    congr 1
    split <;> ac_rfl

theorem xor_gmul (a c b : Byte) : gmul (a ^^^ c) b = gmul a b ^^^ gmul c b := gmulStep_xor 8 0 0 a c b

theorem zero_gmul (b : Byte) : gmul 0 b = 0 :=
  (xor_gmul 0 0 b).trans BitVec.xor_self

/-- A linear map that commutes with the multiplication by α commutes with every shift-and-add. -/
theorem map_gmulStep {f : Byte → Byte} (hxor : ∀ a b, f (a ^^^ b) = f a ^^^ f b)
    (halpha : ∀ a, f (timesAlpha a) = timesAlpha (f a)) (k : Nat) (p a b : Byte) :
    f (gmulStep k p a b) = gmulStep k (f p) (f a) b := by
  induction k generalizing p a b with
  | zero => rfl
  | succ k ih => rw [gmulStep_succ, gmulStep_succ, ih, halpha, apply_ite f, hxor]

theorem timesAlpha_gmul (a b : Byte) : gmul (timesAlpha a) b = timesAlpha (gmul a b) :=
  (map_gmulStep timesAlpha_xor (fun _ => rfl) 8 0 a b).symm

/-- The map x ↦ x·c passes through the shift-and-add of a·b; commutativity and associativity follow from this alone. -/
theorem gmul_right_comm (a b c : Byte) : gmul (gmul a b) c = gmul (gmul a c) b := by
  have h := map_gmulStep (f := (gmul · c)) (fun x y => xor_gmul x y c) (fun x => timesAlpha_gmul x c) 8 0 a b
  rwa [zero_gmul] at h

theorem one_gmul : ∀ b : Byte, gmul 1 b = b := by decide +kernel

theorem gmul_comm (a b : Byte) : gmul a b = gmul b a := by
  have h := gmul_right_comm 1 a b
  rwa [one_gmul, one_gmul] at h

theorem gmul_assoc (a b c : Byte) : gmul (gmul a b) c = gmul a (gmul b c) := by
  rw [gmul_comm a b, gmul_right_comm, gmul_comm]

theorem gmul_xor (a b c : Byte) : gmul a (b ^^^ c) = gmul a b ^^^ gmul a c := by
  rw [gmul_comm, xor_gmul, gmul_comm b, gmul_comm c]

/-- The power 254 of a byte, by seven steps of multiplying and squaring: its inverse in GF(2^8). -/
def gmulInv (b : Byte) : Byte := Nat.repeat (fun e => gmul (gmul e b) (gmul e b)) 7 1

theorem gmul_gmulInv : ∀ b : Byte, b ≠ 0 → gmul b (gmulInv b) = 1 := by decide +kernel

theorem gmul_zero (a : Byte) : gmul a 0 = 0 := by
  rw [gmul_comm, zero_gmul]

theorem gmul_left_cancel {a b c : Byte} (ha : a ≠ 0) (h : gmul a b = gmul a c) : b = c := by
  have undo : ∀ x, gmul (gmulInv a) (gmul a x) = x := fun x => by
    rw [← gmul_assoc, gmul_comm (gmulInv a), gmul_gmulInv a ha, one_gmul]
  rw [← undo b, h, undo]

theorem gmul_ne_zero {a b : Byte} (ha : a ≠ 0) (hb : b ≠ 0) : gmul a b ≠ 0 := fun h =>
  hb (gmul_left_cancel ha (h.trans (gmul_zero a).symm))

/-- No two of the 35 byte positions share a power of α, so at most one fits a word's syndromes (R74). -/
theorem alphaPow_inj : ∀ p < 35, ∀ q < 35, alphaPow p = alphaPow q → p = q := by decide +kernel

/-! ## Powers, and the change of a byte in a list -/

/-- The power `n` of a field element, as `alphaPow` is that of α (R71). -/
def gpow (a : Byte) : Nat → Byte
  | 0 => 1
  | n + 1 => gmul (gpow a n) a

theorem gpow_two (n : Nat) : gpow 2 n = alphaPow n := by
  induction n with
  | zero => rfl
  | succ n ih => rw [gpow, alphaPow, ih]

theorem gpow_one (n : Nat) : gpow 1 n = 1 := by
  induction n with
  | zero => rfl
  | succ n ih => rw [gpow, ih, one_gmul]

theorem gpow_gmul (a b : Byte) (n : Nat) : gpow (gmul a b) n = gmul (gpow a n) (gpow b n) := by
  induction n with
  | zero => exact (one_gmul 1).symm
  | succ n ih =>
    calc
      gmul (gpow (gmul a b) n) (gmul a b) = gmul (gmul (gmul (gpow a n) a) (gpow b n)) b := by
        rw [ih, ← gmul_assoc, gmul_right_comm _ (gpow b n) a]
      _ = gmul (gmul (gpow a n) a) (gmul (gpow b n) b) := gmul_assoc _ _ _

theorem alphaPow_ne_zero (n : Nat) : alphaPow n ≠ 0 := by
  induction n with
  | zero => decide
  | succ n ih => exact gmul_ne_zero ih (by decide)

theorem modAt_cons_succ {α : Type} (x : α) (l : List α) (i : Nat) (f : α → α) :
    modAt (x :: l) (i + 1) f = x :: modAt l i f := by
  rw [modAt, modAt, List.getElem?_cons_succ]
  cases l[i]? <;> rfl

theorem modAt_eq_modify {α : Type} (l : List α) (i : Nat) (f : α → α) : modAt l i f = l.modify i f := by
  induction l generalizing i with
  | nil => cases i <;> rfl
  | cons x l ih => cases i with
    | zero => rfl
    | succ i => rw [modAt_cons_succ, ih, List.modify_succ_cons]

/-! ## Syndromes -/

theorem syndrome_cons (x a : Byte) (c : Bytes) : syndrome (x :: c) a = gmul (syndrome c a) a ^^^ x := rfl

/-- A byte changed by `v` at position `p` changes the syndrome at `a` by v·a^p. -/
theorem syndrome_modAt (c : Bytes) (p : Nat) (v a : Byte) (hp : p < c.length) :
    syndrome (modAt c p (· ^^^ v)) a = syndrome c a ^^^ gmul v (gpow a p) := by
  rw [modAt_eq_modify]
  induction c generalizing p with
  | nil => cases hp
  | cons x c ih => cases p with
    | zero => rw [List.modify_zero_cons, syndrome_cons, syndrome_cons, gpow, gmul_comm v, one_gmul, BitVec.xor_assoc]
    | succ p =>
      rw [List.modify_succ_cons, syndrome_cons, syndrome_cons, ih p (Nat.lt_of_succ_lt_succ hp), xor_gmul, gmul_assoc, ← gpow]
      ac_rfl

/-- The value of the generator polynomial g(x) = x^3 + 0x07·x^2 + 0x0E·x + 0x08 at `a` (R73). -/
def generatorAt (a : Byte) : Byte := gmul (gmul (a ^^^ 0x07) a ^^^ 0x0E) a ^^^ 0x08

/-! Its roots are 1, α and α^2, where the syndromes are taken. -/

theorem generatorAt_one : generatorAt 1 = 0 := by decide

theorem generatorAt_two : generatorAt 2 = 0 := by decide

theorem generatorAt_four : generatorAt 4 = 0 := by decide

theorem encodeWord_eq (data : Bytes) : encodeWord data =
    (data.foldr checkStep (0, 0, 0)).2.2 :: (data.foldr checkStep (0, 0, 0)).2.1 ::
      (data.foldr checkStep (0, 0, 0)).1 :: data := rfl

theorem dataOf_encodeWord (data : Bytes) : dataOf (encodeWord data) = data := rfl

/-- A byte put before the data shifts the codeword by one position and adds a multiple of the generator polynomial. -/
theorem syndrome_encodeWord_cons (d : Byte) (data : Bytes) (a : Byte) :
    syndrome (encodeWord (d :: data)) a =
      gmul (syndrome (encodeWord data) a) a ^^^ gmul (d ^^^ (data.foldr checkStep (0, 0, 0)).1) (generatorAt a) := by
  simp only [encodeWord_eq, List.foldr_cons, checkStep, syndrome_cons]
  generalize data.foldr checkStep (0, 0, 0) = c
  generalize hf : d ^^^ c.1 = f
  obtain rfl : d = f ^^^ c.1 := by rw [← hf, xor_xor_cancel]
  simp only [generatorAt, xor_gmul, gmul_xor, ← gmul_assoc]
  ac_rfl

/-- At a root of the generator polynomial every written word has the syndrome zero. -/
theorem syndrome_encodeWord {a : Byte} (root : generatorAt a = 0) (data : Bytes) : syndrome (encodeWord data) a = 0 := by
  induction data with
  | nil =>
    have shift : gmul 0 a ^^^ 0 = 0 := BitVec.xor_zero.trans (zero_gmul a)
    change gmul (gmul (gmul 0 a ^^^ 0) a ^^^ 0) a ^^^ 0 = 0
    rw [shift, shift, shift]
  | cons d data ih =>
    rw [syndrome_encodeWord_cons, ih, root, zero_gmul, gmul_zero]
    rfl

/-! ## The decision (R74) -/

/-- The position that R74's second row names, where there is one. -/
def fittingByte (c : Bytes) : Option Nat :=
  (List.range 35).find? (fun p => gmul (syndrome c 1) (alphaPow p) = syndrome c 2)

theorem fittingByte_eq_some {c : Bytes} {p : Nat} (h0 : syndrome c 1 ≠ 0) (hp : p < 35)
    (hfit : gmul (syndrome c 1) (alphaPow p) = syndrome c 2) : fittingByte c = some p := by
  refine List.find?_range_eq_some.mpr ⟨decide_eq_true hfit, List.mem_range.mpr hp, fun q hq => ?_⟩
  have other : gmul (syndrome c 1) (alphaPow q) ≠ syndrome c 2 := fun h =>
    Nat.ne_of_lt hq (alphaPow_inj q (Nat.lt_trans hq hp) p hp (gmul_left_cancel h0 (h.trans hfit.symm)))
  rw [decide_eq_false other, Bool.not_false]

theorem fittingByte_eq_none {c : Bytes} (h : ∀ p, p ≤ 34 → gmul (syndrome c 1) (alphaPow p) ≠ syndrome c 2) :
    fittingByte c = none := by
  refine List.find?_range_eq_none.mpr fun p hp => ?_
  rw [decide_eq_false (h p (Nat.le_of_lt_succ hp)), Bool.not_false]

theorem decideWord_eq (c : Bytes) : decideWord c =
    if syndrome c 1 = 0 ∧ syndrome c 2 = 0 ∧ syndrome c 4 = 0 then .clean
    else if syndrome c 1 ≠ 0 ∧ syndrome c 2 ≠ 0 ∧ syndrome c 4 ≠ 0 ∧
        gmul (syndrome c 2) (syndrome c 2) = gmul (syndrome c 1) (syndrome c 4) then
      (fittingByte c).elim .uncorrectable (.oneByte · (syndrome c 1))
    else .uncorrectable := by
  simp only [decideWord, fittingByte, Bool.and_eq_true, decide_eq_true_eq, and_assoc]
  cases (List.range 35).find? _ <;> rfl

theorem decideWord_clean {c : Bytes} (h0 : syndrome c 1 = 0) (h1 : syndrome c 2 = 0) (h2 : syndrome c 4 = 0) :
    decideWord c = .clean := by
  rw [decideWord_eq, if_pos ⟨h0, h1, h2⟩]

theorem decideWord_oneByte {c : Bytes} {p : Nat} (h0 : syndrome c 1 ≠ 0) (h1 : syndrome c 2 ≠ 0) (h2 : syndrome c 4 ≠ 0)
    (hsquare : gmul (syndrome c 2) (syndrome c 2) = gmul (syndrome c 1) (syndrome c 4)) (hp : p < 35)
    (hfit : gmul (syndrome c 1) (alphaPow p) = syndrome c 2) : decideWord c = .oneByte p (syndrome c 1) := by
  rw [decideWord_eq, if_neg (fun clean => h0 clean.1), if_pos ⟨h0, h1, h2, hsquare⟩, fittingByte_eq_some h0 hp hfit]
  rfl

theorem decideWord_uncorrectable {c : Bytes} (dirty : syndrome c 1 ≠ 0 ∨ syndrome c 2 ≠ 0 ∨ syndrome c 4 ≠ 0)
    (nofit : syndrome c 1 = 0 ∨ syndrome c 2 = 0 ∨ syndrome c 4 = 0 ∨
      gmul (syndrome c 2) (syndrome c 2) ≠ gmul (syndrome c 1) (syndrome c 4) ∨
      ∀ p, p ≤ 34 → gmul (syndrome c 1) (alphaPow p) ≠ syndrome c 2) : decideWord c = .uncorrectable := by
  rw [decideWord_eq, if_neg fun ⟨h0, h1, h2⟩ => dirty.elim (· h0) (·.elim (· h1) (· h2))]
  split
  case isTrue one =>
    obtain ⟨h0, h1, h2, hsquare⟩ := one
    have misfit := (((nofit.resolve_left h0).resolve_left h1).resolve_left h2).resolve_left (· hsquare)
    rw [fittingByte_eq_none misfit, Option.elim_none]
  case isFalse => rfl

theorem fixWord_eq_modify (c : Bytes) (p : Nat) (v : Byte) : fixWord c p v = c.modify p (· ^^^ v) := modAt_eq_modify c p _

theorem fixWord_getD_same {c : Bytes} {p : Nat} (v : Byte) (hp : p < c.length) :
    (fixWord c p v).getD p 0 = c.getD p 0 ^^^ v := by
  rw [fixWord_eq_modify, List.getD_eq_getElem?_getD, List.getD_eq_getElem?_getD, List.getElem?_modify_eq,
    List.getElem?_eq_getElem hp]
  rfl

theorem fixWord_getD_other (c : Bytes) {p i : Nat} (v : Byte) (hi : i ≠ p) :
    (fixWord c p v).getD i 0 = c.getD i 0 := by
  rw [fixWord_eq_modify, List.getD_eq_getElem?_getD, List.getD_eq_getElem?_getD, List.getElem?_modify_ne _ _ hi.symm]

/-- Putting a check byte right leaves the data as read (R72). -/
theorem dataOf_fixWord_check (c : Bytes) {p : Nat} (v : Byte) (hp : p < 3) : dataOf (fixWord c p v) = dataOf c := by
  rw [fixWord_eq_modify, dataOf, List.drop_modify_of_lt _ _ _ _ hp, dataOf]

theorem fixWord_modAt (c : Bytes) (p : Nat) (v : Byte) : fixWord (modAt c p (· ^^^ v)) p v = c := by
  have twice : ((· ^^^ v) ∘ (· ^^^ v) : Byte → Byte) = id := funext (xor_xor_cancel · v)
  rw [fixWord_eq_modify, modAt_eq_modify, List.modify_modify_eq, twice, List.modify_id]

/-! ## Written words -/

theorem decideWord_encodeWord (data : Bytes) : decideWord (encodeWord data) = .clean :=
  decideWord_clean (syndrome_encodeWord generatorAt_one data) (syndrome_encodeWord generatorAt_two data)
    (syndrome_encodeWord generatorAt_four data)

/-- The syndromes of a written word with one byte changed are those of the change alone. -/
theorem syndrome_changedWord {a : Byte} (root : generatorAt a = 0) {data : Bytes} {p : Nat} (v : Byte)
    (hp : p < (encodeWord data).length) :
    syndrome (modAt (encodeWord data) p (· ^^^ v)) a = gmul v (gpow a p) := by
  rw [syndrome_modAt _ _ _ _ hp, syndrome_encodeWord root]
  exact BitVec.zero_xor

theorem decideWord_changedWord {data : Bytes} {p : Nat} {v : Byte} (hlen : data.length = 32) (hp : p < 35) (hv : v ≠ 0) :
    decideWord (modAt (encodeWord data) p (· ^^^ v)) = .oneByte p v := by
  have hp' : p < (encodeWord data).length := by
    rw [encodeWord_eq, List.length_cons, List.length_cons, List.length_cons, hlen]
    exact hp
  have s0 : syndrome (modAt (encodeWord data) p (· ^^^ v)) 1 = v := by
    rw [syndrome_changedWord generatorAt_one v hp', gpow_one, gmul_comm, one_gmul]
  have s1 : syndrome (modAt (encodeWord data) p (· ^^^ v)) 2 = gmul v (alphaPow p) := by
    rw [syndrome_changedWord generatorAt_two v hp', gpow_two]
  have s2 : syndrome (modAt (encodeWord data) p (· ^^^ v)) 4 = gmul (gmul v (alphaPow p)) (alphaPow p) := by
    rw [syndrome_changedWord generatorAt_four v hp', gmul_assoc, ← gpow_two, ← gpow_gmul]
    rfl
  have h1 : gmul v (alphaPow p) ≠ 0 := gmul_ne_zero hv (alphaPow_ne_zero p)
  have h2 := gmul_ne_zero h1 (alphaPow_ne_zero p)
  have decided := decideWord_oneByte (s0.symm ▸ hv) (s1.symm ▸ h1) (s2.symm ▸ h2)
    (by rw [s0, s1, s2, gmul_assoc v _ (gmul v _), gmul_comm (alphaPow p)]) hp (by rw [s0, s1])
  rwa [s0] at decided

/-- Settles O58: R74's table case by case, and for written words by the linearity of the syndromes, which vanish at the
roots of the generator polynomial. -/
theorem wordCodeCorrects : Obligations.WordCodeCorrects :=
  ⟨fun _ _ _ => ⟨rfl, syndrome_cons _ _ _⟩,
    fun _ => decideWord_clean,
    fun _ _ h0 h1 h2 hsquare hp => decideWord_oneByte h0 h1 h2 hsquare (Nat.lt_succ_of_le hp),
    fun _ => decideWord_uncorrectable,
    fun c _ v hlen hp => ⟨fixWord_getD_same v (hlen ▸ hp), fun _ => fixWord_getD_other c v, dataOf_fixWord_check c v⟩,
    fun d _ => ⟨decideWord_encodeWord d, dataOf_encodeWord d⟩,
    fun d p v hlen hp hv => ⟨decideWord_changedWord hlen hp hv, fixWord_modAt (encodeWord d) p v⟩⟩

end Sys2Proof.Machine
end

section
/-! What an event does to the event queue that takes it: written at the tail, after EVENTS_LOST where events were lost before,
or dropped and counted, or sent on to queue 2 (R84, R99, R100, R614). -/
namespace Sys2Proof.Machine

/-! ## The phase bit (R84) -/

theorem withPhase_getLsbD (e : Entry) (p : Bool) (i : Nat) :
    (withPhase e p).getLsbD i = if i = 120 then p else e.getLsbD i := by
  have mask : BitVec.ofNat 256 (2 ^ 120) = BitVec.twoPow 256 120 := by decide
  have bit : BitVec.ofNat 256 (flag p * 2 ^ 120) = if p then BitVec.twoPow 256 120 else 0 := by
    cases p <;> decide
  rw [withPhase, mask, bit, BitVec.getLsbD_or, BitVec.getLsbD_and, BitVec.getLsbD_not, BitVec.getLsbD_twoPow]
  by_cases hi : i = 120
  · subst hi
    cases p <;> simp
  · have beyond : i < 256 ∨ e.getLsbD i = false := (Nat.lt_or_ge i 256).imp_right (e.getLsbD_of_ge i)
    rcases beyond with h | h <;> cases p <;> simp [h, hi, Ne.symm hi]

/-! ## Entries of an event queue without a message vector (R84, R111) -/

/-- The context once an entry is written at the tail and brings no message about. -/
def Queue.advanced (x : Queue) (now : Nat) : Queue :=
  { x with
    tail := (x.tail + 1) % x.slots
    phase := if (x.tail + 1) % x.slots = 0 then !x.phase else x.phase
    entryTimes := x.entryTimes ++ [now] }

/-- An event's entry as it leaves the device for the tail of the queue. -/
def eventOut (now q : Nat) (x : Queue) (e : EventIn) : Output :=
  .entry q (x.ringAddr + x.tail * 32) (withPhase (eventEntry now e) x.phase)

/-- The event EVENTS_LOST of a queue (R100). -/
def lostEvent (q : Nat) (x : Queue) : EventIn := { code := 0x0005, subject := q, value := sat 32 x.lost }

theorem Queue.advanced_full (x : Queue) (now : Nat) : (x.advanced now).full = ((x.tail + 2) % x.slots == x.head) := by
  have carry : ((x.tail + 1) % x.slots + 1) % x.slots = (x.tail + 2) % x.slots := Nat.mod_add_mod _ _ _
  exact congrArg (· == x.head) carry

theorem writeEntry_event {x : Queue} (hk : x.kind = .event) (hv : x.vector = noVector) (now q : Nat) (e : EventIn) :
    writeEntry now q x (eventEntry now e) false = (x.advanced now, eventOut now q x e, []) := by
  have size : x.kind.entryBytes = 32 := by rw [hk]; rfl
  have quiet : messageDue (x.advanced now) false ≠ true := by simp [messageDue, Queue.advanced, hv]
  rw [writeEntry, size]
  exact if_neg quiet

theorem writeLost_nothing {x : Queue} (h : x.lost = 0 ∨ x.full = true) (now q : Nat) : writeLost now q x = (x, [], []) := by
  rw [writeLost, if_pos (by simpa using h)]

theorem writeLost_event {x : Queue} (hk : x.kind = .event) (hv : x.vector = noVector) (hl : x.lost ≠ 0) (hf : x.full = false)
    (now q : Nat) :
    writeLost now q x = ({ x.advanced now with lost := 0 }, [eventOut now q x (lostEvent q x)], []) := by
  rw [writeLost, if_neg (by simp [hl, hf])]
  exact congrArg (fun r => ({ r.1 with lost := 0 }, [r.2.1], r.2.2)) (writeEntry_event hk hv now q (lostEvent q x))

/-! ## The queue that takes an event (R99, R614, log 5) -/

theorem Queue.dying_of_ne_draining {x : Queue} (h : x.state ≠ .draining) : x.dying = false := by
  simp [Queue.dying, h]

/-- The queue that takes an event meant for queue `q`. -/
def Circ.taker (c : Circ) (q : Nat) : Nat :=
  if (c.queue q).state = .free || (c.queue q).dying || (c.queue q).kind ≠ .event then 2 else q

/-- A queue that is free, dies or is no event queue sends its events on to queue 2. -/
theorem Circ.taker_elsewhere {c : Circ} {q : Nat}
    (h : (c.queue q).state = .free ∨ (c.queue q).dying = true ∨ (c.queue q).kind ≠ .event) : c.taker q = 2 :=
  if_pos (by simpa [or_assoc] using h)

theorem Circ.taker_self {c : Circ} {q : Nat} (hk : (c.queue q).kind = .event) (hfree : (c.queue q).state ≠ .free)
    (hdying : (c.queue q).dying = false) : c.taker q = q :=
  if_neg (by simp [hk, hfree, hdying])

theorem Circ.taker_active {c : Circ} {q : Nat} (hk : (c.queue q).kind = .event) (hs : (c.queue q).state = .active) :
    c.taker q = q :=
  Circ.taker_self hk (by simp [hs]) (Queue.dying_of_ne_draining (by simp [hs]))

theorem Circ.taker_two (c : Circ) : c.taker 2 = 2 := ite_self 2

theorem postEvent_taker_two {d : Desk} {q : Nat} (h : d.circ.taker q = 2) (now : Nat) (e : EventIn) :
    postEvent now q e d = postEvent now 2 e d := by
  rw [Circ.taker] at h
  simp only [postEvent, h, ite_self]

/-- A queue that takes an event while it is not active counts it. -/
theorem postEvent_counts {d : Desk} {q : Nat} (hk : (d.circ.queue q).kind = .event) (hs : (d.circ.queue q).state ≠ .active)
    (hq : d.circ.taker q = q) (now : Nat) (e : EventIn) :
    postEvent now q e d =
      ({ d with circ := d.circ.setQueue q { d.circ.queue q with lost := (d.circ.queue q).lost + 1 } }, []) := by
  rw [Circ.taker] at hq
  simp only [postEvent, hq]
  rw [if_neg (not_not_intro hk)]
  cases state : (d.circ.queue q).state with
  | active => exact absurd state hs
  | free => rfl
  | halted => rfl
  | draining => rfl

/-- An active event queue first tells of lost events, and then writes the event or counts it (R100). -/
theorem postEvent_active {d : Desk} {q : Nat} (hk : (d.circ.queue q).kind = .event) (hs : (d.circ.queue q).state = .active)
    {now : Nat} {y : Queue} {o : List Output} (hl : writeLost now q (d.circ.queue q) = (y, o, [])) (e : EventIn) :
    postEvent now q e d =
      if y.full || y.lost ≠ 0 then
        ({ d with circ := d.circ.setQueue q { y with lost := y.lost + 1 }, out := d.out ++ o }, [])
      else
        let r := writeEntry now q y (eventEntry now e) false
        ({ d with circ := d.circ.setQueue q r.1, out := d.out ++ o ++ [r.2.1] }, r.2.2) := by
  have hq := Circ.taker_active hk hs
  rw [Circ.taker] at hq
  simp only [postEvent, hq, hl]
  rw [if_neg (not_not_intro hk)]
  simp only [hs, List.nil_append]

theorem postEvent_active_counts {d : Desk} {q : Nat} (hk : (d.circ.queue q).kind = .event) (hs : (d.circ.queue q).state = .active)
    {now : Nat} {y : Queue} {o : List Output} (hl : writeLost now q (d.circ.queue q) = (y, o, [])) (hy : y.full = true)
    (e : EventIn) :
    postEvent now q e d = ({ d with circ := d.circ.setQueue q { y with lost := y.lost + 1 }, out := d.out ++ o }, []) := by
  rw [postEvent_active hk hs hl, if_pos (by simp [hy])]

theorem postEvent_active_writes {d : Desk} {q : Nat} (hk : (d.circ.queue q).kind = .event) (hs : (d.circ.queue q).state = .active)
    {now : Nat} {y : Queue} {o : List Output} (hl : writeLost now q (d.circ.queue q) = (y, o, [])) (hy : y.full = false)
    (hlost : y.lost = 0) (hyk : y.kind = .event) (hv : y.vector = noVector) (e : EventIn) :
    postEvent now q e d =
      ({ d with circ := d.circ.setQueue q (y.advanced now), out := d.out ++ o ++ [eventOut now q y e] }, []) := by
  rw [postEvent_active hk hs hl, if_neg (by simp [hy, hlost]), writeEntry_event hyk hv]

/-! ## The state told of an event -/

/-- An event that brings no further notice about changes the desk as its queue takes it, and nothing else. -/
theorem State.event_of_postEvent {s : State} {q : Nat} {e : EventIn} {d : Desk} (h : postEvent s.now q e s.desk = (d, [])) :
    s.event q e = { s with desk := d } := by
  have told : s.desk.tell s.now [.event q e] = d := by
    simp only [Desk.tell, noticeFuel, List.length_singleton, notify, notice, h, List.append_nil]
  rw [State.event, State.tell, told]

theorem State.event_elsewhere {s : State} {q : Nat}
    (h : (s.queue q).state = .free ∨ (s.queue q).dying = true ∨ (s.queue q).kind ≠ .event) (e : EventIn) :
    s.event q e = s.event 2 e := by
  have same := postEvent_taker_two (Circ.taker_elsewhere h) s.now e
  simp only [State.event, State.tell, Desk.tell, noticeFuel, List.length_singleton, notify, notice, same]

theorem State.event_counts {s : State} {q : Nat} (hk : (s.queue q).kind = .event) (hs : (s.queue q).state ≠ .active)
    (hq : s.desk.circ.taker q = q) (e : EventIn) :
    s.event q e = s.withQueue q { s.queue q with lost := (s.queue q).lost + 1 } :=
  State.event_of_postEvent (postEvent_counts hk hs hq s.now e)

theorem State.event_full_counts {s : State} {q : Nat} (hk : (s.queue q).kind = .event) (hs : (s.queue q).state = .active)
    (hf : (s.queue q).full = true) (e : EventIn) :
    s.event q e = s.withQueue q { s.queue q with lost := (s.queue q).lost + 1 } := by
  rw [State.event_of_postEvent (postEvent_active_counts hk hs (writeLost_nothing (.inr hf) s.now q) hf e), List.append_nil]
  rfl

theorem State.event_written {s : State} {q : Nat} (hk : (s.queue q).kind = .event) (hs : (s.queue q).state = .active)
    (hl : (s.queue q).lost = 0) (hf : (s.queue q).full = false) (hv : (s.queue q).vector = noVector) (e : EventIn) :
    s.event q e = (s.withQueue q ((s.queue q).advanced s.now)).emit [eventOut s.now q (s.queue q) e] := by
  rw [State.event_of_postEvent (postEvent_active_writes hk hs (writeLost_nothing (.inl hl) s.now q) hf hl hk hv e), List.append_nil]
  rfl

/-! ## Lost events told of (R100) -/

section Lost
variable {s : State} {q : Nat} (hk : (s.queue q).kind = .event) (hs : (s.queue q).state = .active)
  (hl : (s.queue q).lost ≠ 0) (hf : (s.queue q).full = false) (hv : (s.queue q).vector = noVector)
include hk hs hl hf hv

/-- With a second place free the event follows its EVENTS_LOST. -/
theorem State.event_after_lost (room : ((s.queue q).tail + 2) % (s.queue q).slots ≠ (s.queue q).head) (e : EventIn) :
    s.event q e =
      (s.withQueue q (Queue.advanced { (s.queue q).advanced s.now with lost := 0 } s.now)).emit
        [eventOut s.now q (s.queue q) (lostEvent q (s.queue q)), eventOut s.now q ((s.queue q).advanced s.now) e] := by
  have roomy : ((s.queue q).advanced s.now).full = false := by
    rw [Queue.advanced_full]
    exact beq_false_of_ne room
  rw [State.event_of_postEvent (postEvent_active_writes hk hs (writeLost_event hk hv hl hf s.now q) roomy rfl hk hv e),
    List.append_assoc]
  rfl

/-- With one place free EVENTS_LOST takes it, and the event is the first of those lost next. -/
theorem State.event_lost_after_lost (last : ((s.queue q).tail + 2) % (s.queue q).slots = (s.queue q).head) (e : EventIn) :
    s.event q e =
      (s.withQueue q { (s.queue q).advanced s.now with lost := 1 }).emit
        [eventOut s.now q (s.queue q) (lostEvent q (s.queue q))] := by
  have filled : ((s.queue q).advanced s.now).full = true := by
    rw [Queue.advanced_full]
    exact beq_iff_eq.2 last
  rw [State.event_of_postEvent (postEvent_active_counts hk hs (writeLost_event hk hv hl hf s.now q) filled e)]
  rfl

/-- EVENTS_LOST is written once the host has freed a place. -/
theorem exec_eventsLost_written :
    exec (.eventsLost q) s = .next ((s.withQueue q { (s.queue q).advanced s.now with lost := 0 }).emit
      [eventOut s.now q (s.queue q) (lostEvent q (s.queue q))]) := by
  change execEventsLost q s = _
  simp only [execEventsLost, hs, hk, writeLost_event hk hv hl hf]
  rfl

end Lost

/-- Settles O60: each state of the queue by what `writeLost` does to it and where that leaves a place for the event; the
choice of the model is the queue that takes an event whose own queue cannot (log 5). -/
theorem eventsWritten : Obligations.EventsWritten := by
  refine ⟨?written, ?afterLost, ?lostAgain, ?freed, ?counted, ?elsewhere, ?freeTwo, ?phase⟩
  case written =>
    rintro s q e _ rfl hs hk hl hf hv
    exact State.event_written hk hs hl hf hv e
  case afterLost =>
    rintro s q e _ rfl hs hk hl hf room hv
    rw [State.event_after_lost hk hs hl hf hv room]
    exact ⟨_, rfl, congrArg Queue.lost (Circ.queue_setQueue_self _ q _)⟩
  case lostAgain =>
    rintro s q e _ rfl hs hk hl hf last hv
    rw [State.event_lost_after_lost hk hs hl hf hv last]
    exact ⟨rfl, congrArg Queue.lost (Circ.queue_setQueue_self _ q _)⟩
  case freed =>
    rintro s q _ rfl hs hk hl hf hv
    exact exec_eventsLost_written hk hs hl hf hv
  case counted =>
    rintro s q e _ rfl hk (⟨hs, hf⟩ | hs | ⟨hs, hdying⟩)
    · exact State.event_full_counts hk hs hf e
    · have hdying := Queue.dying_of_ne_draining (x := s.queue q) (by simp [hs])
      exact State.event_counts hk (by simp [hs]) (Circ.taker_self hk (by simp [hs]) hdying) e
    · exact State.event_counts hk (by simp [hs]) (Circ.taker_self hk (by simp [hs]) hdying) e
  case elsewhere => exact fun s q e h => State.event_elsewhere h e
  case freeTwo => exact fun s e hs hk => State.event_counts hk (by simp [hs]) (Circ.taker_two _) e
  case phase =>
    intro e p
    have bit := fun i => (BitVec.testBit_toNat (withPhase e p)).trans (withPhase_getLsbD e p i)
    exact ⟨bit 120, fun i hi => (bit i).trans (if_neg hi)⟩

end Sys2Proof.Machine
end

section
/-! The tick of the Datestamp unit: the close of an epoch and the frames on the wires leave the unit alone, and the counter
goes on by INC + s (R468, R469, R471, R472). -/
namespace Sys2Proof.Machine

/-! ## The unit through a step of many parts -/

theorem State.foldl_stamp {α : Type} {f : State → α → State} (h : ∀ s a, (f s a).stamp = s.stamp) (l : List α) (s : State) :
    (l.foldl f s).stamp = s.stamp := by
  induction l generalizing s with
  | nil => rfl
  | cons a l ih => rw [List.foldl_cons, ih, h]

/-! ## The frames on the ports' wires (R449) -/

@[simp] theorem State.occupy_stamp (s : State) (l bytes : Nat) : (s.occupy l bytes).stamp = s.stamp := rfl

@[simp] theorem State.sendPtp_stamp (s : State) (l : Nat) (m : PtpOut) : (s.sendPtp l m).stamp = s.stamp := by
  unfold State.sendPtp
  cases m.follow with
  | none => simp [apply_ite State.stamp]
  | some k => simp [apply_ite State.stamp]

@[simp] theorem State.transmit_stamp (s : State) (l : Nat) : (s.transmit l).stamp = s.stamp := by
  unfold State.transmit
  extract_lets x
  split
  · rfl
  · split
    · simp
    · simp
    · split <;> simp

@[simp] theorem State.portsTick_stamp (s : State) : s.portsTick.stamp = s.stamp := by
  refine State.foldl_stamp (fun s l => ?_) _ s
  dsimp only
  split
  · rfl
  · simp

@[simp] theorem State.unpinBound_stamp (s : State) (code : Nat) : (s.unpinBound code).stamp = s.stamp := rfl

/-! ## The close of an epoch (R268 to R283) -/

@[simp] theorem State.modBinding_stamp (s : State) (b : Nat) (f : Binding → Binding) : (s.modBinding b f).stamp = s.stamp := by
  unfold State.modBinding
  split <;> rfl

@[simp] theorem State.gridEvent_stamp (s : State) (e : EventIn) : (s.gridEvent e).stamp = s.stamp := by
  unfold State.gridEvent State.gridEventAt
  split <;> rfl

@[simp] theorem State.staleUnit_stamp (s : State) (b : Nat) : (s.staleUnit b).stamp = s.stamp :=
  State.modBinding_stamp s b _

@[simp] theorem State.takeUnit_stamp (s : State) (g : GridSet) (b : Nat) (x : Binding) (u : Reached) :
    (s.takeUnit g b x u).stamp = s.stamp := by
  unfold State.takeUnit
  extract_lets
  split
  · exact State.modBinding_stamp s b _
  · split
    · exact State.staleUnit_stamp s b
    · exact (State.modConcord_stamp _ _).trans (State.modBinding_stamp s b _)

@[simp] theorem State.takeReached_stamp (s : State) : s.takeReached.stamp = s.stamp := by
  unfold State.takeReached
  split
  · rfl
  · extract_lets t
    split
    · split
      · rfl
      · split
        · exact State.staleUnit_stamp t _
        · extract_lets newest v
          have bound : v.stamp = s.stamp := State.modBinding_stamp t _ _
          split
          · exact (State.staleUnit_stamp v _).trans bound
          · exact (State.takeUnit_stamp v _ _ _ _).trans bound
    · rfl

@[simp] theorem State.judgePair_stamp (s : State) (persist key run : Nat) : (s.judgePair persist key run).stamp = s.stamp := by
  unfold State.judgePair
  extract_lets
  split
  · split
    · rfl
    · extract_lets
      split <;> simp
  · rfl

@[simp] theorem State.releaseBinding_stamp (s : State) (b host : Nat) : (s.releaseBinding b host).stamp = s.stamp := by
  unfold State.releaseBinding
  split
  · rfl
  · split <;> simp

@[simp] theorem State.ageQuarantine_stamp (s : State) (n : Nat) (now : List Nat) (b : Nat) :
    (s.ageQuarantine n now b).stamp = s.stamp := by
  unfold State.ageQuarantine
  split
  · rfl
  · simp [apply_ite State.stamp]

@[simp] theorem State.endClose_stamp (s : State) (k : Nat) : (s.endClose k).stamp = s.stamp := by
  unfold State.endClose
  split
  · rfl
  · split
    · rfl
    · dsimp only
      split
      · rfl
      · exact (State.finish_stamp _ _ _).trans (State.foldl_stamp (fun s m => State.finish_stamp s m _) _ _)

@[simp] theorem State.removeBinding_stamp (s : State) (b : Nat) : (s.removeBinding b).stamp = s.stamp := by
  unfold State.removeBinding
  split <;> simp

@[simp] theorem State.hostQuarantine_stamp (s : State) (a : AtClose) : (s.hostQuarantine a).stamp = s.stamp := by
  cases a with
  | quarantine n b =>
    unfold State.hostQuarantine
    dsimp only
    split
    · rfl
    · split <;> simp
  | release n b => simp [State.hostQuarantine]
  | unbind n b => rfl

@[simp] theorem State.hostUnbind_stamp (s : State) (a : AtClose) : (s.hostUnbind a).stamp = s.stamp := by
  cases a with
  | unbind n b => simp [State.hostUnbind]
  | quarantine n b => rfl
  | release n b => rfl

@[simp] theorem State.closeRules_stamp (s : State) (g : GridSet) (cells : List RawCell) :
    (s.closeRules g cells).stamp = s.stamp := by
  simp [State.closeRules, State.foldl_stamp]

@[simp] theorem State.closeEpoch_stamp (s : State) (g : GridSet) (byLimit overrun : Bool) :
    (s.closeEpoch g byLimit overrun).stamp = s.stamp := by
  simp [State.closeEpoch, State.foldl_stamp]

@[simp] theorem State.settleClose_stamp (s : State) : s.settleClose.stamp = s.stamp := by
  unfold State.settleClose
  split
  · simp [apply_ite State.stamp, State.foldl_stamp]
  · rfl

/-! ## The tick (R469, R472) -/

/-- A tick with no operation waiting updates the counter and says since when r stands at a limit. -/
theorem exec_datestampTick_advances {s : State} (hops : s.stamp.ops = []) (href : s.stamp.refLost = false) :
    Leads .datestampTick s fun u => ∃ p, u.stamp = { s.stamp.advance with pinnedAt := p } := by
  have idle : { s.stamp with ops := [] } = s.stamp := by rw [← hops]
  refine ⟨_, rfl, ?_⟩
  rw [if_neg (by simp [href])]
  simp only [State.settleClose_stamp, hops, applyTimeOps, Bool.false_eq_true, if_false]
  generalize ticked : State.portsTick _ = t
  have advanced : t.stamp = s.stamp.advance := by
    rw [← ticked]
    simp [idle]
  rw [← advanced]
  split
  · split
    · exact ⟨t.stamp.pinnedAt, rfl⟩
    · exact ⟨some t.now, rfl⟩
  · exact ⟨none, rfl⟩

theorem toNat_and_low32 (a : BitVec 64) : (a &&& 0xFFFFFFFF#64).toNat = a.toNat % 2 ^ 32 := by
  rw [BitVec.toNat_and]
  exact Nat.and_two_pow_sub_one_eq_mod _ 32

theorem setWidth_shiftRight_high32 (a : BitVec 64) : (a >>> 32).setWidth 32 = BitVec.ofNat 32 (a.toNat / 2 ^ 32) := by
  apply BitVec.eq_of_toNat_eq
  simp [Nat.shiftRight_eq_div_pow]

/-- The fraction after the update with its carry, `t` of the pseudocode of R469. -/
def Stamp.nextFraction (x : Stamp) : Nat := x.fraction.toNat + x.nextAdd % 2 ^ 32

/-- The nanoseconds before the subtraction of R469. -/
def Stamp.nextNanos (x : Stamp) : BitVec 32 :=
  x.nanos + BitVec.ofNat 32 (x.nextAdd / 2 ^ 32) + BitVec.ofNat 32 (x.nextFraction / 2 ^ 32)

theorem Stamp.advance_eq (x : Stamp) :
    x.advance =
      if 1000000000#32 ≤ x.nextNanos then
        { x with
          fraction := BitVec.ofNat 32 x.nextFraction, nanos := x.nextNanos - 1000000000#32, seconds := x.seconds + 1
          r := x.r - x.slew }
      else { x with fraction := BitVec.ofNat 32 x.nextFraction, nanos := x.nextNanos, r := x.r - x.slew } := rfl

/-! ## The slew step keeps the bound (R471, R472) -/

theorem trimOf_add_slew_natAbs_le (x : Stamp) : (trimOf x.inc + x.slew).natAbs ≤ slewM x.timing.slewPpb := by
  unfold Stamp.slew
  split
  · unfold Stamp.hi
    omega
  · split
    · unfold Stamp.lo
      omega
    · unfold Stamp.hi Stamp.lo at *
      omega

/-- INC + s does not wrap, and stays below 6 ns (R469, R471). -/
theorem Stamp.nextAdd_eq {x : Stamp} (h : x.timing.slewPpb ≤ 1000000) :
    (x.nextAdd : Int) = nominalInc + trimOf x.inc + x.slew ∧ x.nextAdd < 6 * 2 ^ 32 := by
  have bound := trimOf_add_slew_natAbs_le x
  have inc : x.inc = BitVec.ofInt 64 (nominalInc + trimOf x.inc) := by
    rw [BitVec.ofInt_add, trimOf, BitVec.ofInt_toInt, BitVec.ofInt_natCast, BitVec.add_comm, BitVec.sub_add_cancel]
  have sum : x.inc + BitVec.ofInt 64 x.slew = BitVec.ofInt 64 (nominalInc + trimOf x.inc + x.slew) := by
    rw [BitVec.ofInt_add, ← inc]
  unfold Stamp.nextAdd
  rw [sum, BitVec.toNat_ofInt]
  unfold slewM at bound
  unfold nominalInc
  omega

/-- Under R471 the nanoseconds do not wrap before the subtraction, and one subtraction suffices. -/
theorem Stamp.nextNanos_toNat {x : Stamp} (hslew : x.timing.slewPpb ≤ 1000000) (hnanos : x.nanos.toNat < 1000000000) :
    x.nextNanos.toNat = x.nanos.toNat + x.nextAdd / 2 ^ 32 + x.nextFraction / 2 ^ 32 ∧ x.nextNanos.toNat < 2 * 1000000000 := by
  obtain ⟨-, high⟩ := Stamp.nextAdd_eq hslew
  have carry := x.fraction.isLt
  have sum : x.nextNanos.toNat = x.nanos.toNat + x.nextAdd / 2 ^ 32 + x.nextFraction / 2 ^ 32 := by
    simp only [Stamp.nextNanos, Stamp.nextFraction, BitVec.toNat_add, BitVec.toNat_ofNat]
    omega
  refine ⟨sum, ?_⟩
  rw [sum, Stamp.nextFraction]
  omega

/-- Under R471 the update moves the counter by exactly INC + s. -/
theorem Stamp.units_advance {x : Stamp} (hslew : x.timing.slewPpb ≤ 1000000) (hnanos : x.nanos.toNat < 1000000000)
    (hseconds : x.seconds.toNat < 2 ^ 64 - 1) :
    x.advance.units = x.units + x.nextAdd ∧ x.advance.nanos.toNat < 1000000000 := by
  obtain ⟨sum, once⟩ := Stamp.nextNanos_toNat hslew hnanos
  have fraction : (BitVec.ofNat 32 x.nextFraction).toNat = (x.fraction.toNat + x.nextAdd % 2 ^ 32) % 2 ^ 32 := rfl
  rw [Stamp.nextFraction] at sum
  rw [Stamp.advance_eq]
  split
  case isTrue turn =>
    have second : (x.seconds + 1).toNat = x.seconds.toNat + 1 :=
      BitVec.toNat_add_of_lt (y := 1#64) (Nat.add_lt_of_lt_sub hseconds)
    have nanos : (x.nextNanos - 1000000000#32).toNat = x.nextNanos.toNat - 1000000000 := BitVec.toNat_sub_of_le turn
    have turn : 1000000000 ≤ x.nextNanos.toNat := turn
    simp only [Stamp.units, second, nanos, fraction]
    omega
  case isFalse stay =>
    have stay : ¬ 1000000000 ≤ x.nextNanos.toNat := stay
    simp only [Stamp.units, fraction]
    omega

/-- Settles O40: a tick with nothing waiting is the update of R469, whose slew step keeps INC + s within M of nominal, so that
under R471 nothing wraps but the nanoseconds at a new second. -/
theorem counterAdvances : Obligations.CounterAdvances := by
  refine ⟨by decide, ?nominal, ?update, ?above, ?within, ?below, trimOf_add_slew_natAbs_le, ?exact⟩
  case nominal =>
    intro x h
    rw [h]
    decide
  case update =>
    intro s add t n hops href hadd ht hn
    obtain ⟨u, step, p, hu⟩ := exec_datestampTick_advances hops href
    refine ⟨u, step, ?_⟩
    dsimp only
    rw [toNat_and_low32] at ht
    rw [setWidth_shiftRight_high32] at hn
    subst hadd
    have fraction : t = s.stamp.nextFraction := ht
    have nanos : n = s.stamp.nextNanos := by rw [hn, fraction]; rfl
    rw [hu, Stamp.advance_eq, fraction, nanos]
    split <;> exact ⟨rfl, ⟨rfl, rfl⟩, rfl, rfl, rfl⟩
  case above => exact fun x h => if_pos h
  case within => exact fun x h h' => by rw [Stamp.slew, if_neg (Int.not_lt.2 h), if_neg (Int.not_lt.2 h')]
  case below => exact fun x h h' => by rw [Stamp.slew, if_neg (Int.not_lt.2 h), if_pos h', Stamp.lo]
  case exact =>
    intro s hops href hslew _ hnanos hseconds
    obtain ⟨u, step, p, hu⟩ := exec_datestampTick_advances hops href
    obtain ⟨units, nanos⟩ := Stamp.units_advance hslew hnanos hseconds
    refine ⟨u, step, ?_, ?_⟩
    · rw [← (Stamp.nextAdd_eq hslew).1, hu]
      exact_mod_cast units
    · rw [hu]
      exact nanos

end Sys2Proof.Machine
end
